-- ==== Sys2Proof/Word.lean ====
section
/-! DEFINITION. The word types of the Byune Q960 (spec 00 R1, 03 R48): bit 0 is the least significant bit. -/

namespace Sys2Proof

/-- One byte of memory (R1). -/
abbrev Byte := BitVec 8

/-- One 32-bit word: an instruction word (R48) or one lane register (R27). -/
abbrev Word := BitVec 32

/-- One 64-bit value: an s register (R37), a latch (R35), an address (R188). -/
abbrev DWord := BitVec 64

/-- One 128-bit value: a band cell (R40) or a quad of lane registers (R28). -/
abbrev QWord := BitVec 128

end Sys2Proof
end

