-- ==== Sys2Proof/Config.lean ====
section
/-! DEFINITION. What the spec leaves to an implementation: free values without a body, which no proof can see.
Each has a log entry under notes/assumptions. -/

namespace Sys2Proof.Config

/-- A free choice among several allowed outcomes: the number drawn at a tick of the machine, for the use that the second
number names (several choices may be made in one step). The order among sub-schedulers, cores, engines and agents (R316,
R317, R280 to R294), a stale or a fresh translation (R357, R362), what `dsc` leaves (R214). -/
opaque choice : Nat → Nat → Nat

/-- Two batches need the same port of a register bank (R317): which ports a word needs is not stated; from the words and window bases of
the two. -/
opaque bankClash : Word × Nat → Word × Nat → Bool

/-- The bytes a memory controller answers when a line written under one key is read under another (AES-256-XTS, named by
the spec and not given by it, R359): from the key written under, the key read under, the address and the stored byte. -/
opaque recrypt : Nat → Nat → Nat → Byte → Byte

/-- The cache set in which a line lies, from the die and the line (R196): the caches' geometry is not stated. -/
opaque cacheSet : Nat → Nat → Nat

/-- The L2 slice of a line on its home die (R191, R243), which is not architectural: from the die and PA<37:6>. -/
opaque l2Slice : Nat → Nat → Nat

/-- The first KiB, on the saving die's memory, of the image of a saved folio, which the registrar takes from the save area of its process
(R386): from the folio's name. -/
opaque saveArea : Nat → Nat

/-- The first 4 KiB page of a die's trap queue in its memory, which its kernel chooses (R373): from the die. -/
opaque trapArea : Nat → Nat

/-- The security version that a firmware image carries, and the entry of its kernel (R15): where they stand in it is not stated. -/
opaque imageVersion : List Byte → Nat
opaque imageEntry : List Byte → DWord
/-- The first 4 KiB page of a die's memory where bring-up loads the firmware (R17): from the die. -/
opaque loadArea : Nat → Nat

/-- A free 64-bit value drawn at a tick, for the use that the second number names: a value the spec does not state. -/
opaque freeWord : Nat → Nat → DWord

end Sys2Proof.Config
end

