-- ==== Sys2Proof/Syntax.lean ====
section
/-! DEFINITION. The instructions of the Qorver architecture and the events of the device: one constructor
per row of spec/opcode_table.json. An instruction word is held as the fields of its form (spec 03 R50 to R53),
each under the name the spec gives it; the constructor is the mnemonic and the form (its primary opcode and SUB).
Typed views of the fields (type codes, operand names, modifiers) stand in Machine/Operands.lean. -/

namespace Sys2Proof

/-- The fields of a short form (LS, US): R50, R53. `pr` is p or k, `neg` is pn or kn. -/
structure SF where
  pr  : BitVec 3
  neg : Bool
  d   : BitVec 6
  a   : BitVec 6
  b   : BitVec 6
  deriving DecidableEq, Repr

/-- The fields of a long form (LL, UL): R51, R53. The I bit is 0; SUB is the constructor's. -/
structure LF where
  pr   : BitVec 3
  neg  : Bool
  modh : BitVec 8
  modl : BitVec 7
  d    : BitVec 8
  a    : BitVec 8
  b    : BitVec 8
  c    : BitVec 8
  deriving DecidableEq, Repr

/-- The fields of a long-immediate form (LI, UI): R52, R53. The I bit is 1; SUB is the constructor's. -/
structure IF where
  pr   : BitVec 3
  neg  : Bool
  d    : BitVec 6
  a    : BitVec 6
  modi : BitVec 4
  imm  : Word
  deriving DecidableEq, Repr

/-- One action of the registrar firmware (R313, R315): bind a volume's folios to cores of a cluster, or set
STATE 2 on a resident unit. `cores` and `qbases` give %coreid and first quire slot for each folio in order. -/
inductive BindAct where
  | bind (die coll shelf vol : Nat) (cores qbases : List Nat)
  | preempt (fid : Nat)
  deriving DecidableEq, Repr

/-- One access of an RV64 core of the processor die to memory (R199). -/
inductive Rv64Access where
  | load (pa bytes : Nat)
  | store (pa bytes : Nat) (v : DWord)
  deriving DecidableEq, Repr

/-- What an uncorrectable error hits (R375): a poisoned memory line (cause 0x161), or an SRAM cell that a quire
reads: a lane register, a latch file, a band cell, a scratchpad byte (cause 0x160). -/
inductive BadCell where
  | line (line : Nat)
  | reg (quire frame reg : Nat)
  | latches (quire lane : Nat)
  | oreg (quire lane reg : Nat)
  | band (quire cell : Nat)
  | scratch (fid off : Nat)
  deriving DecidableEq, Repr

/-- The rows of spec/opcode_table.json. -/
inductive Instr where
  /-- R102. Lane integer add, short form. -/
  | addLS (o : SF)
  /-- R102. Lane integer add, long form with type and saturation. -/
  | addLL (o : LF)
  /-- R102. Lane integer add with a 32-bit immediate. -/
  | addLI (o : IF)
  /-- R102. Lane integer subtract, short form. -/
  | subLS (o : SF)
  /-- R102. Lane integer subtract, long form. -/
  | subLL (o : LF)
  /-- R102. Lane integer subtract with immediate. -/
  | subLI (o : IF)
  /-- R102. Lane integer multiply, short form. -/
  | mulLS (o : SF)
  /-- R102. Lane integer multiply, long form, optionally high half. -/
  | mulLL (o : LF)
  /-- R102. Lane integer multiply with immediate. -/
  | mulLI (o : IF)
  /-- R102. Lane integer multiply-add with one final fit. -/
  | madLL (o : LF)
  /-- R103. Lane integer divide, trapping on any zero divisor. -/
  | divLS (o : SF)
  /-- R103. Lane integer divide, long form. -/
  | divLL (o : LF)
  /-- R103. Lane integer divide by immediate. -/
  | divLI (o : IF)
  /-- R103. Lane integer remainder, short form. -/
  | remLS (o : SF)
  /-- R103. Lane integer remainder, long form. -/
  | remLL (o : LF)
  /-- R103. Lane integer remainder by immediate. -/
  | remLI (o : IF)
  /-- R102. Lane integer minimum, short form. -/
  | minLS (o : SF)
  /-- R102. Lane integer minimum, long form. -/
  | minLL (o : LF)
  /-- R102. Lane integer minimum with immediate. -/
  | minLI (o : IF)
  /-- R102. Lane integer maximum, short form. -/
  | maxLS (o : SF)
  /-- R102. Lane integer maximum, long form. -/
  | maxLL (o : LF)
  /-- R102. Lane integer maximum with immediate. -/
  | maxLI (o : IF)
  /-- R104. Lane bitwise AND, short form. -/
  | andLS (o : SF)
  /-- R104. Lane bitwise AND, long form. -/
  | andLL (o : LF)
  /-- R104. Lane bitwise AND with immediate. -/
  | andLI (o : IF)
  /-- R104. Lane bitwise OR, short form. -/
  | orLS (o : SF)
  /-- R104. Lane bitwise OR, long form. -/
  | orLL (o : LF)
  /-- R104. Lane bitwise OR with immediate. -/
  | orLI (o : IF)
  /-- R104. Lane bitwise XOR, short form. -/
  | xorLS (o : SF)
  /-- R104. Lane bitwise XOR, long form. -/
  | xorLL (o : LF)
  /-- R104. Lane bitwise XOR with immediate. -/
  | xorLI (o : IF)
  /-- R104. Lane AND-NOT, short form. -/
  | andnLS (o : SF)
  /-- R104. Lane AND-NOT, long form. -/
  | andnLL (o : LF)
  /-- R104. Lane AND-NOT with immediate. -/
  | andnLI (o : IF)
  /-- R104. Lane bitwise complement, short form. -/
  | notLS (o : SF)
  /-- R104. Lane bitwise complement, long form. -/
  | notLL (o : LF)
  /-- R104. Lane signed negation, short form. -/
  | negLS (o : SF)
  /-- R104. Lane signed negation, long form. -/
  | negLL (o : LF)
  /-- R104. Lane absolute value, short form. -/
  | absLS (o : SF)
  /-- R104. Lane absolute value, long form. -/
  | absLL (o : LF)
  /-- R105. Lane shift left, short form. -/
  | shlLS (o : SF)
  /-- R105. Lane shift left, long form. -/
  | shlLL (o : LF)
  /-- R105. Lane shift left by immediate. -/
  | shlLI (o : IF)
  /-- R105. Lane logical shift right, short form. -/
  | shrLS (o : SF)
  /-- R105. Lane logical shift right, long form. -/
  | shrLL (o : LF)
  /-- R105. Lane logical shift right by immediate. -/
  | shrLI (o : IF)
  /-- R105. Lane arithmetic shift right, short form. -/
  | sarLS (o : SF)
  /-- R105. Lane arithmetic shift right, long form. -/
  | sarLL (o : LF)
  /-- R105. Lane arithmetic shift right by immediate. -/
  | sarLI (o : IF)
  /-- R105. Lane rotate left, short form. -/
  | rotLS (o : SF)
  /-- R105. Lane rotate left, long form. -/
  | rotLL (o : LF)
  /-- R105. Lane rotate left by immediate. -/
  | rotLI (o : IF)
  /-- R106. Lane count leading zeros, short form. -/
  | clzLS (o : SF)
  /-- R106. Lane count leading zeros, long form. -/
  | clzLL (o : LF)
  /-- R106. Lane count trailing zeros, short form. -/
  | ctzLS (o : SF)
  /-- R106. Lane count trailing zeros, long form. -/
  | ctzLL (o : LF)
  /-- R106. Lane population count, short form. -/
  | popcLS (o : SF)
  /-- R106. Lane population count, long form. -/
  | popcLL (o : LF)
  /-- R106. Lane bit reverse, short form. -/
  | brevLS (o : SF)
  /-- R106. Lane bit reverse, long form. -/
  | brevLL (o : LF)
  /-- R107. Lane bit-field extract, short form. -/
  | bfxLS (o : SF)
  /-- R107. Lane bit-field extract, long form. -/
  | bfxLL (o : LF)
  /-- R107. Lane bit-field extract with immediate control. -/
  | bfxLI (o : IF)
  /-- R107. Lane bit-field insert. -/
  | bfiLL (o : LF)
  /-- R108. Lane integer compare into a predicate, short form. -/
  | cmpLS (o : SF)
  /-- R108. Lane integer compare, long form with type and combine. -/
  | cmpLL (o : LF)
  /-- R108. Lane integer compare with immediate. -/
  | cmpLI (o : IF)
  /-- R109. Lane select by predicate. -/
  | selLL (o : LF)
  /-- R110. Lane register move, short form. -/
  | movLS (o : SF)
  /-- R110. Lane register move, long form. -/
  | movLL (o : LF)
  /-- R110. Lane move of an immediate. -/
  | moviLI (o : IF)
  /-- R129. Lane floating-point add, short form. -/
  | faddLS (o : SF)
  /-- R129. Lane floating-point add, long form. -/
  | faddLL (o : LF)
  /-- R129. Lane floating-point add with immediate. -/
  | faddLI (o : IF)
  /-- R129. Lane floating-point subtract, short form. -/
  | fsubLS (o : SF)
  /-- R129. Lane floating-point subtract, long form. -/
  | fsubLL (o : LF)
  /-- R129. Lane floating-point subtract with immediate. -/
  | fsubLI (o : IF)
  /-- R129. Lane floating-point multiply, short form. -/
  | fmulLS (o : SF)
  /-- R129. Lane floating-point multiply, long form. -/
  | fmulLL (o : LF)
  /-- R129. Lane floating-point multiply with immediate. -/
  | fmulLI (o : IF)
  /-- R129. Lane fused multiply-add with one rounding. -/
  | fmaLL (o : LF)
  /-- R129. Lane floating-point divide, short form. -/
  | fdivLS (o : SF)
  /-- R129. Lane floating-point divide, long form. -/
  | fdivLL (o : LF)
  /-- R129. Lane floating-point square root, short form. -/
  | fsqrtLS (o : SF)
  /-- R129. Lane floating-point square root, long form. -/
  | fsqrtLL (o : LF)
  /-- R130. Lane IEEE minimum, short form. -/
  | fminLS (o : SF)
  /-- R130. Lane IEEE minimum, long form. -/
  | fminLL (o : LF)
  /-- R130. Lane IEEE minimum with immediate. -/
  | fminLI (o : IF)
  /-- R130. Lane IEEE maximum, short form. -/
  | fmaxLS (o : SF)
  /-- R130. Lane IEEE maximum, long form. -/
  | fmaxLL (o : LF)
  /-- R130. Lane IEEE maximum with immediate. -/
  | fmaxLI (o : IF)
  /-- R130. Lane minimumNumber, short form. -/
  | fminnLS (o : SF)
  /-- R130. Lane minimumNumber, long form. -/
  | fminnLL (o : LF)
  /-- R130. Lane minimumNumber with immediate. -/
  | fminnLI (o : IF)
  /-- R130. Lane maximumNumber, short form. -/
  | fmaxnLS (o : SF)
  /-- R130. Lane maximumNumber, long form. -/
  | fmaxnLL (o : LF)
  /-- R130. Lane maximumNumber with immediate. -/
  | fmaxnLI (o : IF)
  /-- R130. Lane minimumMagnitudeNumber, long form. -/
  | fminmLL (o : LF)
  /-- R130. Lane minimumMagnitudeNumber with immediate. -/
  | fminmLI (o : IF)
  /-- R130. Lane maximumMagnitudeNumber, long form. -/
  | fmaxmLL (o : LF)
  /-- R130. Lane maximumMagnitudeNumber with immediate. -/
  | fmaxmLI (o : IF)
  /-- R131. Lane sign clear, short form. -/
  | fabsLS (o : SF)
  /-- R131. Lane sign clear, long form. -/
  | fabsLL (o : LF)
  /-- R131. Lane sign invert, short form. -/
  | fnegLS (o : SF)
  /-- R131. Lane sign invert, long form. -/
  | fnegLL (o : LF)
  /-- R131. Lane copy sign, short form. -/
  | fcpysLS (o : SF)
  /-- R131. Lane copy sign, long form. -/
  | fcpysLL (o : LF)
  /-- R132. Lane floating-point compare into a predicate, short form. -/
  | fcmpLS (o : SF)
  /-- R132. Lane floating-point compare, long form. -/
  | fcmpLL (o : LF)
  /-- R132. Lane floating-point compare with immediate. -/
  | fcmpLI (o : IF)
  /-- R133. Lane classify, short form. -/
  | fclassLS (o : SF)
  /-- R133. Lane classify, long form. -/
  | fclassLL (o : LF)
  /-- R134. Lane conversion between float and log formats. -/
  | fcvtLL (o : LF)
  /-- R136. Lane float to integer conversion, short form. -/
  | fcvtiLS (o : SF)
  /-- R136. Lane float to integer conversion, long form. -/
  | fcvtiLL (o : LF)
  /-- R136. Lane integer to float conversion, short form. -/
  | icvtfLS (o : SF)
  /-- R136. Lane integer to float conversion, long form. -/
  | icvtfLL (o : LF)
  /-- R137. Lane round to integral, short form. -/
  | frintLS (o : SF)
  /-- R137. Lane round to integral, long form. -/
  | frintLL (o : LF)
  /-- R138. Lane scale by power of two, short form. -/
  | fexpiLS (o : SF)
  /-- R138. Lane scale by power of two, long form. -/
  | fexpiLL (o : LF)
  /-- R138. Lane scale by immediate power of two. -/
  | fexpiLI (o : IF)
  /-- R138. Lane exponent extract, short form. -/
  | fexpxLS (o : SF)
  /-- R138. Lane exponent extract, long form. -/
  | fexpxLL (o : LF)
  /-- R139. Lane 2^x on [-1,1], short form. -/
  | fexp2fLS (o : SF)
  /-- R139. Lane 2^x on [-1,1], long form. -/
  | fexp2fLL (o : LF)
  /-- R139. Lane log2 on [0.5,2], short form. -/
  | flog2fLS (o : SF)
  /-- R139. Lane log2 on [0.5,2], long form. -/
  | flog2fLL (o : LF)
  /-- R139. Lane sin(pi x), short form. -/
  | fsinpifLS (o : SF)
  /-- R139. Lane sin(pi x), long form. -/
  | fsinpifLL (o : LF)
  /-- R139. Lane cos(pi x), short form. -/
  | fcospifLS (o : SF)
  /-- R139. Lane cos(pi x), long form. -/
  | fcospifLL (o : LF)
  /-- R140. Lane reciprocal seed, short form. -/
  | fseedrLS (o : SF)
  /-- R140. Lane reciprocal seed, long form. -/
  | fseedrLL (o : LF)
  /-- R140. Lane reciprocal square root seed, short form. -/
  | fseedqLS (o : SF)
  /-- R140. Lane reciprocal square root seed, long form. -/
  | fseedqLL (o : LF)
  /-- R209. Lane load, short form with scaled index. -/
  | ldLS (o : SF) (m2 : BitVec 2)
  /-- R209. Lane load, long form with ordering and hint. -/
  | ldLL (o : LF)
  /-- R209. Lane load with immediate displacement. -/
  | ldLI (o : IF)
  /-- R209. Lane store, short form. -/
  | stLS (o : SF) (m2 : BitVec 2)
  /-- R209. Lane store, long form with ordering and hint. -/
  | stLL (o : LF)
  /-- R209. Lane store with immediate displacement. -/
  | stLI (o : IF)
  /-- R210. Scratchpad load by offset, short form. -/
  | ldsLS (o : SF) (m2 : BitVec 2)
  /-- R210. Scratchpad load by offset, long form. -/
  | ldsLL (o : LF)
  /-- R210. Scratchpad load with immediate offset. -/
  | ldsLI (o : IF)
  /-- R210. Scratchpad store by offset, short form. -/
  | stsLS (o : SF) (m2 : BitVec 2)
  /-- R210. Scratchpad store by offset, long form. -/
  | stsLL (o : LF)
  /-- R210. Scratchpad store with immediate offset. -/
  | stsLI (o : IF)
  /-- R213. Prefetch hint, short form. -/
  | prefLS (o : SF)
  /-- R213. Prefetch hint to a chosen level. -/
  | prefLL (o : LF)
  /-- R214. Discard cached copies of a range, short form. -/
  | dscLS (o : SF)
  /-- R214. Discard cached copies of a range, long form. -/
  | dscLL (o : LF)
  /-- R214. Write back dirty lines of a range, short form. -/
  | cwbLS (o : SF)
  /-- R214. Write back dirty lines of a range, long form. -/
  | cwbLL (o : LF)
  /-- R233. Lane fetch-and-operate at the home. -/
  | atomLL (o : LF)
  /-- R234. Lane compare-and-swap at the home. -/
  | casLL (o : LF)
  /-- R236. Lane reduction into memory through partials. -/
  | redLL (o : LF)
  /-- R112. Cross-lane shuffle, short form with mode in m2. -/
  | shflLS (o : SF) (m2 : BitVec 2)
  /-- R112. Cross-lane shuffle, long form. -/
  | shflLL (o : LF)
  /-- R112. Cross-lane shuffle with immediate selector. -/
  | shflLI (o : IF)
  /-- R113. Cross-lane vote written to every active fibre. -/
  | voteLL (o : LF)
  /-- R113. Broadcast of the lowest active fibre, short form. -/
  | bcastLS (o : SF)
  /-- R113. Broadcast of the lowest active fibre, long form. -/
  | bcastLL (o : LF)
  /-- R111. Write lane index, short form. -/
  | lidLS (o : SF)
  /-- R111. Write lane index, long form. -/
  | lidLL (o : LF)
  /-- R111. Read shape tag of an operand, short form. -/
  | vtagLS (o : SF)
  /-- R111. Read shape tag of an operand, long form. -/
  | vtagLL (o : LF)
  /-- R212. Compute effective address, short form. -/
  | addrLS (o : SF) (m2 : BitVec 2)
  /-- R212. Compute effective address, long form. -/
  | addrLL (o : LF)
  /-- R212. Compute effective address with displacement. -/
  | addrLI (o : IF)
  /-- R324. Relative lane branch of active fibres. -/
  | braLI (o : IF)
  /-- R327. Arm a reconvergence point entry. -/
  | gatherLI (o : IF)
  /-- R331. Create child fibres in free lane slots. -/
  | fspawnLI (o : IF)
  /-- R332. End active fibres and free their slots. -/
  | fexitLS (o : SF)
  /-- R336. Call with a new register frame. -/
  | callLI (o : IF)
  /-- R340. Return to the caller's frame. -/
  | retLS (o : SF)
  /-- R343. Set or clear the frame's unwind handler. -/
  | fmarkLI (o : IF)
  /-- R343. Unwind to the nearest marked frame. -/
  | unwindLS (o : SF)
  /-- R324. Indirect lane branch, short form. -/
  | brxLS (o : SF)
  /-- R324. Indirect lane branch, long form. -/
  | brxLL (o : LF)
  /-- R116. Integer conversion with scaling, register shift. -/
  | icvtLL (o : LF)
  /-- R116. Integer conversion with scaling, immediate control. -/
  | icvtLI (o : IF)
  /-- R176. Read a band row into lanes with one rounding. -/
  | mreadLL (o : LF)
  /-- R177. Write lane elements into a band row. -/
  | mwriteLL (o : LF)
  /-- R178. Read a top-k entry into lanes. -/
  | mtkreadLL (o : LF)
  /-- R117. Uniform add, short form. -/
  | saddUS (o : SF)
  /-- R117. Uniform add, long form. -/
  | saddUL (o : LF)
  /-- R117. Uniform add with immediate. -/
  | saddUI (o : IF)
  /-- R117. Uniform subtract, short form. -/
  | ssubUS (o : SF)
  /-- R117. Uniform subtract, long form. -/
  | ssubUL (o : LF)
  /-- R117. Uniform subtract with immediate. -/
  | ssubUI (o : IF)
  /-- R117. Uniform multiply, short form. -/
  | smulUS (o : SF)
  /-- R117. Uniform multiply, long form. -/
  | smulUL (o : LF)
  /-- R117. Uniform multiply with immediate. -/
  | smulUI (o : IF)
  /-- R117. Uniform divide, short form. -/
  | sdivUS (o : SF)
  /-- R117. Uniform divide, long form. -/
  | sdivUL (o : LF)
  /-- R117. Uniform divide by immediate. -/
  | sdivUI (o : IF)
  /-- R117. Uniform remainder, short form. -/
  | sremUS (o : SF)
  /-- R117. Uniform remainder, long form. -/
  | sremUL (o : LF)
  /-- R117. Uniform remainder by immediate. -/
  | sremUI (o : IF)
  /-- R117. Uniform minimum, short form. -/
  | sminUS (o : SF)
  /-- R117. Uniform minimum, long form. -/
  | sminUL (o : LF)
  /-- R117. Uniform minimum with immediate. -/
  | sminUI (o : IF)
  /-- R117. Uniform maximum, short form. -/
  | smaxUS (o : SF)
  /-- R117. Uniform maximum, long form. -/
  | smaxUL (o : LF)
  /-- R117. Uniform maximum with immediate. -/
  | smaxUI (o : IF)
  /-- R117. Uniform AND, short form. -/
  | sandUS (o : SF)
  /-- R117. Uniform AND, long form. -/
  | sandUL (o : LF)
  /-- R117. Uniform AND with immediate. -/
  | sandUI (o : IF)
  /-- R117. Uniform OR, short form. -/
  | sorUS (o : SF)
  /-- R117. Uniform OR, long form. -/
  | sorUL (o : LF)
  /-- R117. Uniform OR with immediate. -/
  | sorUI (o : IF)
  /-- R117. Uniform XOR, short form. -/
  | sxorUS (o : SF)
  /-- R117. Uniform XOR, long form. -/
  | sxorUL (o : LF)
  /-- R117. Uniform XOR with immediate. -/
  | sxorUI (o : IF)
  /-- R117. Uniform AND-NOT, short form. -/
  | sandnUS (o : SF)
  /-- R117. Uniform AND-NOT, long form. -/
  | sandnUL (o : LF)
  /-- R117. Uniform AND-NOT with immediate. -/
  | sandnUI (o : IF)
  /-- R117. Uniform shift left, short form. -/
  | sshlUS (o : SF)
  /-- R117. Uniform shift left, long form. -/
  | sshlUL (o : LF)
  /-- R117. Uniform shift left by immediate. -/
  | sshlUI (o : IF)
  /-- R117. Uniform logical shift right, short form. -/
  | sshrUS (o : SF)
  /-- R117. Uniform logical shift right, long form. -/
  | sshrUL (o : LF)
  /-- R117. Uniform logical shift right by immediate. -/
  | sshrUI (o : IF)
  /-- R117. Uniform arithmetic shift right, short form. -/
  | ssarUS (o : SF)
  /-- R117. Uniform arithmetic shift right, long form. -/
  | ssarUL (o : LF)
  /-- R117. Uniform arithmetic shift right by immediate. -/
  | ssarUI (o : IF)
  /-- R117. Uniform rotate, short form. -/
  | srotUS (o : SF)
  /-- R117. Uniform rotate, long form. -/
  | srotUL (o : LF)
  /-- R117. Uniform rotate by immediate. -/
  | srotUI (o : IF)
  /-- R117. Uniform count leading zeros, short form. -/
  | sclzUS (o : SF)
  /-- R117. Uniform count leading zeros, long form. -/
  | sclzUL (o : LF)
  /-- R117. Uniform count trailing zeros, short form. -/
  | sctzUS (o : SF)
  /-- R117. Uniform count trailing zeros, long form. -/
  | sctzUL (o : LF)
  /-- R117. Uniform population count, short form. -/
  | spopcUS (o : SF)
  /-- R117. Uniform population count, long form. -/
  | spopcUL (o : LF)
  /-- R108. Uniform compare into a k predicate, short form. -/
  | scmpUS (o : SF)
  /-- R108. Uniform compare, long form. -/
  | scmpUL (o : LF)
  /-- R108. Uniform compare with immediate. -/
  | scmpUI (o : IF)
  /-- R109. Uniform select by k predicate. -/
  | sselUL (o : LF)
  /-- R110. Uniform move, short form. -/
  | smovUS (o : SF)
  /-- R110. Uniform move, long form. -/
  | smovUL (o : LF)
  /-- R110. Uniform move of an immediate, low or high half. -/
  | smoviUI (o : IF)
  /-- R114. Copy a lane value to an s register with tag check, short form. -/
  | sgetUS (o : SF)
  /-- R114. Copy a lane value to an s register, long form. -/
  | sgetUL (o : LF)
  /-- R115. Uniform bit-field extract, short form. -/
  | sbfxUS (o : SF)
  /-- R115. Uniform bit-field extract, long form. -/
  | sbfxUL (o : LF)
  /-- R115. Uniform bit-field extract with immediate control. -/
  | sbfxUI (o : IF)
  /-- R141. Uniform floating-point add, short form. -/
  | sfaddUS (o : SF)
  /-- R141. Uniform floating-point add, long form. -/
  | sfaddUL (o : LF)
  /-- R141. Uniform floating-point add with immediate. -/
  | sfaddUI (o : IF)
  /-- R141. Uniform floating-point subtract, short form. -/
  | sfsubUS (o : SF)
  /-- R141. Uniform floating-point subtract, long form. -/
  | sfsubUL (o : LF)
  /-- R141. Uniform floating-point subtract with immediate. -/
  | sfsubUI (o : IF)
  /-- R141. Uniform floating-point multiply, short form. -/
  | sfmulUS (o : SF)
  /-- R141. Uniform floating-point multiply, long form. -/
  | sfmulUL (o : LF)
  /-- R141. Uniform floating-point multiply with immediate. -/
  | sfmulUI (o : IF)
  /-- R141. Uniform fused multiply-add. -/
  | sfmaUL (o : LF)
  /-- R141. Uniform floating-point compare, short form. -/
  | sfcmpUS (o : SF)
  /-- R141. Uniform floating-point compare, long form. -/
  | sfcmpUL (o : LF)
  /-- R141. Uniform floating-point compare with immediate. -/
  | sfcmpUI (o : IF)
  /-- R141. Uniform float format conversion. -/
  | sfcvtUL (o : LF)
  /-- R141. Uniform floating-point divide, short form. -/
  | sfdivUS (o : SF)
  /-- R141. Uniform floating-point divide, long form. -/
  | sfdivUL (o : LF)
  /-- R141. Uniform square root, short form. -/
  | sfsqrtUS (o : SF)
  /-- R141. Uniform square root, long form. -/
  | sfsqrtUL (o : LF)
  /-- R209. Uniform load, short form. -/
  | sldUS (o : SF) (m2 : BitVec 2)
  /-- R209. Uniform load, long form. -/
  | sldUL (o : LF)
  /-- R209. Uniform load with immediate displacement. -/
  | sldUI (o : IF)
  /-- R209. Uniform store, short form. -/
  | sstUS (o : SF) (m2 : BitVec 2)
  /-- R209. Uniform store, long form. -/
  | sstUL (o : LF)
  /-- R209. Uniform store with immediate displacement. -/
  | sstUI (o : IF)
  /-- R233. Uniform fetch-and-operate at the home. -/
  | satomUL (o : LF)
  /-- R234. Uniform compare-and-swap at the home. -/
  | scasUL (o : LF)
  /-- R216. Issue an asynchronous 2-D copy under a token. -/
  | cpUL (o : LF)
  /-- R216. Issue a multicast copy into member scratchpads under a permit. -/
  | cpmUL (o : LF)
  /-- R219. Block until the named tokens complete, mask from a register. -/
  | twaitUS (o : SF)
  /-- R219. Block until the named tokens complete, immediate mask. -/
  | twaitUI (o : IF)
  /-- R220. Test tokens without blocking, mask from a register. -/
  | ttestUS (o : SF)
  /-- R220. Test tokens without blocking, immediate mask. -/
  | ttestUI (o : IF)
  /-- R221. Set a network-tile connection register. -/
  | cconnUS (o : SF)
  /-- R222. Send a scratchpad tile on a connection. -/
  | tsendUL (o : LF)
  /-- R222. Post a receive of a tile on a connection. -/
  | trecvUL (o : LF)
  /-- R223. Full, release or acquire fence at a scope. -/
  | fenceUS (o : SF)
  /-- R223. Order events between access paths at quire scope. -/
  | xfenceUS (o : SF)
  /-- R168. Set the quire's gang member mask. -/
  | sgangUS (o : SF)
  /-- R170. Issue a joint matrix product with exact accumulation. -/
  | mmaUL (o : LF)
  /-- R172. Issue a joint squared-distance operation. -/
  | mdistUL (o : LF)
  /-- R173. Merge a band into top-k lists. -/
  | mtopkUL (o : LF)
  /-- R174. Zero every cell of a band. -/
  | mzeroUS (o : SF)
  /-- R175. Read and optionally clear the matrix flags. -/
  | mflagUS (o : SF) (m2 : BitVec 2)
  /-- R262. Arrive at and wait on a folio or volume full barrier. -/
  | barUS (o : SF) (m2 : BitVec 2)
  /-- R263. Arrive at a split barrier without blocking. -/
  | barriveUS (o : SF)
  /-- R263. Wait for the split barrier generation of the arrival. -/
  | bwaitUS (o : SF)
  /-- R270. Initialise a queue descriptor. -/
  | qinitUS (o : SF)
  /-- R271. Set a producer's send allowance. -/
  | qallowUS (o : SF)
  /-- R272. Push a handle onto a queue, blocking or not. -/
  | qpushUS (o : SF) (m2 : BitVec 2)
  /-- R272. Pop a handle from a queue, blocking or not. -/
  | qpopUS (o : SF) (m2 : BitVec 2)
  /-- R243. Create a split bounded counter. -/
  | cinitUL (o : LF)
  /-- R247. Recall and release a counter, failing its waiters. -/
  | cdropUS (o : SF)
  /-- R244. Take an amount from a counter, register amount. -/
  | ctakeUS (o : SF)
  /-- R244. Take from a counter, optionally waiting. -/
  | ctakeUL (o : LF)
  /-- R244. Take an immediate amount from a counter. -/
  | ctakeUI (o : IF)
  /-- R246. Give an amount to a counter, register amount. -/
  | cgiveUS (o : SF)
  /-- R246. Give to a counter, long form. -/
  | cgiveUL (o : LF)
  /-- R246. Give an immediate amount to a counter. -/
  | cgiveUI (o : IF)
  /-- R247. Recall all allowances and read the exact value. -/
  | cexactUS (o : SF)
  /-- R250. Create and prime a scratchpad subscription. -/
  | subscribeUS (o : SF)
  /-- R250. Create and prime a subscription, long form. -/
  | subscribeUL (o : LF)
  /-- R253. Flush and remove a subscription entry. -/
  | unsubUS (o : SF)
  /-- R254. Flush one or all forwarding buffers and wait for application. -/
  | sflushUS (o : SF)
  /-- R274. Arrive at the folio barrier with a new carve-out request. -/
  | carveUS (o : SF)
  /-- R325. Relative uniform branch of the issuing batch. -/
  | sbrUI (o : IF)
  /-- R325. Indirect uniform jump. -/
  | sjmpUS (o : SF)
  /-- R325. Uniform branch into an 8-byte slot table. -/
  | sbrxUS (o : SF)
  /-- R310. Check and enqueue a collection of shelves on a die. -/
  | slaunchUL (o : LF)
  /-- R312. Set the folio's completion bit early as a device release. -/
  | ssignalUS (o : SF)
  /-- R334. Advance the program counter only. -/
  | nopUS (o : SF)
  /-- R276. Take the batch out of issue for 16 to 64 clocks. -/
  | pauseUS (o : SF)
  /-- R320. Renew the age stamp and offer the folio for pre-emption. -/
  | yieldUS (o : SF)
  /-- R333. End every fibre of the quire, withdrawing waits. -/
  | haltUS (o : SF)
  /-- R376. System call trap to the kernel instance. -/
  | sysUS (o : SF)
  /-- R376. Program trap to the handler. -/
  | trapUS (o : SF)
  /-- R377. Resume a held fault, re-issuing or skipping. -/
  | fresumeUS (o : SF)
  /-- R378. Abandon a held fault's operation, folio or shelf. -/
  | fkillUS (o : SF)
  /-- R380. Map one page from the process pool. -/
  | pmapUS (o : SF)
  /-- R382. Read a system or management register. -/
  | rdsrUS (o : SF)
  /-- R382. Write a system or management register. -/
  | wrsrUS (o : SF)
  /-- R384. Return from a curator trap vector. -/
  | eretUS (o : SF)
  /-- R404. Send a message on the circulation channel. -/
  | msendUS (o : SF)
  /-- R404. Receive a channel message, blocking or not. -/
  | mrecvUS (o : SF)
  /-- R415. Open a checkpoint generation. -/
  | ckbeginUS (o : SF)
  /-- R415. Stream shard pages of a range to the buddy slot. -/
  | ckshardUL (o : LF)
  /-- R415. Commit a checkpoint generation across the dies. -/
  | ckcommitUS (o : SF)
  /-- R420. Read a link's status word. -/
  | linkctlStatus (o : SF)
  /-- R420. Pause a link until sent flits are acknowledged. -/
  | linkctlPause (o : SF)
  /-- R420. Map a bad lane onto a spare at the next retrain. -/
  | linkctlRepair (o : SF)
  /-- R420. Retrain a paused link at the widest working width. -/
  | linkctlRetrain (o : SF)
  /-- R420. Replay the retry buffer and release held flits. -/
  | linkctlResume (o : SF)
  /-- R385. Run a two-phase translation shoot-down. -/
  | tlbctlUS (o : SF)
  /-- R63. A fetched word that is not an instruction raises its decode cause. -/
  | reservedWord (w0 w1 : Word)
  /-- R383. A write to the launch doorbell enqueues a collection with slaunch checks. -/
  | lqctl (die : Nat) (v : DWord)
  /-- R383. Program key slot KEYSEL in every memory controller of the package. -/
  | keycmdProgram (die : Nat)
  /-- R383. Erase key slot KEYSEL in every memory controller. -/
  | keycmdErase (die : Nat)
  /-- R383. Writing 0 clears the selected core's late-arrival counter. -/
  | latecntClear (die : Nat)
  /-- R410. Clearing a bit of RHMAP ends redirection of this die's accesses to an evicted die. -/
  | rhmapClear (die d : Nat)
  /-- R383. A write to a management register without behaviour of its own, checked for range and alignment. -/
  | registerWrite (die num : Nat) (v : DWord)
  /-- R15. The leading boot ROM reads, verifies and measures the firmware image. -/
  | powerOn
  /-- R16. After a failed verification the ROM fetches the image from host port or peer. -/
  | imageRefetch
  /-- R18. The power governor grants a heavy operation its permit in FIFO order. -/
  | permitGrant (op : Nat)
  /-- R19. Above 95 °C junction the governors hold new permits. -/
  | thermalHold
  /-- R19. At 105 °C the package signals a thermal trip and removes its power. -/
  | thermalTrip
  /-- R315. Registrar firmware reads the launch queue and writes bind records. -/
  | registrarBind (a : BindAct)
  /-- R314. Dispatch makes a whole volume resident once its group is bound and its bits are set. -/
  | volumeStart (die vgid : Nat)
  /-- R386. A folio or volume marked STATE 2 is stopped and saved to an image. -/
  | preemptSave (fid : Nat)
  /-- R391. A saved unit is restored on a core whose shares fit. -/
  | restore (fid core qbase : Nat)
  /-- R328. Parked fibres at a point are released as one batch. -/
  | gatherRelease (quire : Nat) (pc : DWord) (frame : Nat)
  /-- R337. The archive engine moves an idle frame to the archive slice for a waiting call. -/
  | frameArchive (quire frame : Nat)
  /-- R341. An archived current frame is copied back before its batch issues. -/
  | frameRefill (quire frame : Nat)
  /-- R275. At barrier completion a carve request is checked and applied after inbound writes settle. -/
  | carveApply (fid : Nat)
  /-- R171. The matrix engine completes one chunk of an mma or mdist. -/
  | matrixChunk (op : Nat)
  /-- R217. A copy segment is translated and written. -/
  | copySegment (op : Nat)
  /-- R222. A matched tsend and trecv transfer the tile and complete their tokens. -/
  | tileDelivery (snd rcv : Nat)
  /-- R211. A remote write arrives at a scratchpad and is written or dropped by generation. -/
  | inboundWrite (idx : Nat)
  /-- R244. The counter home serves a take or give that could not be met locally. -/
  | counterHomeRequest (pa : Nat)
  /-- R237. An update-only line's partial is sent to its home or die partial. -/
  | redPartialEviction (idx : Nat)
  /-- R238. A reader recalls and combines every partial of a line in fixed order. -/
  | redRecall (line : Nat)
  /-- R192. A cluster-cache miss probes one predicted peer cluster. -/
  | peerProbe (die cluster line : Nat)
  /-- R193. With all miss registers busy a read goes straight to memory. -/
  | l2BypassRead (die line : Nat)
  /-- R194. A line fill returns and unblocks its set. -/
  | lineFill (die line : Nat)
  /-- R295. A die writes a dirty line back to its home. -/
  | lineWriteBack (die line : Nat)
  /-- R369. A fault takes a held-fault entry once one is free. -/
  | faultRecord (who : Nat)
  /-- R373. A handler folio starts with the fault record in its scratchpad. -/
  | handlerFolioStart (fh core qbase : Nat)
  /-- R384. A curator takes a trap to TVEC, asynchronous causes waiting while IN is set. -/
  | curatorTrapEntry (die idx : Nat)
  /-- R366. The curator timer raises cause 0x131. -/
  | curatorTimer (die idx : Nat)
  /-- R419. A lost or damaged flit is sent again from the retry buffer. -/
  | flitRetry (link : Nat)
  /-- R422. A failed link's traffic is replayed over a detour. -/
  | linkDetour (link : Nat)
  /-- R276. A paused batch becomes ready again. -/
  | pauseEnd (quire : Nat) (pc : DWord) (frame : Nat)
  /-- R411. An access to an unreachable package raises 0x142 after 1 ms. -/
  | reachTimeout (quire : Nat) (pa : Nat)
  /-- R404. msend raises 0x142 when no sequencer is reachable for 1 ms. -/
  | sequencerTimeout (quire : Nat)
  /-- R402. A scope's sequencer numbers a message and delivers it to every instance. -/
  | sequencerNumber (idx : Nat)
  /-- R405. Every 100 µs a die or package sends its heartbeat. -/
  | heartbeat (src : Nat)
  /-- R405. Three missed heartbeats make a die or package suspected. -/
  | heartbeatMiss (observer src : Nat)
  /-- R409. The first EVICT message in order evicts a die and survivors re-home its work. -/
  | evict (target : Nat)
  /-- R407. An evicted die learns of its eviction, stops its quires and resets. -/
  | evictionDiscovered (die : Nat)
  /-- R407. An ADMIT message re-admits a die with a new incarnation. -/
  | admission (target : Nat)
  /-- R362. A die drops matching translations, drains, writes back and acknowledges. -/
  | inval (die seq : Nat)
  /-- R362. The initiator receives a die's acknowledgement of a shoot-down. -/
  | ack (die seq : Nat)
  /-- R415. The checkpoint engine finishes streaming a range and completes the token. -/
  | ckshardCompletion (op : Nat)
  /-- R366. A correctable array or memory error is corrected and counted. -/
  | softErrorCorrection (die : Nat)
  /-- R19. The junction temperature falls back below 95 °C and the governors grant new permits again. -/
  | temperatureFalls
  /-- R401. A die or package fails and stops its quires, its heartbeats and its service of accesses homed on it. -/
  | dieFailure (target : Nat)
  /-- R199. An RV64 core of the processor die reads or writes memory under MOESI coherence with the home directory. -/
  | rv64MemoryAccess (a : Rv64Access)
  /-- R375. An uncorrectable error arises in an array, or memory marks a line poisoned. -/
  | uncorrectableError (a : BadCell)
  /-- R419. The receiver's acknowledgement of a flit arrives and releases the flit from the sender's retry buffer. -/
  | flitAcknowledged (link : Nat)
  deriving DecidableEq, Repr

end Sys2Proof
end

