-- ==== Sys2Proof/Machine/Fields.lean ====
section
/-! DEFINITION. The modifier fields of the instruction words, each read once here under its name in the spec
(R97, R100, R123, R124, R205 to R207, R215, R230, R231), and which modifier values a mnemonic permits: a word that
breaks one of these checks is no instruction and raises 0x021 (R59, R62, R63). -/

namespace Sys2Proof

/-- An integer type of R97: width W and signedness. -/
structure ITy where
  w      : Nat
  signed : Bool
  deriving DecidableEq, Repr

/-- The lane encoding of TY (R97). -/
def laneTy (t : BitVec 3) : ITy :=
  match t.toNat with
  | 0 => ⟨32, true⟩ | 1 => ⟨32, false⟩ | 2 => ⟨64, true⟩ | 3 => ⟨64, false⟩
  | 4 => ⟨16, true⟩ | 5 => ⟨16, false⟩ | 6 => ⟨8, true⟩ | _ => ⟨8, false⟩

/-- The uniform encoding of TY (R97). -/
def uniTy (t : BitVec 3) : ITy :=
  match t.toNat with
  | 0 => ⟨64, true⟩ | 1 => ⟨64, false⟩ | 2 => ⟨32, true⟩ | 3 => ⟨32, false⟩
  | 4 => ⟨16, true⟩ | 5 => ⟨16, false⟩ | 6 => ⟨8, true⟩ | _ => ⟨8, false⟩

/-- The sixteen element formats of R73, in code order. -/
inductive Fmt where
  | f64 | f32 | f16 | b16 | f8a | f8b | l8 | l6 | i32 | i16 | i8 | n8 | i4 | n4 | t2 | b1
  deriving DecidableEq, Repr

/-- The format of a 4-bit code (R73). -/
def fmtOf (c : BitVec 4) : Fmt :=
  match c.toNat with
  | 0 => .f64 | 1 => .f32 | 2 => .f16 | 3 => .b16 | 4 => .f8a | 5 => .f8b | 6 => .l8 | 7 => .l6
  | 8 => .i32 | 9 => .i16 | 10 => .i8 | 11 => .n8 | 12 => .i4 | 13 => .n4 | 14 => .t2 | _ => .b1

/-- Floating or logarithmic formats: codes 0 to 7 (R155). -/
def Fmt.isFloat : Fmt → Bool
  | .f64 | .f32 | .f16 | .b16 | .f8a | .f8b | .l8 | .l6 => true
  | _ => false

/-- Logarithmic formats (R78). -/
def Fmt.isLog : Fmt → Bool
  | .l8 | .l6 => true
  | _ => false

/-- The float type FT of a lane word (R123); codes 6 and 7 are refused by `legal` checks and read as .f8b here. -/
def laneFt (t : BitVec 3) : Fmt :=
  match t.toNat with
  | 0 => .f32 | 1 => .f64 | 2 => .f16 | 3 => .b16 | 4 => .f8a | _ => .f8b

/-- The float type FT of a uniform word (R123). -/
def uniFt (t : BitVec 3) : Fmt :=
  match t.toNat with
  | 0 => .f64 | 1 => .f32 | 2 => .f16 | _ => .b16

/-! ## Operand names (R55 to R57) -/

/-- The four last-result latches (R35). -/
inductive Latch where
  | int | fp | mem | sfu
  deriving DecidableEq, Repr

/-- What an operand field names: a register of the current frame, an operand-file entry, a latch, the constant zero, the
lane index, the broadcast of an s register, or a reserved name (R55, R56). -/
inductive Name where
  | v (n : Nat)
  | o (n : Nat)
  | latch (l : Latch)
  | zero
  | lane
  | s (n : Nat)
  | reserved
  deriving DecidableEq, Repr

/-- The latch of an offset from the first latch name: lint, lfp, lmem, lsfu (R55, R56). -/
def latchOf (n : Nat) : Latch := match n with | 0 => .int | 1 => .fp | 2 => .mem | _ => .sfu

/-- A short lane name (R55). -/
def shortName (f : BitVec 6) : Name :=
  let n := f.toNat
  if n < 40 then .v n else if n < 48 then .o (n - 40) else if n < 52 then .latch (latchOf (n - 48))
  else if n = 52 then .zero else if n = 53 then .lane else if n < 56 then .reserved else .s (n - 56)

/-- A long lane name (R56). -/
def longName (f : BitVec 8) : Name :=
  let n := f.toNat
  if n < 0xE0 then .v n else if n < 0xE8 then .o (n - 0xE0) else if n < 0xEC then .latch (latchOf (n - 0xE8))
  else if n = 0xEC then .zero else if n = 0xED then .lane else if n < 0xF0 then .reserved else .s (n - 0xF0)

/-! ## Fields of LL and UL words. MODH<n> of the spec is bit n - 8 of `modh`. -/

/-- TY, FT, MT or AT: MODL<2:0> (R100, R124, R206, R231). -/
def LF.ty (o : LF) : BitVec 3 := o.modl.extractLsb' 0 3
/-- SAT: MODL<3> (R100). -/
def LF.sat (o : LF) : Bool := o.modl.getLsbD 3
/-- MODE: MODL<5:4> (R100). -/
def LF.mode (o : LF) : BitVec 2 := o.modl.extractLsb' 4 2
/-- HI: MODH<8> (R100). -/
def LF.hi (o : LF) : Bool := o.modh.getLsbD 0
/-- COMB: MODH<9:8> (R100, R124). -/
def LF.comb (o : LF) : BitVec 2 := o.modh.extractLsb' 0 2
/-- SRCTY, ITY, SCOPE or TOK: MODH<10:8> (R100, R124, R206, R215). -/
def LF.low3 (o : LF) : BitVec 3 := o.modh.extractLsb' 0 3
/-- RND of `icvt`: MODH<13:11> (R100). -/
def LF.icvtRnd (o : LF) : BitVec 3 := o.modh.extractLsb' 3 3
/-- RND of the float and matrix instructions: MODL<5:3> (R124, R176). -/
def LF.rnd (o : LF) : BitVec 3 := o.modl.extractLsb' 3 3
/-- Q: MODH<10> (R124). -/
def LF.quiet (o : LF) : Bool := o.modh.getLsbD 2
/-- NP: MODH<8> (R124). -/
def LF.np (o : LF) : Bool := o.modh.getLsbD 0
/-- NC: MODH<9> (R124). -/
def LF.nc (o : LF) : Bool := o.modh.getLsbD 1
/-- X of `frint`: MODH<8> (R124). -/
def LF.xflag (o : LF) : Bool := o.modh.getLsbD 0
/-- SFMT of `fcvt`, ROW of `mread` and `mwrite`: MODH<11:8> (R124, R176). -/
def LF.sfmt (o : LF) : BitVec 4 := o.modh.extractLsb' 0 4
/-- DFMT of `fcvt` and `mread`, SFMT of `mwrite`, AOP: MODH<15:12> (R124, R176, R231). -/
def LF.dfmt (o : LF) : BitVec 4 := o.modh.extractLsb' 4 4
/-- COND: bits 5:3 of the destination field (R100, R124). -/
def LF.cond (o : LF) : BitVec 3 := o.d.extractLsb' 3 3
/-- pd or kd: bits 2:0 of the destination field (R108). -/
def LF.pd (o : LF) : BitVec 3 := o.d.extractLsb' 0 3
/-- SC: MODL<4:3> (R206, R231). -/
def LF.sc (o : LF) : BitVec 2 := o.modl.extractLsb' 3 2
/-- HNT or ORDK: MODL<6:5> (R206, R231). -/
def LF.hnt (o : LF) : BitVec 2 := o.modl.extractLsb' 5 2
/-- ORD: MODH<11> (R206). -/
def LF.ord (o : LF) : Bool := o.modh.getLsbD 3
/-- REM: MODH<12> (R206). -/
def LF.rem (o : LF) : Bool := o.modh.getLsbD 4
/-- PS: MODH<14:12> (R231). -/
def LF.ps (o : LF) : BitVec 3 := o.modh.extractLsb' 4 3

/-! ## Fields of short words -/

/-- COND: bits 5:3 of the destination field (R100). -/
def SF.cond (o : SF) : BitVec 3 := o.d.extractLsb' 3 3
/-- pd or kd: bits 2:0 of the destination field (R108). -/
def SF.pd (o : SF) : BitVec 3 := o.d.extractLsb' 0 3
/-- The 12-bit register number of `rdsr` and `wrsr`: bits 5:0 in a, 11:6 in b (R381). -/
def SF.sysnum (o : SF) : BitVec 12 := o.b ++ o.a

/-! ## Fields of LI and UI words -/

/-- TY, FT or MT: MODI<2:0> (R100, R124, R206). -/
def IF.ty (o : IF) : BitVec 3 := o.modi.extractLsb' 0 3
/-- SAT, HI or DYNI: MODI<3> (R100, R124). -/
def IF.top (o : IF) : Bool := o.modi.getLsbD 3
/-- COND: bits 5:3 of d6 (R100). -/
def IF.cond (o : IF) : BitVec 3 := o.d.extractLsb' 3 3
/-- pd or kd: bits 2:0 of d6 (R108). -/
def IF.pd (o : IF) : BitVec 3 := o.d.extractLsb' 0 3
/-- SRCTY of `icvt` LI: imm32<10:8> (R100). -/
def IF.srcty (o : IF) : BitVec 3 := o.imm.extractLsb' 8 3
/-- RND of `icvt` LI: imm32<13:11> (R100). -/
def IF.icvtRnd (o : IF) : BitVec 3 := o.imm.extractLsb' 11 3

/-! ## Which modifier values a mnemonic permits (0x021 otherwise) -/

/-- No modifier field is used: MODH and MODL are 0 (R59). -/
def LF.plain (o : LF) : Bool := o.modh = 0 && o.modl = 0
/-- MODH 0 and only TY in MODL (R100). -/
def LF.tyOnly (o : LF) : Bool := o.modh = 0 && o.modl.extractLsb' 3 4 = 0
/-- MODH 0, TY and SAT in MODL (R100, R101). -/
def LF.tySat (o : LF) : Bool := o.modh = 0 && o.modl.extractLsb' 4 3 = 0
/-- `mul` and `smul`: TY, SAT and HI, and HI with SAT is refused (R101, R118). -/
def LF.legalMul (o : LF) : Bool :=
  o.modh.extractLsb' 1 7 = 0 && o.modl.extractLsb' 4 3 = 0 && !(o.hi && o.sat)
/-- `neg` and `abs`: TY signed (R104). -/
def LF.legalNeg (o : LF) : Bool := o.tySat && (laneTy o.ty).signed
/-- `cmp` and `scmp` LL and UL: TY, COMB not 3, COND not 7 (R100, R118). -/
def LF.legalCmp (o : LF) : Bool :=
  o.modh.extractLsb' 2 6 = 0 && o.comb ≠ 3 && o.modl.extractLsb' 3 4 = 0 && o.cond ≠ 7
/-- TY may be 0 or 2 only: `sel`, `mov`, `bcast` (R109, R110, R113). -/
def LF.legalMov (o : LF) : Bool := o.tyOnly && (o.ty = 0 || o.ty = 2)
/-- `shfl` and `vote` LL: MODE, and TY 0 or 2 (R112, R113). -/
def LF.legalShfl (o : LF) : Bool :=
  o.modh = 0 && (o.ty = 0 || o.ty = 2) && !o.sat && !o.modl.getLsbD 6
/-- `icvt` LL (R100, R116). -/
def LF.legalIcvt (o : LF) : Bool :=
  o.modl.extractLsb' 4 3 = 0 && o.modh.extractLsb' 6 2 = 0 && o.icvtRnd ≠ 6 && o.icvtRnd ≠ 7
/-- FT at most `n` (R123, R128). -/
def ftLe (t : BitVec 3) (n : Nat) : Bool := t.toNat ≤ n
/-- A rounding field outside the conversions: 5 and 6 are refused (R88, R89). -/
def rndOk (r : BitVec 3) : Bool := r ≠ 5 && r ≠ 6
/-- A rounding field of a narrowing conversion: 6 and 7 are refused (R88, R89). -/
def rndNarrow (r : BitVec 3) : Bool := r ≠ 6 && r ≠ 7
/-- `fadd` and its like in LL and UL (R124, R128). -/
def LF.legalF (o : LF) : Bool :=
  o.modh = 0 && !o.modl.getLsbD 6 && ftLe o.ty 3 && rndOk o.rnd
/-- `fma` and `sfma`: NP and NC besides (R124). -/
def LF.legalFma (o : LF) : Bool :=
  o.modh.extractLsb' 2 6 = 0 && !o.modl.getLsbD 6 && ftLe o.ty 3 && rndOk o.rnd
/-- The min, max and sign families and `fclass`: FT to 5, RND 0 (R125, R128). -/
def LF.legalFnr5 (o : LF) : Bool := o.tyOnly && ftLe o.ty 5
/-- `fexpx`, `fseedr`, `fseedq`: FT to 3, RND 0 (R125, R128). -/
def LF.legalFnr3 (o : LF) : Bool := o.tyOnly && ftLe o.ty 3
/-- `fcmp` and `sfcmp` with FT at most `n`: COMB not 3, Q, RND 0 (R124, R125). -/
def LF.legalFcmp (o : LF) (n : Nat) : Bool :=
  o.modh.extractLsb' 3 5 = 0 && o.comb ≠ 3 && o.modl.extractLsb' 3 4 = 0 && ftLe o.ty n
/-- `frint`: X (R124). -/
def LF.legalFrint (o : LF) : Bool :=
  o.modh.extractLsb' 1 7 = 0 && !o.modl.getLsbD 6 && ftLe o.ty 3 && rndOk o.rnd
/-- `fcvti` and `icvtf` LL: ITY, RND not 6 or 7 (R136). -/
def LF.legalFcvti (o : LF) : Bool :=
  o.modh.extractLsb' 3 5 = 0 && !o.modl.getLsbD 6 && ftLe o.ty 3 && rndNarrow o.rnd
/-- The pairs of formats between which `fcvt` is exact (R134). -/
def exactCvt (src dst : Fmt) : Bool :=
  match dst, src with
  | .f64, s => s.isFloat
  | .f32, .f32 | .f32, .f16 | .f32, .b16 | .f32, .f8a | .f32, .f8b => true
  | .f16, .f16 | .f16, .f8a | .f16, .f8b => true
  | .b16, .b16 | .b16, .f8a | .b16, .f8b => true
  | .f8a, .f8a | .f8b, .f8b | .l8, .l8 | .l8, .l6 | .l6, .l6 => true
  | _, _ => false
/-- `fcvt` (`top` 7) and `sfcvt` (`top` 5): both codes at most `top`; RND not 6, and not 7 when narrowing (R134, R141). -/
def LF.legalFcvt (o : LF) (top : Nat) : Bool :=
  o.modl.extractLsb' 0 3 = 0 && !o.modl.getLsbD 6 && o.sfmt.toNat ≤ top && o.dfmt.toNat ≤ top
    && o.rnd ≠ 6 && (exactCvt (fmtOf o.sfmt) (fmtOf o.dfmt) || o.rnd ≠ 7)
/-- SCOPE against ORD: SCOPE 7 is refused, and SCOPE must be 0 without an ordering (R206, R207, R231). -/
def scopeOk (ord : Bool) (sc : BitVec 3) : Bool := sc ≠ 7 && (ord || sc = 0)
/-- `ld`, `st`, `sld`, `sst` LL and UL (R206). -/
def LF.legalMem (o : LF) : Bool := o.modh.extractLsb' 4 4 = 0 && scopeOk o.ord o.low3
/-- `lds` and `sts` LL: only MT, SC and REM (R206, R210). -/
def LF.legalLds (o : LF) : Bool :=
  o.modh.extractLsb' 5 3 = 0 && o.modh.extractLsb' 0 4 = 0 && o.hnt = 0
/-- `addr` LL: only SC (R212). -/
def LF.legalAddr (o : LF) : Bool := o.modh = 0 && o.ty = 0 && o.hnt = 0
/-- `pref` LL: LVL, SC and HNT (R206, R213). -/
def LF.legalPref (o : LF) : Bool := o.modh.extractLsb' 2 6 = 0 && o.ty = 0
/-- `dsc` LL: no modifier; its index is absent, so SC is 0 (R213). -/
def LF.legalDsc (o : LF) : Bool := o.modh = 0 && o.modl = 0
/-- `cwb` LL: HNT only (R213). -/
def LF.legalCwb (o : LF) : Bool := o.modh = 0 && o.ty = 0 && o.sc = 0
/-- The types an atomic operation permits, on an AT code (R233): the integer types for and, or, xor; n32 and n64 for
inc and dec; integer and float types for add, min, max; every type for xchg. `uni` is the uniform encoding. -/
def atomTypeOk (aop : Nat) (at_ : BitVec 3) : Bool :=
  if at_ = 7 then false
  else if aop ≤ 2 then at_ ≠ 6
  else if aop ≤ 5 then at_.toNat ≤ 3
  else if aop = 6 then true
  else if aop ≤ 8 then at_ = 1 || at_ = 3
  else false
/-- `atom` and `satom` (R231, R233). -/
def LF.legalAtom (o : LF) : Bool :=
  !o.modh.getLsbD 3 && scopeOk (o.hnt ≠ 0) o.low3 && atomTypeOk o.dfmt.toNat o.ty
/-- `cas` and `scas`: integer types and .b128 (R231, R234). -/
def LF.legalCas (o : LF) : Bool :=
  !o.modh.getLsbD 7 && !o.modh.getLsbD 3 && scopeOk (o.hnt ≠ 0) o.low3 && (o.ty.toNat ≤ 3 || o.ty = 6)
/-- `red`: add to xor, relaxed or release, no .b128 (R236). -/
def LF.legalRed (o : LF) : Bool :=
  !o.modh.getLsbD 3 && scopeOk (o.hnt ≠ 0) o.low3 && o.dfmt.toNat ≤ 5 && o.ty ≠ 6 && atomTypeOk o.dfmt.toNat o.ty
    && (o.hnt = 0 || o.hnt = 2)
/-- `cp` and `cpm` as far as the word decides: MODL<4:0> 0, d8 0, SLOT 0 without a swizzle flag (R215). -/
def LF.legalCp (o : LF) : Bool :=
  o.modl.extractLsb' 0 5 = 0 && o.d = 0 && (o.modh.extractLsb' 3 2 ≠ 0 || o.modh.extractLsb' 5 3 = 0)
/-- Only TOK in MODH (R222, R310, R415). -/
def LF.tokOnly (o : LF) : Bool := o.modh.extractLsb' 3 5 = 0 && o.modl = 0
/-- `mma` and `mdist` as far as the word decides: bits 15:12 are 0 (R170). -/
def LF.legalMma (o : LF) : Bool := o.modh.extractLsb' 4 4 = 0
/-- `mtopk`: MODH 0, MODL<6:5> 0, c8 0, D ≠ S (R173). -/
def LF.legalMtopk (o : LF) : Bool := o.modh = 0 && o.modl.extractLsb' 5 2 = 0 && o.c = 0 && o.d ≠ o.a
/-- `mread`: DFMT to 11; RND not 5 or 6, and 0 with an integer format; SAT only with one; b8, c8, MODL<2:0> 0 (R176, R179). -/
def LF.legalMread (o : LF) : Bool :=
  o.dfmt.toNat ≤ 11 && rndOk o.rnd && o.ty = 0 && o.b = 0 && o.c = 0
    && (if (fmtOf o.dfmt).isFloat then !o.modl.getLsbD 6 else o.rnd = 0)
/-- `mwrite`: SFMT to 11, MODL 0, b8, c8 0 (R177). -/
def LF.legalMwrite (o : LF) : Bool := o.dfmt.toNat ≤ 11 && o.modl = 0 && o.b = 0 && o.c = 0
/-- `mtkread`: only e and V (R178). -/
def LF.legalMtkread (o : LF) : Bool :=
  o.modh = 0 && o.modl.extractLsb' 4 3 = 0 && o.b = 0 && o.c = 0
/-- `cinit`: only W64; d8, b8, c8 0 (R242). -/
def LF.legalCinit (o : LF) : Bool :=
  o.modh = 0 && o.modl.extractLsb' 1 6 = 0 && o.d = 0 && o.b = 0 && o.c = 0
/-- `ctake` UL: only WAIT (R242). -/
def LF.legalCtake (o : LF) : Bool := o.modh = 0 && o.modl.extractLsb' 1 6 = 0

/-- LI and UI: TY with MODI<3> 0 (R100, R206). -/
def IF.tyOnly (o : IF) : Bool := !o.top
/-- `cmp` and `scmp` LI and UI (R100, R118). -/
def IF.legalCmp (o : IF) : Bool := !o.top && o.cond ≠ 7
/-- `movi`: .i32, .i64 or .n64 (R110). -/
def IF.legalMovi (o : IF) : Bool := !o.top && (o.ty = 0 || o.ty = 2 || o.ty = 3)
/-- `smovi`: TY .i64 or .n64, and TY 0 with .hi (R110). -/
def IF.legalSmovi (o : IF) : Bool := if o.top then o.ty = 0 else o.ty = 0 || o.ty = 1
/-- `icvt` LI (R116). -/
def IF.legalIcvt (o : IF) : Bool :=
  o.imm.extractLsb' 14 18 = 0 && o.imm.extractLsb' 6 2 = 0 && o.icvtRnd ≠ 6 && o.icvtRnd ≠ 7
/-- The bits of imm32 above a float pattern are 0 (R126). -/
def fimmOk (f : Fmt) (imm : Word) : Bool :=
  match f with
  | .f16 | .b16 => imm.extractLsb' 16 16 = 0
  | .f8a | .f8b => imm.extractLsb' 8 24 = 0
  | _ => true
/-- `fadd`, `fsub`, `fmul` LI (R124, R126). -/
def IF.legalF (o : IF) : Bool := ftLe o.ty 3 && fimmOk (laneFt o.ty) o.imm
/-- `sfadd`, `sfsub`, `sfmul` UI (R124, R126). -/
def IF.legalSf (o : IF) : Bool := ftLe o.ty 3 && fimmOk (uniFt o.ty) o.imm
/-- The min and max family and `fcmp` LI: FT to 5. DEDUCED (log 6): DYNI stands for RND 7, so an instruction that does
not round must carry DYNI 0 (R124, R125). -/
def IF.legalFnr (o : IF) : Bool := ftLe o.ty 5 && !o.top && fimmOk (laneFt o.ty) o.imm
/-- `sfcmp` UI (R141; log 6 as for `fcmp`). -/
def IF.legalSfcmp (o : IF) : Bool := ftLe o.ty 3 && !o.top && fimmOk (uniFt o.ty) o.imm
/-- `fexpi` LI: imm32 is the exponent (R126). -/
def IF.legalFexpi (o : IF) : Bool := ftLe o.ty 3
/-- A relative target: MODI 0, imm32<1:0> 0 (R323). -/
def IF.legalRel (o : IF) : Bool := o.modi = 0 && o.imm.extractLsb' 0 2 = 0
/-- `call`: d6<5> 0 and DEM8 not 0 (R336). -/
def IF.legalCall (o : IF) : Bool := o.legalRel && !o.d.getLsbD 5 && o.d.extractLsb' 0 5 ≠ 0
/-- `fmark`: only CLR in MODI, and imm32 0 with it (R343). -/
def IF.legalFmark (o : IF) : Bool :=
  o.modi.extractLsb' 1 3 = 0 && (if o.modi.getLsbD 0 then o.imm = 0 else o.imm.extractLsb' 0 2 = 0)
/-- `twait` and `ttest` UI: MODI 0, imm32<31:8> 0 (R219, R220). -/
def IF.legalTok (o : IF) : Bool := o.modi = 0 && o.imm.extractLsb' 8 24 = 0
/-- `ctake` UI: only WAIT in MODI (R242). -/
def IF.legalCtake (o : IF) : Bool := o.modi.extractLsb' 1 3 = 0

/-- `fence`: d<5> 0, SCOPE not 7, KIND not 3, a and b 0 (R223). -/
def SF.legalFence (o : SF) : Bool :=
  !o.d.getLsbD 5 && o.d.extractLsb' 0 3 ≠ 7 && o.d.extractLsb' 3 2 ≠ 3 && o.a = 0 && o.b = 0
/-- `xfence`: bit 5 of both masks 0, neither mask empty, b 0 (R223). -/
def SF.legalXfence (o : SF) : Bool :=
  !o.d.getLsbD 5 && !o.a.getLsbD 5 && o.d ≠ 0 && o.a ≠ 0 && o.b = 0
/-- d, a and b all 0. -/
def SF.allZero (o : SF) : Bool := o.d = 0 && o.a = 0 && o.b = 0
/-- `bwait`: d<5:3> 0; its a and b are unused (R59, R263). -/
def SF.legalWait (o : SF) : Bool := o.d.extractLsb' 3 3 = 0
/-- `barrive`: d<5:3>, a and b 0 (R263). -/
def SF.legalSplit (o : SF) : Bool := o.legalWait && o.a = 0 && o.b = 0
/-- `sys` and `trap`: number to 15; a, b 0 (R376). -/
def SF.legalSys (o : SF) : Bool := o.d.toNat ≤ 15 && o.a = 0 && o.b = 0
/-- The register numbers `rdsr` and `wrsr` know (R381, R383). -/
def sysregKnown (n : BitVec 12) : Bool :=
  let k := n.toNat
  k ≤ 0x008 || (0x010 ≤ k && k ≤ 0x015) || (0x018 ≤ k && k ≤ 0x01A) || (0x020 ≤ k && k ≤ 0x024)
    || k = 0x030 || k = 0x031
    || (0x800 ≤ k && k ≤ 0x804) || (0x810 ≤ k && k ≤ 0x817) || (0x820 ≤ k && k ≤ 0x829)
    || k = 0x830 || k = 0x831 || (0x840 ≤ k && k ≤ 0x843)

end Sys2Proof
end

