-- ==== Sys2Proof/Machine/Num.lean ====
section
/-! DEFINITION. The integer helpers of R98 and the small number functions that several families share. -/

namespace Sys2Proof.Machine

/-- The value of a W-bit pattern, signed or not: the reading half of Val (R98). -/
def patVal (t : ITy) (p : Nat) : Int :=
  let n := p % 2 ^ t.w
  if t.signed ∧ 2 ^ (t.w - 1) ≤ n then (n : Int) - 2 ^ t.w else n

/-- The least value of a type. -/
def tyLeast (t : ITy) : Int := if t.signed then -(2 ^ (t.w - 1)) else 0
/-- The greatest value of a type. -/
def tyGreatest (t : ITy) : Int := if t.signed then 2 ^ (t.w - 1) - 1 else 2 ^ t.w - 1

/-- Fit (R98): the W-bit pattern of r, wrapped or clamped. -/
def fit (r : Int) (t : ITy) (sat : Bool) : Nat :=
  if sat then ((max (tyLeast t) (min (tyGreatest t) r)) % 2 ^ t.w).toNat else (r % 2 ^ t.w).toNat

/-- Ext (R98): a W-bit pattern extended to 64 bits, by sign or by zeros. -/
def ext64 (p : Nat) (t : ITy) : DWord := BitVec.ofInt 64 (patVal t p)

/-- Imm (R98): the 64-bit reading of imm32 under a type: sign-extended for .i64, zero-extended otherwise (of which a
narrower type uses the low bits). -/
def immOf (t : ITy) (imm : Word) : DWord :=
  if t.w = 64 ∧ t.signed then imm.signExtend 64 else imm.setWidth 64

/-- Floor of the quotient by a power of two. -/
def floorShift (x : Int) (n : Nat) : Int := x / 2 ^ n

/-- The modes of R88 applied to a non-negative rational n / d with sign: the integer magnitude. `neg` is the sign.
0 RNE, 1 RNA, 2 RTZ, 3 RUP, 4 RDN, 5 RTO. -/
def roundMag (mode : Nat) (neg : Bool) (n d : Nat) : Nat :=
  let q := n / d
  let r := n % d
  if r = 0 then q
  else match mode with
    | 0 => if 2 * r < d then q else if d < 2 * r then q + 1 else q + q % 2
    | 1 => if 2 * r < d then q else q + 1
    | 2 => q
    | 3 => if neg then q else q + 1
    | 4 => if neg then q + 1 else q
    | _ => if q % 2 = 1 then q else q + 1

/-- A rational n / d with sign rounded to an integer (R88). -/
def roundInt (mode : Nat) (neg : Bool) (n d : Nat) : Int :=
  let m := roundMag mode neg n d
  if neg then -(m : Int) else m

/-- Number of leading zero bits of a w-bit pattern (R106). -/
def clzOf (w p : Nat) : Nat := if p = 0 then w else w - 1 - p.log2

/-- Number of trailing zero bits of a w-bit pattern, by steps from bit `i` (R106). -/
def ctzFrom : Nat → Nat → Nat → Nat
  | 0, i, _ => i
  | k + 1, i, p => if p.testBit i then i else ctzFrom k (i + 1) p
/-- Trailing zero bits of a w-bit pattern; w for zero (R106). -/
def ctzOf (w p : Nat) : Nat := ctzFrom w 0 p

/-- Number of one bits among the low w (R106). -/
def popcOf : Nat → Nat → Nat
  | 0, _ => 0
  | k + 1, p => (if p.testBit k then 1 else 0) + popcOf k p

/-- The w-bit pattern reversed (R106). -/
def brevOf : Nat → Nat → Nat
  | 0, _ => 0
  | k + 1, p => brevOf k (p / 2) + (if p.testBit 0 then 2 ^ k else 0)

/-- ⌈a / b⌉. -/
def ceilDiv (a b : Nat) : Nat := (a + b - 1) / b

/-- Set or clear bit i. -/
def putBit {w : Nat} (v : BitVec w) (i : Nat) (b : Bool) : BitVec w :=
  if b then v ||| (1 <<< i) else v &&& ~~~((1 : BitVec w) <<< i)

/-- The number of a field of a value: bits hi down to lo. -/
def fieldOf {w : Nat} (v : BitVec w) (hi lo : Nat) : Nat := v.toNat / 2 ^ lo % 2 ^ (hi + 1 - lo)

/-- The sign-extended low 32 bits of a value, as an integer. -/
def sext32 (v : DWord) : Int := (v.setWidth 32).toInt

/-- Insert into a list sorted by a key, after equal keys. -/
def insertOn {α : Type} (key : α → Nat) (x : α) : List α → List α
  | [] => [x]
  | y :: ys => if key x < key y then x :: y :: ys else y :: insertOn key x ys

/-- A list sorted by a key, ascending; equal keys keep their order. -/
def sortOn {α : Type} (key : α → Nat) (xs : List α) : List α := xs.foldl (fun acc x => insertOn key x acc) []

end Sys2Proof.Machine
end

