-- ==== Sys2Proof/Machine/Sparse.lean ====
section
/-! DEFINITION. Sparse maps from Nat: lists of (key, value) with strictly rising keys and no entry equal to the default,
so that equal maps are equal lists. Memory, registers, tags, bands and tables of the state are held in this form. -/

namespace Sys2Proof.Sparse

variable {β : Type}

/-- The value at a key, or the default `d`. -/
def get (d : β) (k : Nat) : List (Nat × β) → β
  | [] => d
  | (a, v) :: m => if a = k then v else if k < a then d else get d k m

/-- The map with the key bound to a value that is not the default. -/
def insert (k : Nat) (v : β) : List (Nat × β) → List (Nat × β)
  | [] => [(k, v)]
  | (a, w) :: m => if a = k then (k, v) :: m else if k < a then (k, v) :: (a, w) :: m else (a, w) :: insert k v m

/-- The map without the key. -/
def erase (k : Nat) : List (Nat × β) → List (Nat × β)
  | [] => []
  | (a, w) :: m => if a = k then m else if k < a then (a, w) :: m else (a, w) :: erase k m

/-- Binding a key to a value, in canonical form: the default value removes the entry. -/
def set [DecidableEq β] (d : β) (k : Nat) (v : β) (m : List (Nat × β)) : List (Nat × β) :=
  if v = d then erase k m else insert k v m

/-- Binding several keys, first to last. -/
def setAll [DecidableEq β] (d : β) (kvs : List (Nat × β)) (m : List (Nat × β)) : List (Nat × β) :=
  kvs.foldl (fun acc kv => set d kv.1 kv.2 acc) m

/-- Keys strictly rising from a lower bound, and no default value. -/
def wfFrom [DecidableEq β] (d : β) : Nat → List (Nat × β) → Bool
  | _, [] => true
  | lo, (a, v) :: m => decide (lo ≤ a) && decide (v ≠ d) && wfFrom d (a + 1) m

/-- The canonical form. -/
def wf [DecidableEq β] (d : β) (m : List (Nat × β)) : Bool := wfFrom d 0 m

end Sys2Proof.Sparse
end

