-- ==== Sys2Proof/Machine/State.lean ====
section
/-! DEFINITION. The state of the device: everything the spec gives the machine, as plain data. Sparse maps are lists of
(key, value) in the canonical form of Machine/Sparse.lean. The unit that is issuing stands in front: `q` is the issuing
quire and `rest` the others; `sel` names the issuing batch. -/

namespace Sys2Proof.Machine

/-! ## A quire and what it owns (02) -/

/-- A shape tag (R30): U with the common value, A with base and least stride, G. -/
inductive Tag where
  | u (v : Word)
  | a (base stride : Word)
  | g
  deriving DecidableEq, Repr

/-- A fibre (R20). `frame` is the FRAMEID of its current frame, whose window base is %fbase (R335); `preds` holds p0 to
p7, where p0 always reads true; `o` is the operand file by number; `gather` is the gather stack, top first (R326). -/
structure Fibre where
  lane   : Nat
  pc     : DWord
  frame  : Nat
  depth  : Nat := 0
  preds  : BitVec 8 := 0
  o      : List (Nat × Word) := []
  lint   : DWord := 0
  lfp    : DWord := 0
  lsfu   : DWord := 0
  lmem   : DWord := 0
  fflags : BitVec 5 := 0
  gather : List (DWord × Nat) := []
  parked : Bool := false
  deriving DecidableEq, Repr

/-- A register frame and its link record (R335, R339). `base` is the first unit of its run in the frame pool share;
`arch` is the slice, by %quireid, and the offset of its record there when it is archived. `regs` is keyed by
register × 32 + lane; `tags` by register, a missing tag being U with value 0 (R29). `owned` is the lanes whose values belong
to a live fibre that has entered the frame; every other lane is vacant. -/
structure Frame where
  id      : Nat
  caller  : Nat := 0xFFFF
  retpc   : DWord := 0
  depth   : Nat := 0
  handler : DWord := 0
  size8   : Nat
  refs    : Word
  owned   : Word
  base    : Nat
  arch    : Option (Nat × Nat) := none
  regs    : List (Nat × Word) := []
  tags    : List (Nat × Tag) := []
  deriving DecidableEq, Repr

/-- A lane's entry of a fault record (R372). -/
structure LaneRec where
  a    : DWord := 0
  b    : DWord := 0
  c    : DWord := 0
  dflt : DWord := 0
  res  : QWord := 0
  exc  : Byte := 0
  act  : Bool := false
  setf : Byte := 0
  wr   : Bool := false
  deriving DecidableEq, Repr

/-- What `fresume.skip` writes for a trapped instruction (R377): the destination its description gives it. -/
inductive SkipDest where
  /-- No register destination. -/
  | nothing
  /-- A lane register: name, width in bits, and the latch its opcode writes. -/
  | lane (name : Name) (width : Nat) (latch : Option Latch)
  /-- A predicate under COMB. -/
  | pred (pd comb : Nat)
  /-- An s register (or an aligned pair, width 128). -/
  | sreg (n width : Nat)
  /-- A quire predicate under COMB. -/
  | kpred (kd comb : Nat)
  /-- `sys` and `trap`: s1 and s2. -/
  | sys
  deriving DecidableEq, Repr

/-- A trap as it is recorded (R370 to R372). `len` is the length of the trapping instruction in bytes, `skip` what
`fresume.skip` writes, `pc` and `frame` the batch that trapped. -/
structure Trap where
  code   : Nat
  inner  : Nat := 0
  eng    : Bool := false
  sup    : Bool := false
  epc    : DWord
  elanes : Word := 0
  eaddr  : DWord := 0
  tok    : Option Nat := none
  who    : DWord := 0
  info   : DWord := 0
  prog   : DWord := 0
  lanes  : List (Nat × LaneRec) := []
  len    : Nat := 4
  skip   : SkipDest := .nothing
  pc     : DWord := 0
  frame  : Nat := 0
  deriving DecidableEq, Repr

/-- The five trap registers (R370). -/
structure TrapRegs where
  cause  : DWord := 0
  epc    : DWord := 0
  elanes : DWord := 0
  eaddr  : DWord := 0
  etok   : DWord := 0
  deriving DecidableEq, Repr

/-- A token (R38): outstanding count, status, and the first partial record since the count rose from 0; `launch` says that a
`slaunch` has named it since then (R310). -/
structure Token where
  count  : Nat := 0
  status : BitVec 2 := 0
  record : Option Trap := none
  launch : Bool := false
  deriving DecidableEq, Repr

/-- What completes with the updates that a batch waits for: `subscribe` writes its handle to an s register; `unsub` frees the
entry and sets k1; `sflush` sets k1 (R250, R253, R254). -/
inductive DrainEnd where
  | primed (reg : Nat) (handle : DWord)
  | unsubbed (sub : Nat)
  | flushed
  deriving DecidableEq, Repr

/-- Why a batch is blocked (R22, R319). Those of the first group are issued again when their condition holds; the
others end when another event completes them. -/
inductive WaitKind where
  /-- `twait`: every token of the mask has count 0 (R219). -/
  | tokens (mask : Nat)
  /-- A token at count 63 (R38). -/
  | tokenFull (t : Nat)
  /-- The cluster's copy queue is full (R216). -/
  | copyQueue
  /-- A power permit for the `cpm` that the batch will start (R18, R216). -/
  | permit (op : Nat)
  /-- A free run of units for `call` (R337). -/
  | frameRun (u : Nat)
  /-- A free run for the refill of a frame into which `ret` or `unwind` takes some lanes (R341). -/
  | refill (frame : Nat) (lanes : Word)
  /-- `bwait`: split barrier `i` has passed generation `gen` (R263). -/
  | split (i gen : Nat)
  /-- Room in the target die's launch queue (R310). -/
  | launch (die : Nat)
  /-- Queue push (of a handle) or pop (into an s register) on the descriptor at a place, in the order of waiting (R273); place 0 once
  that descriptor has broken (R268, R278). -/
  | queue (loc : Nat) (push : Bool) (reg : Nat) (handle : DWord)
  /-- A full barrier (R262). -/
  | barrier (vol : Bool)
  /-- The quire's engine operation, or one on this band, is in flight (R153). -/
  | engine (band : Option Nat)
  /-- Gang rendezvous of `mma` or `mdist` (R169). -/
  | rendezvous
  /-- `ctake` with WAIT or a take that goes to the home (R244, R245). -/
  | counter (pa : Nat)
  /-- `cexact` or `cdrop`: recall of the allowances (R246). -/
  | recall (pa : Nat)
  /-- `subscribe`, `unsub` or `sflush` waits until the updates it sent have been written (R250, R253, R254). -/
  | drain (updates : List Nat) (fin : DrainEnd)
  /-- `msend`: until numbered (R404). -/
  | msend
  /-- `mrecv`: until a message arrives (R404). -/
  | mrecv
  /-- `tlbctl`: until the COMMIT of the shoot-down of this name (R385). -/
  | shootdown (id : Nat)
  /-- `ckcommit` (R415). -/
  | ckcommit
  /-- `pause` (R276). -/
  | pause
  /-- An access whose home cannot be reached (R409, R411), with the lanes that make it where they are not all of its trap's. -/
  | reach (pa : Nat) (lanes : Word := 0)
  /-- A fetch whose home cannot be reached. -/
  | fetch (pa : Nat)
  /-- A release at this scope, or of all of a folio's quires (7), with a store or a dirty line whose home cannot be reached now
  (R207, R295, R312). -/
  | flush (scope : Nat)
  /-- A trap of a rendezvous, taken once an earlier fault of the quire has been resolved (R169, R368). -/
  | due (code : Nat)
  deriving DecidableEq, Repr

/-- A blocked batch: its pc and frame, why it waits, its place in the order of waiting, and the length and the words of the
instruction it waits in, which it goes on with (R66). `trap` is the record that a trap of that instruction would have, but for its
cause (R371, R372). -/
structure Wait where
  pc    : DWord
  frame : Nat
  kind  : WaitKind
  seq   : Nat
  len   : Nat
  word  : Word × Word := (0, 0)
  trap  : Trap := { code := 0, epc := 0 }
  deriving DecidableEq, Repr

/-- A quire (R24). `uid` is the model's name of the resident quire (0: no quire), `slot` its quire slot. `tvec` and
`inFlag` belong to a curator (R383, R384); `yielded` says that the quire's last instruction was a `yield` (R320); `passed` that an older
one of another sub-scheduler has taken the port that it asked for (R317). -/
structure Quire where
  uid     : Nat := 0
  fid     : Nat := 0
  quireid : Nat := 0
  slot    : Nat := 0
  fibres  : List Fibre := []
  frames  : List Frame := []
  s       : List (Nat × DWord) := []
  k       : BitVec 8 := 0
  toks    : List (Nat × Token) := []
  bands   : List (Nat × QWord) := []
  gang    : Word := 0
  frm     : BitVec 3 := 0
  ftrap   : BitVec 5 := 0
  mflags  : BitVec 3 := 0
  mprog   : Word := 0
  splitP  : BitVec 8 := 0
  splitG  : List (Nat × Nat) := []
  stamp   : Nat := 0
  waits   : List Wait := []
  held    : Option Nat := none
  pend    : Option Trap := none
  tregs   : TrapRegs := {}
  tvec    : DWord := 0
  inFlag  : Bool := false
  yielded : Bool := false
  passed  : Bool := false
  deriving DecidableEq, Repr

/-! ## Folios, volumes, collections (02, 15) -/

/-- A connection register that is set (R221): process, own channel, peer die and package, and the peer's incarnation at
`cconn`; `sends` and `recvs` count the operations issued on it. -/
structure Conn where
  asid   : Nat
  chan   : Nat
  die    : Nat
  pkg    : Nat
  incarn : Nat
  sends  : Nat := 0
  recvs  : Nat := 0
  deriving DecidableEq, Repr

/-- What a folio runs as (R367, R373, R384). -/
inductive FolioKind where
  | normal
  /-- A handler folio for the held fault of this index on its die; `gen` is the fault's generation. -/
  | handler (index gen : Nat)
  /-- The curator of this number of its die. -/
  | curator (index : Nat)
  deriving DecidableEq, Repr

/-- A release as those read it that synchronise with it (R286 to R288): its party, its scope, the clock at which it was made, and
what happens before it: no read of a core path behind it is older than `acq`, nor one of a byte than its clock in `coh`, and the
stores that `owed` names, of each quire those before a name, come first. -/
structure Rel where
  uid   : Nat
  fid   : Nat
  vid   : Nat
  die   : Nat
  scope : Nat
  time  : Nat
  acq   : Nat := 0
  coh   : List (Nat × Nat) := []
  owed  : List (Nat × Nat) := []
  deriving DecidableEq, Repr

/-- One barrier (R260 to R263): the generation, the arrivals in it by quire with their releases, and the releases of the generation that has
completed last (R264). -/
structure Barrier where
  gen     : Nat := 0
  arrived : List Nat := []
  rels    : List Rel := []
  past    : List Rel := []
  deriving DecidableEq, Repr

/-- A resident folio. `fid` is the model's name of this residency, never used again: it also names the scratchpad
allocation, so it stands for the generation of R211 (log 3). `record` is the launch record, as 2048 bits (R307). -/
structure Folio where
  fid     : Nat
  die     : Nat
  core    : Nat
  qbase   : Nat
  qcnt    : Nat
  folioid : Nat
  vid     : Nat
  coll    : Nat := 0
  shelf   : Nat := 0
  shelfid : Word := 0
  vol     : DWord := 0
  asid    : Nat := 0
  sup     : Bool := false
  kind    : FolioKind := .normal
  record  : BitVec 2048 := 0
  carve   : BitVec 29 := 0
  conns   : List (Nat × Option Conn) := []
  bar     : Barrier := {}
  splits  : List (Nat × Barrier) := []
  carveRq : Option (DWord × Nat) := none
  ended   : Bool := false
  deriving DecidableEq, Repr

/-- A volume with at least one resident folio; `members` are the folios by %folioid (R24, R188). -/
structure Volume where
  vid     : Nat
  members : List (Nat × Nat)
  bar     : Barrier := {}
  splits  : List (Nat × Barrier) := []
  exited  : List Nat := []
  deriving DecidableEq, Repr

/-- Where a volume of a shelf stands (R314, R315); `requeued` waits again, on a compute die, after the loss of its die
(R412). -/
inductive VolState where
  | waiting
  | requeued (die : Nat)
  | bound (vgid : Nat)
  | resident
  | saved
  | done
  | dropped
  deriving DecidableEq, Repr

/-- A shelf of an enqueued collection: its record, the states of its volumes by linear index, the positions whose folios
have completed, and those dropped. -/
structure Shelf where
  record : BitVec 2048
  vols   : List (Nat × VolState) := []
  done   : Nat := 0
  deriving DecidableEq, Repr

/-- An enqueued collection (R310, R42). `token` is the launching quire and its token; `lq` the die whose LQDONE counts it;
`order` the place in the order of enqueueing and `qent` the
launch queue entry (R313); `status` the precedence status gathered so far. -/
structure Coll where
  uid     : Nat
  die     : Nat
  number  : Nat
  asid    : Nat
  sup     : Bool
  prio    : Nat
  order   : Nat
  qent    : Nat := 0
  shelves : List Shelf
  token   : Option (Nat × Nat) := none
  lq      : Option Nat := none
  status  : BitVec 2 := 0
  deriving DecidableEq, Repr

/-- A record of the slot table (R313), at index core × 32 + QBASE of its die. -/
structure Bind where
  coll    : Nat
  shelf   : Nat
  volIdx  : Nat
  folioid : Nat
  qbase   : Nat
  qcnt    : Nat
  core    : Nat
  vgid    : Nat
  state   : Nat
  carve   : BitVec 29
  deriving DecidableEq, Repr

/-! ## Faults held and delivered (19) -/

/-- Who holds a fault (R368): a quire, a copy operation or a matrix operation. -/
inductive Holder where
  | quire (uid : Nat)
  | copy (op : Nat)
  | matrix (op : Nat)
  deriving DecidableEq, Repr

/-- An operation that waits for a power permit (R18): `cpm`, `mma` or `mdist`, `ckshard`. -/
inductive Heavy where
  | copy (op : Nat)
  | matrix (op : Nat)
  | shard (op : Nat)
  deriving DecidableEq, Repr

/-- An entry of a die's held-fault table (R369). `server` is the handler folio it was delivered to, none while it waits
for one or when it went to the kernel instance; `kernel` says that the kernel instance has it, and `at_` where its record lies in
the die's trap queue in memory (R373). -/
structure HeldFault where
  index  : Nat
  gen    : Nat
  holder : Holder
  trap   : Trap
  fid    : Nat
  server : Option Nat := none
  kernel : Bool := false
  at_    : Option Nat := none
  deriving DecidableEq, Repr

/-! ## Memory side (09, 13, 18) -/

/-- A line held on a die away from its home (R295, R296): the key id of its page, its 64 bytes, the mask of those
written here, the clock at which each of those was last written here, and the spaces and virtual addresses through which the die has
come to hold it. -/
structure Copy where
  line  : Nat
  kid   : Nat
  bytes : BitVec 512
  dirty : BitVec 64
  times : List (Nat × Nat) := []
  vas   : List (Nat × Nat) := []
  deriving DecidableEq, Repr

/-- A cache of leaves (R360): the L1 TLB of a core, the TLB of a cluster, the cache of one of a cluster's two copy engines, by
cluster × 2 + engine, or of a core's matrix engine, by the core. -/
inductive TlbPlace where
  | l1 (core : Nat)
  | cluster (c : Nat)
  | copy (c : Nat)
  | matrix (core : Nat)
  deriving DecidableEq, Repr

/-- A cached leaf of a die (R360): the cache that holds it, the space, first virtual address and size in bytes, and the entry. -/
structure TlbEntry where
  place : TlbPlace
  asid  : Nat
  va    : Nat
  size  : Nat
  entry : DWord
  deriving DecidableEq, Repr

/-- What the page of an access gives it (R195, R355, R359): on-chip home, key id, REPL, and the space and virtual address by which it was
named; and the retention hint of the access (R196). -/
structure Attr where
  home : Nat := 0
  kid  : Nat := 0
  repl : Bool := false
  hint : Nat := 0
  asid : Nat := 0
  va   : Nat := 0
  deriving DecidableEq, Repr

/-- Where a store of the core path goes (R188, R189): a physical address, or an offset in a scratchpad allocation. -/
inductive Place where
  | mem (x : Attr) (pa : Nat)
  | scratch (fid off : Nat)
  deriving DecidableEq, Repr

/-- A store of the core path that no other party has seen yet (R286, R290): its name, the quire, the lane of its fibre (0 of a
uniform word), its die, one element of at most 8 bytes (R282), and the releases that it carries (R288). -/
structure Store where
  id    : Nat := 0
  from_ : Nat
  lane  : Nat := 0
  die   : Nat
  dest  : Place
  bytes : List Byte
  rels  : List Rel := []
  deriving DecidableEq, Repr

/-- A value that a byte had (R284): the clock at which it gave way, and the write that replaced it: the die of its party, 8 where it
counts as one of every die, 9 of an engine's write, 10 of an update of a subscription, and the releases that it carries (R288). -/
structure Past where
  time : Nat
  old  : Byte
  die  : Nat := 8
  rels : List Rel := []
  deriving DecidableEq, Repr

/-- What some reads have read (R288, R294): the releases that their writes carry, and the clocks of the latest of those writes, by a
party of the die, and by any. -/
structure Seen where
  rels : List Rel := []
  die  : Nat := 0
  pkg  : Nat := 0
  deriving DecidableEq, Repr

/-- What orders the accesses of a quire (R286 to R290): no read of the core path is older than the clock `acq`, nor one of an engine
path (1 copy, 2 matrix, 3 network tile) than its clock in `paths`, nor one of a byte on a path than its clock in `coh`, by path ×
2^80 and place; the stores in `owed`, of each quire those before a name, happen before what the quire does next; `wrote` has the
clocks at which its own writes were performed, by place; `pub` are its release fences in force, `seen` what its reads have read, and
`got` what those of the latest reading instruction have. -/
structure View where
  acq   : Nat := 0
  coh   : List (Nat × Nat) := []
  paths : List (Nat × Nat) := []
  owed  : List (Nat × Nat) := []
  wrote : List (Nat × Nat) := []
  pub   : List Rel := []
  seen  : Seen := {}
  got   : Seen := {}
  deriving DecidableEq, Repr

/-- A `red` partial of one element of a line (R237): the core whose L1 holds it, or `partialDie` for the partial in the die's
L2 slice; operation and lane type as coded; byte address, key id of its page, value, and the releases that its updates carry (R281). -/
structure Partial where
  die  : Nat
  core : Nat
  pa   : Nat
  kid  : Nat
  aop  : Nat
  aty  : BitVec 3
  val  : Nat
  rels : List Rel := []
  deriving DecidableEq, Repr

/-- What a request at a counter's home asks (R244 to R247): a take, waiting or not; a give; `cexact` and `cdrop` with the s
register that takes the value. -/
inductive CAsk where
  | take (waits : Bool)
  | give
  | exact (reg : Nat)
  | drop (reg : Nat)
  deriving DecidableEq, Repr

/-- A request at a counter's home: the batch that waits for it, its cluster as a holder bit, and the amount. -/
structure CReq where
  quire  : Nat
  pc     : DWord
  frame  : Nat
  ask    : CAsk
  holder : Nat
  amount : Nat
  deriving DecidableEq, Repr

/-- A live counter (R241): the fields of its descriptor; the allowance in each holder's cluster cache, and what the home last knew
of it (R244, R249), both by holder bit; the requests that have reached the home, and the waiters, oldest first; the release of its
latest `cexact` (R298). `gone` marks a counter that was lost with its home die (R249). -/
structure Counter where
  pa      : Nat
  kid     : Nat
  w64     : Bool
  init    : Nat
  cmask   : BitVec 64
  share   : Nat
  cap     : Nat
  reserve : Nat
  lost    : Nat := 0
  loss    : Bool := false
  sat     : Bool := false
  rels    : List Rel := []
  allow   : List (Nat × Nat) := []
  known   : List (Nat × Nat) := []
  reqs    : List CReq := []
  waiters : List CReq := []
  gone    : Bool := false
  deriving DecidableEq, Repr

/-- A subscription (R250, R251): the source folio and the entry of its core's table with its generation, the subscriber folio,
offsets and length, the granule's log, and the forwarding buffer: source offsets of granules with their bytes and the quire that
stored them last, oldest first. `closing` says that `unsub` has flushed it. -/
structure Sub where
  id      : Nat
  src     : Nat
  entry   : Nat
  gen     : Nat
  dst     : Nat
  soff    : Nat
  doff    : Nat
  len     : Nat
  glog    : Nat
  buf     : List (Nat × List Byte × Nat) := []
  closing : Bool := false
  deriving DecidableEq, Repr

/-! ## Asynchronous operations (07, 10, 11) -/

/-- A copy in flight (R215 to R218): the captured operands, the copy engine of its cluster, the release fences before it (R288), the
first linear offset not yet written, the scratchpad allocations of its volume (member, allocation, core), the limits below which
those that have shrunk since keep their generation (R275), the permit, whether it has started (its token counts it), whether bytes
were dropped because an allocation has ended (R211), whether it resumes after a fault (R397), and its fault. -/
structure CopyOp where
  id       : Nat
  quire    : Nat
  fid      : Nat
  members  : List (Nat × Nat × Nat)
  src      : DWord
  dst      : DWord
  spitch   : DWord
  dpitch   : DWord
  rowBytes : Nat
  rows     : Nat
  sws      : Bool
  swd      : Bool
  slot     : QWord
  hint     : Nat
  mask     : Option Nat
  tok      : Nat
  epc      : DWord
  elanes   : Word
  engine   : Nat := 0
  rels     : List Rel := []
  pos      : Nat := 0
  cuts     : List (Nat × Nat) := []
  permit   : Bool := true
  started  : Bool := true
  late     : Bool := false
  resumed  : Bool := false
  held     : Option Nat := none
  pend     : Option Trap := none
  deriving DecidableEq, Repr

/-- A posted `tsend` or `trecv` (R222): its endpoint's folio and die and the peer, its place among the operations of the connection,
the tile; `cut` is the limit below which its bytes still belong to the allocation's generation, once a shrink has taken the rest
(R275); `rels` the release fences before it (R288). -/
structure TileOp where
  id    : Nat
  send  : Bool
  quire : Nat
  fid   : Nat
  die   : Nat
  conn  : Conn
  index : Nat
  off   : Nat
  len   : Nat
  tok   : Nat
  cut   : Nat := 2 ^ 19
  rels  : List Rel := []
  deriving DecidableEq, Repr

/-- A write on its way to a scratchpad (R211): its name and the quire that sent it (of an update, the one whose store it forwards, R285;
of a priming update, none), the allocation it was issued towards and the core that held it, the offset, the bytes, whether the data is
poisoned (R375), the subscription that forwarded it, and the releases that it carries (R288). -/
structure Inbound where
  id    : Nat
  from_ : Nat
  fid   : Nat
  die   : Nat
  core  : Nat
  off   : Nat
  bytes : List Byte
  bad   : Bool := false
  sub   : Option Nat := none
  rels  : List Rel := []
  deriving DecidableEq, Repr

/-- One member of a matrix operation: what it captured at issue (R152), its token as that stood before, and the trap that a
failed rendezvous raises in it (R169), and the flags of the completed chunks. -/
structure MatMember where
  quire   : Nat
  quireid : Nat
  band    : Nat
  abase   : DWord
  astride : DWord
  rowA    : Nat
  tok     : Nat
  saved   : Token
  trap    : Trap
  flags   : BitVec 3 := 0
  deriving DecidableEq, Repr

/-- A matrix operation (R152 to R171): its members, the shared fields, how far it has come.
While `latch` holds it is one member's part, waiting in the rendezvous latch with the mask it captured. -/
structure MatOp where
  id      : Nat
  fid     : Nat
  members : List MatMember
  mask    : Word
  latch   : Bool
  dist    : Bool
  clr     : Bool
  aslot   : Nat
  bslot   : Nat
  k       : Nat
  bbase   : DWord
  bstride : DWord
  rowB    : Nat
  kblk    : Nat
  chunk   : Nat := 0
  permit  : Bool := false
  resumed : Bool := false
  held    : Option Nat := none
  pend    : Option Trap := none
  deriving DecidableEq, Repr

/-! ## Dies, links, the channel (01, 21) -/

/-- What a message is to the hardware: nothing (kernel-defined, R404), an EVICT of a die or package and its incarnation
(R405; `target` is the die, or 64 + the package), an ADMIT of one (R407), the CKCOMMIT of a generation (R415), or an INVAL (R362: its name;
the space, none for all; the range; WB). -/
inductive MsgBody where
  | kernel
  | evict (target incarn : Nat)
  | admission (target : Nat)
  | ckcommit (gen : DWord)
  | inval (id : Nat) (asid : Option Nat) (lo len : Nat) (wb : Bool)
  deriving DecidableEq, Repr

/-- A message of the circulation channel (R403): sender, scope, type, payload; SEQ once numbered. `sender` is the batch that
waits for its number, with the register that takes it: quire, pc, frame, s register. -/
structure Msg where
  seq     : DWord := 0
  dom     : Bool
  type    : Nat
  pkg     : Nat
  die     : Nat
  incarn  : Nat
  payload : List Byte := []
  body    : MsgBody := .kernel
  sender  : Option (Nat × DWord × Nat × Nat) := none
  deriving DecidableEq, Repr

/-- A shoot-down in progress (R362): its name and number, initiator, space (none: all), range, WB, and the
dies that still owe an ACK: those that have not dropped their entries, and those whose ACK is on its way. -/
structure Shoot where
  id      : Nat
  seq     : Nat
  die     : Nat
  asid    : Option Nat
  lo      : Nat
  len     : Nat
  wb      : Bool
  todo    : List Nat
  acks    : List Nat
  deriving DecidableEq, Repr

/-- A SHAKE256 sponge that absorbs (FIPS 202): its 1600 bits and the place of the next byte in the block. -/
structure Sponge where
  bits : BitVec 1600 := 0
  pos  : Nat := 0
  deriving DecidableEq, Repr

/-- A generation open on a die (R415): number, space, dies admitted at `ckbegin`, the stream position, the sponge of the running digest,
whether a shard failed and why, the tokens named, and the batch that has committed. -/
structure Ckpt where
  gen      : DWord
  asid     : Nat
  dies     : List Nat
  pos      : Nat := 64
  digest   : Sponge := {}
  fail     : Option Nat := none
  toks     : List (Nat × Nat) := []
  commit   : Option (Nat × Nat) := none
  deriving DecidableEq, Repr

/-- A `ckshard` in progress (R415). -/
structure ShardOp where
  id     : Nat
  die    : Nat
  quire  : Nat
  asid   : Nat
  start  : Nat
  len    : Nat
  tok    : Nat
  permit : Bool := false
  deriving DecidableEq, Repr

/-- A link of a die (R420, R421). `port` is 0 to 3 for UCIe, 16 + port for scale-up; `buffer` counts the flits of the
retry buffer, `map` the lanes that spares carry, `detour` the die over which a failed link's traffic goes (R422). -/
structure Link where
  die     : Nat
  port    : Nat
  peer    : Option Nat
  retry   : Nat := 0
  spares  : BitVec 4 := 0
  width   : Nat := 0
  state   : Nat := 0
  bad     : Nat := 0
  map     : List (Nat × Nat) := []
  trained : Bool := true
  buffer  : Nat := 0
  detour  : Option Nat := none
  deriving DecidableEq, Repr

/-- A compute die, or the processor die (index 4). `mgmt` holds the management registers by number (R383); `late` the late-arrival
counters by core (R211); `gens` the generations of the held-fault entries (R369); `pend130` and `pend131` the asynchronous causes
pending in each curator, by its number (R384); `rehome` the replicated range as it stood at the die's eviction: RBASE and RLEN
(R410). `dir` is the die directory: the clusters that may hold lines of a 512-byte region; `filt` the core filters: the cores of a
cluster that may hold a line, by cluster × 2^46 + line (R197); `clines` the lines that the cluster caches hold, by the same number,
1 for clean and shared, 2 for dirty or exclusive (R192); `pins` the lines in the pinned ways of its L2 slices (R195). `trapN` counts
the records appended to the trap queue in memory (R373); `targets` the clusters assigned to units that wait for space: collection,
shelf, volume index, cluster (R315). -/
structure Die where
  admitted : Bool := false
  failed   : Bool := false
  incarn   : BitVec 32 := 1
  mgmt     : List (Nat × DWord) := []
  late     : List (Nat × Nat) := []
  soft     : Nat := 0
  colls    : Nat := 0
  slots    : List Bind := []
  held     : List HeldFault := []
  gens     : List (Nat × Nat) := []
  trapQ    : List HeldFault := []
  trapN    : Nat := 0
  handlers : List HeldFault := []
  pend130  : Bool := false
  pend131  : List Nat := []
  tlb      : List TlbEntry := []
  copies   : List Copy := []
  dir      : List (Nat × BitVec 16) := []
  filt     : List (Nat × BitVec 24) := []
  clines   : List (Nat × Nat) := []
  pins     : List Nat := []
  recv     : List Msg := []
  ckpt     : Option Ckpt := none
  rehome   : Option (Nat × Nat) := none
  targets  : List (Nat × Nat × Nat × Nat) := []
  deriving DecidableEq, Repr

/-- A key slot of the package (R383): the data key and the tweak key. -/
structure Key where
  data  : BitVec 256
  tweak : BitVec 256
  deriving DecidableEq, Repr

/-- A firmware image at a source (R15, R16): the signed bytes, which hold the security version and the kernel's entry (log 117), and
their ML-DSA-65 signature. -/
structure Image where
  sig   : List Byte
  bytes : List Byte
  deriving DecidableEq, Repr

/-- Where bring-up stands (R15 to R17). -/
inductive Boot where
  | off
  | refetch (tries : Nat)
  | running
  | tripped
  deriving DecidableEq, Repr

/-- The part (R10). -/
inductive Part where
  | q960 | q940 | q920
  deriving DecidableEq, Repr

/-- A saved unit (R386 to R391): its folios and quires as they stood (what its images in memory hold is read back from there), the
first address and the key id of each folio's image, what the save or a later event has written into it, by folio, in front of its
bands and behind its scratchpad, its live subscription entries, and whether it still waits for remap entries (R390 at step 7). -/
structure Saved where
  folios : List Folio
  quires : List Quire
  volume : Volume
  coll   : Nat
  images : List (Nat × Nat × Nat) := []
  wrote  : List (Nat × List Byte × List Byte) := []
  subs   : List Sub := []
  step7  : Bool := false
  deriving DecidableEq, Repr

/-- A remap entry of a core (R390): the saved allocation, which is the generation, its length in bytes, the physical address of the
image's scratchpad section, and how many inbound operations are still to come. -/
structure Remap where
  die   : Nat
  core  : Nat
  fid   : Nat
  len   : Nat
  base  : Nat
  outst : Nat
  deriving DecidableEq, Repr

/-- A completion bit whose home cannot be reached yet (R312): the die and the space of its folio, whether that is a supervisor's, the byte's
address, the bit, and the releases that it is. -/
structure OwedBit where
  die  : Nat
  asid : Nat
  sup  : Bool
  va   : Nat
  bit  : Nat
  rels : List Rel
  deriving DecidableEq, Repr

/-! ## The machine -/

/-- The state. `sel` is the issuing batch: its pc and frame (R21), `word` the words of the instruction that it runs (R66). `mem`
holds every byte of the 52-bit physical space and, above it, every scratchpad allocation (Machine/Memory.lean, `scratchLoc`); an
unlisted byte reads 0. `subGens` holds the generations of the subscription tables' entries, by die, core and entry (R250). `lineKey`
is the key a line was last written under (R359), `class_` the retention class + 1 of the lines that a die's caches hold, with the
clock of the last use, by die × 2^46 + line (R196); `shadow` the values that the memory side may still hold under a written byte, as
a mask of 256 bits by address (R214). `stores` are the stores that only their quire has seen; `hist` the values that bytes had,
latest first, by place; `views` what orders each quire's reads; `backs` the dies whose write-back last gave a byte its value, with
the clock (R296); `holders` the compute dies and the packages that may hold copies of a 2 KiB region, at its home (R198); `bits`
completion bits whose home cannot be reached yet (R312). `tick` counts the free values drawn, `clock` the steps, `order` the places
given in orders of arrival, `next` the names given; `misses` counts missed heartbeats by observing die × 256 + the die, or + 64 +
the package, that is silent (R405); `deadPkgs` the packages that have failed (R411), `outcast` says that the domain has evicted this
one, which does not know yet (R407, R422), `pkgGen` how often each other package has been evicted (R413); `romKey` is the public key
of the ROM and `minVer` the fused minimum version, `measure` the measurement register (R15); `lqWait` holds the LQCTL writes that
wait: the die, the value, and the quire that wrote it, 0 for an RV64 core (R383); `inputs` are external events that have not yet
arrived. -/
structure State where
  q        : Quire := {}
  rest     : List Quire := []
  sel      : DWord × Nat := (0, 0)
  word     : Word × Word := (0, 0)
  folios   : List Folio := []
  volumes  : List Volume := []
  colls    : List Coll := []
  saved    : List Saved := []
  remaps   : List Remap := []
  dies     : List Die := []
  mem      : List Host.Cell := []
  lineKey  : List (Nat × Nat) := []
  class_   : List (Nat × Nat × Nat) := []
  shadow   : List (Nat × BitVec 256) := []
  stores   : List Store := []
  hist     : List (Nat × List Past) := []
  views    : List (Nat × View) := []
  backs    : List (Nat × Nat × Nat) := []
  holders  : List (Nat × BitVec 4 × BitVec 64) := []
  bits     : List OwedBit := []
  poison   : List Nat := []
  bad      : List BadCell := []
  partials : List Partial := []
  counters : List Counter := []
  subs     : List Sub := []
  subGens  : List (Nat × Nat) := []
  copies   : List CopyOp := []
  tiles    : List TileOp := []
  inbound  : List Inbound := []
  matops   : List MatOp := []
  permits  : List Heavy := []
  shards   : List ShardOp := []
  shoots   : List Shoot := []
  msgs     : List Msg := []
  links    : List Link := []
  keys     : List (Nat × Option Key) := []
  part     : Part := .q960
  pkgid    : Nat := 0
  pkgs     : BitVec 64 := 1
  everPkgs : BitVec 64 := 1
  deadPkgs : BitVec 64 := 0
  outcast  : Bool := false
  pkgGen   : List (Nat × Nat) := []
  epoch    : BitVec 16 := 1
  pkgSeq   : DWord := 0
  domSeq   : DWord := 0
  misses   : List (Nat × Nat) := []
  lqWait   : List (Nat × DWord × Nat) := []
  boot     : Boot := .off
  images   : List Image := []
  minVer   : Nat := 0
  romKey   : List Byte := []
  measure  : Nat := 0
  hot      : Bool := false
  tick     : Nat := 0
  clock    : Nat := 0
  order    : Nat := 0
  next     : Nat := 1
  inputs   : List Instr := []
  deriving DecidableEq, Repr

/-- Why the machine stops. -/
inductive Fault where
  /-- Raised by every step and event once the package has removed its own power at a thermal trip (R19); the spec gives no
  way on. Safe: nothing can be proved of what the hardware does afterwards. -/
  | powerRemoved
  deriving DecidableEq, Repr

/-- Why a step has no meaning. -/
inductive Refusal where
  /-- Raised only by an arm of exec whose instruction has no meaning yet. Safe: no claim can be proved of such a step. -/
  | notModelled (mnemonic : String)
  deriving DecidableEq, Repr

/-- Four compute dies and the processor die, before power-on: none admitted, every register at its reset value. -/
def State.reset : State :=
  { dies := [{}, {}, {}, {}, {}] }

end Sys2Proof.Machine
end

