-- ==== Sys2Proof/Machine/Bytes.lean ====
section
/-! DEFINITION. Bytes: the places of memory and scratchpads, the values they had, homes and replicas, and keys (R1, R188, R189, R359,
R410). -/

namespace Sys2Proof.Machine

/-! ## Dies and choices -/

/-- Die `d`, or a die that is not there. -/
def State.die (s : State) (d : Nat) : Die := s.dies.getD d {}
/-- Change die `d`. -/
def State.modDie (s : State) (d : Nat) (f : Die → Die) : State :=
  { s with dies := s.dies.mapIdx (fun i x => if i = d then f x else x) }

/-- A free choice below `n` at this tick, for the use `salt`. -/
def State.choose (s : State) (salt n : Nat) : Nat := Config.choice s.tick salt % n

/-! ## Bytes (R1, R188, R189) -/

/-- The canonical form of memory. -/
abbrev Memory.wf (m : List Host.Cell) : Bool := Sparse.wf (0 : Byte) m

/-- The place of a byte of a scratchpad allocation, above the 52-bit physical space (R188; log 3). -/
def scratchLoc (fid off : Nat) : Nat := 2 ^ 52 + fid * 2 ^ 19 + off

/-- The byte at a place; a place that nothing has written reads 0 (log 2). -/
def State.byte (s : State) (loc : Nat) : Byte := Sparse.get 0 loc s.mem
/-- Write the byte at a place. -/
def State.putByte (s : State) (loc : Nat) (v : Byte) : State := { s with mem := Sparse.set 0 loc v s.mem }

/-- The bytes of a number, least significant first (R1). -/
def leBytes : Nat → Nat → List Byte
  | 0, _ => []
  | n + 1, v => BitVec.ofNat 8 v :: leBytes n (v / 256)
/-- The number of some bytes, least significant first (R1). -/
def leNat : List Byte → Nat
  | [] => 0
  | b :: bs => b.toNat + 256 * leNat bs

/-- Write bytes at consecutive places. -/
def State.putBytes (s : State) (loc : Nat) (bs : List Byte) : State :=
  { s with mem := Sparse.setAll 0 (bs.mapIdx (fun i b => (loc + i, b))) s.mem }

/-! ## The values that bytes had (R286, R290) -/

/-- The history with the values that some bytes at a place give way to: an entry for each byte that changes. -/
def State.noted (s : State) (key : Nat) (old new : List Byte) : List (Nat × List Past) :=
  ((old.zip new).zipIdx).foldl (fun h x =>
    if x.1.1 = x.1.2 then h else Sparse.set [] (key + x.2) ({ time := s.clock, old := x.1.1 } :: Sparse.get [] (key + x.2) h) h) s.hist

/-- The bytes at consecutive places. -/
def State.bytesAt (s : State) (loc n : Nat) : List Byte := (List.range n).map (fun i => s.byte (loc + i))

/-- Write bytes at consecutive places, whose earlier values may still be read by a party that nothing orders behind the write. -/
def State.write (s : State) (loc : Nat) (bs : List Byte) : State :=
  { s with mem := (s.putBytes loc bs).mem, hist := s.noted loc (s.bytesAt loc bs.length) bs }

/-- The clock behind everything that has happened. -/
def State.now (s : State) : Nat := s.clock + 1

/-- The value that a byte had at a clock, of a byte that has the value `cur` now. -/
def State.valueAt (s : State) (key t : Nat) (cur : Byte) : Byte :=
  match ((Sparse.get [] key s.hist).filter (fun x => t ≤ x.time)).getLast? with
  | some x => x.old
  | none => cur

/-- The write that gave a byte the value it had at a clock, where it is known (R284). -/
def State.lastWrite (s : State) (key t : Nat) : Option Past := (Sparse.get [] key s.hist).find? (fun x => x.time < t)
/-- The releases that the latest write to a byte carries. -/
def State.relsAt (s : State) (key : Nat) : List Rel := ((s.lastWrite key s.now).map (·.rels)).getD []

/-- The party and the releases of the write that has just given a byte its value `cur`, for those who read from it (R284, R288). A
write that changed nothing has no entry of its own, unless it carries a release. -/
def tagHist (clock key : Nat) (cur : Byte) (die : Nat) (rels : List Rel) (h : List (Nat × List Past)) : List (Nat × List Past) :=
  match Sparse.get [] key h with
  | x :: xs =>
    if x.time = clock then Sparse.set [] key ({ x with die := die, rels := rels } :: xs) h
    else if rels = [] then h
    else Sparse.set [] key ({ time := clock, old := cur, die := die, rels := rels } :: x :: xs) h
  | [] => if rels = [] then h else Sparse.set [] key [{ time := clock, old := cur, die := die, rels := rels }] h
/-- The same for consecutive bytes. -/
def State.tagged (s : State) (key : Nat) (bs : List Byte) (die : Nat) (rels : List Rel) : State :=
  { s with hist := bs.zipIdx.foldl (fun h b => tagHist s.clock (key + b.2) b.1 die rels h) s.hist }
/-- The history in which consecutive bytes give way to values that are not known yet: those that a line's next copy takes (R291). -/
def State.cutHist (s : State) (key : Nat) (bs : List Byte) : List (Nat × List Past) :=
  bs.zipIdx.foldl (fun h b => Sparse.set [] (key + b.2) ({ time := s.clock, old := b.1 } :: Sparse.get [] (key + b.2) h) h) s.hist
/-- Places that keep no earlier values. -/
def State.forget (s : State) (key n : Nat) : State := { s with hist := s.hist.filter (fun x => !(key ≤ x.1 && x.1 < key + n)) }

/-- What orders the reads of a quire. -/
def State.view (s : State) (uid : Nat) : View := Sparse.get {} uid s.views
/-- Change it. -/
def State.modView (s : State) (uid : Nat) (f : View → View) : State := { s with views := Sparse.set {} uid (f (s.view uid)) s.views }
/-- Everything so far happens before what a quire does next: no later read of its core path is older than now. -/
def State.sync (s : State) (uid : Nat) : State :=
  s.modView uid (fun v => { v with acq := s.now, coh := v.coh.filter (fun x => 2 ^ 80 ≤ x.1) })

/-! ## Homes (R189, R410) -/

/-- PKG of a physical address (R189). -/
def paPkg (pa : Nat) : Nat := pa / 2 ^ 46 % 64
/-- SPACE of a physical address (R189). -/
def paSpace (pa : Nat) : Nat := pa / 2 ^ 40 % 64
/-- HDIE of a physical address (R189). -/
def paDie (pa : Nat) : Nat := pa / 2 ^ 38 % 4
/-- OFF of a physical address (R189). -/
def paOff (pa : Nat) : Nat := pa % 2 ^ 38

/-- Compute dies of the part (R10). -/
def Part.dies : Part → Nat | .q920 => 2 | _ => 4
/-- The replica die of a die: the opposite die (R7, R410). -/
def replicaDie (p : Part) (d : Nat) : Nat := match p with | .q920 => 1 - d | _ => 3 - d
/-- A management register of a die (R383). -/
def State.mgmt (s : State) (d n : Nat) : DWord := Sparse.get 0 n (s.die d).mgmt
/-- RLEN of a die: the length of its replicated range (R410). -/
def State.rlen (s : State) (d : Nat) : Nat := (s.mgmt d 0x811).toNat
/-- RBASE of a die: the offset of its replica area on its replica die (R410), as an offset of 38 bits (R189; log 30). -/
def State.rbase (s : State) (d : Nat) : Nat := (s.mgmt d 0x810).toNat % 2 ^ 38
/-- Offset `off` of the replica area at `rb` on die `r` (R410). -/
def State.replicaAt (s : State) (r rb off : Nat) : Nat := s.pkgid * 2 ^ 46 + r * 2 ^ 38 + (rb + off) % 2 ^ 38

/-- Backed memory (R189): SPACE 0, a present compute die, an offset below 192 GiB, a package ever admitted. Every package of the domain
has the dies of this part (log 85). -/
def State.backed (s : State) (pa : Nat) : Bool :=
  paSpace pa = 0 && paOff pa < 192 * 2 ^ 30 && paDie pa < s.part.dies && s.everPkgs.getLsbD (paPkg pa)

/-- Writes to a replicated range that reach its home are also written to the replica (R410). -/
def State.replicaOf (s : State) (pa : Nat) : Option Nat :=
  let h := paDie pa
  if paPkg pa = s.pkgid ∧ paOff pa < s.rlen h ∧ (s.die (replicaDie s.part h)).admitted then
    some (s.replicaAt (replicaDie s.part h) (s.rbase h) (paOff pa))
  else none

/-! ## Keys (R359, R383) -/

/-- The key material of a slot as one number; slot 0 is the package's default key. The slots of another package are not of this
machine: each is one key of its own (log 86). -/
def State.keyCode (s : State) (kid pa : Nat) : Nat :=
  if paPkg pa ≠ s.pkgid then 2 ^ 512 * (1 + kid)
  else if kid = 0 then 0
  else match Sparse.get none kid s.keys with
    | some k => 1 + k.data.toNat + 2 ^ 256 * k.tweak.toNat
    | none => 0
/-- A key slot is programmed at the home of an address; slot 0 always is (R359). Of another package's slots that is a free choice
(log 86). -/
def State.keyReady (s : State) (kid pa : Nat) : Bool :=
  kid = 0 || (if paPkg pa = s.pkgid then (Sparse.get none kid s.keys).isSome else s.choose (2 ^ 59 + paPkg pa * 64 + kid) 2 = 0)

/-- The byte that memory answers under a key: what was written, if the line was last written under the same key. -/
def State.plain (s : State) (kid pa : Nat) : Byte :=
  let k0 := Sparse.get 0 (pa / 64) s.lineKey
  if k0 = s.keyCode kid pa then s.byte pa else Config.recrypt k0 (s.keyCode kid pa) pa (s.byte pa)

/-- A line comes under a key: its bytes are what that key reads. -/
def State.rekey (s : State) (kid pa : Nat) : State :=
  let line := pa / 64
  if Sparse.get 0 line s.lineKey = s.keyCode kid pa then s
  else
    let bs := (List.range 64).map (fun i => s.plain kid (line * 64 + i))
    { s with mem := (s.putBytes (line * 64) bs).mem, lineKey := Sparse.set 0 line (s.keyCode kid pa) s.lineKey }

/-- The value 2^b of a mask of byte values. -/
def byteBit (b : Byte) : BitVec 256 := 1#256 <<< b.toNat

/-- What a byte that is about to change may read as after a `dsc` (R214): its value joins those it has had since its page was allocated. -/
def State.keepShadow (s : State) (pa : Nat) : State :=
  { s with shadow := Sparse.set 0 pa (Sparse.get 0 pa s.shadow ||| byteBit (s.byte pa)) s.shadow }

/-- Write bytes at the home of an address under a key, and to its replica. The bytes lie in one line. No write-back is the last to
have given them their values (R296). -/
def State.putRaw (s : State) (kid pa : Nat) (bs : List Byte) : State :=
  let s1 := (s.rekey kid pa).write pa bs
  let s2 : State := { s1 with backs := s1.backs.filter (fun x => !(pa ≤ x.1 && x.1 < pa + bs.length)) }
  match s.replicaOf pa with
  | some ra => (s2.rekey kid ra).write ra bs
  | none => s2

/-- Write bytes from the first byte of a line on, line by line. -/
def State.putLong (s : State) (kid pa : Nat) (bs : List Byte) : State :=
  (List.range ((bs.length + 63) / 64)).foldl (fun (t : State) i => t.putRaw kid (pa + 64 * i) ((bs.drop (64 * i)).take 64)) s

end Sys2Proof.Machine
end

