-- ==== Sys2Proof/Machine/Ops.lean ====
section
/-! DEFINITION. The named operations over the state: finding the issuing folio and batch, reading and writing registers
with their tags and latches, moving fibres, blocking a batch, taking a trap. Memory stands in Machine/Memory.lean. -/

namespace Sys2Proof.Machine

/-! ## Launch-record fields (R307), die and folio look-up -/

/-- Bits hi:lo of a launch record. -/
def recField (r : BitVec 2048) (hi lo : Nat) : Nat := fieldOf r hi lo
/-- ENTRY of a launch record (R307). -/
def recEntry (r : BitVec 2048) : DWord := r.extractLsb' 0 64
/-- Palette slot n of a launch record (R307, R39). -/
def recSlot (r : BitVec 2048) (n : Nat) : QWord := r.extractLsb' (1024 + 128 * n) 128

/-- Folios per volume (R308). -/
def recFpv (r : BitVec 2048) : Nat := recField r 86 82 + 1
/-- The shelf's dimensions in volumes (R308). -/
def recDims (r : BitVec 2048) : Nat × Nat × Nat := (recField r 143 128 + 1, recField r 159 144 + 1, recField r 175 160 + 1)
/-- The linear index of the volume with coordinates as %volid (R315). -/
def volIndex (r : BitVec 2048) (vol : DWord) : Nat :=
  let d := recDims r
  fieldOf vol 15 0 + d.1 * (fieldOf vol 31 16 + d.2.1 * fieldOf vol 47 32)

/-- No folio. -/
def noFolio : Folio := { fid := 0, die := 0, core := 0, qbase := 0, qcnt := 0, folioid := 0, vid := 0 }
/-- The folio of a name, resident or saved. -/
def State.folio (s : State) (fid : Nat) : Folio :=
  ((s.folios ++ s.saved.flatMap (·.folios)).find? (fun x => x.fid = fid)).getD noFolio
/-- The issuing folio. -/
def State.fol (s : State) : Folio := s.folio s.q.fid
/-- Change a folio, resident or saved. -/
def State.modFolio (s : State) (fid : Nat) (f : Folio → Folio) : State :=
  { s with folios := s.folios.map (fun x => if x.fid = fid then f x else x)
           saved := s.saved.map (fun v => { v with folios := v.folios.map (fun x => if x.fid = fid then f x else x) }) }
/-- A folio is saved (R386). -/
def State.isSaved (s : State) (fid : Nat) : Bool := s.saved.any (fun v => v.folios.any (fun x => x.fid = fid))
/-- The bind record of a folio (R313): at its place in the slot table, of its unit; a handler folio's stands under collection 0,
with the index of its fault. -/
def Bind.isOf (b : Bind) (x : Folio) : Bool :=
  b.core = x.core && b.qbase = x.qbase && b.folioid = x.folioid
    && (match x.kind with
        | .handler i _ => b.coll = 0 && b.volIdx = i
        | _ => b.coll = x.coll && b.shelf = x.shelf && b.volIdx = volIndex x.record x.vol)
/-- The bind record of a folio is free. -/
def State.dropBind (s : State) (x : Folio) : State :=
  s.modDie x.die (fun z => { z with slots := z.slots.filter (fun b => !b.isOf x) })
/-- The volume of a name. -/
def State.volume (s : State) (vid : Nat) : Volume := (s.volumes.find? (fun x => x.vid = vid)).getD { vid := 0, members := [] }
/-- Change a volume. -/
def State.modVolume (s : State) (vid : Nat) (f : Volume → Volume) : State :=
  { s with volumes := s.volumes.map (fun x => if x.vid = vid then f x else x) }

/-- Supervisor mode (R367): a curator, or a shelf enqueued with SUP. -/
def Folio.super (x : Folio) : Bool :=
  match x.kind with
  | .curator _ => true
  | _ => x.sup
/-- The issuing context is in supervisor mode. -/
def State.super (s : State) : Bool := s.fol.super

/-- The encoding version of a folio (R67). A curator runs the image's kernel, which is read as version 3 (log 10). -/
def Folio.encv (x : Folio) : Nat :=
  match x.kind with
  | .curator _ => 3
  | _ => recField x.record 67 64
/-- The encoding version of the issuing folio. -/
def State.encv (s : State) : Nat := s.fol.encv

/-- SCRATCH of a folio, in bytes (R44). -/
def Folio.scratchBytes (x : Folio) : Nat := fieldOf x.carve 11 6 * 16384
/-- NBANDS of a folio (R44). -/
def Folio.nbands (x : Folio) : Nat := fieldOf x.carve 28 24
/-- FRAME of a folio in 1 KiB units (R44, R45). -/
def Folio.frameUnits (x : Folio) : Nat := fieldOf x.carve 5 0 * 16

/-! ## Quires -/

/-- Every resident quire, the issuing one first. -/
def State.quires (s : State) : List Quire := s.q :: s.rest
/-- The quire of a name, resident or saved. -/
def State.quire (s : State) (uid : Nat) : Quire :=
  ((s.quires ++ s.saved.flatMap (·.quires)).find? (fun x => x.uid = uid)).getD {}
/-- Change a quire, resident or saved. -/
def State.modQuire (s : State) (uid : Nat) (f : Quire → Quire) : State :=
  { s with q := if s.q.uid = uid then f s.q else s.q
           rest := s.rest.map (fun x => if x.uid = uid then f x else x)
           saved := s.saved.map (fun v => { v with quires := v.quires.map (fun x => if x.uid = uid then f x else x) }) }
/-- The quires of a folio in ascending %quireid. -/
def State.quiresOf (s : State) (fid : Nat) : List Quire :=
  sortOn (·.quireid) (s.quires.filter (fun x => x.uid ≠ 0 ∧ x.fid = fid))

/-- A quire has no fibre left. -/
def Quire.ended (q : Quire) : Bool := q.fibres = []
/-- Every token of a quire has count 0, and it holds no fault. -/
def Quire.idle (q : Quire) : Bool := (q.toks.all (fun t => t.2.count = 0)) && q.held = none && q.pend = none
/-- A quire is held, or waits for a held-fault entry: no second fault of it is recorded before the first is resolved (R368). -/
def Quire.faulted (q : Quire) : Bool := q.held.isSome || q.pend.isSome
/-- Every resident quire of a folio is idle: nothing holds its slots and bands any more (R332). -/
def State.folioIdle (s : State) (fid : Nat) : Bool := (s.quires.filter (fun q => q.fid = fid && q.uid ≠ 0)).all Quire.idle

/-- Put a quire in front as the issuing one. -/
def State.focus (s : State) (uid : Nat) : State :=
  if s.q.uid = uid then s
  else { s with q := s.quire uid
                rest := (s.quires.filter (fun x => x.uid ≠ uid)).filter (fun x => x.uid ≠ 0) }

/-- A fresh name. -/
def State.fresh (s : State) : Nat × State := (s.next, { s with next := s.next + 1 })
/-- The next place in the orders of arrival. -/
def State.place (s : State) : Nat × State := (s.order, { s with order := s.order + 1 })

/-! ## Dies that run (R401, R406) -/

/-- A set of members is enough to send EVICT (R406): more than half of those admitted, or half with the lowest. -/
def majority (all near : List Nat) : Bool :=
  all.length < 2 * near.length || (all.length = 2 * near.length && (match all with | a :: _ => near.contains a | [] => false))
/-- The members of a scope: the admitted dies of the package, or 64 + each admitted package. -/
def State.scopeMembers (s : State) (dom : Bool) : List Nat :=
  if dom then ((List.range 64).filter (fun p => s.pkgs.getLsbD p)).map (· + 64)
  else (List.range 5).filter (fun d => (s.die d).admitted)
/-- Those of them that an observing die still hears (R405). -/
def State.nearTo (s : State) (observer : Nat) (dom : Bool) : List Nat :=
  (s.scopeMembers dom).filter (fun x => Sparse.get 0 (observer * 256 + x) s.misses < 3)
/-- The sequencer die of the package: the lowest-numbered admitted compute die (R402). -/
def State.sequencer (s : State) : Option Nat := (List.range s.part.dies).find? (fun d => (s.die d).admitted)
/-- A die is on the smaller side of its package, or with its package, as the sequencer die hears the others, on that of the domain: it holds
its quires and its traffic (R406). -/
def State.holdsBack (s : State) (d : Nat) : Bool :=
  let small := fun (o : Nat) (dom : Bool) => s.nearTo o dom ≠ s.scopeMembers dom && !majority (s.scopeMembers dom) (s.nearTo o dom)
  s.misses ≠ [] && (small d false || (match s.sequencer with | some q => small q true | none => false))
/-- The instances that run on a die, and live and end with it: its own, and on a Q940 that of die 4 on die 0 (R401). -/
def State.instances (s : State) (d : Nat) : List Nat := if s.part = .q940 ∧ d = 0 then [0, 4] else [d]
/-- A die runs its quires and engines. -/
def State.live (s : State) (d : Nat) : Bool := (s.die d).admitted && !(s.die d).failed && !s.holdsBack d

/-! ## Predicates, s registers, tokens (R37, R38) -/

/-- p<i> of a fibre: p0 reads true (R37). -/
def Fibre.pred (f : Fibre) (i : Nat) : Bool := i = 0 || f.preds.getLsbD i
/-- Write p<i>: a write to p0 is discarded (R37). -/
def Fibre.setPred (f : Fibre) (i : Nat) (b : Bool) : Fibre :=
  if i = 0 then f else { f with preds := putBit f.preds i b }
/-- k<i> of a quire: k0 reads true (R37). -/
def Quire.kpred (q : Quire) (i : Nat) : Bool := i = 0 || q.k.getLsbD i
/-- Write k<i>: a write to k0 is discarded (R37). -/
def Quire.setK (q : Quire) (i : Nat) (b : Bool) : Quire :=
  if i = 0 then q else { q with k := putBit q.k i b }
/-- s<n>: s0 reads 0 (R37). -/
def Quire.sreg (q : Quire) (n : Nat) : DWord := if n = 0 then 0 else Sparse.get 0 n q.s
/-- Write s<n>: a write to s0 is discarded (R37). -/
def Quire.setS (q : Quire) (n : Nat) (v : DWord) : Quire :=
  if n = 0 then q else { q with s := Sparse.set 0 n v q.s }
/-- Token t<n> (R38). -/
def Quire.tok (q : Quire) (n : Nat) : Token := Sparse.get {} n q.toks
/-- Write token t<n>. -/
def Quire.setTok (q : Quire) (n : Nat) (t : Token) : Quire := { q with toks := Sparse.set {} n t q.toks }

/-- Write s<n> of the issuing quire. -/
def State.setS (s : State) (n : Nat) (v : DWord) : State := { s with q := s.q.setS n v }
/-- Write k<n> of the issuing quire. -/
def State.setK (s : State) (n : Nat) (b : Bool) : State := { s with q := s.q.setK n b }

/-- The precedence of a token status: ok, target ended, partial, unit lost (R38). -/
def statusRank (x : BitVec 2) : Nat :=
  match x.toNat with | 0 => 0 | 2 => 1 | 1 => 2 | _ => 3
/-- The higher of two statuses (R38). -/
def statusMax (x y : BitVec 2) : BitVec 2 := if statusRank x < statusRank y then y else x

/-- Issue of an operation that names the token: a count of 0 first resets it (R38). -/
def Token.start (t : Token) : Token :=
  if t.count = 0 then { count := 1 } else { t with count := t.count + 1 }
/-- Completion of an operation that named the token (R38). -/
def Token.finish (t : Token) (out : BitVec 2) (r : Option Trap) : Token :=
  { t with
    count := t.count - 1
    status := statusMax t.status out
    record := if out = 1 ∧ t.record = none then r else t.record }

/-- Start an operation on token `n` of the issuing quire. -/
def State.startTok (s : State) (n : Nat) : State := { s with q := s.q.setTok n (s.q.tok n).start }
/-- Start a collection on token `n` of the issuing quire (R310). -/
def State.startLaunch (s : State) (n : Nat) : State :=
  { s with q := s.q.setTok n { (s.q.tok n).start with launch := true } }
/-- Complete an operation on token `n` of quire `uid`. -/
def State.finishTok (s : State) (uid n : Nat) (out : BitVec 2) (r : Option Trap) : State :=
  s.modQuire uid (fun q => q.setTok n ((q.tok n).finish out r))

/-! ## Batches (R21, R54) -/

/-- The wait is inside an instruction, not in its fetch. -/
def Wait.inside (w : Wait) : Bool := match w.kind with | .fetch _ => false | _ => true
/-- The frame of a FRAMEID. -/
def Quire.frame (q : Quire) (id : Nat) : Frame :=
  (q.frames.find? (fun x => x.id = id)).getD { id := id, size8 := 0, refs := 0, owned := 0, base := 0 }
/-- Change a frame. -/
def Quire.modFrame (q : Quire) (id : Nat) (f : Frame → Frame) : Quire :=
  { q with frames := q.frames.map (fun x => if x.id = id then f x else x) }
/-- The members of the batch at a pc in a frame (R21). -/
def Quire.at (q : Quire) (pc : DWord) (frame : Nat) : List Fibre :=
  q.fibres.filter (fun f => f.pc = pc ∧ f.frame = frame ∧ f.parked = false)
/-- The issuing batch. -/
def State.batch (s : State) : List Fibre := s.q.at s.sel.1 s.sel.2
/-- The pc of the issuing batch. -/
def State.pc (s : State) : DWord := s.sel.1
/-- The current frame of the issuing batch. -/
def State.frm (s : State) : Frame := s.q.frame s.sel.2
/-- The active fibres of a lane word (R54). -/
def State.active (s : State) (pr : BitVec 3) (neg : Bool) : List Fibre :=
  s.batch.filter (fun f => f.pred pr.toNat != neg)
/-- The issuing batch has blocked in its instruction, and goes on in it. -/
def State.goesOn (s : State) : Bool := s.q.waits.any (fun w => w.pc = s.sel.1 && w.frame = s.sel.2 && w.inside)
/-- A uniform word executes (R54); one that has blocked had tested its predicate before. -/
def State.kActive (s : State) (pr : BitVec 3) (neg : Bool) : Bool := s.goesOn || (s.q.kpred pr.toNat != neg)
/-- The lane mask of some fibres. -/
def laneMask (fs : List Fibre) : Word := fs.foldl (fun m f => m ||| (1 <<< f.lane)) 0
/-- Change every fibre of the issuing quire. -/
def State.mapFibres (s : State) (g : Fibre → Fibre) : State := { s with q := { s.q with fibres := s.q.fibres.map g } }
/-- The fibre belongs to the issuing batch. -/
def State.inBatch (s : State) (f : Fibre) : Bool := f.pc = s.sel.1 && f.frame = s.sel.2 && !f.parked

/-! ## Reading operands (R55 to R58) -/

/-- A latch of a fibre (R35). -/
def Fibre.latch (f : Fibre) : Latch → DWord
  | .int => f.lint | .fp => f.lfp | .mem => f.lmem | .sfu => f.lsfu
/-- Write a latch. -/
def Fibre.setLatch (f : Fibre) (l : Latch) (v : DWord) : Fibre :=
  match l with
  | .int => { f with lint := v } | .fp => { f with lfp := v } | .mem => { f with lmem := v } | .sfu => { f with lsfu := v }
/-- o<n> of a fibre (R34). -/
def Fibre.oreg (f : Fibre) (n : Nat) : Word := Sparse.get 0 n f.o
/-- v<n> of a lane in a frame (R27). -/
def Frame.v (fr : Frame) (n lane : Nat) : Word := Sparse.get 0 (n * 32 + lane) fr.regs

/-- ReadOperand (R5, R58): `k` registers of 32 bits (1, 2 or 4), the first lowest. -/
def readName (q : Quire) (fr : Frame) (f : Fibre) (n : Name) (k : Nat) : Nat :=
  match n with
  | .v r => (List.range k).foldr (fun i acc => (fr.v (r + i) f.lane).toNat + 2 ^ 32 * acc) 0
  | .o r => (List.range k).foldr (fun i acc => (f.oreg (r + i)).toNat + 2 ^ 32 * acc) 0
  | .latch l => (f.latch l).toNat % 2 ^ (32 * k)
  | .lane => f.lane
  | .s r => (q.sreg r).toNat % 2 ^ (32 * k)
  | .zero => 0
  | .reserved => 0

/-- An operand of a fibre of the issuing batch, `w` bits wide. -/
def State.rd (s : State) (f : Fibre) (n : Name) (w : Nat) : Nat := readName s.q s.frm f n (w / 32)

/-! ## Shape tags (R30) -/

/-- Inverse of an odd number modulo 2^32, by Newton steps. -/
def oddInv (d : Word) : Word :=
  let step := fun x : Word => x * (2 - d * x)
  step (step (step (step d)))

/-- The strides that fit one difference: e = stride × dl modulo 2^32, as (residue, m) for the class modulo 2^m. -/
def strideClass (dl : Nat) (e : Word) : Option (Nat × Nat) :=
  let a := ctzOf 5 dl
  if e.toNat % 2 ^ a ≠ 0 then none
  else some ((BitVec.ofNat 32 (e.toNat / 2 ^ a) * oddInv (BitVec.ofNat 32 (dl / 2 ^ a))).toNat % 2 ^ (32 - a), 32 - a)

/-- The common part of two classes modulo powers of two. -/
def meetClass (x y : Nat × Nat) : Option (Nat × Nat) :=
  let (hi, lo) := if x.2 < y.2 then (y, x) else (x, y)
  if hi.1 % 2 ^ lo.2 = lo.1 then some hi else none

/-- The tag of the values in the member lanes (R30): U, A with the least stride, or G. -/
def tagOf (vs : List (Nat × Word)) : Tag :=
  match vs with
  | [] => .u 0
  | (l0, v0) :: rest =>
    if rest.all (fun x => x.2 = v0) then .u v0
    else
      match rest.foldl (fun acc x => acc.bind fun c => (strideClass (x.1 - l0) (x.2 - v0)).bind (meetClass c)) (some (0, 0)) with
      | some (st, _) => .a (v0 - BitVec.ofNat 32 (st * l0)) (BitVec.ofNat 32 st)
      | none => .g

/-- The value a new lane reads from a tag (R29). -/
def Tag.fill (t : Tag) (lane : Nat) : Word :=
  match t with
  | .u v => v
  | .a b st => b + st * BitVec.ofNat 32 lane
  | .g => 0

/-- The tag of a register of a frame; a new register is U with 0 (R29). -/
def Frame.tag (fr : Frame) (r : Nat) : Tag := Sparse.get (.u 0) r fr.tags

/-- A lane enters a frame in which it is vacant: its registers read by their tags (R29, R340). -/
def Frame.enter (fr : Frame) (lane : Nat) : Frame :=
  if fr.owned.getLsbD lane then fr
  else { fr with
    owned := fr.owned ||| (1 <<< lane)
    regs := (List.range (8 * fr.size8)).foldl (fun m r => Sparse.set 0 (r * 32 + lane) ((fr.tag r).fill lane) m) fr.regs }

/-- Write one register of a frame in some lanes and re-evaluate its tag over the member lanes (R30, R31). With no lane to write
there is no write, and the tag stands (log 78). -/
def Frame.writeReg (fr : Frame) (members : List Nat) (r : Nat) (vs : List (Nat × Word)) : Frame :=
  let regs := vs.foldl (fun m x => Sparse.set 0 (r * 32 + x.1) x.2 m) fr.regs
  { fr with
    regs := regs
    tags := if vs.isEmpty then fr.tags
      else Sparse.set (.u 0) r (tagOf (members.map (fun l => (l, Sparse.get 0 (r * 32 + l) regs)))) fr.tags }

/-- The lanes of the members of a frame: the fibres whose current frame it is (R27). -/
def Quire.memberLanes (q : Quire) (id : Nat) : List Nat := (q.fibres.filter (fun f => f.frame = id)).map (·.lane)

/-- Word i of a result. -/
def wordAt (v i : Nat) : Word := BitVec.ofNat 32 (v / 2 ^ (32 * i))

/-- WriteDest for the active lanes of the issuing batch (R5, R35, R36): `w` bits to the destination, and the pipe's latch. -/
def State.writeLanes (s : State) (d : Name) (w : Nat) (latch : Option Latch) (rs : List (Nat × Nat)) : State :=
  let k := w / 32
  let s1 := match d with
    | .v r => { s with
        bad := s.bad.filter (fun c => rs.isEmpty || !(List.range k).any (fun i => c == .reg s.q.uid s.sel.2 (r + i)))
        q := s.q.modFrame s.sel.2 (fun fr =>
        (List.range k).foldl (fun fr i =>
          fr.writeReg (s.q.memberLanes s.sel.2) (r + i) (rs.map (fun x => (x.1, wordAt x.2 i)))) fr) }
    | .o r => ({ s with bad := s.bad.filter (fun c => !rs.any (fun x => (List.range k).any (fun i => c == .oreg s.q.uid x.1 (r + i)))) } : State).mapFibres
        (fun f =>
        match rs.find? (fun x => x.1 = f.lane) with
        | some x => { f with o := (List.range k).foldl (fun m i => Sparse.set 0 (r + i) (wordAt x.2 i) m) f.o }
        | none => f)
    | _ => s
  match latch with
  | none => s1
  | some l => s1.mapFibres (fun f =>
      match rs.find? (fun x => x.1 = f.lane) with
      | some x => f.setLatch l (BitVec.ofNat 64 x.2)
      | none => f)

/-- Write a predicate in the active lanes (R108). -/
def State.writePreds (s : State) (pd : Nat) (rs : List (Nat × Bool)) : State :=
  s.mapFibres (fun f =>
    match rs.find? (fun x => x.1 = f.lane) with
    | some x => f.setPred pd x.2
    | none => f)

/-! ## Moving fibres (R48, R328) -/

/-- A fibre that holds an entry for the point it has arrived at parks there, with every entry above it popped (R328). -/
def Fibre.arrive (f : Fibre) : Fibre :=
  if f.gather.contains (f.pc, f.frame) then
    { f with gather := f.gather.dropWhile (fun e => e ≠ (f.pc, f.frame)), parked := true }
  else f

/-- Fibres of the given lanes take new pcs, and arrive there: those with an entry park, and those without one join a
parked batch of the same point and frame (R328). -/
def Quire.move (q : Quire) (tos : List (Nat × DWord)) : Quire :=
  let fs := q.fibres.map (fun f =>
    match tos.find? (fun x => x.1 = f.lane) with
    | some x => Fibre.arrive { f with pc := x.2 }
    | none => f)
  { q with fibres := fs.map (fun f =>
      if (tos.any (fun x => x.1 = f.lane)) ∧ fs.any (fun g => g.parked ∧ g.pc = f.pc ∧ g.frame = f.frame)
      then { f with parked := true } else f) }

/-- The given fibres go to given addresses. -/
def State.move (s : State) (tos : List (Nat × DWord)) : State := { s with q := s.q.move tos }

/-- Every member of the batch continues at the next instruction (R48). The members are those of the state before the
instruction wrote anything. -/
def State.advance (s : State) (members : List Fibre) (len : Nat) : State :=
  s.move (members.map (fun f => (f.lane, f.pc + BitVec.ofNat 64 len)))

/-! ## Blocking (R22, R319) -/

/-- The issuing batch blocks at its instruction. A batch that waits there already keeps its place. -/
def State.block (s : State) (k : WaitKind) (len : Nat) (t : Trap) : State :=
  match s.q.waits.find? (fun w => w.pc = s.sel.1 ∧ w.frame = s.sel.2) with
  | some _ => { s with q := { s.q with waits := s.q.waits.map (fun w =>
      if w.pc = s.sel.1 ∧ w.frame = s.sel.2 then { w with kind := k, len := len, word := s.word, trap := t } else w) } }
  | none => { s with
      q := { s.q with waits := s.q.waits ++ [{ pc := s.sel.1, frame := s.sel.2, kind := k, seq := s.order, len := len, word := s.word, trap := t }] }
      order := s.order + 1 }

/-- The wait of a batch ends. -/
def Quire.unblock (q : Quire) (pc : DWord) (frame : Nat) : Quire :=
  { q with waits := q.waits.filter (fun w => ¬ (w.pc = pc ∧ w.frame = frame)) }

/-- The wait of a batch ends with its instruction complete: its members continue behind it. -/
def Quire.complete (q : Quire) (w : Wait) : Quire :=
  let q1 := q.unblock w.pc w.frame
  q1.move ((q1.at w.pc w.frame).map (fun f => (f.lane, w.pc + BitVec.ofNat 64 w.len)))

/-! ## Taking a trap (R366 to R373) -/

/-- WHO of a fault record (R371). -/
def State.whoOf (s : State) (q : Quire) : DWord :=
  let x := s.folio q.fid
  BitVec.ofNat 64 (q.quireid % 32 + x.folioid % 32 * 2 ^ 5 + x.core % 512 * 2 ^ 10 + x.die % 8 * 2 ^ 19
    + s.pkgid % 64 * 2 ^ 22 + x.asid % 65536 * 2 ^ 32)

/-- The fault handle of an entry (R369). -/
def handleOf (index gen : Nat) : Nat := index % 1024 + gen % 65536 * 65536

/-- %cause of a trap (R370). -/
def Trap.cause (t : Trap) : DWord :=
  BitVec.ofNat 64 (t.code % 512 + t.inner % 1024 * 2 ^ 16 + (if t.sup then 2 ^ 30 else 0) + (if t.eng then 2 ^ 31 else 0))
/-- %etok of a trap with its handle (R370). -/
def Trap.etok (t : Trap) (handle : Nat) : DWord :=
  BitVec.ofNat 64 (handle % 2 ^ 32 * 2 ^ 32 + (match t.tok with | some k => 8 + k % 8 | none => 0))
/-- The trap registers of a delivered fault (R370). -/
def Trap.regs (t : Trap) (handle : Nat) : TrapRegs :=
  { cause := t.cause, epc := t.epc, elanes := t.elanes.setWidth 64, eaddr := t.eaddr, etok := t.etok handle }

/-- One lane's entry: 64 bytes (R372). -/
def LaneRec.bytes (x : LaneRec) : List Byte :=
  leBytes 8 x.a.toNat ++ leBytes 8 x.b.toNat ++ leBytes 8 x.c.toNat ++ leBytes 8 x.dflt.toNat ++ leBytes 16 x.res.toNat
    ++ [x.exc, if x.act then 1 else 0, x.setf, if x.wr then 1 else 0] ++ List.replicate 12 0

/-- The entry of a lane; a lane without one reads 0. -/
def Trap.laneRec (t : Trap) (l : Nat) : LaneRec := ((t.lanes.find? (fun x => x.1 = l)).map (·.2)).getD {}

/-- The record of a fault under a handle: 2112 bytes (R371, R372). -/
def Trap.record (t : Trap) (handle : Nat) : List Byte :=
  leBytes 8 t.cause.toNat ++ leBytes 8 t.epc.toNat ++ leBytes 8 t.elanes.toNat ++ leBytes 8 t.eaddr.toNat
    ++ leBytes 8 (t.etok handle).toNat ++ leBytes 8 t.prog.toNat ++ leBytes 8 t.info.toNat ++ leBytes 8 t.who.toNat
    ++ (List.range 32).flatMap (fun l => (t.laneRec l).bytes)

/-- Where record n of a die's trap queue lies (R373): the place of the queue and its length are the kernel's (log 87). -/
def State.trapPlace (s : State) (d n : Nat) : Nat :=
  s.pkgid * 2 ^ 46 + d * 2 ^ 38 + Config.trapArea d % 2 ^ 24 * 4096 + n % 2 ^ 16 * 2176
/-- The 64 bytes in front of a record, which name the die and the process in a layout that the spec does not state (log 87). -/
def State.trapName (s : State) : List Byte := (List.range 64).map (fun i => (Config.freeWord s.tick (6000 + i)).setWidth 8)

/-- The causes whose route is H (R366). -/
def routeH (code : Nat) : Bool :=
  (1 ≤ code && code ≤ 5) || code = 8 || code = 0x080 || code = 0x081 || (0x0A0 ≤ code && code ≤ 0x0AF)

/-- A trap of a user shelf goes to a handler folio (R367, R364); otherwise it goes to the kernel instance. -/
def toHandler (x : Folio) (t : Trap) : Bool :=
  let r := x.record
  let inRange := (recField r 575 512 ≤ t.eaddr.toNat && t.eaddr.toNat < recField r 639 576)
  !x.super && (match x.kind with | .normal => true | _ => false) && recField r 511 448 ≠ 0
    && (if t.code = 0x0C0 ∨ t.code = 0x0C1 then (t.inner = 0x080 || t.inner = 0x081) && inRange
        else if t.code = 0x080 ∨ t.code = 0x081 then inRange
        else routeH t.code)

/-- The lowest free entry of a die's held-fault table (R369). -/
def Die.freeEntry (x : Die) : Option Nat := (List.range 1024).find? (fun i => !x.held.any (fun h => h.index = i))

/-- The entry that holds a fault, with its die: a unit that has moved keeps the entry of the die on which it faulted (R391). -/
def State.heldBy (s : State) (h : Holder) : Option (Nat × HeldFault) :=
  (List.range s.dies.length).findSome? (fun d => ((s.die d).held.find? (fun x => x.holder = h)).map (fun x => (d, x)))

/-- The holder of a fault is held under an entry (R368). -/
def State.hold (s : State) (h : Holder) (index : Nat) : State :=
  match h with
  | .quire uid => s.modQuire uid (fun q => { q with held := some index, pend := none })
  | .copy op => { s with copies := s.copies.map (fun c => if c.id = op then { c with held := some index, pend := none } else c) }
  | .matrix op => { s with matops := s.matops.map (fun c => if c.id = op then { c with held := some index, pend := none } else c) }

/-- The holder waits for an entry (R369). -/
def State.pendOn (s : State) (h : Holder) (t : Trap) : State :=
  match h with
  | .quire uid => s.modQuire uid (fun q => { q with pend := some t })
  | .copy op => { s with copies := s.copies.map (fun c => if c.id = op then { c with pend := some t } else c) }
  | .matrix op => { s with matops := s.matops.map (fun c => if c.id = op then { c with pend := some t } else c) }

/-- A fault goes to the kernel instance of its die: its record is appended to the trap queue in memory, and 0x130 is raised in curator 0
(R373). -/
def State.toKernel (s : State) (d : Nat) (h : HeldFault) : State :=
  let pa := s.trapPlace d (s.die d).trapN
  let g : HeldFault := { h with kernel := true, server := none, at_ := some (pa + 64) }
  (s.putLong 0 pa (s.trapName ++ h.trap.record (handleOf h.index h.gen))).modDie d (fun x => { x with
    held := x.held.map (fun y => if y.index = h.index then g else y)
    trapQ := x.trapQ ++ [g], trapN := x.trapN + 1, pend130 := true })

/-- The batch of a quire that could issue next: it is neither parked nor blocked. -/
def Quire.readyBatch (q : Quire) : Option (DWord × Nat) :=
  (q.fibres.find? (fun f => !f.parked && !q.waits.any (fun w => w.pc = f.pc && w.frame = f.frame))).map (fun f => (f.pc, f.frame))

/-- A curator enters its own vector (R384): trap registers, IN, and one batch goes to TVEC. -/
def Quire.enterVector (q : Quire) (pc : DWord) (frame : Nat) (r : TrapRegs) : Quire :=
  let q1 : Quire := { q.unblock pc frame with tregs := r, inFlag := true }
  q1.move ((q1.at pc frame).map (fun f => (f.lane, q.tvec)))

/-- An engine fault of a curator enters its vector in a batch that could issue, else in its first one (R367, R384; log 88). -/
def Quire.engineVector (q : Quire) (r : TrapRegs) : Quire :=
  match q.readyBatch, q.fibres.head? with
  | some b, _ => q.enterVector b.1 b.2 r
  | none, some f => q.enterVector f.pc f.frame r
  | none, none => q

/-- Record a fault of folio `fid` in the held-fault table and deliver it: to the vector of a curator, whose quire is `uid`, to a handler
folio, or to the kernel instance; with no free entry its holder waits (R367, R369, R373). -/
def State.recordFault (s : State) (holder : Holder) (fid : Nat) (t : Trap) : State :=
  let x := s.folio fid
  match (s.die x.die).freeEntry with
  | none => s.pendOn holder t
  | some i =>
    let g := Sparse.get 0 i (s.die x.die).gens
    let h : HeldFault := { index := i, gen := g, holder := holder, trap := t, fid := fid }
    let s1 := (s.modDie x.die (fun y => { y with held := y.held ++ [h] })).hold holder i
    match x.kind with
    | .curator _ =>
      match (s.quires.find? (fun q => q.uid ≠ 0 && q.fid = fid)) with
      | some q => s1.modQuire q.uid (fun q => q.engineVector (t.regs (handleOf i g)))
      | none => s1
    | _ =>
      if toHandler x t then s1.modDie x.die (fun y => { y with handlers := y.handlers ++ [h] })
      else s1.toKernel x.die h

/-- TAKING A TRAP in the issuing batch. In a curator, its own vector is entered: the trap registers are set, IN is set and
the batch goes to TVEC (R384). Anywhere else the quire is held under an entry of the held-fault table, and the fault is
delivered to a handler folio or to the kernel instance (R367 to R373). -/
def State.takeTrap (s : State) (t : Trap) : State :=
  match s.fol.kind with
  | .curator _ =>
    ({ s with q := { s.q with tregs := t.regs 0, inFlag := true } } : State).move (s.batch.map (fun f => (f.lane, s.q.tvec)))
  | _ => s.recordFault (.quire s.q.uid) s.q.fid t

/-- A trap in a blocked batch of quire `uid`: the batch is put in front and takes it, with the record of its instruction; `lanes` are those
of %elanes where they are not all of that record's. -/
def State.trapIn (s : State) (uid : Nat) (w : Wait) (code : Nat) (eaddr : DWord) (lanes : Word := 0) : State :=
  let s1 : State := { s.focus uid with sel := (w.pc, w.frame) }
  let es := if lanes = 0 then w.trap.elanes else lanes
  ({ s1 with q := s1.q.unblock w.pc w.frame } : State).takeTrap { w.trap with
    code := code, elanes := es, eaddr := eaddr, who := s1.whoOf s1.q
    lanes := w.trap.lanes.map (fun x => (x.1, { x.2 with exc := if es.getLsbD x.1 then 0x80 else 0 })) }

/-- THE RETURN FROM A CURATOR'S TRAP (R384): the batch goes to %epc and IN is cleared. -/
def State.returnFromTrap (s : State) : State :=
  ({ s with q := { s.q with inFlag := false } } : State).move (s.batch.map (fun f => (f.lane, s.q.tregs.epc)))

/-- Free a held fault's entry: its generation rises by 1 (R369), and it leaves the queues it stands in. -/
def State.freeEntry (s : State) (d index : Nat) : State :=
  s.modDie d (fun x => { x with
    held := x.held.filter (fun h => h.index ≠ index)
    handlers := x.handlers.filter (fun h => h.index ≠ index)
    trapQ := x.trapQ.filter (fun h => h.index ≠ index)
    gens := Sparse.set 0 index ((Sparse.get 0 index x.gens + 1) % 65536) x.gens })

end Sys2Proof.Machine
end

