-- ==== Sys2Proof/Machine/Operands.lean ====
section
/-! DEFINITION. Every operand form: the checks of R64 on the names a word uses, what a fault record says of the
operands (R372), and how an instruction completes, traps or blocks. -/

namespace Sys2Proof.Machine

/-- One use of a name by a word, with the width in bits where the name is a lane register. -/
inductive Use where
  /-- A lane source. -/
  | src (n : Name) (w : Nat)
  /-- A lane destination (R36). -/
  | dst (n : Name) (w : Nat)
  /-- A lane group that is read and then written (R232). -/
  | group (n : Name) (w : Nat)
  /-- The base of a lane memory operand: a v register or a broadcast (R203). -/
  | base (n : Name) (w : Nat)
  /-- An s register by its field's value (R57). -/
  | sreg (n : Nat)
  /-- An aligned group of k s registers (R37). -/
  | sgroup (n k : Nat)
  /-- A field that must be below a bound, or the name is reserved (0x040). -/
  | below (n bound : Nat)
  /-- An accumulator band (R40). -/
  | band (n : Nat)
  deriving DecidableEq, Repr

/-- A long name that encoding version 1 lacks (R68). -/
def nameLate : Name → Bool
  | .v n => 40 ≤ n
  | _ => false
/-- Check 6: the name exists only in a later version (0x023). -/
def Use.late : Use → Bool
  | .src n _ | .dst n _ | .base n _ | .group n _ => nameLate n
  | _ => false
/-- Check 7: a reserved name or an illegal destination (0x040; R36, R55 to R57, R203). -/
def Use.illegal : Use → Bool
  | .src .reserved _ => true
  | .src _ _ => false
  | .dst (.v _) _ | .dst (.o _) _ | .dst .zero _ | .group (.v _) _ | .group (.o _) _ | .group .zero _ => false
  | .dst _ _ | .group _ _ => true
  | .base (.v _) _ | .base (.s _) _ => false
  | .base _ _ => true
  | .sreg n => 64 ≤ n
  | .sgroup n _ => 64 ≤ n
  | .below n b => b ≤ n
  | .band n => 16 ≤ n
/-- A register group whose first register is not a multiple of its size, or a quad from a name that holds none (R28). -/
def nameMisaligned (n : Name) (w : Nat) (dest : Bool) : Bool :=
  match n with
  | .v r | .o r => r % (w / 32) ≠ 0
  | .zero => !dest && w = 128
  | _ => w = 128
/-- Check 8: a misaligned pair, quad or s-group (0x042; R28, R37). -/
def Use.misaligned : Use → Bool
  | .src n w | .base n w => nameMisaligned n w false
  | .dst n w | .group n w => nameMisaligned n w true
  | .sgroup n k => n % k ≠ 0
  | _ => false
/-- Check 9: a register outside the frame of `size` registers, or a band at or above NBANDS (0x041; R28, R40). -/
def Use.outside (size nbands : Nat) : Use → Bool
  | .src (.v r) w | .dst (.v r) w | .base (.v r) w | .group (.v r) w => size < r + w / 32
  | .band n => nbands ≤ n
  | _ => false

/-- Checks 6 to 9 of R64 over the names of a word, in order. -/
def namesCause (encv size nbands : Nat) (us : List Use) : Option Nat :=
  if encv = 1 ∧ us.any Use.late then some 0x023
  else if us.any Use.illegal then some 0x040
  else if us.any Use.misaligned then some 0x042
  else if us.any (Use.outside size nbands) then some 0x041
  else none

/-- The primary opcode exists in the encoding version (R68). -/
def opInVersion (encv : Nat) (uni : Bool) (op : Nat) : Bool :=
  if uni then 3 ≤ encv || !((0x25 ≤ op && op ≤ 0x29) || op = 0x1B)
  else if op = 0x37 then 3 ≤ encv
  else if op = 0x2E then 2 ≤ encv
  else true

/-- The primary opcodes of supervisor instructions (R63, R385, R404, R415, R420): `eret`, `msend` and `mrecv`, the checkpoint
instructions, `linkctl` and `tlbctl`. -/
def opSupervisor (uni : Bool) (op : Nat) : Bool := uni && 0x34 ≤ op && op ≤ 0x37

/-- An operand as the fault record reports it and as an instruction reads it: nothing, a lane name, an immediate, an s
register, or values by lane. -/
inductive Arg where
  | none
  | name (n : Name)
  | imm (v : DWord)
  | sreg (n : Nat)
  | vals (xs : List (Nat × DWord))
  deriving DecidableEq, Repr

/-- What is common to the words of all forms. `priv`, `unit` and `legal` are the outcomes of checks 3 to 5 of R64, `dyn` that of R89 on a
mode read from %frm. -/
structure Desc where
  uni   : Bool
  op    : Nat
  len   : Nat
  pr    : BitVec 3
  neg   : Bool
  uses  : List Use := []
  priv  : Bool := true
  unit  : Bool := true
  legal : Bool := true
  dyn   : Bool := true
  a     : Arg := .none
  b     : Arg := .none
  c     : Arg := .none
  wa    : Nat := 32
  wb    : Nat := 32
  skip  : SkipDest := .nothing

/-- An operand of a fibre, `w` bits wide. -/
def State.arg (s : State) (f : Fibre) (x : Arg) (w : Nat) : Nat :=
  match x with
  | .none => 0
  | .name n => s.rd f n w
  | .imm v => v.toNat % 2 ^ w
  | .sreg n => (s.q.sreg n).toNat % 2 ^ w
  | .vals xs => (match xs.find? (fun y => y.1 = f.lane) with | some y => y.2.toNat | none => 0) % 2 ^ w

/-- The first failing decode check of R64, from the opcode on. -/
def Desc.cause (D : Desc) (s : State) : Option Nat :=
  if !opInVersion s.encv D.uni D.op then some 0x020
  else if (opSupervisor D.uni D.op && !s.super) || !D.priv then some 0x024
  else if !D.unit then some 0x022
  else if !D.legal then some 0x021
  else namesCause s.encv (8 * s.frm.size8) s.fol.nbands D.uses

/-- The fibres that a trap of the word is about: the active fibres of a lane word, the members for a uniform word (R65). -/
def Desc.fibres (D : Desc) (s : State) : List Fibre := if D.uni then s.batch else s.active D.pr D.neg

/-- The lane entries of the fault record before a class adds its own fields (R372): operands and ACT of each active
fibre, or of lane 0 for a uniform word; EXC 0x80 in the lanes of %elanes. -/
def Desc.lanes (D : Desc) (s : State) (elanes : Word) : List (Nat × LaneRec) :=
  let entry := fun (f : Fibre) (l : Nat) =>
    ((l, { a := BitVec.ofNat 64 (s.arg f D.a D.wa), b := BitVec.ofNat 64 (s.arg f D.b D.wb),
           c := BitVec.ofNat 64 (s.arg f D.c D.wa), act := true,
           exc := if elanes.getLsbD l then 0x80 else 0 : LaneRec }) : Nat × LaneRec)
  if D.uni then [entry { lane := 0, pc := 0, frame := 0 } 0]
  else (s.active D.pr D.neg).map (fun f => entry f f.lane)

/-- The trap of a word (R65, R370, R371). -/
def Desc.trap (D : Desc) (s : State) (code : Nat) (elanes : Word) (eaddr : DWord := 0) : Trap :=
  { code := code, sup := s.super, epc := s.pc, elanes := elanes, eaddr := eaddr, who := s.whoOf s.q
    lanes := D.lanes s elanes, len := D.len, skip := D.skip, pc := s.pc, frame := s.sel.2 }

/-- How the effect of an instruction ends. -/
inductive Res where
  /-- The effect is complete, and the batch continues behind the instruction. -/
  | done (s : State)
  /-- The effect is complete, with the pcs it gives. -/
  | jump (s : State)
  /-- A trap with a cause, the lanes of %elanes and %eaddr; nothing is written. -/
  | stop (code : Nat) (elanes : Word) (eaddr : DWord)
  /-- A trap with a record of its own. -/
  | trap (t : Trap)
  /-- The batch blocks. -/
  | wait (s : State) (k : WaitKind)

/-- The issuing batch is not blocked any more. -/
def State.unblocked (s : State) : State := { s with q := s.q.unblock s.sel.1 s.sel.2 }

/-- A name reads a bad cell of a fibre (R375): a register of the current frame, an o register, or the latch file of the lane. -/
def State.badName (s : State) (f : Fibre) (n : Name) (w : Nat) : Bool :=
  s.bad.any (fun c =>
    match c, n with
    | .reg q fr r, .v x => q = s.q.uid && fr = s.sel.2 && x ≤ r && r < x + w / 32
    | .latches q l, .latch _ => q = s.q.uid && l = f.lane
    | .oreg q l r, .o x => q = s.q.uid && l = f.lane && x ≤ r && r < x + w / 32
    | _, _ => false)

/-- The lanes in which the word reads a bad cell (R375). -/
def Desc.badLanes (D : Desc) (s : State) : Word :=
  laneMask ((D.fibres s).filter (fun f => D.uses.any (fun u =>
    match u with | .src n w | .base n w | .group n w => s.badName f n w | _ => false)))

/-- The word executes for something: a lane word for an active fibre, a uniform word under its predicate (R54). -/
def Desc.executes (D : Desc) (s : State) : Bool := if D.uni then s.kActive D.pr D.neg else s.active D.pr D.neg ≠ []

/-- An instruction: the decode checks, then, where it executes, bad cells among its sources and a rounding mode that %frm may not
give it, then its effect (R64, R65, R89, R375). -/
def Desc.run (D : Desc) (s : State) (body : Res) : State :=
  match D.cause s with
  | some c => s.unblocked.takeTrap (D.trap s c (laneMask (D.fibres s)))
  | none =>
    if s.bad ≠ [] ∧ D.executes s = true ∧ D.badLanes s ≠ 0 then s.unblocked.takeTrap (D.trap s 0x160 (D.badLanes s))
    else if !D.dyn && D.executes s then s.unblocked.takeTrap (D.trap s 0x021 (laneMask (D.fibres s)))
    else match body with
    | .done t => t.unblocked.advance s.batch D.len
    | .jump t => t.unblocked
    | .stop c l a => s.unblocked.takeTrap (D.trap s c l a)
    | .trap t => s.unblocked.takeTrap t
    | .wait t k => t.block k D.len (D.trap s 0 (laneMask (D.fibres s)))

/-- No check stops the word before its effect: the decode checks, bad cells, the rounding mode from %frm (R64, R89, R375). -/
abbrev Desc.clear (D : Desc) (s : State) : Prop :=
  D.cause s = none ∧ ¬ (s.bad ≠ [] ∧ D.executes s = true ∧ D.badLanes s ≠ 0) ∧ (!D.dyn && D.executes s) = false

/-- A uniform instruction executes under its quire predicate, and otherwise only advances (R54). -/
def Desc.runU (D : Desc) (s : State) (body : Res) : State :=
  D.run s (if s.kActive D.pr D.neg then body else .done s)

/-- A lane instruction that computes one value for each active fibre: all are read before any is written (R4). -/
def Desc.lanewise (D : Desc) (s : State) (d : Name) (w : Nat) (latch : Option Latch) (g : Fibre → Nat) : State :=
  D.run s (.done (s.writeLanes d w latch ((s.active D.pr D.neg).map (fun f => (f.lane, g f)))))

/-! ## The fields of the three lane forms as one record -/

/-- The operands of a lane word: type, modifiers, destination and sources. -/
structure LArgs where
  len : Nat
  pr  : BitVec 3
  neg : Bool
  ty  : BitVec 3
  sat : Bool := false
  hi  : Bool := false
  d   : Name
  dn  : Nat
  a   : Name
  b   : Arg
  c   : Name := .zero

/-- LS (R50). -/
def lsArgs (o : SF) : LArgs :=
  { len := 4, pr := o.pr, neg := o.neg, ty := 0, d := shortName o.d, dn := o.d.toNat, a := shortName o.a,
    b := .name (shortName o.b) }
/-- LL (R51). -/
def llArgs (o : LF) : LArgs :=
  { len := 8, pr := o.pr, neg := o.neg, ty := o.ty, sat := o.sat, hi := o.hi, d := longName o.d, dn := o.d.toNat,
    a := longName o.a, b := .name (longName o.b), c := longName o.c }
/-- LI (R52): imm32 in place of the second source, read under the type (R98). -/
def liArgs (o : IF) : LArgs :=
  { len := 8, pr := o.pr, neg := o.neg, ty := o.ty, sat := o.top, d := shortName o.d, dn := o.d.toNat,
    a := shortName o.a, b := .imm (immOf (laneTy o.ty) o.imm) }

/-- The checks that a second source asks for. -/
def Arg.use (x : Arg) (w : Nat) : List Use :=
  match x with
  | .name n => [.src n w]
  | .sreg n => [.sreg n]
  | _ => []

/-- The operands of a uniform word. -/
structure UArgs where
  len : Nat
  pr  : BitVec 3
  neg : Bool
  ty  : BitVec 3
  sat : Bool := false
  hi  : Bool := false
  d   : Nat
  a   : Nat
  b   : Arg
  c   : Nat := 0

/-- US (R53, R57). -/
def usArgs (o : SF) : UArgs :=
  { len := 4, pr := o.pr, neg := o.neg, ty := 0, d := o.d.toNat, a := o.a.toNat, b := .sreg o.b.toNat }
/-- UL. -/
def ulArgs (o : LF) : UArgs :=
  { len := 8, pr := o.pr, neg := o.neg, ty := o.ty, sat := o.sat, hi := o.hi, d := o.d.toNat, a := o.a.toNat,
    b := .sreg o.b.toNat, c := o.c.toNat }
/-- UI. -/
def uiArgs (o : IF) : UArgs :=
  { len := 8, pr := o.pr, neg := o.neg, ty := o.ty, sat := o.top, d := o.d.toNat, a := o.a.toNat,
    b := .imm (immOf (uniTy o.ty) o.imm) }

/-- A uniform operand: an s register or an immediate, `w` low bits. -/
def State.uarg (s : State) (x : Arg) (w : Nat) : Nat := s.arg { lane := 0, pc := 0, frame := 0 } x w

/-- A uniform instruction that writes one s register. -/
def Desc.scalar (D : Desc) (s : State) (d : Nat) (v : Nat) : State :=
  D.runU s (.done (s.setS d (BitVec.ofNat 64 v)))

end Sys2Proof.Machine
end

