-- ==== Sys2Proof/Machine/Flags.lean ====
section
/-! DEFINITION. Floating-point and logarithmic numbers, rounding, and the exceptions each result signals (R73 to R94). A
value is exact: a magnitude m × 2^e. Where a result is no such number (a quotient, a root, a fraction function), m has more bits
than the format and its last bit stands for everything below, which rounds alike in every mode. -/

namespace Sys2Proof.Machine

/-! ## Formats (R74) -/

/-- Exponent and fraction bits of a floating-point format. -/
structure FPar where
  eb : Nat
  fb : Nat
  deriving DecidableEq, Repr

/-- The parameters of a format (R74). -/
def fpar (t : Fmt) : FPar :=
  match t with
  | .f64 => ⟨11, 52⟩ | .f32 => ⟨8, 23⟩ | .f16 => ⟨5, 10⟩ | .b16 => ⟨8, 7⟩ | .f8a => ⟨4, 3⟩ | _ => ⟨5, 2⟩

/-- Width of an element in bits (R73). -/
def fmtBits (t : Fmt) : Nat :=
  match t with
  | .f64 => 64 | .f32 => 32 | .f16 => 16 | .b16 => 16 | .f8a => 8 | .f8b => 8 | .l8 => 8 | .l6 => 8
  | .i32 => 32 | .i16 => 16 | .i8 => 8 | .n8 => 8 | .i4 => 4 | .n4 => 4 | .t2 => 2 | .b1 => 1
/-- Width of the register operand that holds an element (R77). -/
def regBits (t : Fmt) : Nat := if t = .f64 then 64 else 32

/-- Bias. -/
def FPar.bias (p : FPar) : Nat := 2 ^ (p.eb - 1) - 1
/-- The exponent of the least normal number. -/
def FPar.emin (p : FPar) : Int := 1 - p.bias
/-- Infinity without sign. -/
def FPar.inf (p : FPar) : Nat := (2 ^ p.eb - 1) * 2 ^ p.fb
/-- The greatest finite number without sign. -/
def FPar.maxFinite (p : FPar) : Nat := p.inf - 1
/-- The canonical NaN (R75). -/
def FPar.nan (p : FPar) : Nat := p.inf + 2 ^ (p.fb - 1)
/-- The sign bit. -/
def FPar.signBit (p : FPar) : Nat := 2 ^ (p.eb + p.fb)
/-- A pattern with its sign. -/
def FPar.signed (p : FPar) (neg : Bool) (x : Nat) : Nat := (if neg then p.signBit else 0) + x

/-- The number that a pattern stands for. A zero is `fin` with m = 0. -/
inductive FV where
  | nan (signalling : Bool)
  | inf (neg : Bool)
  | fin (neg : Bool) (m : Nat) (e : Int)
  deriving DecidableEq, Repr

/-- Read a pattern (R74). -/
def FPar.read (p : FPar) (x : Nat) : FV :=
  let neg := x / p.signBit % 2 = 1
  let ex := x / 2 ^ p.fb % 2 ^ p.eb
  let fr := x % 2 ^ p.fb
  if ex = 2 ^ p.eb - 1 then (if fr = 0 then .inf neg else .nan (fr / 2 ^ (p.fb - 1) = 0))
  else if ex = 0 then .fin neg fr (p.emin - p.fb)
  else .fin neg (2 ^ p.fb + fr) (ex - p.bias - p.fb)

/-! ## Exceptions (R91, R92) -/

/-- A set of exceptions: NV, DZ, OF, UF, NX from bit 0 up (R92). -/
abbrev Exc := BitVec 5
def excNV : Exc := 1
def excDZ : Exc := 2
def excOF : Exc := 4
def excUF : Exc := 8
def excNX : Exc := 16

/-- Invalid for a signalling NaN (R91). -/
def FV.sig : FV → Exc
  | .nan true => excNV
  | _ => 0
/-- A NaN. -/
def FV.isNan : FV → Bool
  | .nan _ => true
  | _ => false

/-- m × 2^e rounded to an integer multiple of 2^q (R88): the multiple, and whether it is exact. -/
def roundAt (mode : Nat) (neg : Bool) (m : Nat) (e q : Int) : Nat × Bool :=
  if q ≤ e then (m * 2 ^ (e - q).toNat, true)
  else
    let d := 2 ^ (q - e).toNat
    (roundMag mode neg m d, m % d = 0)

/-- Overflow (R88): infinity or the greatest finite number. -/
def FPar.overflow (p : FPar) (mode : Nat) (neg : Bool) : Nat :=
  p.signed neg (match mode with
    | 2 | 5 => p.maxFinite
    | 3 => if neg then p.maxFinite else p.inf
    | 4 => if neg then p.inf else p.maxFinite
    | _ => p.inf)

/-- RoundTo (R5, R88, R91) of a nonzero magnitude m × 2^e. `uf` says that the underflow trap is enabled. -/
def FPar.roundTo (p : FPar) (mode : Nat) (uf neg : Bool) (m : Nat) (e : Int) : Nat × Exc :=
  let top : Int := m.log2 + e
  let free := (roundAt mode neg m e (top - p.fb)).1
  let etop : Int := if free = 2 ^ (p.fb + 1) then top + 1 else top
  if (p.bias : Int) < etop then (p.overflow mode neg, excOF ||| excNX)
  else
    let q : Int := max (top - p.fb) (p.emin - p.fb)
    let (r, exact) := roundAt mode neg m e q
    let tiny := etop < p.emin
    (p.signed neg ((q - (p.emin - p.fb)).toNat * 2 ^ p.fb + r),
     (if exact then 0 else excNX) ||| (if tiny && (!exact || uf) then excUF else 0))

/-- A finite result with its sign, zeros included: the sign of an exact zero is the one given. -/
def FPar.put (p : FPar) (mode : Nat) (uf neg : Bool) (m : Nat) (e : Int) : Nat × Exc :=
  if m = 0 then (p.signed neg 0, 0) else p.roundTo mode uf neg m e

/-! ## Exact arithmetic -/

/-- The sum of two finite numbers; an exact zero of opposite signs is +0, or -0 under RDN (R88). -/
def addFin (mode : Nat) (n1 : Bool) (m1 : Nat) (e1 : Int) (n2 : Bool) (m2 : Nat) (e2 : Int) : Bool × Nat × Int :=
  let e := min e1 e2
  let a := m1 * 2 ^ (e1 - e).toNat
  let b := m2 * 2 ^ (e2 - e).toNat
  if n1 = n2 then (n1, a + b, e)
  else if a = b then (mode = 4, 0, e)
  else if b < a then (n1, a - b, e)
  else (n2, b - a, e)

/-- The integer square root of a number below 4^k, digit by digit. -/
def isqrtGo (n : Nat) : Nat → Nat → Nat
  | 0, r => r
  | k + 1, r => isqrtGo n k (if (r + 2 ^ k) * (r + 2 ^ k) ≤ n then r + 2 ^ k else r)
/-- The integer square root. -/
def isqrt (n : Nat) : Nat := isqrtGo n (n.log2 / 2 + 1) 0

/-- A quotient of magnitudes with `k` bits or more, the last one for the rest. -/
def divFin (k : Nat) (m1 : Nat) (e1 : Int) (m2 : Nat) (e2 : Int) : Nat × Int :=
  let sh := k + m2.log2 + 1
  let n := m1 * 2 ^ sh
  (2 * (n / m2) + (if n % m2 = 0 then 0 else 1), e1 - e2 - sh - 1)

/-- A square root with more than `k` bits, the last one for the rest. -/
def sqrtFin (k : Nat) (m : Nat) (e : Int) : Nat × Int :=
  let odd := (e % 2).toNat
  let n := m * 2 ^ odd * 4 ^ k
  let r := isqrt n
  (2 * r + (if r * r = n then 0 else 1), (e - odd) / 2 - k - 1)

/-- fadd (R129). -/
def fAdd (p : FPar) (mode : Nat) (uf : Bool) (x y : FV) : Nat × Exc :=
  match x, y with
  | .nan _, _ | _, .nan _ => (p.nan, x.sig ||| y.sig)
  | .inf a, .inf b => if a = b then (p.signed a p.inf, 0) else (p.nan, excNV)
  | .inf a, _ | _, .inf a => (p.signed a p.inf, 0)
  | .fin n1 m1 e1, .fin n2 m2 e2 =>
    let (n, m, e) := addFin mode n1 m1 e1 n2 m2 e2
    p.put mode uf n m e

/-- A number with its sign inverted when `c` holds. -/
def FV.negIf (c : Bool) : FV → FV
  | .nan s => .nan s
  | .inf a => .inf (a != c)
  | .fin n m e => .fin (n != c) m e

/-- fmul (R129). -/
def fMul (p : FPar) (mode : Nat) (uf : Bool) (x y : FV) : Nat × Exc :=
  match x, y with
  | .nan _, _ | _, .nan _ => (p.nan, x.sig ||| y.sig)
  | .inf a, .inf b => (p.signed (a != b) p.inf, 0)
  | .inf a, .fin b m _ | .fin b m _, .inf a => if m = 0 then (p.nan, excNV) else (p.signed (a != b) p.inf, 0)
  | .fin n1 m1 e1, .fin n2 m2 e2 => p.put mode uf (n1 != n2) (m1 * m2) (e1 + e2)

/-- fma on signs already applied (R129): the product exactly, the sum exactly, one rounding. -/
def fFma (p : FPar) (mode : Nat) (uf : Bool) (x y z : FV) : Nat × Exc :=
  let sig := x.sig ||| y.sig ||| z.sig
  match x, y with
  | .nan _, _ | _, .nan _ => (p.nan, sig)
  | .inf a, .inf b =>
    (match z with
     | .nan _ => (p.nan, sig)
     | .inf c => if (a != b) = c then (p.signed c p.inf, 0) else (p.nan, excNV)
     | _ => (p.signed (a != b) p.inf, 0))
  | .inf a, .fin b m _ | .fin b m _, .inf a =>
    if m = 0 then (p.nan, excNV)
    else (match z with
      | .nan _ => (p.nan, sig)
      | .inf c => if (a != b) = c then (p.signed c p.inf, 0) else (p.nan, excNV)
      | _ => (p.signed (a != b) p.inf, 0))
  | .fin n1 m1 e1, .fin n2 m2 e2 =>
    match z with
    | .nan _ => (p.nan, sig)
    | .inf c => (p.signed c p.inf, 0)
    | .fin n3 m3 e3 =>
      let (n, m, e) := addFin mode (n1 != n2) (m1 * m2) (e1 + e2) n3 m3 e3
      p.put mode uf n m e

/-- fdiv (R129). -/
def fDiv (p : FPar) (mode : Nat) (uf : Bool) (x y : FV) : Nat × Exc :=
  match x, y with
  | .nan _, _ | _, .nan _ => (p.nan, x.sig ||| y.sig)
  | .inf _, .inf _ => (p.nan, excNV)
  | .inf a, .fin b _ _ => (p.signed (a != b) p.inf, 0)
  | .fin a _ _, .inf b => (p.signed (a != b) 0, 0)
  | .fin n1 m1 e1, .fin n2 m2 e2 =>
    if m2 = 0 then (if m1 = 0 then (p.nan, excNV) else (p.signed (n1 != n2) p.inf, excDZ))
    else if m1 = 0 then (p.signed (n1 != n2) 0, 0)
    else
      let (m, e) := divFin (p.fb + 4) m1 e1 m2 e2
      p.put mode uf (n1 != n2) m e

/-- fsqrt (R129). -/
def fSqrt (p : FPar) (mode : Nat) (uf : Bool) (x : FV) : Nat × Exc :=
  match x with
  | .nan _ => (p.nan, x.sig)
  | .inf a => if a then (p.nan, excNV) else (p.inf, 0)
  | .fin n m e =>
    if m = 0 then (p.signed n 0, 0)
    else if n then (p.nan, excNV)
    else
      let (r, e') := sqrtFin (p.fb + 4) m e
      p.put mode uf false r e'

/-! ## Comparison (R130, R132) -/

/-- Magnitudes compared exactly. -/
def magCmp (m1 : Nat) (e1 : Int) (m2 : Nat) (e2 : Int) : Ordering :=
  let e := min e1 e2
  compare (m1 * 2 ^ (e1 - e).toNat) (m2 * 2 ^ (e2 - e).toNat)

/-- Numbers compared, with -0 equal to +0; a NaN is unordered. -/
def FV.cmp : FV → FV → Option Ordering
  | .nan _, _ | _, .nan _ => none
  | .inf a, .inf b => some (if a = b then .eq else if a then .lt else .gt)
  | .inf a, _ => some (if a then .lt else .gt)
  | _, .inf b => some (if b then .gt else .lt)
  | .fin n1 m1 e1, .fin n2 m2 e2 =>
    if m1 = 0 ∧ m2 = 0 then some .eq
    else if m1 = 0 then some (if n2 then .gt else .lt)
    else if m2 = 0 then some (if n1 then .lt else .gt)
    else if n1 ≠ n2 then some (if n1 then .lt else .gt)
    else some (if n1 then magCmp m2 e2 m1 e1 else magCmp m1 e1 m2 e2)

/-- The sign of a number. -/
def FV.neg : FV → Bool
  | .nan _ => false
  | .inf a => a
  | .fin n _ _ => n
/-- The magnitude of a number. -/
def FV.mag : FV → FV
  | .nan s => .nan s
  | .inf _ => .inf false
  | .fin _ m e => .fin false m e

/-- x is less than y, where -0 is less than +0 (R130). -/
def FV.below (x y : FV) : Bool :=
  match x.cmp y with
  | some .lt => true
  | some .eq => x.neg && !y.neg
  | _ => false

/-- The operations of lane op 0x16. -/
inductive MinMax where
  | min | max | minn | maxn | minm | maxm
  deriving DecidableEq, Repr

/-- The choice of a number by R130, on the operands' patterns. -/
def fMinMax (k : MinMax) (p : FPar) (a b : Nat) : Nat × Exc :=
  let x := p.read a
  let y := p.read b
  let exc := x.sig ||| y.sig
  let small := if x.below y then a else b
  let great := if x.below y then b else a
  let r := match k with
    | .min => if x.isNan || y.isNan then p.nan else small
    | .max => if x.isNan || y.isNan then p.nan else great
    | _ =>
      if x.isNan && y.isNan then p.nan else if x.isNan then b else if y.isNan then a
      else match k, x.mag.cmp y.mag with
        | .minm, some .lt => a
        | .minm, some .gt => b
        | .maxm, some .lt => b
        | .maxm, some .gt => a
        | .maxn, _ | .maxm, _ => great
        | _, _ => small
  (r, exc)

/-- The relation of `fcmp` (R132). -/
def fCmp (cond : Nat) (quiet : Bool) (x y : FV) : Bool × Exc :=
  let c := x.cmp y
  let t := match cond with
    | 0 => c = some .eq
    | 1 => c ≠ some .eq
    | 2 => c = some .lt
    | 3 => c = some .lt || c = some .eq
    | 4 => c = some .gt
    | 5 => c = some .gt || c = some .eq
    | 6 => c = none
    | _ => c ≠ none
  let loud := 2 ≤ cond && cond ≤ 5 && !quiet && c = none
  (t, x.sig ||| y.sig ||| (if loud then excNV else 0))

/-- The mask of `fclass` (R133). -/
def fClass (p : FPar) (a : Nat) : Nat :=
  match p.read a with
  | .nan true => 2 ^ 8
  | .nan false => 2 ^ 9
  | .inf n => if n then 1 else 2 ^ 7
  | .fin n m _ =>
    if m = 0 then (if n then 2 ^ 3 else 2 ^ 4)
    else if m < 2 ^ p.fb then (if n then 2 ^ 2 else 2 ^ 5)
    else (if n then 2 else 2 ^ 6)

/-! ## Logarithmic formats (R78 to R80, R135) -/

/-- T8 of R79. -/
def logTable (f : Nat) : Nat :=
  match f with
  | 0 => 0x40000000 | 1 => 0x45CAE0F2 | 2 => 0x4C1BF829 | 3 => 0x52FF6B55 | 4 => 0x5A82799A | 5 => 0x62B39509 | 6 => 0x6BA27E65
  | _ => 0x75606374

/-- The linear value of a logarithm in eighths (R79). -/
def logLin (l : Int) : Nat × Int := (logTable (l % 8).toNat, l / 8 - 30)

/-- Sign and logarithm in eighths of an L8 or L6 code; none for zero and the reserved code (R78, R83). An L6 logarithm is
doubled (R80). -/
def logRead (t : Fmt) (x : Nat) : Option (Bool × Int) :=
  if t = .l8 then
    let l := (BitVec.ofNat 7 x).toInt
    if l = -64 then none else some (x / 128 % 2 = 1, l)
  else
    let l := (BitVec.ofNat 5 x).toInt
    if l = -16 then none else some (x / 32 % 2 = 1, 2 * l)

/-- The number of a log code: zero reads +0 (R78, R83). -/
def logVal (t : Fmt) (x : Nat) : FV :=
  match logRead t x with
  | none => .fin false 0 0
  | some (n, l) => let (m, e) := logLin l; .fin n m e

/-- The zero code. -/
def logZero (t : Fmt) : Nat := if t = .l8 then 0x40 else 0x10
/-- The greatest logarithm in the format's own units: 63 eighths or 15 quarters. -/
def logMax (t : Fmt) : Int := if t = .l8 then 63 else 15
/-- Eighths in one unit of the format. -/
def logUnit (t : Fmt) : Nat := if t = .l8 then 1 else 2
/-- A code from sign and logarithm in the format's units. -/
def logPut (t : Fmt) (neg : Bool) (l : Int) : Nat :=
  if t = .l8 then (if neg then 128 else 0) + (l % 128).toNat else (if neg then 32 else 0) + (l % 32).toNat

/-- The greatest logarithm, in the format's units and without bound, whose linear value does not exceed m × 2^e. -/
def logFloor (t : Fmt) (m : Nat) (e : Int) : Int :=
  let u := logUnit t
  let top : Int := m.log2 + e
  let n := 8 / u
  let fits := (List.range n).filter (fun f => magCmp (logTable (f * u)) (top - 30) m e ≠ .gt)
  top * n + fits.length - 1

/-- Which of two neighbours a value lies nearer to decides under the modes of R88: true for the greater one. `odd` says that the
lower one's L is odd. -/
def logUp (mode : Nat) (neg odd : Bool) (mid : Ordering) : Bool :=
  match mode with
  | 0 => mid = .gt || (mid = .eq && odd)
  | 1 => mid ≠ .lt
  | 2 => false
  | 3 => !neg
  | 4 => neg
  | _ => !odd

/-- A nonzero magnitude rounded into a log format (R135). The values among which tininess is decided are those of R79. -/
def logRound (t : Fmt) (mode : Nat) (neg : Bool) (m : Nat) (e : Int) : Nat × Exc :=
  let u : Int := logUnit t
  let lo := logFloor t m e
  let (m1, e1) := logLin (lo * u)
  let (m2, e2) := logLin ((lo + 1) * u)
  let exact := magCmp m1 e1 m e = .eq
  let (_, ms, es) := addFin 0 false m1 e1 false m2 e2
  let l := if exact then lo else if logUp mode neg (lo % 2 = 1) (magCmp m (e + 1) ms es) then lo + 1 else lo
  let least : Int := -logMax t
  if least ≤ lo then
    if logMax t < l then (logPut t neg (logMax t), excOF ||| excNX)
    else (logPut t neg l, if exact then 0 else excNX)
  else
    let (m0, e0) := logLin (least * u)
    let up := logUp mode neg false (magCmp m (e + 1) m0 e0)
    (if up then logPut t neg least else logZero t, excNX ||| (if l < least then excUF else 0))

/-- A number written into a log format (R135): a NaN and an infinity signal NV. -/
def logFrom (t : Fmt) (mode : Nat) (x : FV) : Nat × Exc :=
  match x with
  | .nan _ => (logZero t, excNV)
  | .inf n => (logPut t n (logMax t), excNV)
  | .fin n m e => if m = 0 then (logZero t, 0) else logRound t mode n m e

/-- The number of an element of any floating or log format. -/
def fmtRead (t : Fmt) (x : Nat) : FV := if t.isLog then logVal t x else (fpar t).read x

/-- fcvt (R134, R135). -/
def fConvert (src dst : Fmt) (mode : Nat) (uf : Bool) (a : Nat) : Nat × Exc :=
  if src.isLog && dst.isLog && exactCvt src dst then
    (match logRead src a with
     | none => (logZero dst, 0)
     | some (n, l) => (logPut dst n (l / logUnit dst), 0))
  else
    let x := fmtRead src a
    if dst.isLog then logFrom dst mode x
    else
      let p := fpar dst
      match x with
      | .nan _ => (p.nan, x.sig)
      | .inf n => (p.signed n p.inf, 0)
      | .fin n m e => p.put mode uf n m e

/-- fcvti (R136). -/
def fToInt (t : ITy) (mode : Nat) (x : FV) : Nat × Exc :=
  match x with
  | .nan _ => (0, excNV)
  | .inf n => (fit (if n then tyLeast t else tyGreatest t) t false, excNV)
  | .fin n m e =>
    let (r, exact) := roundAt mode n m e 0
    let v : Int := if n then -(r : Int) else r
    if v < tyLeast t then (fit (tyLeast t) t false, excNV)
    else if tyGreatest t < v then (fit (tyGreatest t) t false, excNV)
    else (fit v t false, if exact then 0 else excNX)

/-- icvtf (R136). -/
def fFromInt (p : FPar) (mode : Nat) (uf : Bool) (v : Int) : Nat × Exc := p.put mode uf (v < 0) v.natAbs 0

/-- frint (R137). -/
def fRint (p : FPar) (mode : Nat) (loud : Bool) (x : FV) : Nat × Exc :=
  match x with
  | .nan _ => (p.nan, x.sig)
  | .inf n => (p.signed n p.inf, 0)
  | .fin n m e =>
    let (r, exact) := roundAt mode n m e 0
    if 0 ≤ e then p.put 0 false n m e
    else ((p.put 0 false n r 0).1, if loud && !exact then excNX else 0)

/-- fexpi (R138): beyond ±5000 every format has over- or underflowed alike. -/
def fExpi (p : FPar) (mode : Nat) (uf : Bool) (x : FV) (k : Int) : Nat × Exc :=
  match x with
  | .nan _ => (p.nan, x.sig)
  | .inf n => (p.signed n p.inf, 0)
  | .fin n m e => p.put mode uf n m (e + max (-5000) (min 5000 k))

/-- fexpx (R138). -/
def fExpx (x : FV) : Nat × Exc :=
  match x with
  | .nan _ => (0x80000000, excNV)
  | .inf _ => (0x7FFFFFFF, excNV)
  | .fin _ m e => if m = 0 then (0x80000000, excNV) else ((((m.log2 : Int) + e) % 2 ^ 32).toNat, 0)

/-- What a seed signals (R140): overflow and underflow, each with inexact. -/
def seedExc (x : Exc) : Exc := if x &&& (excOF ||| excUF) = 0 then 0 else x ||| excNX

/-- fseedr (R140). -/
def fSeedr (p : FPar) (uf : Bool) (x : FV) : Nat × Exc :=
  match x with
  | .nan _ => (p.nan, x.sig)
  | .inf n => (p.signed n 0, 0)
  | .fin n m e =>
    if m = 0 then (p.signed n p.inf, excDZ)
    else
      let top := m.log2
      let j := m * 2 ^ 12 / 2 ^ top
      let r := roundMag 0 false (2 ^ 29) (2 * j + 1)
      let (v, exc) := p.put 0 uf n r (-16 - (top + e))
      (v, seedExc exc)

/-- fseedq (R140). -/
def fSeedq (p : FPar) (uf : Bool) (x : FV) : Nat × Exc :=
  match x with
  | .nan _ => (p.nan, x.sig)
  | .inf n => if n then (p.nan, excNV) else (0, 0)
  | .fin n m e =>
    if m = 0 then (p.signed n p.inf, excDZ)
    else if n then (p.nan, excNV)
    else
      let top : Int := m.log2 + e
      let k := top / 2
      let j := (roundAt 2 false m e (2 * k - 10)).1
      let r := isqrt (2 ^ 43 / (2 * j + 1))
      let r' := if (2 * r + 1) * (2 * r + 1) * (2 * j + 1) < 2 ^ 45 then r + 1 else r
      let (v, exc) := p.put 0 uf false r' (-16 - k)
      (v, seedExc exc)

end Sys2Proof.Machine
end

