-- ==== Sys2Proof/Machine/AtomOp.lean ====
section
/-! DEFINITION. The operations of atomics and reductions on one value (R230, R233, R234, R237). -/

namespace Sys2Proof.Machine

/-- How an atomic reads its location (R230): bytes, signedness for integers, the format for floats; `raw` is .b128. -/
inductive AType where
  | int (t : ITy)
  | flt (t : Fmt)
  | raw
  deriving DecidableEq, Repr

/-- AT of a lane word (R230). -/
def laneAt (t : BitVec 3) : AType :=
  match t.toNat with
  | 0 => .int ⟨32, true⟩ | 1 => .int ⟨32, false⟩ | 2 => .int ⟨64, true⟩ | 3 => .int ⟨64, false⟩
  | 4 => .flt .f32 | 5 => .flt .f64 | _ => .raw
/-- AT of a uniform word (R230). -/
def uniAt (t : BitVec 3) : AType :=
  match t.toNat with
  | 0 => .int ⟨64, true⟩ | 1 => .int ⟨64, false⟩ | 2 => .int ⟨32, true⟩ | 3 => .int ⟨32, false⟩
  | 4 => .flt .f64 | 5 => .flt .f32 | _ => .raw

/-- Bytes of an access (R230). -/
def AType.bytes : AType → Nat
  | .int t => t.w / 8
  | .flt t => fmtBits t / 8
  | .raw => 16

/-- A value as an s register takes it: integers by their sign. -/
def AType.ext (t : AType) (v : Nat) : Nat :=
  match t with
  | .int t => (ext64 v t).toNat
  | _ => v

/-- The new value and the exceptions of AOP on old and operand (R233). -/
def atomOp (aop : Nat) (t : AType) (old b : Nat) : Nat × Exc :=
  match t with
  | .raw => (b, 0)
  | .flt f =>
    let p := fpar f
    (match aop with
     | 0 => fAdd p 0 false (p.read old) (p.read b)
     | 1 => fMinMax .minn p old b
     | 2 => fMinMax .maxn p old b
     | _ => (b, 0))
  | .int ty =>
    let x := patVal ty old
    let y := patVal ty b
    (match aop with
     | 0 => fit (x + y) ty false
     | 1 => if x ≤ y then old else b
     | 2 => if y ≤ x then old else b
     | 3 => old &&& b
     | 4 => old ||| b
     | 5 => old ^^^ b
     | 6 => b
     | 7 => if b ≤ old then 0 else old + 1
     | _ => if old = 0 ∨ b < old then b else old - 1, 0)

/-- The identity of a reduction (R237). -/
def redIdentity (aop : Nat) (t : AType) : Nat :=
  match t with
  | .raw => 0
  | .flt f =>
    let p := fpar f
    (match aop with | 0 => p.signBit | 1 => p.inf | _ => p.signBit + p.inf)
  | .int ty =>
    (match aop with
     | 1 => (tyGreatest ty).toNat
     | 2 => (tyLeast ty % 2 ^ ty.w).toNat
     | 3 => 2 ^ ty.w - 1
     | _ => 0)

end Sys2Proof.Machine
end

