-- ==== Sys2Proof/Machine/Memory.lean ====
section
/-! DEFINITION. Memory as one die sees it: physical bytes and their keys, scratchpads, translation with its checks, the
copies a die holds of lines homed elsewhere, and the checks of every access (spec 09, 10, 13, 18). -/

namespace Sys2Proof.Machine

/-- The address lies in some die's replica area, which no translation may yield (R410). -/
def State.inReplicaArea (s : State) (pa : Nat) : Bool :=
  paPkg pa = s.pkgid && paSpace pa = 0 &&
  (List.range s.part.dies).any (fun d =>
    replicaDie s.part d = paDie pa &&
      ((s.rbase d ≤ paOff pa && paOff pa < s.rbase d + s.rlen d)
        || (match (s.die d).rehome with | some (rb, rl) => rb ≤ paOff pa && paOff pa < rb + rl | none => false)))

/-- How die `d` reaches an address: at a place, not any more (0x140), or not yet (it waits). -/
inductive Reach where
  | at (pa : Nat)
  | lost
  | waits
  deriving DecidableEq, Repr

/-- The UCIe port of die `d` towards die `h` (R420): the other compute dies in ascending order, then the processor die. -/
def portTo (d h : Nat) : Nat := if h = 4 then 3 else if h < d then h else h - 1
/-- The link of a die's port. -/
def State.linkAt (s : State) (d port : Nat) : Option Link := s.links.find? (fun l => l.die = d && l.port = port)
/-- One end of a link holds requests: it is paused or trains, or it has failed without a detour (R419, R422). -/
def Link.holds (l : Link) : Bool := l.state = 1 || l.state = 2 || (l.state = 3 && l.detour = none)
/-- Requests from die `d` to die `h` wait at the link between them. -/
def State.linkHolds (s : State) (d h : Nat) : Bool :=
  [s.linkAt d (portTo d h), s.linkAt h (portTo h d)].any (fun l => match l with | some l => l.holds | none => false)
/-- Traffic between two dies of the package waits: at the link between them, or since one of them holds back (R406). -/
def State.pathHolds (s : State) (d h : Nat) : Bool := d ≠ h && (s.linkHolds d h || s.holdsBack d || s.holdsBack h)
/-- Some scale-up port of the package works (R411, R422). -/
def State.fabricUp (s : State) : Bool := s.links.any (fun l => 16 ≤ l.port && l.state = 0 && (s.die l.die).admitted)

/-- R409 to R411: an access homed on a die that was evicted is redirected to the replica while the accessing die's RHMAP says so
and it lies in the replicated range; one homed on a failed die that is not yet evicted, or behind a path that holds it, or on a
package that no port reaches, waits. -/
def State.reach (s : State) (d pa : Nat) : Reach :=
  if paPkg pa ≠ s.pkgid then
    if !s.pkgs.getLsbD (paPkg pa) then .lost
    else if s.fabricUp && !s.deadPkgs.getLsbD (paPkg pa) && !s.holdsBack d then .at pa else .waits
  else
    let h := paDie pa
    match (if (s.mgmt d 0x814).getLsbD h then (s.die h).rehome else none) with
    | some (rb, rl) =>
      if paOff pa < rl then
        let r := replicaDie s.part h
        if !(s.die r).admitted then .lost
        else if (s.die r).failed ∨ s.pathHolds d r = true then .waits
        else .at (s.replicaAt r rb (paOff pa))
      else if (s.die h).admitted then .at pa else .lost
    | none =>
      if !(s.die h).admitted then .lost
      else if (s.die h).failed ∨ s.pathHolds d h = true then .waits
      else .at pa

/-- R410, R411: a device-space address, which no replica stands for, is reached on its die and package, or waits, or is lost. -/
def State.reachDevice (s : State) (d pa : Nat) : Reach :=
  if paPkg pa ≠ s.pkgid then s.reach d pa
  else
    let h := paDie pa
    if !(s.die h).admitted then .lost
    else if (s.die h).failed ∨ s.pathHolds d h = true then .waits
    else .at pa

/-! ## Reduction partials (R237, R238) -/

/-- The core number that stands for the partial in a die's L2 slice. -/
def partialDie : Nat := 512

/-- An element at the home takes a partial's value (R237). No reader behind the recall misses it (R293). -/
def State.combine (s : State) (p : Partial) : State :=
  let t := laneAt p.aty
  let n := t.bytes
  let old := leNat ((List.range n).map (fun i => s.plain p.kid (p.pa + i)))
  let bs := leBytes n (atomOp p.aop t old p.val).1
  ((((List.range n).foldl (fun (u : State) i => u.keepShadow (p.pa + i)) s).putRaw p.kid p.pa bs).forget p.pa n).tagged p.pa bs p.die (p.rels ++ s.relsAt p.pa)

/-- A partial is gone. -/
def State.dropPartials (s : State) (sel : Partial → Bool) : State := { s with partials := s.partials.filter (fun p => !sel p) }

/-- Partials are combined into the home's value in the order given (R238). -/
def State.combineAll (s : State) (ps : List Partial) : State :=
  ps.foldl (fun (t : State) p => t.combine p) (s.dropPartials (fun p => ps.contains p))

/-- Add to a partial in place, starting at the identity (R237): the element of die, core and address. -/
def State.addPartial (s : State) (p : Partial) : State :=
  let same := fun (x : Partial) => x.die = p.die && x.core = p.core && x.pa = p.pa
  let t := laneAt p.aty
  let old := (s.partials.find? same).getD { p with val := redIdentity p.aop t, rels := [] }
  { s with partials := s.partials.filter (fun x => !same x) ++
      [{ p with val := (atomOp p.aop t old.val p.val).1, rels := old.rels ++ p.rels.filter (fun r => !old.rels.contains r) }] }

/-- The partials of a line that a die holds in one place. -/
def State.partialsOf (s : State) (die core line : Nat) : List Partial :=
  sortOn (·.pa) (s.partials.filter (fun p => p.die = die && p.core = core && p.pa / 64 = line))

/-- What a place holds of a partial's line has another operation or type (R237). -/
def State.otherOp (s : State) (p : Partial) : Bool :=
  (s.partialsOf p.die p.core (p.pa / 64)).any (fun x => x.aop ≠ p.aop || x.aty ≠ p.aty)

/-- The key of a line in the caches of a die or a cluster. -/
def lineKeyOf (d line : Nat) : Nat := d * 2 ^ 46 + line
/-- The L1 of a core no longer holds a line: its bit in the core filter of its cluster goes (R197). -/
def State.leaveL1 (s : State) (d core line : Nat) : State :=
  if 384 ≤ core then s
  else
    let k := lineKeyOf (core / 24) line
    s.modDie d (fun z => { z with filt := Sparse.set 0 k (putBit (Sparse.get 0 k z.filt) (core % 24) false) z.filt })

/-- A core's partial of a line leaves its L1 (R237): to the home on its own die, else into the die's partial, which goes home first
when it has another operation or type. -/
def State.evictPartial (s : State) (die core line : Nat) : State :=
  let ps := s.partialsOf die core line
  let s := s.leaveL1 die core line
  if core = partialDie ∨ (paPkg (line * 64) = s.pkgid ∧ paDie (line * 64) = die) then s.combineAll ps
  else ps.foldl (fun (t : State) p =>
    let d := { p with core := partialDie }
    (if t.otherOp d then t.combineAll (t.partialsOf die partialDie line) else t).addPartial d)
    (s.dropPartials (fun p => ps.contains p))

/-- A `red` update enters the partial of its core (R237). -/
def State.redUpdate (s : State) (p : Partial) : State :=
  (if s.otherOp p then s.evictPartial p.die p.core (p.pa / 64) else s).addPartial p

/-- The cores of a die that hold a partial of a line, ascending. -/
def State.partialCores (s : State) (die line : Nat) : List Nat :=
  (sortOn (fun x : Nat => x) ((s.partials.filter (fun p => p.die = die && p.core ≠ partialDie && p.pa / 64 = line)).map (·.core))).eraseDups

/-- Recall of a line (R238): the home die's cores in ascending order, then each other die's partial, which has first taken that
die's cores in ascending order. Every die of the package is another die to a line of another package. -/
def State.recallLine (s : State) (line : Nat) : State :=
  if s.partials.all (fun p => p.pa / 64 ≠ line) then s
  else
    let home := if paPkg (line * 64) = s.pkgid then paDie (line * 64) else 4
    let s1 := (s.partialCores home line).foldl (fun (t : State) c => t.evictPartial home c line) s
    ((List.range 4).filter (fun d => d ≠ home)).foldl (fun (t : State) d =>
      let t1 := (t.partialCores d line).foldl (fun (u : State) c => u.evictPartial d c line) t
      t1.combineAll (t1.partialsOf d partialDie line)) s1

/-- The byte that the home answers under a key, every partial of its line combined (R238). -/
def State.homeByte (s : State) (kid pa : Nat) : Byte := (s.recallLine (pa / 64)).plain kid pa
/-- A write at the home: every partial of its line is combined first (R238). -/
def State.putHome (s : State) (kid pa : Nat) (bs : List Byte) : State := (s.recallLine (pa / 64)).putRaw kid pa bs

/-! ## Copies away from home (R190, R195 to R198, R295, R296) -/

/-- The copy of a line that a die holds. -/
def Die.copyOf (x : Die) (line : Nat) : Option Copy := x.copies.find? (fun c => c.line = line)
/-- The home die of an address is the accessing die. -/
def State.isHome (s : State) (d pa : Nat) : Bool := paPkg pa = s.pkgid && paDie pa = d
/-- Byte i of 64. -/
def lineByte (v : BitVec 512) (i : Nat) : Byte := v.extractLsb' (8 * i) 8
/-- Change byte i of 64. -/
def setLineByte (v : BitVec 512) (i : Nat) (b : Byte) : BitVec 512 :=
  (v &&& ~~~((0xFF : BitVec 512) <<< (8 * i))) ||| (b.setWidth 512 <<< (8 * i))

/-- The line as its home answers it. -/
def State.homeLine (s : State) (kid line : Nat) : BitVec 512 :=
  let t := s.recallLine line
  (List.range 64).foldl (fun v i => setLineByte v i (t.plain kid (line * 64 + i))) 0

/-- A live counter's descriptor fills this line (R241). -/
def State.liveLine (s : State) (line : Nat) : Bool := s.counters.any (fun c => !c.gone && c.pa / 64 = line)

/-- Lines of a page with this on-chip home are never held away from their home (R195). -/
def uncached (home : Nat) : Bool := home = 1 || home = 3

/-- A read of die `d` reaches the home of a line: on the home die, on a page that is not cached, where the die holds no copy, and for a live
descriptor. -/
def State.readsHome (s : State) (d home pa : Nat) : Bool :=
  s.isHome d pa || uncached home || ((s.die d).copyOf (pa / 64)).isNone || s.liveLine (pa / 64)

/-- The byte that a core access of die `d` reads: from its copy, or from the home with every partial combined (R195, R238). -/
def State.seeByte (s : State) (d : Nat) (x : Attr) (pa : Nat) : Byte :=
  if s.readsHome d x.home pa then s.homeByte x.kid pa
  else match (s.die d).copyOf (pa / 64) with
    | some c => lineByte c.bytes (pa % 64)
    | none => 0

/-- The place of a byte of a die's copies, above those of memory and scratchpads. -/
def copyKey (d pa : Nat) : Nat := (d + 1) * 2 ^ 64 + pa
/-- The place at which the history of a byte stands as die `d` sees it. -/
def State.histKey (s : State) (d pa : Nat) : Nat := if s.isHome d pa then pa else copyKey d pa

/-- The home records a die that may hold a copy of a region (R198): a die of its own package, or the package. -/
def State.addHolder (s : State) (d pa : Nat) : State :=
  let r := pa / 2048
  let h := Sparse.get (0, 0) r s.holders
  let h' := if paPkg pa = s.pkgid then (putBit h.1 d true, h.2) else (h.1, putBit h.2 s.pkgid true)
  { s with holders := Sparse.set (0, 0) r h' s.holders }
/-- A die is recorded as a holder of the region of a line (R198). -/
def State.holds (s : State) (d line : Nat) : Bool :=
  let h := Sparse.get (0, 0) (line * 64 / 2048) s.holders
  if paPkg (line * 64) = s.pkgid then h.1.getLsbD d else h.2.getLsbD s.pkgid

/-- The virtual address of the line of an access joins those of a copy. -/
def Copy.name (c : Copy) (x : Attr) : Copy :=
  if c.vas.contains (x.asid, x.va / 64 * 64) then c else { c with vas := c.vas ++ [(x.asid, x.va / 64 * 64)] }

/-- The bytes of a line. -/
def lineBytes (v : BitVec 512) : List Byte := (List.range 64).map (lineByte v)

/-- The retention class that a hint gives, + 1 (R196). -/
def hintClass (hint : Nat) : Nat := match hint with | 1 => 1 | 2 => 3 | _ => 2

/-- A die comes to hold a clean copy of a line, with the releases that its bytes carry and the class that the access gives; the home records
it. -/
def State.addCopy (s : State) (d : Nat) (x : Attr) (line : Nat) : State :=
  let v := s.homeLine x.kid line
  { (s.addHolder d (line * 64)).modDie d (fun z => { z with copies := z.copies ++ [
      Copy.name { line := line, kid := x.kid, bytes := v, dirty := 0 } x] }) with
    class_ := Sparse.set (0, 0) (lineKeyOf d line) (hintClass x.hint, s.now) s.class_
    hist := (List.range 64).foldl (fun h i => tagHist s.clock (copyKey d (line * 64 + i)) (lineByte v i)
      (((s.lastWrite (line * 64 + i) s.now).map (·.die)).getD 8) (s.relsAt (line * 64 + i)) h) s.hist }

/-- A die's copies of some lines are gone, from its cluster caches, too, and with them the lines' retention classes (R196). -/
def State.dropCopies (s : State) (d : Nat) (sel : Copy → Bool) : State :=
  let cs := (s.die d).copies.filter sel
  let gone := cs.map (·.line)
  { s.modDie d (fun z => { z with copies := z.copies.filter (fun c => !sel c), clines := z.clines.filter (fun x => !gone.contains (x.1 % 2 ^ 46)) }) with
    class_ := s.class_.filter (fun x => !(x.1 / 2 ^ 46 = d && gone.contains (x.1 % 2 ^ 46)))
    hist := cs.foldl (fun h c => ({ s with hist := h } : State).cutHist (copyKey d (c.line * 64)) (lineBytes c.bytes)) s.hist }

/-- A store into a copy: the bytes, marked dirty with the clock. -/
def Copy.store (c : Copy) (clock off : Nat) (bs : List Byte) : Copy :=
  bs.zipIdx.foldl (fun (c : Copy) (y : Byte × Nat) =>
    { c with bytes := setLineByte c.bytes (off + y.2) y.1, dirty := putBit c.dirty (off + y.2) true
             times := Sparse.set 0 (off + y.2) (clock + 1) c.times }) c

/-- Some bytes of the copy that a die holds of a line. -/
def State.copyBytes (s : State) (d pa n : Nat) : List Byte :=
  match (s.die d).copyOf (pa / 64) with
  | some c => (List.range n).map (fun i => lineByte c.bytes (pa % 64 + i))
  | none => []

/-- A store of die `d` to bytes of one line: at its home die, or of a page that is never cached away (HOME 0b01, 0b11), it reaches
the home, and a copy that the die holds takes it; elsewhere it goes into the die's byte-masked copy (R190, R195, R295). `rels` are
the releases that it carries, `by_` what it counts as where it is not a store of the core path (`Past.die`). -/
def State.storeBytes (s : State) (d : Nat) (x : Attr) (pa : Nat) (bs : List Byte) (rels : List Rel := []) (by_ : Option Nat := none) : State :=
  let line := pa / 64
  let off := pa % 64
  if s.isHome d pa ∨ uncached x.home then
    let s1 := (((List.range bs.length).foldl (fun (t : State) i => t.keepShadow (pa + i)) (s.recallLine line)).putHome x.kid pa bs).tagged
      pa bs (by_.getD d) rels
    if s.isHome d pa ∨ ((s.die d).copyOf line).isNone then s1
    else
      let s2 := s1.modDie d (fun z => { z with copies := z.copies.map (fun c => if c.line = line then
        bs.zipIdx.foldl (fun (c : Copy) (y : Byte × Nat) =>
          { c with bytes := setLineByte c.bytes (off + y.2) y.1, dirty := putBit c.dirty (off + y.2) false }) c else c) })
      ({ s2 with hist := s2.noted (copyKey d pa) (s.copyBytes d pa bs.length) bs } : State).tagged (copyKey d pa) bs (by_.getD d) rels
  else
    let s1 := if ((s.die d).copyOf line).isSome then s else s.addCopy d x line
    ({ s1.modDie d (fun z => { z with copies := z.copies.map (fun c => if c.line = line then (c.name x).store s.clock off bs else c) }) with
       hist := s1.noted (copyKey d pa) (s1.copyBytes d pa bs.length) bs } : State).tagged (copyKey d pa) bs (by_.getD d) rels

/-- A dirty byte of a copy that is written back may lose against the write-back of another die that came while it was dirty (R296). -/
def State.mergeLoses (s : State) (d : Nat) (c : Copy) (i pa : Nat) : Bool :=
  let b := Sparse.get (0, 0) (pa + i) s.backs
  b.1 ≠ 0 && b.1 ≠ d + 1 && Sparse.get 0 i c.times ≤ b.2 && s.choose (2 ^ 63 + pa + i) 2 = 1

/-- The dirty bytes of a copy at its home (R295, R296). -/
def State.mergeLine (s : State) (d : Nat) (c : Copy) (pa : Nat) : State :=
  (List.range 64).foldl (fun (t : State) i =>
    if c.dirty.getLsbD i && !s.mergeLoses d c i pa then
      let t1 := ((t.keepShadow (pa + i)).putHome c.kid (pa + i) [lineByte c.bytes i]).tagged (pa + i) [lineByte c.bytes i] d (s.relsAt (copyKey d (c.line * 64 + i)))
      { t1 with backs := Sparse.set (0, 0) (pa + i) (d + 1, s.clock + 1) t1.backs }
    else t) s

/-- The copy after its write-back: clean, and, where a byte has lost, the line as its home has it: no element has one byte of the write that
won and another from before it (R291). -/
def State.merged (s : State) (d : Nat) (c : Copy) (pa : Nat) : Copy :=
  let won := fun (i : Nat) => c.dirty.getLsbD i && !s.mergeLoses d c i pa
  let lost := (List.range 64).any (fun i => c.dirty.getLsbD i && s.mergeLoses d c i pa)
  { c with dirty := 0, times := [], bytes := if lost then (List.range 64).foldl (fun v i =>
      if won i then v else setLineByte v i (s.homeByte c.kid (pa + i))) c.bytes else c.bytes }

/-- A die writes the dirty bytes of a line back to its home (R295); the line stays clean, or is dropped. The redirection of
R410 applies; a line whose home is lost is discarded, and one whose home cannot be reached now stays dirty. -/
def State.writeBack (s : State) (d line : Nat) (drop : Bool) : State :=
  match (s.die d).copyOf line with
  | none => s
  | some c =>
    let keep := fun (t : State) (c' : Copy) =>
      if drop then t.dropCopies d (fun y => y.line = line)
      else t.modDie d (fun z => { z with copies := z.copies.map (fun y => if y.line = line then c' else y) })
    if c.dirty = 0 then keep s c
    else match s.reach d (line * 64) with
      | .at pa =>
        if s.liveLine (pa / 64) then keep s { c with dirty := 0, times := [] }
        else
          let c' := s.merged d c pa
          let t := s.mergeLine d c pa
          keep { t with hist := t.noted (copyKey d (c.line * 64)) (lineBytes c.bytes) (lineBytes c'.bytes) } c'
      | .lost => keep s { c with dirty := 0, times := [] }
      | .waits => s

/-- A dirty line of a die's copies whose home cannot be reached now: a release that must write it back waits (R207, R295). -/
def State.lineBlocked (s : State) (d : Nat) (c : Copy) : Bool := c.dirty ≠ 0 && s.reach d (c.line * 64) = .waits

/-! ## Translation (R354 to R361) -/

/-- A little-endian 64-bit value at a physical address, read at its home under the default key (R358). -/
def State.phys64 (s : State) (pa : Nat) : DWord :=
  BitVec.ofNat 64 (leNat ((List.range 8).map (fun i => s.homeByte 0 (pa + i))))

/-- A leaf as a translation uses it: the entry, the first virtual address it covers and its size. -/
structure Leaf where
  entry : DWord
  va    : Nat
  size  : Nat
  deriving DecidableEq, Repr

/-- Fields of an entry (R355). -/
def pteHome (e : DWord) : Nat := fieldOf e 63 62
def pteKey (e : DWord) : Nat := fieldOf e 61 56
def pteOwner (e : DWord) : Nat := fieldOf e 55 40
def pteRepl (e : DWord) : Bool := e.getLsbD 39
def pteShard (e : DWord) : Bool := e.getLsbD 38
def ptePpn (e : DWord) : Nat := fieldOf e 37 4
def pteSz (e : DWord) : Nat := fieldOf e 3 2
def ptePerm (e : DWord) : Nat := fieldOf e 1 0

/-- A leaf maps device space: PPN<25:24> is 0b11 (R355). -/
def pteDevice (e : DWord) : Bool := ptePpn e / 2 ^ 24 % 4 = 3
/-- The physical base of a leaf or table (R355). -/
def pteBase (e : DWord) : Nat :=
  let p := ptePpn e
  p / 2 ^ 28 * 2 ^ 46 + p / 2 ^ 26 % 4 * 2 ^ 38
    + (if pteDevice e then p / 2 ^ 18 % 64 * 2 ^ 40 + p % 2 ^ 18 * 4096 else p % 2 ^ 26 * 4096)

/-- The levels of the walk, top first: level, index shift, index bits (R357). -/
def walkLevels : List (Nat × Nat × Nat) := [(4, 45, 11), (3, 34, 11), (2, 26, 8), (1, 20, 6), (0, 12, 8)]

/-- The size of a leaf at a level, none where the level holds no leaf (R357). -/
def leafSize (level sz : Nat) : Option Nat :=
  match level with
  | 2 => some (2 ^ 26 * 4 ^ sz)
  | 1 => some (2 ^ 20 * (match sz with | 0 => 1 | 1 => 2 | 2 => 4 | _ => 16))
  | 0 => some (2 ^ 12 * 4 ^ sz)
  | _ => none

/-- RLEN of a die as it holds for its pages (R410): its register, or after its eviction the length as it stood then. -/
def State.replLen (s : State) (h : Nat) : Nat :=
  match (if (s.die h).admitted then none else (s.die h).rehome) with
  | some (_, rl) => rl
  | none => s.rlen h

/-- A leaf entry at a level is malformed (R356, R410). -/
def State.leafBad (s : State) (level : Nat) (e : DWord) : Bool :=
  match leafSize level (pteSz e) with
  | none => true
  | some size =>
    pteBase e % size ≠ 0
    || (pteDevice e && (pteHome e ≠ 3 || pteKey e ≠ 0 || ptePpn e / 2 ^ 18 % 64 = 0))
    || (pteRepl e && !pteDevice e && s.replLen (paDie (pteBase e)) < paOff (pteBase e) + size)

/-- A table pointer, or the root as one, is malformed: not a multiple of what its table requires, or not backed, as every PPN of device
space (R354 to R357). `below` is the level of the table it names. -/
def State.tableBad (s : State) (below ppn : Nat) : Bool :=
  (3 ≤ below && ppn % 4 ≠ 0) || ppn / 2 ^ 24 % 4 = 3 || !s.backed (pteBase (BitVec.ofNat 64 (ppn * 16)))

/-- The pinned-window table of a die, at the physical address PINBASE: each record's BASE, LEN and CORE (R383). -/
def State.pinned (s : State) (d : Nat) : List (Nat × Nat × Nat) :=
  (List.range (s.mgmt d 0x804).toNat).map (fun i =>
    let pa := (s.mgmt d 0x803).toNat + 16 * i
    let lo := s.phys64 pa
    ((s.phys64 (pa + 8)).toNat, fieldOf lo 63 32, fieldOf lo 8 0))

/-- A translated address of a HOME 0b01 page lies in exactly one record of its home die's table, of a core with one record (R383).
What stands in a table of another package is a free choice (log 86). -/
def State.pinOk (s : State) (pa : Nat) : Bool :=
  if paPkg pa ≠ s.pkgid then s.choose (2 ^ 58 + pa) 2 = 0
  else
    let rs := s.pinned (paDie pa)
    match rs.filter (fun r => r.1 ≤ pa ∧ pa < r.1 + r.2.1) with
    | [r] => (rs.filter (fun x => x.2.2 = r.2.2)).length = 1
    | _ => false

/-- What a walk finds: a leaf, or a cause. -/
def State.walkFrom (s : State) (d : Nat) (va : Nat) : List (Nat × Nat × Nat) → Nat → Except Nat Leaf
  | [], _ => .error 0x084
  | (level, sh, bits) :: rest, table =>
    match s.reach d (table + 8 * (va / 2 ^ sh % 2 ^ bits)) with
    | .lost => .error 0x140
    | .waits => .error 0x142
    | .at pa =>
      let e := s.phys64 pa
      if ptePerm e = 0 then
        if pteSz e = 0 then .error 0x080
        else if pteSz e ≠ 1 ∨ fieldOf e 63 38 ≠ 0 ∨ level = 0 ∨ s.tableBad (level - 1) (ptePpn e) = true then .error 0x084
        else s.walkFrom d va rest (pteBase e)
      else if s.leafBad level e then .error 0x084
      else
        let size := (leafSize level (pteSz e)).getD 1
        .ok { entry := e, va := va / size * size, size := size }

/-- The place of the address-space record of an ASID on a die (R354). -/
def State.spaceAt (s : State) (d asid : Nat) : Nat := (s.mgmt d 0x801).toNat + 16 * asid
/-- The record where it is read: its two halves. -/
def State.spaceRec (s : State) (d asid : Nat) : DWord × DWord :=
  match s.reach d (s.spaceAt d asid) with
  | .at pa => (s.phys64 pa, s.phys64 (pa + 8))
  | _ => (0, 0)

/-- What the address-space record itself raises: it cannot be read (R410, R411), a reserved bit is set, VALID is 0 (in that order,
log 113), or its root is no table (R354). -/
def State.spaceBad (s : State) (d asid : Nat) : Option Nat :=
  let lo := (s.spaceRec d asid).1
  match s.reach d (s.spaceAt d asid) with
  | .lost => some 0x140
  | .waits => some 0x142
  | .at _ =>
    if fieldOf lo 63 38 ≠ 0 ∨ fieldOf lo 3 1 ≠ 0 then some 0x084
    else if lo.getLsbD 0 = false then some 0x080
    else if s.tableBad 4 (fieldOf lo 37 4) then some 0x084
    else none

/-- Walk (R354, R357). -/
def State.walk (s : State) (d asid va : Nat) : Except Nat Leaf :=
  match s.spaceBad d asid with
  | some c => .error c
  | none => s.walkFrom d va walkLevels (pteBase (BitVec.ofNat 64 (fieldOf (s.spaceRec d asid).1 37 4 * 16)))

/-- The path of an access (R281). -/
inductive Path where
  | core
  /-- By which of the two copy engines of a cluster. -/
  | copy (engine : Nat)
  | matrix | tile
  deriving DecidableEq, Repr

/-- The caches that a path of a core searches, in order (R360). -/
def Path.places (p : Path) (core : Nat) : List TlbPlace :=
  match p with
  | .core => [.l1 core, .cluster (core / 24)]
  | .copy e => [.copy (core / 24 * 2 + e), .cluster (core / 24)]
  | .matrix => [.matrix core, .cluster (core / 24)]
  | .tile => [.cluster (core / 24)]

/-- The leaves that some caches of die `d` hold for an address, in the order of the search (R360). -/
def State.leaves (s : State) (d asid : Nat) (ps : List TlbPlace) (va : Nat) : List Leaf :=
  ps.flatMap (fun p => ((s.die d).tlb.filter (fun t => t.place = p ∧ t.asid = asid ∧ t.va ≤ va ∧ va < t.va + t.size)).map
    (fun t => { entry := t.entry, va := t.va, size := t.size }))

/-- The leaf an access uses: the first that its caches hold, each of which may have been replaced without notice, else what a walk
finds. Where they agree nothing is chosen. -/
def State.leafFor (s : State) (d asid : Nat) (ps : List TlbPlace) (va : Nat) : Except Nat Leaf :=
  match s.spaceBad d asid with
  | some c => .error c
  | none =>
    match s.walk d asid va, s.leaves d asid ps va with
    | r, [] => r
    | .ok x, ys =>
      if ys.all (fun y => y = x) then .ok x
      else .ok (((ys ++ [x])[s.choose va (ys.length + 1)]?).getD x)
    | .error c, ys =>
      match ys[s.choose va (ys.length + 1)]? with
      | some y => .ok y
      | none => .error c

/-- Access kinds of Translate (R359). -/
inductive Acc where
  | read | write | fetch
  deriving DecidableEq, Repr

/-- A translated access: the leaf used, the physical address and attributes. -/
structure Trans where
  leaf  : Leaf
  pa    : Nat
  attr  : Attr
  shard : Bool
  deriving DecidableEq, Repr

/-- Translate (R359), through the caches of a path. -/
def State.translate (s : State) (d asid : Nat) (super : Bool) (va : Nat) (acc : Acc) (ps : List TlbPlace := []) : Except Nat Trans :=
  match s.leafFor d asid ps va with
  | .error c => .error c
  | .ok x =>
    let e := x.entry
    let pa := pteBase e + (va - x.va)
    if if pteDevice e then !s.everPkgs.getLsbD (paPkg pa) else !s.backed pa || s.inReplicaArea pa then .error 0x080
    else if !super ∧ pteOwner e ≠ asid then .error 0x082
    else if (s.spaceRec d asid).2.getLsbD (pteKey e) = false ∨ s.keyReady (pteKey e) pa = false then .error 0x083
    else if acc = .write ∧ ptePerm e ≠ 2 then .error 0x081
    else if acc = .fetch ∧ ptePerm e ≠ 3 then .error 0x081
    else if pteHome e = 1 ∧ s.pinOk pa = false then .error 0x084
    else .ok { leaf := x, pa := pa, shard := pteShard e
               attr := { home := pteHome e, kid := pteKey e, repl := pteRepl e, asid := asid, va := va } }

/-- The entries of a cache of leaves (R360). -/
def TlbPlace.entries : TlbPlace → Nat | .l1 _ => 96 | .cluster _ => 4096 | .copy _ | .matrix _ => 128

/-- A leaf that an access used is cached in the places of its path, in place of any other where all entries are in use (R360). -/
def State.cacheLeaf (s : State) (d asid : Nat) (ps : List TlbPlace) (x : Leaf) : State :=
  ps.foldl (fun (t : State) p =>
    let e : TlbEntry := { place := p, asid := asid, va := x.va, size := x.size, entry := x.entry }
    let old := (t.die d).tlb.filter (fun y => y.place = p)
    if old.contains e then t
    else
      let gone := if p.entries ≤ old.length then old[t.choose (2 ^ 61 + x.va) old.length]? else none
      t.modDie d (fun z => { z with tlb := z.tlb.filter (fun y => some y ≠ gone) ++ [e] })) s

/-! ## Where an access goes (R188, R204) -/

/-- The target of an access that has passed its checks. -/
inductive Target where
  /-- Memory: translation, and the place that serves it after R410. -/
  | mem (t : Trans) (pa : Nat)
  /-- A scratchpad allocation and an offset. -/
  | scratch (fid off : Nat)
  /-- Device space. -/
  | device (x : Leaf) (pa : Nat)
  /-- The home cannot be reached now (R409, R411): the access waits. -/
  | waits (ea : Nat)
  deriving DecidableEq, Repr

/-- The co-resident member m of the issuing folio's volume (R188). -/
def State.member (s : State) (fid m : Nat) : Option Nat :=
  ((s.volume (s.folio fid).vid).members.find? (fun x => x.1 = m)).map (·.2)

/-- The window region begins here (R188). -/
def windowBase : Nat := 0x00FF000000000000
/-- The cluster window begins here (R188). -/
def clusterBase : Nat := 0x00FF000001000000

/-- An address of the window region (R188). -/
def State.window (s : State) (fid ea : Nat) : Except Nat Target :=
  if ea < windowBase + 0x80000 then
    let x := ea - windowBase
    if (s.folio fid).scratchBytes ≤ x then .error 0x061 else .ok (.scratch fid x)
  else if clusterBase ≤ ea ∧ ea < clusterBase + 24 * 0x80000 then
    let x := (ea - clusterBase) % 0x80000
    match s.member fid ((ea - clusterBase) / 0x80000) with
    | none => .error 0x062
    | some m => if (s.folio m).scratchBytes ≤ x then .error 0x061 else .ok (.scratch m x)
  else .error 0x080

/-- Where a translated access of die `d` goes: to device space, or to the place that serves it, where it can be reached (R189, R410,
R411). -/
def State.serve (s : State) (d ea : Nat) (t : Trans) : Except Nat Target :=
  let device := pteDevice t.leaf.entry
  match if device then s.reachDevice d t.pa else s.reach d t.pa with
  | .at pa => .ok (if device then .device t.leaf pa else .mem t pa)
  | .lost => .error 0x140
  | .waits => .ok (.waits ea)

/-- Where an address of folio `fid` goes on a path, after the alignment check: bits 63:56, windows, translation, and the home that
serves it (R188, R204, R410). A live counter descriptor is read-only (R241). -/
def State.route (s : State) (fid ea : Nat) (acc : Acc) (path : Path := .core) : Except Nat Target :=
  let x := s.folio fid
  if 2 ^ 56 ≤ ea then .error 0x080
  else if windowBase ≤ ea then s.window fid ea
  else match s.translate x.die x.asid x.super ea acc (path.places x.core) with
    | .error c => if c = 0x142 then .ok (.waits ea) else .error c
    | .ok t =>
      match s.serve x.die ea t with
      | .ok (.mem t' pa) => if acc = .write ∧ s.liveLine (pa / 64) = true then .error 0x081 else .ok (.mem t' pa)
      | r => r

/-- Where an address of a space goes when no folio makes the access: launch records, bitmaps, checkpoints (R311, R415). -/
def State.routeSpace (s : State) (d asid : Nat) (super : Bool) (ea : Nat) (acc : Acc) : Except Nat Target :=
  if windowBase ≤ ea then .error 0x080
  else match s.translate d asid super ea acc with
    | .error c => if c = 0x142 then .ok (.waits ea) else .error c
    | .ok t => s.serve d ea t

/-- MemCheck (R204). -/
def State.memCheck (s : State) (fid ea n : Nat) (acc : Acc) : Except Nat Target :=
  if ea % n ≠ 0 then .error 0x060 else s.route fid ea acc

/-! ## The bytes of a target as they stand now -/

/-- A byte of device space other than the management registers, whose devices the spec does not give: a free value (log 75). -/
def State.deviceByte (s : State) (pa : Nat) : Byte := (Config.freeWord s.tick (2 ^ 60 + pa)).setWidth 8

/-- Byte i of a target as die `d` sees it now. -/
def State.curByte (s : State) (d : Nat) (t : Target) (i : Nat) : Byte :=
  match t with
  | .mem x pa => s.seeByte d x.attr (pa + i)
  | .scratch fid off => s.byte (scratchLoc fid (off + i))
  | .device _ pa => s.deviceByte (pa + i)
  | .waits _ => 0

/-- The n bytes at a target as die `d` sees them now, as a number. -/
def State.readAt (s : State) (d : Nat) (t : Target) (n : Nat) : Nat := leNat ((List.range n).map (s.curByte d t))

/-- Write n bytes of a number at a target, with the releases that the write carries. -/
def State.writeAt (s : State) (d : Nat) (t : Target) (n v : Nat) (rels : List Rel := []) : State :=
  match t with
  | .mem x pa => s.storeBytes d x.attr pa (leBytes n v) rels
  | .scratch fid off => (s.write (scratchLoc fid off) (leBytes n v)).tagged (scratchLoc fid off) (leBytes n v) d rels
  | _ => s

/-- The place of the first byte of a target as its page names it, before any redirection. -/
def Target.loc : Target → Nat
  | .mem x _ => x.pa
  | .scratch fid off => scratchLoc fid off
  | .device _ pa => 2 ^ 79 + pa
  | .waits ea => 2 ^ 79 + 2 ^ 78 + ea
/-- The place of a store. -/
def Place.loc : Place → Nat
  | .mem _ pa => pa
  | .scratch fid off => scratchLoc fid off
/-- The place of the history of a target's first byte, as die `d` sees it. -/
def State.targetKey (s : State) (d : Nat) (t : Target) : Nat :=
  match t with
  | .mem _ pa => s.histKey d pa
  | t => t.loc

/-! ## Reads that nothing orders (R284, R286, R290, R291) -/

/-- A read of die `d` at a target may return an older value: some of its bytes have one, and they lie at the home die, in the die's
copy, or in a scratchpad. -/
def State.hasPast (s : State) (d : Nat) (t : Target) (lo n : Nat) : Bool :=
  s.hist ≠ [] &&
  (match t with | .mem x pa => s.isHome d pa || !s.readsHome d x.attr.home pa | _ => true) &&
  (List.range n).any (fun i => Sparse.get [] (s.targetKey d t + lo + i) s.hist ≠ [])

/-- The clock as of which a read of one element is served, not before `floor` (R286, R290): a free choice where older values are
known. -/
def State.readTime (s : State) (d : Nat) (t : Target) (lo n floor salt : Nat) : Nat :=
  if s.hasPast d t lo n && floor ≤ s.now then floor + s.choose salt (s.now + 1 - floor) else s.now

/-- The n bytes from byte `lo` of a target as they stood at a clock. -/
def State.pastBytes (s : State) (d : Nat) (t : Target) (lo n time : Nat) : List Byte :=
  (List.range n).map (fun i => s.valueAt (s.targetKey d t + lo + i) time (s.curByte d t (lo + i)))

/-- The elements of an access of n bytes at a target: first byte and length (R282). -/
def Target.elements (t : Target) (n : Nat) : List (Nat × Nat) :=
  let a := t.loc
  (List.range ((a % 8 + n + 7) / 8)).map (fun i =>
    let lo := 8 * i - a % 8
    (lo, min n (8 * (i + 1) - a % 8) - lo))

/-- The number of a path among those of a quire's view (R223). -/
def Path.no : Path → Nat | .core => 0 | .copy _ => 1 | .matrix => 2 | .tile => 3

/-- The clock below which a quire's read of some bytes on a path may not go (R286, R287, R290). -/
def State.readFloor (s : State) (uid d : Nat) (p : Path) (t : Target) (lo n : Nat) : Nat :=
  let v := s.view uid
  (List.range n).foldl (fun m i => max m (Sparse.get 0 (p.no * 2 ^ 80 + s.targetKey d t + lo + i) v.coh))
    (if p = .core then v.acq else Sparse.get 0 p.no v.paths)

/-- The latest value that a quire's own stores, which nobody else has seen, give a byte of a target (R290). -/
def State.ownByte (s : State) (uid : Nat) (t : Target) (i : Nat) : Option Byte :=
  let a := t.loc + i
  (s.stores.reverse.find? (fun x => x.from_ = uid && x.dest.loc ≤ a && a < x.dest.loc + x.bytes.length)).map
    (fun x => x.bytes.getD (a - x.dest.loc) 0)

/-- The elements of a read of quire `uid` on a path with the clocks as of which they are served; `salt` tells the reads of one step
apart. -/
def State.readPlan (s : State) (uid d : Nat) (t : Target) (n salt : Nat) (p : Path := .core) : List (Nat × Nat × Nat) :=
  (t.elements n).map (fun e => (e.1, e.2, s.readTime d t e.1 e.2 (s.readFloor uid d p t e.1 e.2) (2 ^ 64 * (salt + 1) + e.1)))

/-- A core-path read of quire `uid` on die `d`: n bytes as a number (R284, R290). -/
def State.coreRead (s : State) (uid d : Nat) (t : Target) (n salt : Nat) : Nat :=
  leNat ((s.readPlan uid d t n salt).flatMap (fun e =>
    ((s.pastBytes d t e.1 e.2.1 e.2.2).zipIdx).map (fun b => (s.ownByte uid t (e.1 + b.2)).getD b.1)))

/-- No later read of the bytes on the path goes behind what this one has returned (R290). -/
def State.keepCoherent (s : State) (uid d : Nat) (t : Target) (plan : List (Nat × Nat × Nat)) (p : Path := .core) : State :=
  if s.hist = [] then s
  else s.modView uid (fun v => { v with coh := plan.foldl (fun m e => (List.range e.2.1).foldl (fun m i =>
    let k := s.targetKey d t + e.1 + i
    if Sparse.get [] k s.hist = [] then m
    else Sparse.set 0 (p.no * 2 ^ 80 + k) (max (Sparse.get 0 (p.no * 2 ^ 80 + k) m) e.2.2) m) m) v.coh })

/-- Everything that a quire reads on a path at some bytes from now on is at least as new as now (R290). -/
def State.keepNow (s : State) (uid d : Nat) (t : Target) (n : Nat) (p : Path := .core) : State := s.keepCoherent uid d t [(0, n, s.now)] p

/-- A write of a quire to some bytes has been performed on a path: no read of it there goes behind the write (R290). -/
def State.wroteNow (s : State) (uid d : Nat) (t : Target) (n : Nat) (p : Path := .core) : State :=
  let s1 := s.keepNow uid d t n p
  if s.hist = [] || p ≠ .core then s1
  else s1.modView uid (fun v => { v with wrote := (List.range n).foldl (fun m i => Sparse.set 0 (s.targetKey d t + i) s.now m) v.wrote })

/-- An engine's read for a quire (R281, R287): n bytes of a target, element by element, and the state in which no later read on the
path goes behind them. -/
def State.engineRead (s : State) (uid d : Nat) (p : Path) (t : Target) (n salt : Nat) : List Byte × State :=
  let plan := s.readPlan uid d t n salt p
  (plan.flatMap (fun e => s.pastBytes d t e.1 e.2.1 e.2.2), s.keepCoherent uid d t plan p)

/-! ## What a read has read (R284, R288, R294) -/

/-- Two lots of reads together. -/
def Seen.join (a b : Seen) : Seen :=
  { rels := a.rels.filter (fun r => !b.rels.contains r) ++ b.rels, die := max a.die b.die, pkg := max a.pkg b.pkg }

/-- A byte of a target that die `d` reads at a home elsewhere. -/
def State.readsFar (s : State) (d : Nat) (t : Target) : Bool :=
  match t with | .mem x pa => !s.isHome d pa && s.readsHome d x.attr.home pa | _ => false
/-- A target homed on another die than `d`. -/
def State.isFar (s : State) (d : Nat) (t : Target) : Bool := match t with | .mem _ pa => !s.isHome d pa | _ => false

/-- What a byte at a clock gives its reader on die `d`: the releases of the write that it is from, and when that was made. A byte homed on
another die is taken to have been written when it is read. -/
def State.seenAt (s : State) (d : Nat) (t : Target) (i time : Nat) : Seen :=
  match s.lastWrite (if s.readsFar d t then t.loc + i else s.targetKey d t + i) time with
  | some w => { rels := w.rels, die := if w.die = d ∨ w.die = 8 then w.time + 1 else 0
                pkg := if s.isFar d t then time else if w.die ≤ 8 then w.time + 1 else 0 }
  | none => { pkg := if s.isFar d t then time else 0 }

/-- A core-path read of a quire joins what it has read; its own stores that nobody else has seen give nothing. -/
def State.observe (s : State) (uid d : Nat) (t : Target) (plan : List (Nat × Nat × Nat)) : State :=
  if s.hist = [] then s
  else
    let x := plan.foldl (fun (m : Seen) e => (List.range e.2.1).foldl (fun m i =>
      if (s.ownByte uid t (e.1 + i)).isSome then m else m.join (s.seenAt d t (e.1 + i) e.2.2)) m) {}
    s.modView uid (fun v => { v with seen := v.seen.join x, got := v.got.join x })
/-- A read-modify-write of a quire reads what stands now, and orders as its write does (R286). -/
def State.observeRmw (s : State) (uid d : Nat) (t : Target) (n : Nat) : State :=
  let s1 := s.observe uid d t [(0, n, s.now)]
  if s.hist = [] then s1 else s1.modView uid (fun v => { v with seen := v.seen.join { die := s.now, pkg := s.now }, got := v.got.join { die := s.now, pkg := s.now } })
/-- The reads of an instruction begin. -/
def State.startReads (s : State) (uid : Nat) : State := if (s.view uid).got = {} then s else s.modView uid (fun v => { v with got := {} })

/-! ## Releases and those who read from them (R286, R288) -/

/-- What happens before a store of a quire that others may not have seen: those of `from_` before a name. -/
def View.owes (v : View) (from_ id : Nat) : Bool := id < Sparse.get 0 from_ v.owed
/-- The greater of two clocks, for each key. -/
def maxAll (a b : List (Nat × Nat)) : List (Nat × Nat) := b.foldl (fun m x => Sparse.set 0 x.1 (max x.2 (Sparse.get 0 x.1 m)) m) a

/-- A quire has stores that others may not have seen. -/
def State.hasPending (s : State) (uid : Nat) : Bool :=
  s.stores.any (fun x => x.from_ = uid) || s.inbound.any (fun w => w.from_ = uid && w.sub.isNone)
/-- The release that a quire makes now at a scope. -/
def State.relOf (s : State) (uid scope : Nat) : Rel :=
  let v := s.view uid
  let q := s.quire uid
  let x := s.folio q.fid
  { uid := uid, fid := q.fid, vid := x.vid, die := x.die, scope := scope, time := s.now, acq := v.acq
    coh := v.coh.filter (fun y => y.1 < 2 ^ 80)
    owed := if s.hasPending uid then Sparse.set 0 uid s.next v.owed else v.owed }
/-- The releases that a write of a quire carries: its own, where it is one at a scope, and the fences before it (R288). -/
def State.carried (s : State) (uid : Nat) (rel : Option Nat) : List Rel :=
  (rel.map (s.relOf uid)).toList ++ (s.view uid).pub
/-- A release fence of a quire: every later write of it carries it, and a wider one makes a narrower one needless (R286, R288). -/
def State.publish (s : State) (uid scope : Nat) : State :=
  s.modView uid (fun v => { v with pub := s.relOf uid scope :: v.pub.filter (fun r => scope < r.scope) })

/-- The instance of a scope in which a release was made has quire `uid` in it (R285). -/
def State.within (s : State) (scope : Nat) (r : Rel) (uid : Nat) : Bool :=
  let q := s.quire uid
  match scope with
  | 0 | 1 => r.uid = uid
  | 2 => r.fid = q.fid
  | 3 => r.vid = (s.folio q.fid).vid
  | 4 => r.die = (s.folio q.fid).die
  | _ => true

/-- What happens before a release happens before what a quire does next (R288, R289); clocks of bytes are those of the die on which it was
made, and elsewhere all of it has reached the homes when it was made. -/
def State.joinRel (s : State) (uid : Nat) (r : Rel) : State :=
  let here := r.die = (s.folio (s.quire uid).fid).die
  let wrote := r.owed.foldl (fun m x => maxAll m (s.view x.1).wrote) []
  s.modView uid (fun v => { v with
    acq := max v.acq (if here then r.acq else r.time)
    coh := if here then maxAll (maxAll v.coh r.coh) wrote else v.coh
    owed := maxAll v.owed (r.owed.filter (fun x => x.1 ≠ uid)) })
/-- A quire synchronises with the releases that it has read and that its acquire at a scope covers, as they cover it (R288); an
acquire at die scope or wider comes behind the writes that it has read, of parties within (R294). -/
def State.joinSeen (s : State) (uid scope : Nat) (x : Seen) : State :=
  let s1 := (x.rels.filter (fun r => s.within (min r.scope scope) r uid)).foldl (fun (t : State) r => t.joinRel uid r) s
  let floor := if scope = 4 then x.die else if 5 ≤ scope then x.pkg else 0
  if floor = 0 then s1 else s1.modView uid (fun v => { v with acq := max v.acq floor })

/-- Events of some paths that follow are not before now (R287). -/
def State.orderPaths (s : State) (uid : Nat) (ps : List Nat) : State :=
  s.modView uid (fun v => { v with paths := ps.foldl (fun m p => Sparse.set 0 p s.now m) v.paths })

/-- What happens before the events of a path so far: the clock behind which its reads are, and those of single bytes (R286, R290). -/
def View.floor (v : View) (p : Nat) : Nat × List (Nat × Nat) :=
  (if p = 0 then v.acq else Sparse.get 0 p v.paths,
   (v.coh.filter (fun x => x.1 / 2 ^ 80 = p)).map (fun x => (x.1 % 2 ^ 80, x.2)))
/-- The later events of a path are behind all that. -/
def View.raise (v : View) (p : Nat) (f : Nat × List (Nat × Nat)) : View :=
  let w := if p = 0 then { v with acq := max v.acq f.1 } else { v with paths := Sparse.set 0 p (max f.1 (Sparse.get 0 p v.paths)) v.paths }
  { w with coh := maxAll w.coh (f.2.map (fun x => (p * 2 ^ 80 + x.1, x.2))) }
/-- Every earlier event of a quire on some paths comes before every later one on others (R223, R287). -/
def State.crossPaths (s : State) (uid : Nat) (before after : List Nat) : State :=
  let fs := before.map (s.view uid).floor
  s.modView uid (fun v => after.foldl (fun (w : View) p => fs.foldl (fun (w : View) f => w.raise p f) w) v)
/-- The bytes to which updates of subscriptions have been written, each with the clock behind the latest (R297). -/
def State.updateFloors (s : State) : List (Nat × Nat) :=
  s.hist.filterMap (fun x => (x.2.find? (fun y => y.die = 10)).map (fun y => (x.1, y.time + 1)))
/-- The later events of a quire on some paths are behind those updates. -/
def State.seeUpdates (s : State) (uid : Nat) (after : List Nat) : State :=
  let fs := s.updateFloors
  if fs = [] then s else s.modView uid (fun v => after.foldl (fun (w : View) p => w.raise p (0, fs)) v)

/-! ## What the caches keep (R196, R197, R360, R375) -/

/-- The leaf of a memory target is cached on the path of a folio's core. -/
def State.cacheTarget (s : State) (fid : Nat) (path : Path) (t : Target) : State :=
  match t with
  | .mem { leaf := x, .. } _ | .device x _ => s.cacheLeaf (s.folio fid).die (s.folio fid).asid (path.places (s.folio fid).core) x
  | _ => s

/-- A poisoned line is consumed by a read of the target (R375). -/
def State.poisoned (s : State) (t : Target) : Bool :=
  match t with
  | .mem _ pa => s.poison.contains (pa / 64)
  | .scratch fid off => s.poison.contains (scratchLoc fid off / 64)
  | _ => false
/-- A bad scratchpad byte is read (R375). -/
def State.badScratch (s : State) (t : Target) (n : Nat) : Bool :=
  match t with
  | .scratch fid off => s.bad.any (fun c =>
      match c with | .scratch f o => f = fid && off ≤ o && o < off + n | _ => false)
  | _ => false

/-- A target as an access with a retention hint has it (R196). -/
def Target.hinted (t : Target) (hint : Nat) : Target :=
  match t with | .mem x pa => .mem { x with attr := { x.attr with hint := hint } } pa | t => t

/-- An access gives a line that a die holds a retention class (R196): the highest that any has given it, kept as class + 1 with the
clock of the last use. A line that comes later takes that of its fill (`State.addCopy`). -/
def State.classLine (s : State) (d hint line : Nat) : State :=
  let k := lineKeyOf d line
  { s with class_ := if s.isHome d (line * 64) ∨ ((s.die d).copyOf line).isSome = true
                     then Sparse.set (0, 0) k (max (Sparse.get (0, 0) k s.class_).1 (hintClass hint), s.now) s.class_ else s.class_ }

/-- A line of a page with on-chip home 0b10 lies in the pinned ways of its home slice, where one of the 8 of its set is free, and a
line of any other page does not (R195). -/
def State.pinLine (s : State) (home line : Nat) : State :=
  let h := paDie (line * 64)
  let set := Config.cacheSet h line
  if paPkg (line * 64) ≠ s.pkgid then s
  else s.modDie h (fun z =>
    if home ≠ 2 then { z with pins := z.pins.filter (· ≠ line) }
    else if z.pins.contains line ∨ 8 ≤ (z.pins.filter (fun y => Config.cacheSet h y = set)).length then z
    else { z with pins := z.pins ++ [line] })

/-- How far up an access brings its line: into the L1 of its core, into the cluster cache, or into the L2 slice alone. -/
inductive Level where
  | l1 | cluster | l2
  deriving DecidableEq, Repr

/-- What a die's directories and cluster caches keep of an access of a core to a line (R192, R197). A cluster that has not the line
probes one peer, which it chooses freely: one that holds it clean and shared is recorded with it. A write probes the clusters in the
region's vector and the cores in their filters, which hold the line no more; its own cluster then holds the line dirty. A line that
only reads have brought is held shared (log 114). -/
def Die.direct (z : Die) (peer core : Nat) (level : Level) (write : Bool) (line : Nat) : Die :=
  let cl := core / 24
  let region := line / 8
  let v := Sparse.get 0 region z.dir
  let key := fun (c : Nat) => lineKeyOf c line
  let hit : Bool := level ≠ .l2 && Sparse.get 0 (key cl) z.clines = 0 && peer ≠ cl && Sparse.get 0 (key peer) z.clines = 1
  let others := (List.range 16).filter (fun c => v.getLsbD c && (c ≠ cl || level = .l2))
  let filt := if write then others.foldl (fun m c => Sparse.set 0 (key c) 0 m) z.filt else z.filt
  let lines := others.foldl (fun m c => if write then Sparse.set 0 (key c) 0 m
    else if Sparse.get 0 (key c) m = 2 then Sparse.set 0 (key c) 1 m else m) z.clines
  let mine : BitVec 24 := if write then 0 else Sparse.get 0 (key cl) filt
  { z with
    dir := if level = .l2 then z.dir else Sparse.set 0 region (putBit (if hit then putBit v peer true else v) cl true) z.dir
    filt := if level = .l2 then filt else Sparse.set 0 (key cl) (if level = .l1 then putBit mine (core % 24) true else mine) filt
    clines := if level = .l2 then lines else if write then Sparse.set 0 (key cl) 2 lines
              else if Sparse.get 0 (key cl) lines = 0 then Sparse.set 0 (key cl) 1 lines else lines }

/-- The same of the state; of the caches of a curator nothing is stated, but its writes probe like any. -/
def State.direct (s : State) (d core : Nat) (level : Level) (write : Bool) (line : Nat) : State :=
  s.modDie d (fun z => z.direct (s.choose (5500 + line) 16) core (if 384 ≤ core then .l2 else level) write line)

/-- What the caches keep of an access of a core of a die to a target (R192, R195 to R197). -/
def State.touch (s : State) (d core : Nat) (level : Level) (write : Bool) (t : Target) : State :=
  match t with
  | .mem x pa =>
    let line := pa / 64
    if uncached x.attr.home then s
    else ((s.classLine d x.attr.hint line).pinLine x.attr.home line).direct d core level write line
  | _ => s

/-! ## Release and acquire (R207, R295) -/

/-- Every dirty line of die `d` that `sel` picks is written back to its home. -/
def State.flushCopies (s : State) (d : Nat) (pick : Nat → Bool) (drop : Bool) : State :=
  (((s.die d).copies.filter (fun c => pick c.line)).map (fun c => c.line)).foldl (fun (t : State) l => t.writeBack d l drop) s

/-- The lines that a release or an acquire at a scope is about (R207): device the homes in the package, system every home. -/
def State.scopeLine (s : State) (scope line : Nat) : Bool :=
  match scope with
  | 5 => paPkg (line * 64) = s.pkgid
  | 6 => true
  | _ => false

/-- A release of a die at device scope or wider writes back its dirty lines (R207, R295). -/
def State.releaseOn (s : State) (d scope : Nat) : State :=
  if scope < 5 then s else s.flushCopies d (fun _ => true) false

/-- An acquire of die `d` at device scope or wider drops its clean copies of regions whose homes record it as a holder (R198, R207);
a dirty line keeps the bytes written here, which from now on come after what its home holds (R293), and takes the others anew from
its home (R295). -/
def State.acquireOn (s : State) (d scope : Nat) : State :=
  if scope < 5 then s
  else
    let s1 := s.dropCopies d (fun c => s.holds d c.line && c.dirty = 0)
    let renew := fun (c : Copy) =>
      if c.dirty = 0 then c
      else
        let c1 := { c with times := c.times.map (fun x => (x.1, s.now)) }
        if s.holds d c.line then { c1 with bytes := (List.range 64).foldl (fun v i =>
          if c.dirty.getLsbD i then v else setLineByte v i (s.homeByte c.kid (c.line * 64 + i))) c.bytes } else c1
    { s1.modDie d (fun z => { z with copies := z.copies.map renew }) with
      hist := ((s1.die d).copies).foldl (fun h c =>
        ({ s with hist := h } : State).noted (copyKey d (c.line * 64)) (lineBytes c.bytes) (lineBytes (renew c).bytes)) s1.hist }

/-- No read of a quire returns what an acquire of its die has dropped or renewed (R300). -/
def State.behindDrop (s : State) (uid d : Nat) : State :=
  s.modView uid (fun v => { v with coh := ((s.die d).copies.filter (fun c => s.holds d c.line)).foldl (fun m c =>
    (List.range 64).foldl (fun m i => Sparse.set 0 (copyKey d (c.line * 64 + i)) s.now m) m) v.coh })

/-- An acquire of a quire of die `d` at a scope, over what some reads have read (R207, R288). -/
def State.acquireOver (s : State) (uid d scope : Nat) (x : Seen) : State :=
  let s1 := s.joinSeen uid scope x
  if scope < 5 then s1 else (s1.behindDrop uid d).acquireOn d scope
/-- An acquire by the reads of the issuing quire's instruction. -/
def State.acquire (s : State) (scope : Nat) : State := s.acquireOver s.q.uid s.fol.die scope (s.view s.q.uid).got
/-- An acquire fence of the issuing quire: over all that it has read, and, where it is full, behind its own writes (R286). -/
def State.acquireFence (s : State) (full : Bool) (scope : Nat) : State :=
  let v := s.view s.q.uid
  let w := if full then v.wrote.foldl (fun m x => max m x.2) 0 else 0
  s.acquireOver s.q.uid s.fol.die scope (v.seen.join { die := w, pkg := w })
/-- An acquire of a quire of die `d` behind everything so far. -/
def State.acquireAll (s : State) (uid d scope : Nat) : State := (s.sync uid).acquireOn d scope

end Sys2Proof.Machine
end

