-- ==== Sys2Proof/Machine/Inbound.lean ====
section
/-! DEFINITION. Stores that only their quire has seen, writes on their way to a scratchpad (R211, R286, R390) and the forwarding of
subscriptions (R250 to R255). -/

namespace Sys2Proof.Machine

/-! ## Arrival (R211, R390) -/

/-- The allocation still takes writes: its folio is resident, or saved, where they go into the image (R390). -/
def State.takesWrites (s : State) (fid : Nat) : Bool := s.folios.any (fun x => x.fid = fid) || s.isSaved fid

/-- Where the image of a folio has its scratchpad section, from its first byte (R387). -/
def Folio.scratchSection (x : Folio) : Nat := 1024 + 5120 * x.qcnt + x.qcnt * x.nbands * 8192
/-- The scratchpad section of a saved folio's image, with its key id, once the remap entries of the save are set (R390). -/
def State.imageScratch (s : State) (fid : Nat) : Option (Nat × Nat) :=
  s.saved.findSome? (fun v => if v.step7 then none else (v.images.find? (fun i => i.1 = fid)).map (fun i => (i.2.1 + (s.folio fid).scratchSection, i.2.2)))

/-- Bytes into a scratchpad allocation, or into the image of one that is saved (R390), with the releases that the write carries and what it
counts as where it is not a store of the core path (`Past.die`). -/
def State.scratchWrite (s : State) (fid off : Nat) (bs : List Byte) (rels : List Rel := []) (by_ : Option Nat := none) : State :=
  match s.imageScratch fid with
  | some (pa, kid) => bs.zipIdx.foldl (fun (t : State) b => t.putRaw kid (pa + off + b.2) [b.1]) s
  | none => (s.write (scratchLoc fid off) bs).tagged (scratchLoc fid off) bs (by_.getD (s.folio fid).die) rels

/-- A late arrival: dropped, and counted in the receiving core's counter, which saturates (R211). -/
def State.countLate (s : State) (die core : Nat) : State :=
  s.modDie die (fun x => { x with late := Sparse.set 0 core (min (Sparse.get 0 core x.late + 1) 0xFFFFFFFF) x.late })

/-- Data whose line is poisoned poisons the lines that it is written to (R375). -/
def State.markPoison (s : State) (bad : Bool) (loc n : Nat) : State :=
  if bad then
    let ls := (List.range ((loc + n - 1) / 64 - loc / 64 + 1)).map (fun i => loc / 64 + i)
    { s with poison := s.poison ++ ls.filter (fun l => !s.poison.contains l) }
  else s

/-- Where the first byte of an offset lies: in the scratchpad, or in the image of a saved folio (R390). -/
def State.scratchHome (s : State) (fid off : Nat) : Nat :=
  match s.imageScratch fid with | some (pa, _) => pa + off | none => scratchLoc fid off

/-- A store has been performed: no read of its quire, nor of one that it happens before, goes behind it (R290, R293). -/
def State.wroteStore (s : State) (uid id die : Nat) (t : Target) (n : Nat) : State :=
  ((s.views.filter (fun v => v.1 ≠ uid && v.2.owes uid id)).map (·.1)).foldl (fun (z : State) u => z.keepNow u die t n) (s.wroteNow uid die t n)

/-- A write arrives: it is written, or dropped because its allocation is gone, wholly or beyond a shrunk limit (R211, R275). -/
def State.land (s : State) (w : Inbound) : State :=
  if s.takesWrites w.fid ∧ w.off + w.bytes.length ≤ (s.folio w.fid).scratchBytes then
    let s1 := (s.scratchWrite w.fid w.off w.bytes w.rels (w.sub.map (fun _ => 10))).markPoison w.bad (s.scratchHome w.fid w.off) w.bytes.length
    if w.sub.isSome then s1 else s1.wroteStore w.from_ w.id w.die (.scratch w.fid w.off) w.bytes.length
  else s.countLate w.die w.core

/-- Two writes that must arrive in their order: updates of one subscription whose stores are of one quire, or the first of which is of its
priming (R252, R297), and stores of one quire to one byte (R290). -/
def Inbound.before (x w : Inbound) : Bool :=
  (w.sub.isSome && x.sub = w.sub && (x.from_ = w.from_ || x.from_ = 0))
    || (w.sub.isNone && x.sub.isNone && x.from_ = w.from_ && x.fid = w.fid
        && x.off < w.off + w.bytes.length && w.off < x.off + x.bytes.length)

/-- A write may arrive before those in front of it, but not before one that must come first. -/
def mayLand (before : List Inbound) (w : Inbound) : Bool := before.all (fun x => !x.before w)

/-- The writes that `pick` picks, and those that must arrive before them. -/
def arrivals (pick : Inbound → Bool) : List Inbound → List Inbound
  | [] => []
  | w :: ws =>
    let rest := arrivals pick ws
    if pick w || rest.any (fun x => w.before x) then w :: rest else rest

/-- The writes on their way that `pick` picks arrive, in their order. -/
def State.settle (s : State) (pick : Inbound → Bool) : State :=
  let go := arrivals pick s.inbound
  go.foldl (fun (t : State) w => t.land w) { s with inbound := s.inbound.filter (fun w => !go.contains w) }

/-- The first aligned 4-byte element of a write, and the rest of it. -/
def Inbound.head (w : Inbound) : Inbound := { w with bytes := w.bytes.take 4 }
def Inbound.tail (w : Inbound) : Inbound := { w with off := w.off + 4, bytes := w.bytes.drop 4 }

/-- Only the first element of a granule arrives now, by a free choice: a granule enters its bank element by element (R201, R251). -/
def State.inPart (s : State) (idx : Nat) (w : Inbound) : Bool :=
  w.sub.isSome && 4 < w.bytes.length && s.takesWrites w.fid && w.off + w.bytes.length ≤ (s.folio w.fid).scratchBytes
    && s.choose (6000 + idx) 2 = 1

/-- INBOUND_WRITE: the write at a place in the list arrives, or the first element of a granule. -/
def inboundWrite (idx : Nat) (s : State) : State :=
  match s.inbound[idx]? with
  | some w =>
    if !mayLand (s.inbound.take idx) w then s
    else if s.inPart idx w then ({ s with inbound := s.inbound.set idx w.tail } : State).land w.head
    else ({ s with inbound := s.inbound.eraseIdx idx } : State).land w
  | none => s

/-- Send a write towards an allocation. -/
def State.send (s : State) (uid fid off : Nat) (bs : List Byte) (sub : Option Nat) (rels : List Rel := []) : State :=
  let x := s.folio fid
  { s with
    inbound := s.inbound ++
      [{ id := s.next, from_ := uid, fid := fid, die := x.die, core := x.core, off := off, bytes := bs, sub := sub, rels := rels }]
    next := s.next + 1 }
/-- The write sent last carries poisoned data (R375). -/
def State.sendBad (s : State) (bad : Bool) : State :=
  if bad then { s with inbound := s.inbound.dropLast ++ (s.inbound.getLast?.map (fun w => { w with bad := true })).toList } else s

/-! ## Subscriptions (R251) -/

/-- Change a subscription. -/
def State.modSub (s : State) (id : Nat) (f : Sub → Sub) : State :=
  { s with subs := s.subs.map (fun x => if x.id = id then f x else x) }

/-- A scratchpad byte range holds poisoned data. -/
def State.scratchPoison (s : State) (fid off n : Nat) : Bool :=
  s.poison ≠ [] && (List.range n).any (fun i => s.poison.contains (scratchLoc fid (off + i) / 64))

/-- A buffer is flushed: its granules are sent in the order in which each first entered, each as an update of the quire that stored it
last (R251, R285). -/
def State.flushSub (s : State) (x : Sub) : State :=
  x.buf.foldl (fun (t : State) g =>
      (t.send g.2.2 x.dst (x.doff + (g.1 - x.soff)) g.2.1 (some x.id) (s.view g.2.2).pub).sendBad (s.scratchPoison x.src g.1 g.2.1.length))
    (s.modSub x.id (fun y => { y with buf := [] }))

/-- One granule enters a buffer: over its own slot, or in a new one, with a flush first when all are in use (R251). -/
def State.forwardGranule (s : State) (uid id off : Nat) : State :=
  match s.subs.find? (fun x => x.id = id) with
  | none => s
  | some x =>
    let n := 2 ^ x.glog
    let bs := s.bytesAt (scratchLoc x.src off) n
    if x.buf.any (fun g => g.1 = off) then
      s.modSub id (fun y => { y with buf := y.buf.map (fun g => if g.1 = off then (off, bs, uid) else g) })
    else
      let s1 := if 64 / n ≤ x.buf.length then s.flushSub x else s
      s1.modSub id (fun y => { y with buf := y.buf ++ [(off, bs, uid)] })

/-- The granules of a subscription's source that n bytes at an offset touch, ascending. -/
def Sub.granules (x : Sub) (off n : Nat) : List Nat :=
  let g := 2 ^ x.glog
  ((List.range (x.len / g)).map (fun i => x.soff + i * g)).filter (fun o => o < off + n && off < o + g)

/-- A store of the source core is forwarded to every subscription whose source it touches (R251). -/
def State.forward (s : State) (uid fid off n : Nat) : State :=
  (s.subs.filter (fun x => x.src = fid && !x.closing)).foldl (fun (t : State) x =>
    (x.granules off n).foldl (fun (t : State) o => t.forwardGranule uid x.id o) t) s

/-! ## Stores that only their quire has seen (R286, R290, R293) -/

/-- The core that holds a folio is the issuing core. -/
def State.sameCore (s : State) (fid : Nat) : Bool :=
  fid = s.q.fid || ((s.folio fid).die = s.fol.die && (s.folio fid).core = s.fol.core)

/-- A store is performed: seen by its die, in a scratchpad of its core forwarded to the subscriptions; dropped where its home or
allocation is gone; not yet where its home cannot be reached now. -/
def State.perform (s : State) (x : Store) : Option State :=
  match x.dest with
  | .mem a pa =>
    (match s.reach x.die pa with
     | .at p => some ((s.storeBytes x.die a p x.bytes x.rels).wroteStore x.from_ x.id x.die
         (.mem { leaf := ⟨0, 0, 0⟩, pa := pa, attr := a, shard := false } p) x.bytes.length)
     | .lost => some s
     | .waits => none)
  | .scratch fid off =>
    some (if s.takesWrites fid ∧ off + x.bytes.length ≤ (s.folio fid).scratchBytes then
        ((s.scratchWrite fid off x.bytes x.rels).wroteStore x.from_ x.id x.die (.scratch fid off) x.bytes.length).forward x.from_ fid off
          x.bytes.length
      else s)

/-- Two stores of one quire to one byte (R290). -/
def Store.before (x y : Store) : Bool :=
  x.from_ = y.from_ && x.dest.loc < y.dest.loc + y.bytes.length && y.dest.loc < x.dest.loc + x.bytes.length

/-- The stores that `pick` picks are performed in their order, with those of their quire to the same bytes before them. Those that cannot
be stay, and what must follow them. -/
def performAll (pick : Store → Bool) : List Store → State → State
  | [], s => s
  | x :: xs, s =>
    let held := s.stores.any (fun y => y.before x)
    if (pick x || xs.any (fun y => pick y && x.before y)) && !held then
      match s.perform x with
      | some t => performAll pick xs t
      | none => performAll pick xs { s with stores := s.stores ++ [x] }
    else performAll pick xs { s with stores := s.stores ++ [x] }

/-- The stores that `pick` picks are performed. -/
def State.performStores (s : State) (pick : Store → Bool) : State :=
  if s.stores.any pick then performAll pick s.stores { s with stores := [] } else s

/-- The stores of a quire are performed, and the writes that it has sent arrive: what its release at die scope or wider is behind
(R286). Updates of subscriptions are on a path of their own (R287). -/
def State.settleFrom (s : State) (uid : Nat) : State :=
  (s.performStores (fun x => x.from_ = uid)).settle (fun w => w.from_ = uid && w.sub.isNone)
/-- The stores of others that happen before what a quire does next are performed (R289). -/
def State.settleOwed (s : State) (uid : Nat) : State :=
  let v := s.view uid
  if v.owed = [] then s
  else (s.performStores (fun x => v.owes x.from_ x.id)).settle (fun w => v.owes w.from_ w.id && w.sub.isNone)

/-- The stores of a quire to scratchpads have been performed, and so are forwarded (R251, R252). -/
def State.ownScratch (s : State) (uid : Nat) : State :=
  s.performStores (fun x => x.from_ = uid && match x.dest with | .scratch _ _ => true | _ => false)

/-- One store that nothing of its quire must precede is performed. -/
def State.performAt (s : State) (i : Nat) : Option State :=
  match s.stores[i]? with
  | some x =>
    if (s.stores.take i).any (fun y => y.before x) then none
    else ({ s with stores := s.stores.eraseIdx i } : State).perform x
  | none => none

/-- A store cannot be performed now. -/
def State.storeBlocked (s : State) (x : Store) : Bool :=
  match x.dest with | .mem _ pa => s.reach x.die pa = .waits | .scratch _ _ => false

/-- A store of a quire, or one that happens before what it does next, cannot be performed now. -/
def State.pendingBlocked (s : State) (uid : Nat) : Bool :=
  s.stores.any (fun x => (x.from_ = uid || (s.view uid).owes x.from_ x.id) && s.storeBlocked x)

/-- A release of a quire at a scope cannot complete now: a store of its own or one that happens before it, or a dirty line of its die, has a
home that cannot be reached (R207, R295, R410). -/
def State.releaseBlocked (s : State) (uid d scope : Nat) : Bool :=
  4 ≤ scope && (s.stores.any (fun x => (x.from_ = uid || (5 ≤ scope && (s.view uid).owes x.from_ x.id)) && s.storeBlocked x)
    || (5 ≤ scope && (s.die d).copies.any (fun c => s.scopeLine scope c.line && s.lineBlocked d c)))

/-- A release of quire `uid` on die `d` at a scope (R207, R286): from die scope on, its stores are performed, and from device scope
on all that happens before it. A narrower one is kept in what carries it (`State.relOf`), for those who read from that. -/
def State.releaseFor (s : State) (uid d scope : Nat) : State :=
  let s1 := if 5 ≤ scope then s.settleOwed uid else s
  (if 4 ≤ scope then s1.settleFrom uid else s1).releaseOn d scope
/-- A release of the issuing quire. -/
def State.releaseAt (s : State) (scope : Nat) : State := s.releaseFor s.q.uid s.fol.die scope

/-- An instruction whose effect comes behind a release at a scope, where it has one: it blocks while the release cannot complete (R207). -/
def State.behindRelease (s : State) (ord : Bool) (scope : Nat) (effect : State → Res) : Res :=
  if !ord then effect s
  else if s.releaseBlocked s.q.uid s.fol.die scope then .wait s (.flush scope)
  else effect (s.releaseAt scope)

/-- Some subscriptions are flushed, and every update of theirs arrives (R251, R252). -/
def State.settleSubs (s : State) (sel : Sub → Bool) : State :=
  let ids := (s.subs.filter sel).map (·.id)
  ((s.subs.filter sel).foldl (fun (t : State) x => t.flushSub x) s).settle (fun w => match w.sub with | some i => ids.contains i | none => false)

/-- The subscriptions of a folio end (R255): flushed, then gone. -/
def State.endSubs (s : State) (fid : Nat) : State :=
  let mine := fun (x : Sub) => x.src = fid || x.dst = fid
  let s1 := s.settleSubs mine
  { s1 with subs := s1.subs.filter (fun x => !mine x) }


/-- A read of die `d` of a line homed elsewhere may leave a clean copy of it on the die, by a free choice, where the page may be
cached and the die holds none (R195, R295). -/
def State.fill (s : State) (d : Nat) (x : Attr) (pa : Nat) : State :=
  let line := pa / 64
  if s.isHome d pa ∨ uncached x.home ∨ s.liveLine line = true ∨ ((s.die d).copyOf line).isSome = true
      ∨ s.choose (2 ^ 60 + line) 2 = 0 then s
  else s.addCopy d x line

/-- Before a read of die `d` at a target on any path: a reader of a line at its home has recalled its partials (R238). -/
def State.recallFor (s : State) (d : Nat) (t : Target) : State :=
  match t with
  | .mem x pa => if s.readsHome d x.attr.home pa then (s.recallLine (pa / 64)).fill d x.attr pa else s
  | _ => s

/-- Before a core-path access of n bytes of the issuing quire: writes to those bytes of a scratchpad, its own on their way to
another core and those that happen before, have arrived (R290, R293), and a line at its home is recalled. -/
def State.before (s : State) (t : Target) (n : Nat) : State :=
  match t with
  | .scratch fid off =>
    let v := s.view s.q.uid
    s.settle (fun w => (w.from_ = s.q.uid || v.owes w.from_ w.id) && w.sub.isNone && w.fid = fid && w.off < off + n && off < w.off + w.bytes.length)
  | _ => s.recallFor s.fol.die t

/-- A store is to some of n bytes of a target. -/
def Store.meets (x : Store) (t : Target) (n : Nat) : Bool := x.dest.loc < t.loc + n && t.loc < x.dest.loc + x.bytes.length
/-- The stores to n bytes that happen before what the issuing quire does next have been performed (R293). -/
def State.owedStores (s : State) (t : Target) (n : Nat) : State :=
  let v := s.view s.q.uid
  if v.owed = [] then s else s.performStores (fun x => v.owes x.from_ x.id && x.meets t n)
/-- And writes of that kind on their way to a scratchpad have arrived. -/
def State.settleOwedAt (s : State) (t : Target) (n : Nat) : State :=
  let v := s.view s.q.uid
  match t with
  | .scratch fid off =>
    if v.owed = [] then s
    else s.settle (fun w => v.owes w.from_ w.id && w.sub.isNone && w.fid = fid && w.off < off + n && off < w.off + w.bytes.length)
  | _ => s
/-- So have the issuing quire's own stores to them (R290). -/
def State.ownStores (s : State) (t : Target) (n : Nat) : State := (s.owedStores t n).performStores (fun x => x.from_ = s.q.uid && x.meets t n)
/-- Or those of its other fibres: what one fibre reads of another, every party can read (R284, R294). -/
def State.fellowStores (s : State) (t : Target) (n lane : Nat) : State :=
  (s.owedStores t n).performStores (fun x => x.from_ = s.q.uid && x.lane ≠ lane && x.meets t n)

/-- Before a read-modify-write of n bytes of the issuing quire: its own stores to those bytes have been performed, too (R290, R291). -/
def State.beforeRmw (s : State) (t : Target) (n : Nat) : State := (s.ownStores t n).before t n

/-- The issuing quire reads n bytes at a target and sees at least what it has seen before (R284, R290): the value, and the state in which
it cannot go behind it. -/
def State.readFor (s : State) (t : Target) (n salt : Nat) : Nat × State :=
  let plan := s.readPlan s.q.uid s.fol.die t n salt
  (s.coreRead s.q.uid s.fol.die t n salt, (s.observe s.q.uid s.fol.die t plan).keepCoherent s.q.uid s.fol.die t plan)

/-- A read of n bytes of device space (log 75): a value, and the state in which the next is another. -/
def State.deviceRead (s : State) (pa n : Nat) : Nat × State :=
  (leNat ((List.range n).map (fun i => s.deviceByte (pa + i))), { s with tick := s.tick + 1 })

/-- A store of a fibre of the issuing quire, element by element (R282), behind those to its bytes that happen before it (R293): to a
scratchpad of another core it is on its way (R211); any other is at first seen by that fibre alone. `rel` is the scope of the
release that it is. -/
def State.storeTo (s0 : State) (t : Target) (n v lane : Nat) (rel : Option Nat := none) : State :=
  let s := (s0.owedStores t n).settleOwedAt t n
  let bs := leBytes n v
  let rels := s.carried s.q.uid rel
  (t.elements n).foldl (fun (z : State) e =>
    let part := (bs.drop e.1).take e.2
    let post := fun (p : Place) => { z with
      stores := z.stores ++ [{ id := z.next, from_ := s.q.uid, lane := lane, die := s.fol.die, dest := p, bytes := part, rels := rels }]
      next := z.next + 1 }
    match t with
    | .mem x _ => post (.mem { x.attr with va := x.attr.va + e.1 } (x.pa + e.1))
    | .scratch fid off => if s.sameCore fid then post (.scratch fid (off + e.1)) else z.send s.q.uid fid (off + e.1) part none rels
    | _ => z) s

end Sys2Proof.Machine
end

