-- ==== Sys2Proof/Machine/Mgmt.lean ====
section
/-! DEFINITION. The management registers of a die: what a read gives, which writes are legal and what they do (R383), and the part of
device space through which they are reached. -/

namespace Sys2Proof.Machine

/-- The registers that read 0: write only (R2, R383). -/
def sysWO (n : Nat) : Bool := (0x821 ≤ n && n ≤ 0x829) || n = 0x841
/-- The read-only registers (R42, R383). -/
def sysRO (n : Nat) : Bool :=
  n ≤ 8 || n = 0x14 || n = 0x15 || (0x18 ≤ n && n ≤ 0x1A) || (0x20 ≤ n && n ≤ 0x24) || n = 0x30 || n = 0x31
    || n = 0x813 || n = 0x842 || n = 0x843

/-- A management register of die `d` as a read finds it (R383). TVEC belongs to a curator quire: what a read of it through device space
gives is not stated (log 75). -/
def State.mgmtRead (s : State) (d n : Nat) : DWord :=
  match n with
  | 0x800 => Config.freeWord s.tick 0x800
  | 0x813 => s.pkgs
  | 0x831 => BitVec.ofNat 64 (Sparse.get 0 (s.mgmt d 0x830).toNat (s.die d).late)
  | _ => if sysWO n then 0 else s.mgmt d n

/-- A value breaks an alignment, a range or a reserved bit that R383 states for a management register. -/
def mgmtBad (n : Nat) (v : DWord) : Bool :=
  match n with
  | 0x800 => v.toNat % 8 ≠ 0
  | 0x801 => v.toNat % 2 ^ 20 ≠ 0
  | 0x802 => v.toNat % 2 ^ 21 ≠ 0
  | 0x803 => v.toNat % 4096 ≠ 0
  | 0x804 => 384 < v.toNat
  | 0x811 => v.toNat % 2 ^ 30 ≠ 0
  | 0x816 => v.toNat % 4096 ≠ 0
  | 0x830 => 383 < v.toNat
  | 0x841 => fieldOf v 47 16 ≠ 0 || fieldOf v 14 12 ≠ 0 || fieldOf v 8 7 ≠ 0
      || fieldOf v 6 0 = 0 || 64 < fieldOf v 6 0
  | _ => false

/-- Write a management register of die `d`. -/
def State.setMgmt (s : State) (d n : Nat) (v : DWord) : State := s.modDie d (fun z => { z with mgmt := Sparse.set 0 n v z.mgmt })

/-- The staged key registers of a die are cleared (R383). -/
def State.clearStaged (s : State) (d : Nat) : State :=
  (List.range 8).foldl (fun (t : State) i => t.setMgmt d (0x821 + i) 0) s
/-- The key staged on a die (R383). -/
def State.stagedKey (s : State) (d : Nat) : Key :=
  let k := fun (n : Nat) => BitVec.ofNat 256 ((List.range 4).foldr (fun i acc => (s.mgmt d (n + i)).toNat + 2 ^ 64 * acc) 0)
  { data := k 0x821, tweak := k 0x825 }

/-- A key slot takes the staged key, or is erased, in every memory controller; key id 0 is ignored (R383). -/
def State.keyCommand (s : State) (d : Nat) (erase : Bool) : State :=
  let kid := (s.mgmt d 0x820).toNat % 64
  if kid = 0 then s
  else ({ s with keys := Sparse.set none kid (if erase then none else some (s.stagedKey d)) s.keys } : State).clearStaged d

/-- A late-arrival counter is cleared (R211, R383). -/
def State.clearLate (s : State) (d : Nat) : State :=
  s.modDie d (fun z => { z with late := Sparse.set 0 (s.mgmt d 0x830).toNat 0 z.late })

/-- A legal write to a management register of die `d`, other than TVEC and LQCTL (R383). -/
def State.mgmtWrite (s : State) (d n : Nat) (v : DWord) : State :=
  if sysRO n then s
  else match n with
    | 0x829 => if v = 1 then s.keyCommand d false else if v = 2 then s.keyCommand d true else s
    | 0x831 => if v = 0 then s.clearLate d else s
    | 0x820 => s.setMgmt d n (v &&& 0x3F)
    | 0x812 => s.setMgmt d n (v &&& 0x7F)
    | _ => s.setMgmt d n v

/-! ## Through device space (R189, R383) -/

/-- The management register of a compute die of this package that a device-space address names: die and number. -/
def State.mgmtAt (s : State) (pa : Nat) : Option (Nat × Nat) :=
  let n := paOff pa / 8
  if paSpace pa = 1 ∧ paPkg pa = s.pkgid ∧ paDie pa < s.part.dies ∧ paOff pa % 8 = 0 ∧ 0x800 ≤ n ∧ n < 0x1000
      ∧ sysregKnown (BitVec.ofNat 12 n) = true then some (paDie pa, n)
  else none

/-- A write to a management register through device space; one that breaks a rule of R383 is discarded, as one to TVEC is, which is not a
register of the die. LQCTL writes join those that wait; `uid` is the quire that writes, 0 for an RV64 core. -/
def State.deviceWrite (s : State) (uid d n : Nat) (v : DWord) : State :=
  if n = 0x800 ∨ mgmtBad n v = true then s
  else if n = 0x841 then { s with lqWait := s.lqWait ++ [(d, v, uid)] }
  else s.mgmtWrite d n v

end Sys2Proof.Machine
end

