-- ==== Sys2Proof/Machine/Access.lean ====
section
/-! DEFINITION. The checks that the accesses of one instruction share (R204)
and the loads, stores and address instructions (R203 to R214). -/

namespace Sys2Proof.Machine

/-! ## The accesses of one instruction (R204) -/

/-- One access: lane, effective address, target. -/
structure Access where
  lane : Nat
  ea   : Nat
  t    : Target
  deriving DecidableEq, Repr

/-- The lanes of some accesses. -/
def lanesOf (xs : List Nat) : Word := xs.foldl (fun m l => m ||| (1 <<< l)) 0

/-- R204 over the lanes of an instruction: every access with its target, or the cause of the lowest failing lane, the lanes
that share it, and its address. -/
def checkAll (eas : List (Nat × Nat)) (check : Nat → Except Nat Target) : Except (Nat × Word × DWord) (List Access) :=
  let rs := eas.map (fun x => (x.1, x.2, check x.2))
  match rs.find? (fun r => match r.2.2 with | .error _ => true | .ok _ => false) with
  | some (_, ea, .error c) =>
    .error (c, lanesOf ((rs.filter (fun r => match r.2.2 with | .error c' => c' = c | .ok _ => false)).map (fun r => r.1)),
      BitVec.ofNat 64 ea)
  | _ => .ok (rs.filterMap (fun r => match r.2.2 with | .ok t => some { lane := r.1, ea := r.2.1, t := t } | .error _ => none))

/-- What stops accesses that have passed their checks: a home that cannot be reached now, poisoned data, a bad array cell
(R375, R411). `reads` says that the bytes are consumed. -/
def State.hindrance (s : State) (xs : List Access) (n : Nat) (reads : Bool) : Option Res :=
  match xs.findSome? (fun x => match x.t with | .waits pa => some pa | _ => none) with
  | some pa => some (.wait s (.reach pa (lanesOf ((xs.filter (fun x => match x.t with | .waits _ => true | _ => false)).map (·.lane)))))
  | none =>
    if !reads then none
    else match xs.filter (fun x => s.poisoned x.t) with
      | x :: rest => some (.stop 0x161 (lanesOf ((x :: rest).map (·.lane))) (BitVec.ofNat 64 x.ea))
      | [] => match xs.filter (fun x => s.badScratch x.t n) with
        | x :: rest => some (.stop 0x160 (lanesOf ((x :: rest).map (·.lane))) (BitVec.ofNat 64 x.ea))
        | [] => none

/-- The leaves used by some accesses are cached (R360). -/
def State.cacheAll (s : State) (xs : List Access) : State :=
  xs.foldl (fun (t : State) x => t.cacheTarget s.q.fid .core x.t) s

/-- An instruction with memory accesses of n bytes: decode checks, the checks of its accesses, then its effect on the state in which
their leaves are cached. A uniform instruction whose quire predicate is false only advances. -/
def Desc.access (D : Desc) (s : State) (eas : List (Nat × Nat)) (check : Nat → Except Nat Target) (n : Nat) (reads : Bool)
    (effect : State → List Access → Res) : Host.Outcome State Fault Refusal :=
  if (D.cause s).isSome || (D.uni && !s.kActive D.pr D.neg) then .next (D.run s (.done s))
  else match checkAll eas check with
    | .error (c, lanes, ea) => .next (D.run s (.stop c (if D.uni then laneMask s.batch else lanes) ea))
    | .ok xs =>
      match s.hindrance xs n reads with
      | some r => .next (D.run s (match r with
          | .stop c l a => .stop c (if D.uni then laneMask s.batch else l) a
          | .wait t (.reach pa l) => .wait t (.reach pa (if D.uni then 0 else l))
          | r => r))
      | none => .next (D.run s (effect (s.cacheAll xs) xs))

/-! ## Effective addresses (R203) -/

/-- The fields of a memory word. `ord`, `scope`, `hint` and `rem` as R206 names them. -/
structure MArgs where
  len   : Nat
  pr    : BitVec 3
  neg   : Bool
  d     : Name
  base  : Name
  index : Option Name
  scale : Nat
  disp  : Int
  mt    : BitVec 3 := 0
  ord   : Bool := false
  scope : Nat := 0
  hint  : Nat := 0
  rem   : Bool := false

/-- LS: index b scaled by m2 (R203). -/
def lsMem (o : SF) (m2 : BitVec 2) : MArgs :=
  { len := 4, pr := o.pr, neg := o.neg, d := shortName o.d, base := shortName o.a, index := some (shortName o.b),
    scale := m2.toNat, disp := 0 }
/-- LL. -/
def llMem (o : LF) : MArgs :=
  { len := 8, pr := o.pr, neg := o.neg, d := longName o.d, base := longName o.a, index := some (longName o.b),
    scale := o.sc.toNat, disp := o.c.toInt, mt := o.ty, ord := o.ord, scope := o.low3.toNat, hint := o.hnt.toNat, rem := o.rem }
/-- LI: no index. -/
def liMem (o : IF) : MArgs :=
  { len := 8, pr := o.pr, neg := o.neg, d := shortName o.d, base := shortName o.a, index := none, scale := 0,
    disp := o.imm.toInt, mt := o.ty }

/-- Base, index and displacement of a fibre modulo 2^`w` (R203, R210). -/
def MArgs.ea (x : MArgs) (s : State) (w : Nat) (f : Fibre) : Nat :=
  let i : Int := match x.index with | some n => (BitVec.ofNat 32 (s.rd f n 32)).toInt | none => 0
  (((s.rd f x.base w : Nat) + i * 2 ^ x.scale + x.disp) % 2 ^ w).toNat

/-- The names of a memory operand. -/
def MArgs.uses (x : MArgs) (w : Nat) : List Use :=
  .base x.base w :: (match x.index with | some n => [.src n 32] | none => [])

/-- Bytes of a lane memory type (R205). -/
def mtBytes (mt : BitVec 3) : Nat :=
  match mt.toNat with | 1 => 8 | 2 => 1 | 3 => 1 | 4 => 2 | 5 => 2 | 6 => 16 | _ => 4
/-- Register width of a lane memory type (R205). -/
def mtWidth (mt : BitVec 3) : Nat := match mt.toNat with | 1 => 64 | 6 => 128 | _ => 32
/-- A loaded value as the register takes it (R205). -/
def mtExtend (mt : BitVec 3) (v : Nat) : Nat :=
  match mt.toNat with
  | 2 => ((BitVec.ofNat 8 v).signExtend 32).toNat
  | 4 => ((BitVec.ofNat 16 v).signExtend 32).toNat
  | _ => v

/-- The common part of a lane memory word. -/
def MArgs.desc (x : MArgs) (s : State) (op : Nat) (legal : Bool) (uses : List Use) (w : Nat) (skip : SkipDest) : Desc :=
  { uni := false, op := op, len := x.len, pr := x.pr, neg := x.neg, legal := legal, uses := uses
    a := .vals ((s.active x.pr x.neg).map (fun f => (f.lane, BitVec.ofNat 64 (x.ea s w f))))
    b := (match x.index with | some n => .name n | none => .imm (BitVec.ofInt 64 x.disp))
    wa := 64, wb := 32, skip := skip }

/-- The store data of the active fibres as the fault record shows it: a source of `w` bits, its lower 64 where it has more (R372). -/
def MArgs.data (x : MArgs) (s : State) (w : Nat) : List (Nat × DWord) :=
  (s.active x.pr x.neg).map (fun f => (f.lane, BitVec.ofNat 64 (s.rd f x.d w)))

/-- What the caches keep of an access of the issuing quire (R195 to R197). -/
def State.touchCore (s : State) (level : Level) (write : Bool) (t : Target) : State := s.touch s.fol.die s.fol.core level write t

/-- One access of the issuing quire reads n bytes with a retention hint (R196, R209): the value, and the state behind the read.
Eight bytes of device space may be a management register (R383). -/
def State.loadOne (s : State) (n hint : Nat) (x : Access) : Nat × State :=
  match x.t.hinted hint with
  | .device _ pa => (match (if n = 8 then s.mgmtAt pa else none) with
      | some r => ((s.mgmtRead r.1 r.2).toNat, s)
      | none => s.deviceRead pa n)
  | t => (((s.touchCore .l1 false t).fellowStores t n x.lane).before t n).readFor t n x.lane

/-- The lanes of a load read in ascending order (R209): their values, and the state behind them. -/
def State.loads (s : State) (n hint : Nat) (xs : List Access) : List (Nat × Nat) × State :=
  xs.foldl (fun (r : List (Nat × Nat) × State) x =>
    let y := r.2.loadOne n hint x
    (r.1 ++ [(x.lane, y.1)], y.2)) ([], s.startReads s.q.uid)

/-- One access of the issuing quire writes the low n bytes of a value with a retention hint (R196, R209); `rel` is the scope of the
release that it is. -/
def State.storeOne (s : State) (n hint : Nat) (x : Access) (v : Nat) (rel : Option Nat := none) : State :=
  match x.t.hinted hint with
  | .device _ pa => (match (if n = 8 then s.mgmtAt pa else none) with | some r => s.deviceWrite s.q.uid r.1 r.2 (BitVec.ofNat 64 v) | none => s)
  | t => (s.touchCore .l1 true t).storeTo t n v x.lane rel

/-- Stores of some lanes, in ascending lane order (R209). -/
def State.storeAll (s : State) (n hint : Nat) (xs : List Access) (v : Nat → Nat) (rel : Option Nat := none) : State :=
  xs.foldl (fun (t : State) x => t.storeOne n hint x (v x.lane) rel) s

/-- The scope of an access that is a release or an acquire (R207). -/
def ordScope (ord : Bool) (scope : Nat) : Option Nat := if ord then some scope else none

/-- ld (R208, R209): checks, then every lane's bytes into its destination and lmem; with ORD an acquire. -/
def laneLoad (op : Nat) (legal : Bool) (x : MArgs) (s : State) : Host.Outcome State Fault Refusal :=
  let n := mtBytes x.mt
  let w := mtWidth x.mt
  let D := x.desc s op legal (.dst x.d w :: x.uses 64) 64 (.lane x.d w (some .mem))
  D.access s ((s.active x.pr x.neg).map (fun f => (f.lane, x.ea s 64 f))) (fun ea => s.memCheck s.q.fid ea n .read) n true
    (fun t xs =>
      let r := t.loads n x.hint xs
      let t2 := r.2.writeLanes x.d w (some .mem) (r.1.map (fun y => (y.1, mtExtend x.mt y.2)))
      .done (if x.ord then t2.acquire x.scope else t2))

/-- st (R208, R209): checks, then the low bytes of every lane's source; with ORD a release before the store. -/
def laneStore (op : Nat) (legal : Bool) (x : MArgs) (s : State) : Host.Outcome State Fault Refusal :=
  let n := mtBytes x.mt
  let w := mtWidth x.mt
  let D := { x.desc s op legal (.src x.d w :: x.uses 64) 64 .nothing with c := .vals (x.data s w) }
  D.access s ((s.active x.pr x.neg).map (fun f => (f.lane, x.ea s 64 f))) (fun ea => s.memCheck s.q.fid ea n .write) n false
    (fun t xs => t.behindRelease x.ord x.scope (fun t1 =>
      .done (t1.storeAll n x.hint xs (fun l =>
        match s.batch.find? (fun f => f.lane = l) with | some f => s.rd f x.d w | none => 0) (ordScope x.ord x.scope))))

/-- The check of `lds` and `sts` on a 32-bit offset (R210). -/
def State.offsetCheck (s : State) (rem : Bool) (n off : Nat) : Except Nat Target :=
  if off % n ≠ 0 then .error 0x060
  else
    let owner : Option (Nat × Nat) :=
      if rem then
        if off / 2 ^ 24 ≠ 0 then none
        else (s.member s.q.fid (off / 2 ^ 19 % 32)).map (fun m => (m, off % 2 ^ 19))
      else some (s.q.fid, off)
    match owner with
    | none => .error 0x062
    | some (fid, x) => if (s.folio fid).scratchBytes < x + n then .error 0x061 else .ok (.scratch fid x)

/-- lds (R210). -/
def laneLds (op : Nat) (legal : Bool) (x : MArgs) (s : State) : Host.Outcome State Fault Refusal :=
  let n := mtBytes x.mt
  let w := mtWidth x.mt
  let D := x.desc s op legal (.dst x.d w :: x.uses 32) 32 (.lane x.d w (some .mem))
  D.access s ((s.active x.pr x.neg).map (fun f => (f.lane, x.ea s 32 f))) (s.offsetCheck x.rem n) n true
    (fun t xs =>
      let r := t.loads n 0 xs
      .done (r.2.writeLanes x.d w (some .mem) (r.1.map (fun y => (y.1, mtExtend x.mt y.2)))))

/-- sts (R210). -/
def laneSts (op : Nat) (legal : Bool) (x : MArgs) (s : State) : Host.Outcome State Fault Refusal :=
  let n := mtBytes x.mt
  let w := mtWidth x.mt
  let D := { x.desc s op legal (.src x.d w :: x.uses 32) 32 .nothing with c := .vals (x.data s w) }
  D.access s ((s.active x.pr x.neg).map (fun f => (f.lane, x.ea s 32 f))) (s.offsetCheck x.rem n) n false
    (fun t xs => .done (t.storeAll n 0 xs (fun l =>
      match s.batch.find? (fun f => f.lane = l) with | some f => s.rd f x.d w | none => 0)))

/-- addr: Ea to a pair and to lint, with no access (R212). -/
def laneAddr (op : Nat) (legal : Bool) (x : MArgs) (s : State) : State :=
  (x.desc s op legal (.dst x.d 64 :: x.uses 64) 64 (.lane x.d 64 (some .int))).lanewise s x.d 64 (some .int) (x.ea s 64)

/-- The level that a `pref` names (R206). -/
def prefLevel (x : MArgs) : Level := match x.scope % 4 with | 1 => .cluster | 2 => .l2 | _ => .l1

/-- pref: the line comes to a level with a class; a pref that would fault does nothing (R213). -/
def lanePref (op : Nat) (legal : Bool) (x : MArgs) (s : State) : State :=
  let D := x.desc s op legal (x.uses 64) 64 .nothing
  let ts := (s.active x.pr x.neg).filterMap (fun f =>
    match s.route s.q.fid (x.ea s 64 f) .read with
    | .ok (.mem t pa) => some (Target.mem t pa)
    | _ => none)
  D.run s (.done (ts.foldl (fun (t : State) y =>
    ((t.cacheTarget s.q.fid .core y).touchCore (prefLevel x) false (y.hinted x.hint)).recallFor s.fol.die (y.hinted x.hint)) s))

/-! ## dsc and cwb (R213, R214) -/

/-- The lines of a range of whole lines. -/
def rangeLines (lo len : Nat) : List Nat := (List.range (len / 64)).map (fun i => lo + 64 * i)

/-- The check of a range: multiples of 64, then every line of it (its pages are checked through their lines). -/
def State.rangeCheck (s : State) (ea len : Nat) (acc : Acc) : Except (Nat × Nat) (List Target) :=
  if ea % 64 ≠ 0 ∨ len % 64 ≠ 0 then .error (0x060, ea)
  else (rangeLines ea len).foldl (fun r a =>
    match r with
    | .error e => .error e
    | .ok ts => match s.route s.q.fid (a % 2 ^ 64) acc with
      | .error c => .error (c, a)
      | .ok t => .ok (ts ++ [t])) (.ok [])

/-- The values of a mask of byte values. -/
def maskBytes (m : BitVec 256) : List Byte := ((List.range 256).filter (fun i => m.getLsbD i)).map (BitVec.ofNat 8)

/-- dsc on a line: a copy away from home is dropped unwritten; at home, each byte keeps its value or takes one that it has had since
its page was allocated, by a free choice (R214). HOME 0b01 and 0b11 pages are left alone. -/
def State.discardLine (s : State) (t : Target) : State :=
  match t with
  | .mem x pa =>
    if uncached x.attr.home then s
    else
      let s1 := s.ownStores t 64
      if s1.isHome s.fol.die pa then
        (List.range 64).foldl (fun (z : State) i =>
          let vs := z.byte (pa + i) :: maskBytes (Sparse.get 0 (pa + i) z.shadow)
          let b := (vs[s.choose (pa + i) vs.length]?).getD (z.byte (pa + i))
          ((z.keepShadow (pa + i)).write (pa + i) [b]).tagged (pa + i) [b] s.fol.die []) (s1.recallLine (pa / 64))
          |>.wroteNow s.q.uid s.fol.die t 64
      else s1.dropCopies s.fol.die (fun c => c.line = pa / 64)
  | _ => s

/-- cwb on a line: written back to the home's memory, kept clean, class normal (R214). -/
def State.cleanLine (s : State) (t : Target) : State :=
  match t with
  | .mem x pa =>
    if uncached x.attr.home then s
    else
      let s0 := s.ownStores t 64
      let s1 := ((if s0.readsHome s.fol.die x.attr.home pa then s0.recallLine (pa / 64) else s0).writeBack s.fol.die (pa / 64) false).wroteNow
        s.q.uid s.fol.die t 64
      let k := lineKeyOf s.fol.die (pa / 64)
      { s1 with class_ := if Sparse.get (0, 0) k s1.class_ = (0, 0) then s1.class_
                          else Sparse.set (0, 0) k (2, (Sparse.get (0, 0) k s1.class_).2) s1.class_ }
  | _ => s

/-- dsc and cwb over the ranges of the active fibres. -/
def laneRange (op : Nat) (legal : Bool) (acc : Acc) (x : MArgs) (lenName : Name) (line : State → Target → State) (s : State) :
    Host.Outcome State Fault Refusal :=
  let y := { x with index := none }
  let D := { y.desc s op legal (y.uses 64 ++ [.src lenName 32]) 64 .nothing with b := .name lenName }
  if (D.cause s).isSome then .next (D.run s (.done s))
  else
    let rs := (s.active x.pr x.neg).map (fun f => (f, s.rangeCheck (y.ea s 64 f) (s.rd f lenName 32) acc))
    let errs := rs.filterMap (fun r => match r.2 with | .error e => some (r.1.lane, e) | .ok _ => none)
    match errs with
    | (_, c, ea) :: _ =>
      .next (D.run s (.stop c (lanesOf ((errs.filter (fun e => e.2.1 = c)).map (·.1))) (BitVec.ofNat 64 ea)))
    | [] =>
      let ts := rs.flatMap (fun r => match r.2 with | .ok ts => ts.map (fun t => { lane := r.1.lane, ea := 0, t := t : Access }) | .error _ => [])
      match s.hindrance ts 64 false with
      | some r => .next (D.run s r)
      | none => .next (D.run s (.done (ts.foldl (fun (z : State) t => line z t.t) (s.cacheAll ts))))

/-! ## sld and sst (R208) -/

/-- The fields of a uniform memory word. -/
structure UMArgs where
  len   : Nat
  pr    : BitVec 3
  neg   : Bool
  d     : Nat
  base  : Nat
  index : Option Nat
  scale : Nat
  disp  : Int
  mt    : BitVec 3 := 0
  ord   : Bool := false
  scope : Nat := 0
  hint  : Nat := 0

/-- US. -/
def usMem (o : SF) (m2 : BitVec 2) : UMArgs :=
  { len := 4, pr := o.pr, neg := o.neg, d := o.d.toNat, base := o.a.toNat, index := some o.b.toNat, scale := m2.toNat, disp := 0 }
/-- UL. -/
def ulMem (o : LF) : UMArgs :=
  { len := 8, pr := o.pr, neg := o.neg, d := o.d.toNat, base := o.a.toNat, index := some o.b.toNat, scale := o.sc.toNat,
    disp := o.c.toInt, mt := o.ty, ord := o.ord, scope := o.low3.toNat, hint := o.hnt.toNat }
/-- UI. -/
def uiMem (o : IF) : UMArgs :=
  { len := 8, pr := o.pr, neg := o.neg, d := o.d.toNat, base := o.a.toNat, index := none, scale := 0, disp := o.imm.toInt, mt := o.ty }

/-- The effective address of a uniform word (R203). -/
def UMArgs.ea (x : UMArgs) (s : State) : Nat :=
  let i : Int := match x.index with | some n => sext32 (s.q.sreg n) | none => 0
  (((s.q.sreg x.base).toNat + i * 2 ^ x.scale + x.disp) % 2 ^ 64).toNat

/-- The names of a uniform memory operand. -/
def UMArgs.uses (x : UMArgs) : List Use :=
  .sreg x.base :: (match x.index with | some n => [.sreg n] | none => [])

/-- Bytes of a uniform memory type (R205). -/
def umtBytes (mt : BitVec 3) : Nat :=
  match mt.toNat with | 1 => 4 | 2 => 1 | 3 => 1 | 4 => 2 | 5 => 2 | 6 => 16 | 7 => 4 | _ => 8
/-- A loaded value as the s register takes it (R205). -/
def umtExtend (mt : BitVec 3) (v : Nat) : Nat :=
  match mt.toNat with
  | 2 => ((BitVec.ofNat 8 v).signExtend 64).toNat
  | 4 => ((BitVec.ofNat 16 v).signExtend 64).toNat
  | 7 => ((BitVec.ofNat 32 v).signExtend 64).toNat
  | _ => v

/-- The data register of a uniform memory word: one s register, or an aligned pair for 16 bytes (R205). -/
def UMArgs.data (x : UMArgs) : Use := if x.mt = 6 then .sgroup x.d 2 else .sreg x.d

/-- The common part. -/
def UMArgs.desc (x : UMArgs) (s : State) (op : Nat) (legal : Bool) (skip : SkipDest) : Desc :=
  { uni := true, op := op, len := x.len, pr := x.pr, neg := x.neg, legal := legal, uses := x.data :: x.uses
    a := .imm (BitVec.ofNat 64 (x.ea s)), b := (match x.index with | some n => .sreg n | none => .imm (BitVec.ofInt 64 x.disp))
    wa := 64, wb := 64, skip := skip }

/-- Write the data register of a load. -/
def State.setData (s : State) (d : Nat) (wide : Bool) (v : Nat) : State :=
  if wide then (s.setS d (BitVec.ofNat 64 v)).setS (d + 1) (BitVec.ofNat 64 (v / 2 ^ 64)) else s.setS d (BitVec.ofNat 64 v)
/-- Read the data register of a store. -/
def State.getData (s : State) (d : Nat) (wide : Bool) : Nat :=
  (s.q.sreg d).toNat + (if wide then 2 ^ 64 * (s.q.sreg (d + 1)).toNat else 0)

/-- sld (R208, R209). -/
def uniLoad (op : Nat) (legal : Bool) (x : UMArgs) (s : State) : Host.Outcome State Fault Refusal :=
  let n := umtBytes x.mt
  let D := x.desc s op legal (.sreg x.d (if x.mt = 6 then 128 else 64))
  D.access s [(0, x.ea s)] (fun ea => s.memCheck s.q.fid ea n .read) n true
    (fun t xs =>
      let r := t.loads n x.hint xs
      let t2 := r.2.setData x.d (x.mt = 6) (match r.1 with | y :: _ => umtExtend x.mt y.2 | [] => 0)
      .done (if x.ord then t2.acquire x.scope else t2))

/-- sst (R208, R209). -/
def uniStore (op : Nat) (legal : Bool) (x : UMArgs) (s : State) : Host.Outcome State Fault Refusal :=
  let n := umtBytes x.mt
  let D := { x.desc s op legal .nothing with c := .sreg x.d }
  D.access s [(0, x.ea s)] (fun ea => s.memCheck s.q.fid ea n .write) n false
    (fun t xs => t.behindRelease x.ord x.scope (fun t1 =>
      .done (t1.storeAll n x.hint xs (fun _ => s.getData x.d (x.mt = 6)) (ordScope x.ord x.scope))))

/-! ## The meanings, one for each instruction -/

/-- LD_LS (R209). -/
def execLdLS (o : SF) (m2 : BitVec 2) (s : State) : Host.Outcome State Fault Refusal :=
  laneLoad 0x20 true (lsMem o m2) s

/-- LD_LL (R209). -/
def execLdLL (o : LF) (s : State) : Host.Outcome State Fault Refusal :=
  laneLoad 0x20 o.legalMem (llMem o) s

/-- LD_LI (R209). -/
def execLdLI (o : IF) (s : State) : Host.Outcome State Fault Refusal :=
  laneLoad 0x20 o.tyOnly (liMem o) s

/-- ST_LS (R209). -/
def execStLS (o : SF) (m2 : BitVec 2) (s : State) : Host.Outcome State Fault Refusal :=
  laneStore 0x21 true (lsMem o m2) s

/-- ST_LL (R209). -/
def execStLL (o : LF) (s : State) : Host.Outcome State Fault Refusal :=
  laneStore 0x21 o.legalMem (llMem o) s

/-- ST_LI (R209). -/
def execStLI (o : IF) (s : State) : Host.Outcome State Fault Refusal :=
  laneStore 0x21 o.tyOnly (liMem o) s

/-- LDS_LS (R210). -/
def execLdsLS (o : SF) (m2 : BitVec 2) (s : State) : Host.Outcome State Fault Refusal :=
  laneLds 0x22 true (lsMem o m2) s

/-- LDS_LL (R210). -/
def execLdsLL (o : LF) (s : State) : Host.Outcome State Fault Refusal :=
  laneLds 0x22 o.legalLds (llMem o) s

/-- LDS_LI (R210). -/
def execLdsLI (o : IF) (s : State) : Host.Outcome State Fault Refusal :=
  laneLds 0x22 o.tyOnly (liMem o) s

/-- STS_LS (R210). -/
def execStsLS (o : SF) (m2 : BitVec 2) (s : State) : Host.Outcome State Fault Refusal :=
  laneSts 0x23 true (lsMem o m2) s

/-- STS_LL (R210). -/
def execStsLL (o : LF) (s : State) : Host.Outcome State Fault Refusal :=
  laneSts 0x23 o.legalLds (llMem o) s

/-- STS_LI (R210). -/
def execStsLI (o : IF) (s : State) : Host.Outcome State Fault Refusal :=
  laneSts 0x23 o.tyOnly (liMem o) s

/-- PREF_LS (R213). -/
def execPrefLS (o : SF) (s : State) : Host.Outcome State Fault Refusal :=
  .next (lanePref 0x24 true (lsMem o 0) s)

/-- PREF_LL (R213). -/
def execPrefLL (o : LF) (s : State) : Host.Outcome State Fault Refusal :=
  .next (lanePref 0x24 o.legalPref (llMem o) s)

/-- DSC_LS (R214). -/
def execDscLS (o : SF) (s : State) : Host.Outcome State Fault Refusal :=
  laneRange 0x24 true .write (lsMem o 0) (shortName o.b) State.discardLine s

/-- DSC_LL (R214). -/
def execDscLL (o : LF) (s : State) : Host.Outcome State Fault Refusal :=
  laneRange 0x24 o.legalDsc .write (llMem o) (longName o.b) State.discardLine s

/-- CWB_LS (R214). -/
def execCwbLS (o : SF) (s : State) : Host.Outcome State Fault Refusal :=
  laneRange 0x24 true .read (lsMem o 0) (shortName o.b) State.cleanLine s

/-- CWB_LL (R214). -/
def execCwbLL (o : LF) (s : State) : Host.Outcome State Fault Refusal :=
  laneRange 0x24 o.legalCwb .read (llMem o) (longName o.b) State.cleanLine s

/-- ADDR_LS (R212). -/
def execAddrLS (o : SF) (m2 : BitVec 2) (s : State) : Host.Outcome State Fault Refusal :=
  .next (laneAddr 0x2B true (lsMem o m2) s)

/-- ADDR_LL (R212). -/
def execAddrLL (o : LF) (s : State) : Host.Outcome State Fault Refusal :=
  .next (laneAddr 0x2B o.legalAddr (llMem o) s)

/-- ADDR_LI (R212). -/
def execAddrLI (o : IF) (s : State) : Host.Outcome State Fault Refusal :=
  .next (laneAddr 0x2B ((o.modi = 0 : Bool)) (liMem o) s)

/-- SLD_US (R209). -/
def execSldUS (o : SF) (m2 : BitVec 2) (s : State) : Host.Outcome State Fault Refusal :=
  uniLoad 0x10 true (usMem o m2) s

/-- SLD_UL (R209). -/
def execSldUL (o : LF) (s : State) : Host.Outcome State Fault Refusal :=
  uniLoad 0x10 o.legalMem (ulMem o) s

/-- SLD_UI (R209). -/
def execSldUI (o : IF) (s : State) : Host.Outcome State Fault Refusal :=
  uniLoad 0x10 o.tyOnly (uiMem o) s

/-- SST_US (R209). -/
def execSstUS (o : SF) (m2 : BitVec 2) (s : State) : Host.Outcome State Fault Refusal :=
  uniStore 0x11 true (usMem o m2) s

/-- SST_UL (R209). -/
def execSstUL (o : LF) (s : State) : Host.Outcome State Fault Refusal :=
  uniStore 0x11 o.legalMem (ulMem o) s

/-- SST_UI (R209). -/
def execSstUI (o : IF) (s : State) : Host.Outcome State Fault Refusal :=
  uniStore 0x11 o.tyOnly (uiMem o) s

end Sys2Proof.Machine
end

