-- ==== Sys2Proof/Machine/Frames.lean ====
section
/-! DEFINITION. Register frames: chains, freeing, allocation, the archive engine (spec 16 R335 to R341), and the
creation and end of fibres (R331, R332). -/

namespace Sys2Proof.Machine

/-! ## Chains and freeing (R335) -/

/-- The chain of a frame: itself and the frames reached through CALLER. The first argument bounds its length. -/
def Quire.chain (q : Quire) : Nat → Nat → List Nat
  | 0, _ => []
  | n + 1, id => if id = 0xFFFF then [] else id :: q.chain n (q.frame id).caller

/-- The chain of a fibre. -/
def Quire.chainOf (q : Quire) (f : Fibre) : List Nat := q.chain (q.frames.length + 1) f.frame

/-- A lane leaves the REFS of some frames; a frame whose REFS becomes empty is freed (R332, R335). -/
def Quire.leave (q : Quire) (lane : Nat) (ids : List Nat) : Quire :=
  { q with frames := (q.frames.map (fun fr =>
      if ids.contains fr.id then { fr with refs := putBit fr.refs lane false, owned := putBit fr.owned lane false } else fr)).filter (fun fr => fr.refs ≠ 0) }

/-- A fibre ends: it leaves every frame of its chain, and its slot is free (R332). -/
def Quire.endFibre (q : Quire) (f : Fibre) : Quire :=
  let q1 := q.leave f.lane (q.chainOf f)
  { q1 with fibres := q1.fibres.filter (fun g => g.lane ≠ f.lane) }

/-- Waits of batches that have no members left are withdrawn (R333). -/
def Quire.dropEmptyWaits (q : Quire) : Quire :=
  { q with waits := q.waits.filter (fun w => (q.at w.pc w.frame) ≠ []) }

/-- The given fibres of the issuing quire end. -/
def State.endFibres (s : State) (fs : List Fibre) : State :=
  { s with q := (fs.foldl Quire.endFibre s.q).dropEmptyWaits }

/-! ## Allocation (R337) -/

/-- The lowest run of `u` units free of the given runs (base, length) in a share of `units`. -/
def freeRun (taken : List (Nat × Nat)) (units u : Nat) : Option Nat :=
  (List.range (units + 1 - u)).find? (fun b => taken.all (fun r => r.1 + r.2 ≤ b ∨ b + u ≤ r.1))

/-- The runs of the resident frames of a folio but for some (quire, FRAMEID). -/
def State.takenRuns (s : State) (fid : Nat) (gone : List (Nat × Nat) := []) : List (Nat × Nat) :=
  (s.quires.filter (fun q => q.fid = fid)).flatMap (fun q =>
    (q.frames.filter (fun fr => fr.arch = none && !gone.contains (q.uid, fr.id))).map (fun fr => (fr.base, fr.size8)))

/-- FrameAlloc without waiting: the lowest free run of the folio's share, once the frames `gone` are freed. -/
def State.frameRun (s : State) (fid u : Nat) (gone : List (Nat × Nat) := []) : Option Nat :=
  freeRun (s.takenRuns fid gone) (s.folio fid).frameUnits u

/-- The least FRAMEID that no live frame of the quire has (R335; log 12). -/
def Quire.newId (q : Quire) : Nat :=
  ((List.range 0xFFFF).find? (fun i => !q.frames.any (fun fr => fr.id = i))).getD 0xFFFF

/-! ## The archive (R337 to R341) -/

/-- Bytes of one archive slice: S (R338). -/
def Folio.sliceBytes (x : Folio) : Nat := recField x.record 767 704 / 12288 / 1024 * 1024
/-- The virtual address of the slice of the quire with a %quireid (R338). -/
def Folio.sliceAt (x : Folio) (k : Nat) : Nat := recField x.record 703 640 + (x.core * 32 + x.qbase + k) * x.sliceBytes
/-- Bytes of a frame's archive record (R338). -/
def Frame.recordBytes (fr : Frame) : Nat := 128 * (8 * fr.size8 + 1)
/-- The top of a slice: holes that reach it are gone (R338). -/
def State.sliceTop (s : State) (fid k : Nat) : Nat :=
  ((s.quires.filter (fun q => q.uid ≠ 0 && q.fid = fid)).flatMap (·.frames)).foldl (fun m fr =>
    match fr.arch with | some (j, o) => if j = k then max m (o + fr.recordBytes) else m | none => m) 0

/-- The code of a tag: 0 U, 1 A, 2 G (R338); under version 1 every register is G (R33). -/
def tagBits (encv : Nat) (t : Tag) : Nat := if encv = 1 then 2 else match t with | .u _ => 0 | .a _ _ => 1 | .g => 2

/-- The record header of a frame as a number (R339); `low` stands in the reserved bits (bit 0 in a save image, R389). -/
def Frame.header (fr : Frame) (low : Nat) : Nat :=
  low + fr.size8 % 32 * 2 ^ 299 + fr.depth % 65536 * 2 ^ 304 + fr.caller % 65536 * 2 ^ 320 + fr.id % 65536 * 2 ^ 336
    + fr.refs.toNat * 2 ^ 352 + fr.handler.toNat * 2 ^ 384 + fr.retpc.toNat * 2 ^ 448

/-- The archive record of a frame (R338): header, tag block, registers with vacant lanes 0. -/
def Frame.record (fr : Frame) (encv : Nat) : List Byte :=
  leBytes 64 (fr.header 0)
    ++ leBytes 64 ((List.range (8 * fr.size8)).foldl (fun m r => m + tagBits encv (fr.tag r) * 4 ^ r) 0)
    ++ (List.range (8 * fr.size8)).flatMap (fun r => (List.range 32).flatMap (fun l =>
        leBytes 4 (if fr.owned.getLsbD l then (fr.v r l).toNat else 0)))

/-- A batch of the quire is neither blocked nor parked, and does not wait for its archived frame (R337 step 3). A held quire's batch
is none of these, either. -/
def Quire.canIssue (q : Quire) : Bool :=
  q.fibres.any (fun f => !f.parked && (q.frame f.frame).arch = none && !q.waits.any (fun w => w.pc = f.pc && w.frame = f.frame))

/-- Frames in the order of step 1: lowest DEPTH, then lowest FRAMEID. -/
def archiveOrder (fs : List Frame) : List Frame := sortOn (fun fr => fr.depth * 65536 + fr.id) fs

/-- The frame that the archive engine takes next for a waiting batch of quire `q` in frame `cur` (R337 steps 1 to 3), with
its quire; the frames `gone` leave with the instruction that waits. A frame that is being refilled is archived, so it is never taken
(R341). -/
def State.archiveNext (s : State) (q : Quire) (cur : Nat) (gone : List (Nat × Nat) := []) : Option (Nat × Nat) :=
  let resident := fun (x : Quire) => x.frames.filter (fun fr => fr.arch = none && !gone.contains (x.uid, fr.id))
  let idle := fun (x : Quire) => archiveOrder ((resident x).filter (fun fr => !x.fibres.any (fun f => f.frame = fr.id)))
  let busy := fun (x : Quire) => archiveOrder ((resident x).filter (fun fr => x.fibres.any (fun f => f.frame = fr.id)))
  match idle q with
  | fr :: _ => some (q.uid, fr.id)
  | [] =>
    if (resident q).any (fun fr => fr.id = cur) then some (q.uid, cur)
    else (((s.quiresOf q.fid).filter (fun x => x.uid ≠ q.uid && !x.canIssue)).flatMap (fun x =>
      (idle x ++ busy x).map (fun fr => (x.uid, fr.id)))).head?

/-- The record of a frame fits the slice of the calling quire `q` (R337), to which every record of its wait goes (log 13). -/
def State.fits (s : State) (q : Quire) (uid id : Nat) : Bool :=
  s.sliceTop q.fid q.quireid + ((s.quire uid).frame id).recordBytes ≤ (s.folio q.fid).sliceBytes
/-- The archive address at which the next record for quire `q` goes (R338). -/
def State.archiveAddr (s : State) (q : Quire) : Nat := (s.folio q.fid).sliceAt q.quireid + s.sliceTop q.fid q.quireid

/-- What a batch that needs a run finds: the run; the archive address whose record does not fit (0x101); or it waits. -/
inductive RunFor where
  | run (base : Nat)
  | overflow (addr : Nat)
  | waits
  deriving DecidableEq, Repr

/-- FrameAlloc as a batch of quire `q` meets it (R337). -/
def State.runFor (s : State) (q : Quire) (cur u : Nat) (gone : List (Nat × Nat) := []) : RunFor :=
  match s.frameRun q.fid u gone with
  | some b => .run b
  | none =>
    if (s.folio q.fid).sliceBytes = 0 then .waits
    else match s.archiveNext q cur gone with
      | none => .waits
      | some (uid, id) => if s.fits q uid id then .waits else .overflow (s.archiveAddr q)

/-- Bytes through a folio's own translation, checked first (R338): every 64-byte line is routed. -/
def State.routeLines (s : State) (fid va n : Nat) (acc : Acc) : Except (Nat × Nat) (List Target) :=
  (List.range ((n + 63) / 64)).foldl (fun r i =>
    match r with
    | .error e => .error e
    | .ok ts => match s.route fid (va + 64 * i) acc with
      | .error c => .error (c, va + 64 * i)
      | .ok t => .ok (ts ++ [t])) (.ok [])

/-- Write bytes at routed lines of die `d`. -/
def State.writeLines (s : State) (d : Nat) (ts : List Target) (bs : List Byte) : State :=
  ts.zipIdx.foldl (fun (t : State) x =>
    let part := (bs.drop (64 * x.2)).take 64
    t.writeAt d x.1 part.length (leNat part)) s

/-- Read bytes at routed lines of die `d`. -/
def State.readLines (s : State) (d : Nat) (ts : List Target) (n : Nat) : List Byte :=
  (ts.flatMap (fun t => leBytes 64 (s.readAt d t 64))).take n

/-- The record of a frame goes to the top of the slice of quire `q` and its units are free (R337, R338). -/
def State.archive (s : State) (q : Quire) (uid id : Nat) (ts : List Target) : State :=
  let x := s.folio q.fid
  let top := s.sliceTop q.fid q.quireid
  let s1 := s.writeLines x.die ts (((s.quire uid).frame id).record x.encv)
  s1.modQuire uid (fun y => y.modFrame id (fun fr => { fr with arch := some (q.quireid, top), regs := [] }))

/-- The registers that a frame takes from the bytes of a record (R338). -/
def Frame.fromRecord (fr : Frame) (bs : List Byte) : List (Nat × Word) :=
  (List.range (8 * fr.size8)).foldl (fun m r => (List.range 32).foldl (fun m l =>
    if fr.owned.getLsbD l then
      Sparse.set 0 (r * 32 + l) (BitVec.ofNat 32 (leNat ((bs.drop (128 + 128 * r + 4 * l)).take 4))) m else m) m) []

/-- The tag of a register behind its refill: as it was where the record's tag block has its code, else what the code says of the values
(R338; log 83). -/
def Frame.tagBack (fr : Frame) (encv r code : Nat) : Tag :=
  if code = tagBits encv (fr.tag r) then fr.tag r
  else
    let vs := ((List.range 32).filter (fun l => fr.owned.getLsbD l)).map (fun l => (l, fr.v r l))
    match code with
    | 0 => .u ((vs.head?.map (·.2)).getD 0)
    | 1 => tagOf vs
    | _ => .g

/-- A record is copied back to a run, with its tag block, and its hole is free (R341). The lanes of the frame's members that are vacant in
it read by R29. -/
def State.refill (s : State) (uid id base : Nat) (ts : List Target) : State :=
  let q := s.quire uid
  let x := s.folio q.fid
  let fr := q.frame id
  let bs := s.readLines x.die ts fr.recordBytes
  let fr1 := { fr with arch := none, base := base, regs := fr.fromRecord bs }
  let block := leNat ((bs.drop 64).take 64)
  let fr2 := { fr1 with tags := (List.range (8 * fr.size8)).foldl (fun m r =>
    Sparse.set (.u 0) r (fr1.tagBack x.encv r (block / 4 ^ r % 4)) m) fr1.tags }
  s.modQuire uid (fun q => q.modFrame id (fun _ => (q.memberLanes id).foldl Frame.enter fr2))

/-- A line of some targets has a home that cannot be reached now. -/
def waitsAt (ts : List Target) : Option Nat := ts.findSome? (fun t => match t with | .waits a => some a | _ => none)

/-- The frames that some lanes, which go from frame `cur` to frame `id` of its chain, leave without a holder (R335, R340). -/
def Quire.freedBy (q : Quire) (cur id : Nat) (lanes : Word) : List (Nat × Nat) :=
  (((q.chain (q.frames.length + 1) cur).takeWhile (fun i => i ≠ id)).filter (fun i => (q.frame i).refs &&& ~~~lanes = 0)).map
    (fun i => (q.uid, i))

/-- A `ret` or `unwind` of the issuing batch that takes some lanes into frame `id`; `t` is the state behind it. Where that frame is archived
the instruction waits for a run, and a fault of the archive area is its own (R338, R341). -/
def State.intoFrame (s : State) (id : Nat) (lanes : Word) (t : State) : Res :=
  let fr := s.q.frame id
  match fr.arch with
  | none => .jump t
  | some (k, off) =>
    match s.routeLines s.q.fid (s.fol.sliceAt k + off) fr.recordBytes .read with
    | .error (c, a) => .stop c lanes (BitVec.ofNat 64 a)
    | .ok ts =>
      match waitsAt ts, s.runFor s.q s.sel.2 fr.size8 (s.q.freedBy s.sel.2 id lanes) with
      | some a, _ => .wait s (.reach a lanes)
      | none, .run b => .jump (t.refill s.q.uid id b ts)
      | none, .overflow a => .stop 0x101 lanes (BitVec.ofNat 64 a)
      | none, .waits => .wait s (.refill id lanes)

end Sys2Proof.Machine
end

