-- ==== Sys2Proof/Machine/Sync.lean ====
section
/-! DEFINITION. Barriers, queues, carve-out changes and `pause` (spec 12). -/

namespace Sys2Proof.Machine

/-! ## Barriers (R260 to R266) -/

/-- Which barrier: the scope and, for a split barrier, its id (R260). -/
structure BarId where
  vol : Bool
  id  : Option Nat
  deriving DecidableEq, Repr

/-- The barrier as folio `fid` sees it. -/
def State.barrier (s : State) (fid : Nat) (b : BarId) : Barrier :=
  if b.vol then
    let v := s.volume (s.folio fid).vid
    match b.id with | none => v.bar | some i => Sparse.get {} i v.splits
  else
    match b.id with | none => (s.folio fid).bar | some i => Sparse.get {} i (s.folio fid).splits

/-- Replace it. -/
def State.setBarrier (s : State) (fid : Nat) (b : BarId) (x : Barrier) : State :=
  if b.vol then s.modVolume (s.folio fid).vid (fun v =>
    match b.id with | none => { v with bar := x } | some i => { v with splits := Sparse.set {} i x v.splits })
  else s.modFolio fid (fun f =>
    match b.id with | none => { f with bar := x } | some i => { f with splits := Sparse.set {} i x f.splits })

/-- The party: the live quires of the folio, or of every member folio (R260). -/
def State.party (s : State) (fid : Nat) (b : BarId) : List Nat :=
  let fids := if b.vol then (s.volume (s.folio fid).vid).members.map (·.2) else [fid]
  (s.quires.filter (fun q => fids.contains q.fid && q.fibres ≠ [])).map (·.uid)

/-- Every quire of the party has arrived, and some quire has (R260). -/
def State.allArrived (s : State) (fid : Nat) (b : BarId) : Bool :=
  let x := s.barrier fid b
  x.arrived ≠ [] && (s.party fid b).all (fun u => x.arrived.contains u)

/-- A quire departs from a barrier generation with an acquire: behind every arrival, and behind the updates of a volume barrier
(R264, R297). -/
def State.departs (s : State) (uid : Nat) (vol : Bool) (rels : List Rel) : State :=
  let s1 := rels.foldl (fun (t : State) r => t.joinRel uid r) s
  if vol then s1.seeUpdates uid [0] else s1

/-- The blocked batches of a full barrier depart: each continues behind its `bar` or `carve` (R262, R264). -/
def State.depart (s : State) (fid : Nat) (vol : Bool) : State :=
  let party := s.party fid ⟨vol, none⟩
  let free := fun (q : Quire) => if party.contains q.uid
    then (q.waits.filter (fun w => w.kind = .barrier vol)).foldl Quire.complete q else q
  let goers := (s.quires.filter (fun q => party.contains q.uid && q.waits.any (fun w => w.kind = .barrier vol))).map (·.uid)
  goers.foldl (fun (t : State) u => t.departs u vol (s.barrier fid ⟨vol, none⟩).past) { s with q := free s.q, rest := s.rest.map free }

/-- The folios that exited before a volume-barrier generation completes leave the volume and lose their shares, with their bind
records (R265). One with an operation still on a token keeps its quire slots and bands until that completes (R332), and of its split
only what they take. -/
def State.returnShares (s : State) (vid : Nat) : State :=
  let gone := ((s.volume vid).members.filter (fun m => (s.folio m.2).ended)).map (·.2)
  let free := gone.filter s.folioIdle
  let t := free.foldl (fun (t : State) f => t.dropBind (s.folio f)) s
  { (t.modVolume vid (fun v => { v with members := v.members.filter (fun m => !gone.contains m.2) })) with
    folios := (s.folios.filter (fun x => !free.contains x.fid)).map (fun x =>
      if gone.contains x.fid then { x with carve := x.carve &&& 0x1FFC0000 } else x)
    rest := s.rest.filter (fun q => !free.contains q.fid)
    q := if s.q.uid ≠ 0 ∧ free.contains s.q.fid = true then {} else s.q }

/-- Complete (R262, R263): the generation advances, the marks are cleared, and blocked batches depart. -/
def State.completeBar (s : State) (fid : Nat) (b : BarId) : State :=
  let s1 := s.setBarrier fid b { gen := (s.barrier fid b).gen + 1, arrived := [], past := (s.barrier fid b).rels }
  if b.id = none then s1.depart fid b.vol else s1

/-- A barrier's party has arrived; a folio barrier with a carve request waits for CARVE_APPLY (R275). -/
def State.barReady (s : State) (fid : Nat) (b : BarId) : Bool :=
  s.allArrived fid b && !(b = ⟨false, none⟩ && (s.folio fid).carveRq.isSome)

/-- The barriers of some that can complete do; then, where one of them is of the volume, its exited folios lose their shares (R265). -/
def State.tryComplete (s : State) (fid : Nat) (bs : List BarId) : State :=
  let ready := bs.filter (s.barReady fid)
  let t := ready.foldl (fun (t : State) b => t.completeBar fid b) s
  if ready.any (·.vol) then t.returnShares (s.folio fid).vid else t

/-- Every live quire of a folio has arrived at a barrier, and there is one: the folio has arrived (R260). -/
def State.folioArrived (s : State) (fid : Nat) (b : BarId) : Bool :=
  s.party fid ⟨false, none⟩ ≠ [] && (s.party fid ⟨false, none⟩).all (fun u => (s.barrier fid b).arrived.contains u)

/-- A folio has arrived at a volume barrier: its subscriptions are flushed (R251), and every update of its stores is applied (R252, R264;
log 107). -/
def State.folioArrives (s : State) (fid : Nat) (b : BarId) : State :=
  if b.vol && s.folioArrived fid b then s.settleSubs (fun x => x.src = fid) else s

/-- The scope code of a barrier: 2 folio, 3 volume (R207). -/
def barScope (vol : Bool) : Nat := if vol then 3 else 2

/-- A quire arrives with a release (R261, R264); at a volume barrier its stores to scratchpads have been forwarded (R252). -/
def State.arriveBar (s0 : State) (fid uid : Nat) (b : BarId) : State :=
  let s := if b.vol then s0.ownScratch uid else s0
  let x := s.barrier fid b
  (s.setBarrier fid b { x with arrived := x.arrived ++ [uid], rels := x.rels ++ [s.relOf uid (barScope b.vol)] }).folioArrives fid b

/-- Every barrier of a folio and its volume. -/
def allBars : List BarId :=
  [⟨false, none⟩, ⟨true, none⟩] ++ (List.range 4).map (fun i => ⟨false, some i⟩) ++ (List.range 4).map (fun i => ⟨true, some i⟩)

/-- A quire has ended: it counts as arrived, with a release, at every generation from now on (R260, R265), so its folio may have arrived and
barriers may complete. -/
def State.barsAfterEnd (s : State) (fid uid : Nat) : State :=
  ((allBars.filter (fun b => !(s.barrier fid b).arrived.contains uid)).foldl (fun (t : State) b =>
    (t.setBarrier fid b { t.barrier fid b with rels := (t.barrier fid b).rels ++ [t.relOf uid (barScope b.vol)] }).folioArrives fid b) s).tryComplete
    fid allBars

/-- The common part of a uniform short word that reads s registers. -/
def usDesc (o : SF) (op : Nat) (legal : Bool) (uses : List Use) : Desc :=
  { uni := true, op := op, len := 4, pr := o.pr, neg := o.neg, legal := legal, uses := uses
    a := .sreg o.a.toNat, b := .sreg o.b.toNat, wa := 64, wb := 64 }

/-- bar (R262): release, arrive, block; the last arrival completes the generation. -/
def uniBar (op : Nat) (legal : Bool) (o : SF) (vol : Bool) (s : State) : State :=
  let D := { usDesc o op legal [] with a := .none, b := .none }
  let b : BarId := ⟨vol, none⟩
  if (D.cause s).isSome || !s.kActive o.pr o.neg then D.run s (.done s)
  else if (s.barrier s.q.fid b).arrived.contains s.q.uid then D.run s (.wait s (.barrier vol))
  else (D.run s (.wait (s.arriveBar s.q.fid s.q.uid b) (.barrier vol))).tryComplete s.q.fid [b]

/-- The split barrier a d field names (R263). -/
def splitOf (d : BitVec 6) : BarId := ⟨d.getLsbD 2, some (fieldOf d 1 0)⟩
/-- Its number among the quire's eight flags. -/
def splitNo (d : BitVec 6) : Nat := fieldOf d 2 0

/-- barrive (R263). -/
def uniBarrive (op : Nat) (legal : Bool) (o : SF) (s : State) : State :=
  let D := { usDesc o op legal [] with a := .none, b := .none }
  let b := splitOf o.d
  let i := splitNo o.d
  if s.q.splitP.getLsbD i then D.runU s (.stop 0x0E1 (laneMask s.batch) 0)
  else
    let s1 : State := { s with q := { s.q with
      splitP := putBit s.q.splitP i true, splitG := Sparse.set 0 i (s.barrier s.q.fid b).gen s.q.splitG } }
    D.runU s (.done ((s1.arriveBar s.q.fid s.q.uid b).tryComplete s.q.fid [b]))

/-- The generation for which the issuing batch waits in a `bwait` (R263). -/
def State.splitWait (s : State) : Option Nat :=
  s.q.waits.findSome? (fun w => if w.pc = s.sel.1 && w.frame = s.sel.2 then (match w.kind with | .split _ g => some g | _ => none) else none)

/-- bwait (R263): P is tested before the batch blocks; then, once the generation of the quire's arrival has completed, an acquire, and P is
cleared. -/
def uniBwait (op : Nat) (legal : Bool) (o : SF) (s : State) : State :=
  let D := { usDesc o op legal [] with a := .none, b := .none }
  let b := splitOf o.d
  let i := splitNo o.d
  let g := s.splitWait.getD (Sparse.get 0 i s.q.splitG)
  if s.splitWait = none ∧ s.q.splitP.getLsbD i = false then D.runU s (.stop 0x0E1 (laneMask s.batch) 0)
  else if (s.barrier s.q.fid b).gen ≤ g then D.runU s (.wait s (.split i g))
  else
    let s1 := s.departs s.q.uid b.vol (s.barrier s.q.fid b).past
    D.runU s (.done { s1 with q := { s1.q with splitP := putBit s1.q.splitP i false } })

/-- carve (R274): an arrival at the folio full barrier that carries a request. -/
def uniCarve (op : Nat) (legal : Bool) (o : SF) (s : State) : State :=
  let D := { usDesc o op legal [.sreg o.a.toNat] with b := .none }
  let v := s.q.sreg o.a.toNat
  let b : BarId := ⟨false, none⟩
  if (D.cause s).isSome || !s.kActive o.pr o.neg then D.run s (.done s)
  else if v.toNat / 2 ^ 18 ≠ 0 ∨ s.fol.carveRq.isSome = true ∨ (s.barrier s.q.fid b).arrived.contains s.q.uid = true then
    D.run s (.stop 0x0E1 (laneMask s.batch) 0)
  else
    let s1 := (s.modFolio s.q.fid (fun x => { x with carveRq := some (v, s.q.uid) })).arriveBar s.q.fid s.q.uid b
    (D.run s (.wait s1 (.barrier false))).tryComplete s.q.fid [b]

/-! ## Queues (R267 to R273) -/

/-- A queue descriptor as a 256-bit value (R267). -/
abbrev QDesc := BitVec 256

/-- Read a descriptor. -/
def State.qdesc (s : State) (fid off : Nat) : QDesc :=
  BitVec.ofNat 256 (leNat ((List.range 32).map (fun i => s.byte (scratchLoc fid (off + i)))))
/-- Write a descriptor. -/
def State.putQdesc (s : State) (fid off : Nat) (q : QDesc) : State := s.putBytes (scratchLoc fid off) (leBytes 32 q.toNat)
/-- Replace bits hi:lo of a value. -/
def putField {w : Nat} (v : BitVec w) (hi lo x : Nat) : BitVec w :=
  (v &&& ~~~(BitVec.ofNat w ((2 ^ (hi + 1 - lo) - 1) * 2 ^ lo))) ||| BitVec.ofNat w (x % 2 ^ (hi + 1 - lo) * 2 ^ lo)

/-- Entries in the ring: (TAIL - HEAD) mod 2^32. -/
def qCount (q : QDesc) : Nat := (fieldOf q 31 0 + 2 ^ 32 - fieldOf q 63 32) % 2 ^ 32
/-- N = NM1 + 1. -/
def qSize (q : QDesc) : Nat := fieldOf q 103 96 + 1
/-- Producer slot i (R268). -/
def qSlot (q : QDesc) (i : Nat) : BitVec 32 := q.extractLsb' (128 + 32 * i) 32
/-- Replace producer slot i. -/
def qSetSlot (q : QDesc) (i : Nat) (v : BitVec 32) : QDesc := putField q (159 + 32 * i) (128 + 32 * i) v.toNat
/-- The valid slot that names a producer. -/
def qFind (q : QDesc) (folio quire : Nat) : Option Nat :=
  (List.range 4).find? (fun i => (qSlot q i).getLsbD 26 && fieldOf (qSlot q i) 25 21 = folio && fieldOf (qSlot q i) 20 16 = quire)
/-- USED below ALLOW in the producer's slot, or no slot. -/
def qPermits (q : QDesc) (folio quire : Nat) : Bool :=
  match qFind q folio quire with
  | some i => fieldOf (qSlot q i) 15 8 < fieldOf (qSlot q i) 7 0
  | none => true

/-- The checks on a descriptor's address (R269): a cause, or the owning allocation and offset. -/
def State.qAddr (s : State) (fid : Nat) (v : DWord) : Except Nat (Nat × Nat) :=
  let ea := v.toNat
  if ea % 32 ≠ 0 then .error 0x060
  else if 2 ^ 56 ≤ ea then .error 0x080
  else if ea < windowBase then .error 0x0E0
  else match s.window fid ea with
    | .error c => .error c
    | .ok (.scratch f off) => .ok (f, off)
    | .ok _ => .error 0x0E0

/-- The ring area overlaps the descriptor. -/
def ringOverlaps (ring n off : Nat) : Bool := ring < off + 32 && off < ring + 9 * n

/-- The checks on a descriptor's contents (R269). -/
def State.qValid (s : State) (fid owner off : Nat) (q : QDesc) : Bool :=
  let sc := fieldOf q 106 104
  let ring := fieldOf q 82 64
  let n := qSize q
  fieldOf q 127 120 = 0x51 && (sc = 2 || sc = 3) && fieldOf q 103 96 ≠ 0
    && fieldOf q 119 107 = 0 && fieldOf q 95 83 = 0 && (List.range 4).all (fun i => fieldOf (qSlot q i) 31 27 = 0)
    && qCount q ≤ n
    && ring % 8 = 0 && ring + 9 * n ≤ (s.folio owner).scratchBytes && !ringOverlaps ring n off
    && (sc ≠ 2 || owner = fid)
    && (sc ≠ 3 || (s.volume (s.folio fid).vid).members.any (fun m => m.2 = owner))

/-- Push a handle for a producer (R272): the entry, with the releases that it carries, its tag, USED, TAIL. -/
def State.qPush (s : State) (owner off : Nat) (folio quire : Nat) (h : DWord) (rels : List Rel) : State :=
  let q := s.qdesc owner off
  let n := qSize q
  let ring := fieldOf q 82 64
  let i := fieldOf q 31 0 % n
  let slot := qFind q folio quire
  let s1 := (s.putBytes (scratchLoc owner (ring + 8 * i)) (leBytes 8 h.toNat)).tagged (scratchLoc owner (ring + 8 * i)) (leBytes 8 h.toNat)
    (s.folio owner).die rels
  let s2 := s1.putBytes (scratchLoc owner (ring + 8 * n + i)) [match slot with | some j => BitVec.ofNat 8 (0x80 + j) | none => 0]
  let q1 := match slot with
    | some j => qSetSlot q j (putField (qSlot q j) 15 8 (fieldOf (qSlot q j) 15 8 + 1))
    | none => q
  s2.putQdesc owner off (putField q1 31 0 (fieldOf q1 31 0 + 1))

/-- Pop the oldest handle for a quire (R272): the handle, and the state with USED and HEAD changed, in which the quire is behind the push
(R273). -/
def State.qPop (s : State) (owner off uid : Nat) : DWord × State :=
  let q := s.qdesc owner off
  let n := qSize q
  let ring := fieldOf q 82 64
  let i := fieldOf q 63 32 % n
  let h := leNat ((List.range 8).map (fun k => s.byte (scratchLoc owner (ring + 8 * i + k))))
  let g := s.byte (scratchLoc owner (ring + 8 * n + i))
  let j := fieldOf g 1 0
  let q1 := if g.getLsbD 7 then qSetSlot q j (putField (qSlot q j) 15 8 (fieldOf (qSlot q j) 15 8 + 255)) else q
  (BitVec.ofNat 64 h, (s.relsAt (scratchLoc owner (ring + 8 * i))).foldl (fun (t : State) r => t.joinRel uid r)
    (s.putQdesc owner off (putField q1 63 32 (fieldOf q1 63 32 + 1))))

/-- The batches blocked on a descriptor, in the order in which they blocked, each with its quire. -/
def State.qWaiters (s : State) (loc : Nat) : List (Nat × Wait) :=
  sortOn (fun x => x.2.seq) (s.quires.flatMap (fun q =>
    (q.waits.filter (fun w => match w.kind with | .queue l _ _ _ => l = loc | _ => false)).map (fun w => (q.uid, w))))

/-- The blocked batch that is served next (R273), if any. -/
def State.qNext (s : State) (owner off : Nat) : Option (Nat × Wait) :=
  let q := s.qdesc owner off
  (s.qWaiters (scratchLoc owner off)).find? (fun x =>
    match x.2.kind with
    | .queue _ true _ _ =>
      let y := s.quire x.1
      qCount q < qSize q && qPermits q (s.folio y.fid).folioid y.quireid
    | .queue _ false _ _ => qCount q ≠ 0
    | _ => false)

/-- Serve blocked batches as far as the descriptor permits (R273), with the release of a push and the acquire of a pop (R207, R272); the
first argument bounds the number served. -/
def State.qServe (owner off : Nat) : Nat → State → State
  | 0, s => s
  | n + 1, s =>
    match s.qNext owner off with
    | none => s
    | some (uid, w) =>
      let y := s.quire uid
      let sc := fieldOf (s.qdesc owner off) 106 104
      match w.kind with
      | .queue _ true _ h =>
        State.qServe owner off n
          ((s.qPush owner off (s.folio y.fid).folioid y.quireid h (s.carried uid (some sc))).modQuire uid (fun q => (q.setK 1 true).complete w))
      | .queue _ false r _ =>
        let (h, s1) := s.qPop owner off uid
        State.qServe owner off n (s1.modQuire uid (fun q => ((q.setS r h).setK 1 true).complete w))
      | _ => s

/-- Serve every batch that can be served. -/
def State.qServeAll (s : State) (owner off : Nat) : State :=
  State.qServe owner off ((s.qWaiters (scratchLoc owner off)).length + 1) s

/-- What a queue instruction raises where the descriptor or the ring area that it reads is poisoned (0x161) or bad (0x160) (R375). -/
def State.queueHurt (s : State) (owner off : Nat) : Option Nat :=
  let q := s.qdesc owner off
  let ring := fieldOf q 82 64
  if s.scratchPoison owner off 32 || s.scratchPoison owner ring (9 * qSize q) then some 0x161
  else if s.badScratch (.scratch owner off) 32 || s.badScratch (.scratch owner ring) (9 * qSize q) then some 0x160
  else none
/-- The first batch of each quire that is blocked on a descriptor, and that holds no fault, takes a trap (R375). -/
def State.trapHurt (s : State) (loc code : Nat) : State :=
  (s.qWaiters loc).foldl (fun (t : State) x =>
    if (t.quire x.1).faulted then t else t.trapIn x.1 x.2 code (x.2.trap.laneRec 0).a) s

/-- A batch blocked on the descriptor at a place must trap: the descriptor's folio has ended (R278; one that has exited and is still
co-resident has not, R265), or its bytes fail a check (R268, R269). -/
def State.queueBroken (s : State) (fid loc : Nat) : Bool :=
  let owner := (loc - 2 ^ 52) / 2 ^ 19
  let off := (loc - 2 ^ 52) % 2 ^ 19
  !s.folios.any (fun x => x.fid = owner) || !s.qValid fid owner off (s.qdesc owner off)

/-- The waits of a quire stand at no descriptor (place 0) where theirs is broken. -/
def State.markBroken (s : State) (q : Quire) : Quire :=
  { q with waits := q.waits.map (fun w =>
    match w.kind with | .queue l push r h => if l ≠ 0 && s.queueBroken q.fid l then { w with kind := .queue 0 push r h } else w | _ => w) }

/-- A quire that is not held traps in the batch that blocked first on a descriptor now broken (R268): its operand a is the descriptor's
address. -/
def State.trapBroken (s : State) (uid : Nat) : State :=
  let q := s.quire uid
  if q.faulted then s
  else match sortOn (·.seq) (q.waits.filter (fun w => match w.kind with | .queue l _ _ _ => l = 0 | _ => false)) with
    | w :: _ => s.trapIn uid w 0x0E0 (w.trap.laneRec 0).a
    | [] => s

/-- Descriptors may have changed: the batches whose descriptor is broken trap, and the batches blocked on each of the others are
served, or trap where it cannot be read (R268, R273, R375). -/
def State.serveQueues (s : State) : State :=
  let s1 : State := { s with q := s.markBroken s.q, rest := s.rest.map s.markBroken }
  let broken := (s1.quires.filter (fun q => q.waits.any (fun w => match w.kind with | .queue l _ _ _ => l = 0 | _ => false))).map (·.uid)
  ((s1.quires.flatMap (fun q => q.waits.filterMap (fun w => match w.kind with
      | .queue l _ _ _ => if l = 0 then none else some l | _ => none))).eraseDups).foldl
    (fun (t : State) l => match t.queueHurt ((l - 2 ^ 52) / 2 ^ 19) ((l - 2 ^ 52) % 2 ^ 19) with
      | some c => t.trapHurt l c
      | none => t.qServeAll ((l - 2 ^ 52) / 2 ^ 19) ((l - 2 ^ 52) % 2 ^ 19)) (broken.foldl State.trapBroken s1)

/-- The issuing quire's own stores to a descriptor have been performed, and those to the ring area that it then names (R290, R291). -/
def State.ownQueue (s : State) (owner off : Nat) : State :=
  let s1 := s.beforeRmw (.scratch owner off) 32
  let q := s1.qdesc owner off
  s1.beforeRmw (.scratch owner (fieldOf q 82 64)) (9 * qSize q)

/-- A queue instruction: address, contents, which it must be able to read, then its effect in the state in which the quire's own
stores to the queue are performed. -/
def Desc.queue (D : Desc) (s : State) (addr : DWord) (valid : Bool) (effect : State → Nat → Nat → Res) : State :=
  match s.qAddr s.q.fid addr with
  | .error c => D.runU s (.stop c (laneMask s.batch) addr)
  | .ok (owner, off) =>
    let t := s.ownQueue owner off
    match (if valid then t.queueHurt owner off else none) with
    | some c => D.runU s (.stop c (laneMask s.batch) addr)
    | none =>
      if valid && !t.qValid s.q.fid owner off (t.qdesc owner off) then D.runU s (.stop 0x0E0 (laneMask s.batch) addr)
      else D.runU s (effect t owner off)

/-- qinit (R270). A trap for RING has the descriptor's address (log 104). -/
def uniQinit (op : Nat) (legal : Bool) (o : SF) (s : State) : State :=
  let D := { usDesc o op legal [.sgroup o.a.toNat 2] with b := .none }
  let addr := s.q.sreg o.a.toNat
  let v := s.q.sreg (o.a.toNat + 1)
  let ring := fieldOf v 18 0
  let nm1 := fieldOf v 39 32
  let sc := fieldOf v 42 40
  let stop := fun (c : Nat) => Res.stop c (laneMask s.batch) addr
  D.queue s addr false (fun t owner off =>
    if fieldOf v 31 19 ≠ 0 ∨ fieldOf v 63 43 ≠ 0 ∨ nm1 = 0 ∨ ¬ (sc = 2 ∨ sc = 3) then stop 0x0E0
    else if sc = 2 ∧ owner ≠ s.q.fid then stop 0x0E0
    else if ring % 8 ≠ 0 then stop 0x060
    else if (s.folio owner).scratchBytes < ring + 9 * (nm1 + 1) then stop 0x061
    else if ringOverlaps ring (nm1 + 1) off then stop 0x0E0
    else if t.qWaiters (scratchLoc owner off) ≠ [] then stop 0x0E0
    else .done (t.putQdesc owner off (BitVec.ofNat 256 (ring * 2 ^ 64 + nm1 * 2 ^ 96 + sc * 2 ^ 104 + 0x51 * 2 ^ 120))))

/-- qallow (R271); blocked producers are re-evaluated. -/
def uniQallow (op : Nat) (legal : Bool) (o : SF) (s : State) : State :=
  let D := usDesc o op legal [.sreg o.a.toNat, .sreg o.b.toNat]
  let addr := s.q.sreg o.a.toNat
  let v := s.q.sreg o.b.toNat
  let allow := fieldOf v 7 0
  let folio := fieldOf v 17 13
  let quire := fieldOf v 12 8
  let stop := Res.stop 0x0E0 (laneMask s.batch) addr
  D.queue s addr true (fun t owner off =>
    let q := t.qdesc owner off
    let put := fun (i : Nat) (x : BitVec 32) =>
      Res.done ((t.putQdesc owner off (qSetSlot q i (if fieldOf x 7 0 = 0 ∧ fieldOf x 15 8 = 0 then 0 else x))).qServeAll owner off)
    if fieldOf v 63 18 ≠ 0 then stop
    else match qFind q folio quire with
      | some i => put i (putField (qSlot q i) 7 0 allow)
      | none =>
        if allow = 0 then .done t
        else match (List.range 4).find? (fun i => !(qSlot q i).getLsbD 26) with
          | some i => put i (BitVec.ofNat 32 (2 ^ 26 + folio * 2 ^ 21 + quire * 2 ^ 16 + allow))
          | none => stop)

/-- qpush (R272): batches that blocked before are served first. -/
def uniQpush (op : Nat) (legal : Bool) (o : SF) (nb : Bool) (s : State) : State :=
  let D := usDesc o op legal [.sreg o.a.toNat, .sreg o.b.toNat]
  let addr := s.q.sreg o.a.toNat
  let h := s.q.sreg o.b.toNat
  D.queue s addr true (fun s0 owner off =>
    let t := s0.unblocked.qServeAll owner off
    let q := t.qdesc owner off
    if qCount q = qSize q ∨ qPermits q s.fol.folioid s.q.quireid = false then
      if nb then .done (s0.setK 1 false) else .wait s0 (.queue (scratchLoc owner off) true 0 h)
    else .done (((t.qPush owner off s.fol.folioid s.q.quireid h (t.carried s.q.uid (some (fieldOf q 106 104)))).setK 1 true).qServeAll owner off))

/-- qpop (R272). -/
def uniQpop (op : Nat) (legal : Bool) (o : SF) (nb : Bool) (s : State) : State :=
  let D := { usDesc o op legal [.sreg o.d.toNat, .sreg o.a.toNat] with b := .none, skip := .sreg o.d.toNat 64 }
  let addr := s.q.sreg o.a.toNat
  D.queue s addr true (fun s0 owner off =>
    let t := s0.unblocked.qServeAll owner off
    let q := t.qdesc owner off
    if qCount q = 0 then
      if nb then .done (s0.setK 1 false) else .wait s0 (.queue (scratchLoc owner off) false o.d.toNat 0)
    else
      let (h, t1) := t.qPop owner off s.q.uid
      .done (((t1.setS o.d.toNat h).setK 1 true).qServeAll owner off))

/-- pause (R276): the batch leaves issue; PAUSE_END brings it back behind the instruction. -/
def uniPause (op : Nat) (legal : Bool) (o : SF) (s : State) : State :=
  ({ usDesc o op legal [] with a := .none, b := .none }).runU s (.wait s .pause)

/-! ## The meanings, one for each instruction -/

/-- BAR_US (R262). -/
def execBarUS (o : SF) (m2 : BitVec 2) (s : State) : Host.Outcome State Fault Refusal :=
  .next (uniBar 0x20 ((o.d = 0 && o.a = 0 && o.b = 0 && !m2.getLsbD 1 : Bool)) o (m2.getLsbD 0) s)

/-- BARRIVE_US (R263). -/
def execBarriveUS (o : SF) (s : State) : Host.Outcome State Fault Refusal :=
  .next (uniBarrive 0x21 o.legalSplit o s)

/-- BWAIT_US (R263). -/
def execBwaitUS (o : SF) (s : State) : Host.Outcome State Fault Refusal :=
  .next (uniBwait 0x21 o.legalWait o s)

/-- QINIT_US (R270). -/
def execQinitUS (o : SF) (s : State) : Host.Outcome State Fault Refusal :=
  .next (uniQinit 0x22 ((o.d = 0 && o.b = 0 : Bool)) o s)

/-- QALLOW_US (R271). -/
def execQallowUS (o : SF) (s : State) : Host.Outcome State Fault Refusal :=
  .next (uniQallow 0x22 ((o.d = 0 : Bool)) o s)

/-- QPUSH_US (R272). -/
def execQpushUS (o : SF) (m2 : BitVec 2) (s : State) : Host.Outcome State Fault Refusal :=
  .next (uniQpush 0x23 ((o.d = 0 && !m2.getLsbD 1 : Bool)) o (m2.getLsbD 0) s)

/-- QPOP_US (R272). -/
def execQpopUS (o : SF) (m2 : BitVec 2) (s : State) : Host.Outcome State Fault Refusal :=
  .next (uniQpop 0x24 ((o.b = 0 && !m2.getLsbD 1 : Bool)) o (m2.getLsbD 0) s)

/-- CARVE_US (R274). -/
def execCarveUS (o : SF) (s : State) : Host.Outcome State Fault Refusal :=
  .next (uniCarve 0x2A ((o.d = 0 && o.b = 0 : Bool)) o s)

/-- PAUSE_US (R276). -/
def execPauseUS (o : SF) (s : State) : Host.Outcome State Fault Refusal :=
  .next (uniPause 0x2F ((o.d = 0 && o.a = 0 && o.b = 0 : Bool)) o s)

end Sys2Proof.Machine
end

