-- ==== Sys2Proof/Machine/Atomic.lean ====
section
/-! DEFINITION. Atomics, reductions, split counters and subscriptions (spec 11, R229 to R257). -/

namespace Sys2Proof.Machine

/-! ## One operation at its home (R229, R235) -/

/-- A read-modify-write at a target of the issuing die: the old value and the state. `f` gives the new value, or none where nothing
is written. The quire's own stores to the bytes come first, and a line homed elsewhere is first written back and dropped, so that
the operation follows the die's own earlier stores; no later read of the quire goes behind it (R290, R291). `rel` is the scope of
the release that it is, beside which its write carries what the value that it has read carries (R288). -/
def State.rmw (s : State) (t : Target) (n : Nat) (f : Nat → Option Nat) (rel : Option Nat := none) : Nat × State :=
  let d := s.fol.die
  let s0 := s.beforeRmw t n
  match t with
  | .mem x pa =>
    let s1 := (if s0.isHome d pa then s0 else s0.writeBack d (pa / 64) true).touchCore .l2 true t
    let s2 := (s1.recallLine (pa / 64)).observeRmw s.q.uid d t n
    let old := leNat ((List.range n).map (fun i => s2.homeByte x.attr.kid (pa + i)))
    (match f old with
     | some v =>
       (old, ((((List.range n).foldl (fun (u : State) i => u.keepShadow (pa + i)) s2).putHome x.attr.kid pa (leBytes n v)).tagged pa (leBytes n v) d
         (s2.carried s.q.uid rel ++ s2.relsAt pa)).wroteNow s.q.uid d t n)
     | none => (old, s2.keepNow s.q.uid d t n))
  | .scratch fid off =>
    let s1 := s0.observeRmw s.q.uid d t n
    let old := s1.readAt d t n
    (match f old with
     | some v =>
       let s2 := s1.writeAt d t n v (s1.carried s.q.uid rel ++ s1.relsAt (scratchLoc fid off))
       (old, (if s2.sameCore fid then s2.forward s.q.uid fid off n else s2).wroteNow s.q.uid d t n)
     | none => (old, s1.keepNow s.q.uid d t n))
  | .device _ pa => s0.deviceRead pa n
  | .waits _ => (0, s0)

/-- ORDK (R231): acquire is bit 0, release bit 1. -/
def ordAcq (k : BitVec 2) : Bool := k.getLsbD 0
def ordRel (k : BitVec 2) : Bool := k.getLsbD 1

/-- The memory operand of an atomic word (R231): ORDK stands where a load has its hint. -/
def atomMem (o : LF) : MArgs := { llMem o with hint := 0, ord := false, scope := o.low3.toNat }

/-- What one fibre's operation gave: lane, old value, exceptions, success. -/
structure AtomRes where
  lane : Nat
  old  : Nat
  exc  : Exc
  ok   : Bool
  deriving DecidableEq, Repr

/-- Each fibre's operation in ascending lane order (R235): from lane and old value, the new value, the exceptions and whether it
succeeded. -/
def State.rmwAll (s : State) (n : Nat) (xs : List Access) (g : Nat → Nat → Option Nat × Exc × Bool) (rel : Option Nat := none) :
    List AtomRes × State :=
  xs.foldl (fun (acc : List AtomRes × State) x =>
    let (old, t) := acc.2.rmw x.t n (fun old => (g x.lane old).1) rel
    let r := g x.lane old
    (acc.1 ++ [{ lane := x.lane, old := old, exc := r.2.1, ok := r.2.2 }], t)) ([], s.startReads s.q.uid)

/-- The element a fibre reads at a name; 0 where the lane is no member. -/
def State.rdLane (s : State) (l : Nat) (n : Name) (w : Nat) : Nat :=
  match s.batch.find? (fun f => f.lane = l) with | some f => s.rd f n w | none => 0

/-! ## atom, cas, red (R233, R234, R236) -/

/-- atom (R233). -/
def laneAtom (op : Nat) (legal : Bool) (o : LF) (s : State) : Host.Outcome State Fault Refusal :=
  let x := atomMem o
  let t := laneAt o.ty
  let n := t.bytes
  let w := 8 * n
  let aop := o.dfmt.toNat
  let D := { x.desc s op legal (.group x.d w :: x.uses 64) 64 (.lane x.d w (some .mem)) with c := .vals (x.data s w) }
  D.access s ((s.active x.pr x.neg).map (fun f => (f.lane, x.ea s 64 f))) (fun ea => s.memCheck s.q.fid ea n .write) n true
    (fun u xs => u.behindRelease (ordRel o.hnt) x.scope (fun u1 =>
      let (rs, u2) := u1.rmwAll n xs (fun l old => let r := atomOp aop t old (s.rdLane l x.d w); (some r.1, r.2, true))
        (ordScope (ordRel o.hnt) x.scope)
      let u3 := u2.writeLanes x.d w (some .mem) (rs.map (fun r => (r.lane, r.old)))
      let u4 := u3.mapFibres (fun f => match rs.find? (fun r => r.lane = f.lane) with
        | some r => { f with fflags := f.fflags ||| r.exc }
        | none => f)
      .done (if ordAcq o.hnt then u4.acquire x.scope else u4)))

/-- cas (R234): the expected element at d8, the new one behind it. -/
def laneCas (op : Nat) (legal : Bool) (o : LF) (s : State) : Host.Outcome State Fault Refusal :=
  let x := atomMem o
  let n := (laneAt o.ty).bytes
  let w := 8 * n
  let D := { x.desc s op legal (.group x.d (2 * w) :: x.uses 64) 64 (.lane x.d w (some .mem)) with c := .vals (x.data s (2 * w)) }
  D.access s ((s.active x.pr x.neg).map (fun f => (f.lane, x.ea s 64 f))) (fun ea => s.memCheck s.q.fid ea n .write) n true
    (fun u xs => u.behindRelease (ordRel o.hnt) x.scope (fun u1 =>
      let (rs, u2) := u1.rmwAll n xs (fun l old =>
        let g := s.rdLane l x.d (2 * w)
        if old = g % 2 ^ w then (some (g / 2 ^ w), 0, true) else (none, 0, false)) (ordScope (ordRel o.hnt) x.scope)
      let u3 := u2.writeLanes x.d w (some .mem) (rs.map (fun r => (r.lane, r.old)))
      let u4 := u3.writePreds o.ps.toNat (rs.map (fun r => (r.lane, r.ok)))
      .done (if ordAcq o.hnt then u4.acquire x.scope else u4)))

/-- One fibre's `red` (R237): into the partial of its core, behind the quire's own stores to the bytes (R290), or at the home where no
partial is kept. `rel` is the scope of the release that it is. -/
def State.redAt (s0 : State) (t : Target) (aop : Nat) (aty : BitVec 3) (v : Nat) (rel : Option Nat := none) : State :=
  let ty := laneAt aty
  let s := s0.ownStores t ty.bytes
  match t with
  | .mem x pa =>
    if !uncached x.attr.home then
      ((if s.isHome s.fol.die pa then s else s.writeBack s.fol.die (pa / 64) true).touchCore .l1 false t).redUpdate
        { die := s.fol.die, core := s.fol.core, pa := pa, kid := x.attr.kid, aop := aop, aty := aty, val := v, rels := s.carried s.q.uid rel }
    else (s.rmw t ty.bytes (fun old => some (atomOp aop ty old v).1) rel).2
  | _ => (s.rmw t ty.bytes (fun old => some (atomOp aop ty old v).1) rel).2

/-- red (R236). -/
def laneRed (op : Nat) (legal : Bool) (o : LF) (s : State) : Host.Outcome State Fault Refusal :=
  let x := atomMem o
  let n := (laneAt o.ty).bytes
  let w := 8 * n
  let D := { x.desc s op legal (.src x.d w :: x.uses 64) 64 .nothing with c := .vals (x.data s w) }
  D.access s ((s.active x.pr x.neg).map (fun f => (f.lane, x.ea s 64 f))) (fun ea => s.memCheck s.q.fid ea n .write) n false
    (fun u xs => u.behindRelease (ordRel o.hnt) x.scope (fun u1 =>
      .done (xs.foldl (fun (z : State) y => z.redAt y.t o.dfmt.toNat o.ty (s.rdLane y.lane x.d w)
        (ordScope (ordRel o.hnt) x.scope)) u1)))

/-! ## satom, scas -/

/-- The memory operand of a uniform atomic word. -/
def satomMem (o : LF) : UMArgs := { ulMem o with mt := 0, ord := false, hint := 0 }

/-- s registers that hold one element (R232). -/
def satomRegs (t : AType) : Nat := match t with | .raw => 2 | _ => 1
/-- The value of k s registers from n on. -/
def Quire.sgroup (q : Quire) (n k : Nat) : Nat := (List.range k).foldr (fun i acc => (q.sreg (n + i)).toNat + 2 ^ 64 * acc) 0
/-- Write k s registers from n on. -/
def State.setSgroup (s : State) (n k v : Nat) : State :=
  (List.range k).foldl (fun (t : State) i => t.setS (n + i) (BitVec.ofNat 64 (v / 2 ^ (64 * i)))) s

/-- The common part of `satom` and `scas`. -/
def satomDesc (op : Nat) (legal : Bool) (o : LF) (k : Nat) (skip : SkipDest) (s : State) : Desc :=
  let x := satomMem o
  { uni := true, op := op, len := 8, pr := o.pr, neg := o.neg, legal := legal
    uses := (if k = 1 then Use.sreg x.d else .sgroup x.d k) :: x.uses
    a := .imm (BitVec.ofNat 64 (x.ea s)), b := .sreg o.b.toNat, c := .sreg x.d, wa := 64, wb := 64, skip := skip }

/-- satom (R233): the exceptions go to every member of the batch. -/
def uniAtom (op : Nat) (legal : Bool) (o : LF) (s : State) : Host.Outcome State Fault Refusal :=
  let x := satomMem o
  let t := uniAt o.ty
  let n := t.bytes
  let k := satomRegs t
  let D := satomDesc op legal o k (.sreg x.d (64 * k)) s
  D.access s [(0, x.ea s)] (fun ea => s.memCheck s.q.fid ea n .write) n true
    (fun u xs => u.behindRelease (ordRel o.hnt) o.low3.toNat (fun u1 =>
      let b := s.q.sgroup x.d k % 2 ^ (8 * n)
      let (rs, u2) := u1.rmwAll n xs (fun _ old => let r := atomOp o.dfmt.toNat t old b; (some r.1, r.2, true))
        (ordScope (ordRel o.hnt) o.low3.toNat)
      let u3 := rs.foldl (fun (z : State) r => z.setSgroup x.d k (t.ext r.old)) u2
      let u4 := u3.mapFibres (fun f => if s.inBatch f then rs.foldl (fun (g : Fibre) r => { g with fflags := g.fflags ||| r.exc }) f else f)
      .done (if ordAcq o.hnt then u4.acquire o.low3.toNat else u4)))

/-- scas (R234). -/
def uniCas (op : Nat) (legal : Bool) (o : LF) (s : State) : Host.Outcome State Fault Refusal :=
  let x := satomMem o
  let t := uniAt o.ty
  let n := t.bytes
  let k := satomRegs t
  let D := satomDesc op legal o (2 * k) (.sreg x.d (64 * k)) s
  D.access s [(0, x.ea s)] (fun ea => s.memCheck s.q.fid ea n .write) n true
    (fun u xs => u.behindRelease (ordRel o.hnt) o.low3.toNat (fun u1 =>
      let e := s.q.sgroup x.d k % 2 ^ (8 * n)
      let v := s.q.sgroup (x.d + k) k % 2 ^ (8 * n)
      let (rs, u2) := u1.rmwAll n xs (fun _ old => if old = e then (some v, 0, true) else (none, 0, false))
        (ordScope (ordRel o.hnt) o.low3.toNat)
      let u3 := rs.foldl (fun (z : State) r => (z.setSgroup x.d k (t.ext r.old)).setK o.ps.toNat r.ok) u2
      .done (if ordAcq o.hnt then u3.acquire o.low3.toNat else u3)))

/-! ## Split counters (R240 to R249) -/

/-- W (R243). -/
def Counter.width (c : Counter) : Nat := if c.w64 then 64 else 32
/-- A holder's allowance. -/
def Counter.allowance (c : Counter) (h : Nat) : Nat := Sparse.get 0 h c.allow
/-- Set a holder's allowance. -/
def Counter.setAllow (c : Counter) (h v : Nat) : Counter := { c with allow := Sparse.set 0 h v c.allow }
/-- The home learns a holder's allowance. -/
def Counter.learn (c : Counter) (h : Nat) : Counter := { c with known := Sparse.set 0 h (c.allowance h) c.known }
/-- The holders, ascending (R244). -/
def Counter.holders (c : Counter) : List Nat := (List.range 64).filter (fun h => c.cmask.getLsbD h)
/-- OUTST (R241, R244, R353): what the home has granted to its holders, and what their gives have left with them, as it knows it. -/
def Counter.outst (c : Counter) : Nat := c.known.foldl (fun a x => a + x.2) 0

/-- The descriptor as its home maintains it (R241). -/
def Counter.image (c : Counter) (magic : Nat) : Nat :=
  c.reserve % 2 ^ 64 + c.init % 2 ^ 64 * 2 ^ 64 + c.cmask.toNat * 2 ^ 128 + c.share % 2 ^ 64 * 2 ^ 192 + c.cap % 2 ^ 64 * 2 ^ 256
    + c.outst % 2 ^ 64 * 2 ^ 320 + c.lost % 2 ^ 64 * 2 ^ 384 + c.waiters.length % 2 ^ 32 * 2 ^ 448
    + (if c.sat then 2 ^ 494 else 0) + (if c.loss then 2 ^ 495 else 0) + (if c.w64 then 2 ^ 496 else 0) + magic * 2 ^ 504

/-- RESERVE rises, up to 2^W - 1 (R246). -/
def Counter.add (c : Counter) (a : Nat) : Counter :=
  let r := c.reserve + a
  if r < 2 ^ c.width then { c with reserve := r } else { c with reserve := 2 ^ c.width - 1, sat := true }
/-- An amount moves from a holder to RESERVE (R244). -/
def Counter.recall (c : Counter) (h a : Nat) : Counter := ((c.setAllow h (c.allowance h - a)).learn h).add a
/-- An amount moves from RESERVE to a holder (R244). -/
def Counter.deal (c : Counter) (h : Nat) : Counter :=
  let a := min c.share c.reserve
  ({ (c.setAllow h (c.allowance h + a)) with reserve := c.reserve - a }).learn h

/-- The live counter at an address. -/
def State.counter (s : State) (pa : Nat) : Option Counter := s.counters.find? (fun c => c.pa = pa && !c.gone)
/-- Replace a counter, and its descriptor in memory, which no read sees as it was before (R241). -/
def State.putCounter (s : State) (c : Counter) : State :=
  (({ s with counters := s.counters.map (fun x => if x.pa = c.pa && !x.gone then c else x) } : State).putHome c.kid c.pa
    (leBytes 64 (c.image 0xC7))).forget c.pa 64

/-- The batch of a request still waits for it. -/
def State.asking (s : State) (pa : Nat) (r : CReq) : Bool :=
  (s.quire r.quire).waits.any (fun w => w.pc = r.pc ∧ w.frame = r.frame ∧ w.kind = .counter pa)
/-- A request is answered: its batch continues, with k1 written where the instruction writes it. -/
def State.answer (s : State) (pa : Nat) (r : CReq) (k1 : Option Bool) : State :=
  s.modQuire r.quire (fun q =>
    match q.waits.find? (fun w => w.pc = r.pc ∧ w.frame = r.frame ∧ w.kind = .counter pa) with
    | some w => (match k1 with | some b => q.setK 1 b | none => q).complete w
    | none => q)
/-- A request is given back: its batch issues its instruction again. -/
def State.giveBack (s : State) (pa : Nat) (r : CReq) : State :=
  if s.asking pa r then s.modQuire r.quire (fun q => q.unblock r.pc r.frame) else s

/-- The waiters at the head are served while RESERVE covers them (R245). -/
def State.serveWaiters (pa : Nat) : Nat → State → Counter → State × Counter
  | 0, s, c => (s, c)
  | n + 1, s, c =>
    match c.waiters with
    | [] => (s, c)
    | r :: rest =>
      if !s.asking pa r then State.serveWaiters pa n s { c with waiters := rest }
      else if r.amount ≤ c.reserve then
        State.serveWaiters pa n (s.answer pa r (some true)) { c with waiters := rest, reserve := c.reserve - r.amount }
      else (s, c)

/-- The counter after a change at its home: its waiters are served, and its descriptor written. -/
def State.settleCounter (s : State) (c : Counter) : State :=
  let (t, c') := State.serveWaiters c.pa c.waiters.length s c
  t.putCounter c'

/-- Every allowance is recalled (R247). -/
def Counter.recallAll (c : Counter) : Counter := c.holders.foldl (fun (x : Counter) h => x.recall h (x.allowance h)) c

/-- A take at the home (R244): the counter, and whether the take succeeded. -/
def Counter.takeHome (c : Counter) (h a : Nat) : Counter × Bool :=
  let mine := c.cmask.getLsbD h
  let c1 := if mine then c.recall h (c.allowance h) else c
  let others := c.holders.filter (fun x => x ≠ h)
  let c2 := if c1.reserve < a then others.foldl (fun (x : Counter) g => x.recall g (x.allowance g / 2)) c1 else c1
  let c3 := if c2.reserve < a then others.foldl (fun (x : Counter) g => x.recall g (x.allowance g)) c2 else c2
  if c3.reserve < a then (c3, false)
  else
    let c4 := { c3 with reserve := c3.reserve - a }
    (if mine then c4.deal h else c4, true)

/-- A `cexact` or `cdrop` of a quire acquires behind the releases of those before it, and its own release is the counter's from now
on (R298). -/
def State.counterSync (s : State) (c : Counter) (uid : Nat) : State × Counter :=
  let s1 := s.acquireOver uid (s.folio (s.quire uid).fid).die 5 { rels := c.rels }
  (s1, { c with rels := [s1.relOf uid 5] })

/-- The home carries out one request (R244 to R247). -/
def State.serveReq (s : State) (c : Counter) (r : CReq) : State :=
  match r.ask with
  | .take waits =>
    if c.waiters ≠ [] then
      (if waits then s.putCounter { c with waiters := c.waiters ++ [r] } else (s.answer c.pa r (some false)).settleCounter c)
    else
      let (c1, ok) := c.takeHome r.holder r.amount
      if ok then (s.answer c.pa r (some true)).settleCounter c1
      else if waits then s.putCounter { c1 with waiters := [r] }
      else (s.answer c.pa r (some false)).settleCounter c1
  | .give => (s.answer c.pa r none).settleCounter (c.add r.amount)
  | .exact reg =>
    let (s0, c1) := s.counterSync c.recallAll r.quire
    let s1 := (s0.modQuire r.quire (fun q => q.setS reg (BitVec.ofNat 64 c1.reserve))).answer c.pa r none
    let (s2, c2) := State.serveWaiters c.pa c1.waiters.length s1 c1
    s2.putCounter (if c2.waiters = [] then c2.holders.foldl (fun (x : Counter) h => x.deal h) c2 else c2)
  | .drop reg =>
    let (s0, c1) := s.counterSync c.recallAll r.quire
    let s1 := (s0.modQuire r.quire (fun q => q.setS reg (BitVec.ofNat 64 c1.reserve))).answer c.pa r none
    let s2 := c1.waiters.foldl (fun (t : State) w => t.answer c.pa w (some false)) s1
    let s3 := c1.reqs.foldl (fun (t : State) w => t.giveBack c.pa w) s2
    (({ s3 with counters := s3.counters.filter (fun x => x.pa ≠ c.pa || x.gone) } : State).putHome c.kid c.pa
      (leBytes 64 ({ c1 with waiters := [] }.image 0))).forget c.pa 64

/-- COUNTER_HOME_REQUEST: the oldest request at a counter's home is served (R244). -/
def counterHomeRequest (pa : Nat) (s : State) : State :=
  match s.counter pa with
  | none => s
  | some c =>
    let c1 := { c with reqs := c.reqs.filter (s.asking pa), waiters := c.waiters.filter (s.asking pa) }
    match c1.reqs with
    | [] => s.settleCounter c1
    | r :: rest => s.serveReq { c1 with reqs := rest } r

/-- Where a counter's descriptor lies (R242, R249, R256): a cause; none while its home cannot be reached; the translation and the
place. -/
def State.counterAt (s : State) (va : Nat) (acc : Acc) : Except Nat (Option (Trans × Nat)) :=
  if va % 64 ≠ 0 then .error 0x060
  else if 2 ^ 56 ≤ va then .error 0x080
  else if windowBase ≤ va then .error 0x0E2
  else match s.translate s.fol.die s.fol.asid s.super va acc (Path.core.places s.fol.core) with
    | .error c => if c = 0x142 then .ok none else .error c
    | .ok t =>
      if t.attr.home = 1 ∨ t.attr.home = 3 ∨ paPkg t.pa ≠ s.pkgid then .error 0x0E2
      else if s.counters.any (fun c => c.gone && c.pa = t.pa) then .error 0x140
      else match s.reach s.fol.die t.pa with
        | .at pa => .ok (some (t, pa))
        | .lost => .error 0x140
        | .waits => .ok none

/-- The holder bit of the issuing cluster (R241); a curator lies in no cluster, and is 64 + 16 × its die: no holder. -/
def State.holderBit (s : State) : Nat := if 384 ≤ s.fol.core then 64 + 16 * s.fol.die else 16 * s.fol.die + s.fol.core / 24
/-- The die of a holder bit, or of a curator. -/
def holderDie (h : Nat) : Nat := h % 64 / 16

/-- A counter instruction: the address checks, then its effect on the state in which the leaf is cached. -/
def Desc.counter (D : Desc) (s : State) (addr : DWord) (acc : Acc) (effect : State → Trans → Nat → Res) : State :=
  D.runU s (
    match s.counterAt addr.toNat acc with
    | .error c => .stop c (laneMask s.batch) addr
    | .ok none => .wait s (.reach addr.toNat)
    | .ok (some (t, pa)) => effect (s.cacheTarget s.q.fid .core (.mem t pa)) t pa)

/-- The limits of `cinit` (R243); which slice of its home die a descriptor falls in is not architectural. -/
def State.cinitBad (s : State) (pa total : Nat) (cmask : BitVec 64) (cap w : Nat) : Bool :=
  let n := popcOf 64 cmask.toNat
  (s.counter pa).isSome || 2 ^ w ≤ total || 2 ^ (w - 1) ≤ cap
    || (List.range 64).any (fun h => cmask.getLsbD h && (s.part.dies ≤ h / 16 || !(s.die (h / 16)).admitted))
    || 256 ≤ (s.counters.filter (fun c => !c.gone && paDie c.pa = paDie pa
        && Config.l2Slice (paDie pa) (paOff c.pa / 64) % 48 = Config.l2Slice (paDie pa) (paOff pa / 64) % 48)).length
    || cap < (if n = 0 then 0 else total / n)

/-- cinit (R243). -/
def uniCinit (op : Nat) (legal : Bool) (o : LF) (s : State) : State :=
  let g := o.a.toNat
  let addr := s.q.sreg g
  let total := (s.q.sreg (g + 1)).toNat
  let cmask : BitVec 64 := s.q.sreg (g + 2)
  let cap := (s.q.sreg (g + 3)).toNat
  let w64 := o.modl.getLsbD 0
  let D : Desc := { uni := true, op := op, len := 8, pr := o.pr, neg := o.neg, legal := legal, uses := [.sgroup g 4], a := .sreg g, wa := 64 }
  D.counter s addr .write (fun t x pa =>
    if t.cinitBad pa total cmask cap (if w64 then 64 else 32) then .stop 0x0E2 (laneMask s.batch) addr
    else
      let n := popcOf 64 cmask.toNat
      let share := if n = 0 then 0 else total / n
      let hs := (List.range 64).filter (fun h => cmask.getLsbD h)
      let allow := hs.foldl (fun m h => Sparse.set 0 h share m) []
      let c : Counter := { pa := pa, kid := x.attr.kid, w64 := w64, init := total, cmask := cmask, share := share, cap := cap
                           reserve := total - n * share, allow := allow, known := allow }
      let t0 := (List.range t.dies.length).foldl (fun (u : State) d => u.dropCopies d (fun y => y.line = pa / 64))
        (t.ownStores (.mem x pa) 64)
      let t1 : State := { t0 with counters := t0.counters.filter (fun y => y.pa ≠ pa) ++ [c] }
      .done (t1.putCounter c))

/-- The amount of a take or give. -/
def uniAmount (s : State) (b : Arg) : Nat := s.uarg b 64

/-- A request of the issuing batch to a counter's home. -/
def State.request (s : State) (ask : CAsk) (amount : Nat) : CReq :=
  { quire := s.q.uid, pc := s.sel.1, frame := s.sel.2, ask := ask, holder := s.holderBit, amount := amount }

/-- The batch waits at a counter's home. -/
def State.askHome (s : State) (c : Counter) (r : CReq) : Res :=
  .wait { s with counters := s.counters.map (fun x => if x.pa = c.pa && !x.gone then { x with reqs := x.reqs ++ [r] } else x) } (.counter c.pa)

/-- The common part of a counter word. -/
def counterDesc (op len : Nat) (pr : BitVec 3) (neg legal : Bool) (a : Nat) (b : Arg) : Desc :=
  { uni := true, op := op, len := len, pr := pr, neg := neg, legal := legal, uses := .sreg a :: b.use 64
    a := .sreg a, b := b, wa := 64, wb := 64 }

/-- ctake (R244): from the cluster's own allowance, or at the home. -/
def uniCtake (D : Desc) (a : Nat) (b : Arg) (waits : Bool) (s : State) : State :=
  let addr := s.q.sreg a
  let n := uniAmount s b
  D.counter s addr .read (fun t _ pa =>
    match t.counter pa with
    | none => .stop 0x0E2 (laneMask s.batch) addr
    | some c =>
      if 2 ^ c.width ≤ n then .stop 0x0E2 (laneMask s.batch) addr
      else if n = 0 then .done (t.setK 1 true)
      else if c.cmask.getLsbD s.holderBit ∧ n ≤ c.allowance s.holderBit then
        .done (({ t with counters := t.counters.map (fun x =>
          if x.pa = pa && !x.gone then c.setAllow s.holderBit (c.allowance s.holderBit - n) else x) } : State).setK 1 true)
      else t.askHome c (t.request (.take waits) n))

/-- cgive (R246): to the cluster's own allowance, whose excess over SHARE moves to the home, or at the home. What stays in the allowance
counts in OUTST (R353). -/
def uniCgive (D : Desc) (a : Nat) (b : Arg) (s : State) : State :=
  let addr := s.q.sreg a
  let n := uniAmount s b
  D.counter s addr .read (fun t _ pa =>
    match t.counter pa with
    | none => .stop 0x0E2 (laneMask s.batch) addr
    | some c =>
      if 2 ^ c.width ≤ n then .stop 0x0E2 (laneMask s.batch) addr
      else if c.cmask.getLsbD s.holderBit ∧ n ≤ c.cap ∧ c.waiters = [] then
        let v := c.allowance s.holderBit + n
        let c1 := c.setAllow s.holderBit v
        .done (if c.cap < v then t.settleCounter (c1.recall s.holderBit (v - c.share))
               else t.putCounter { c1 with known := Sparse.set 0 s.holderBit (Sparse.get 0 s.holderBit c.known + n) c1.known })
      else t.askHome c (t.request .give n))

/-- cexact and cdrop (R247): a release at device scope, then the home. -/
def uniCexact (op : Nat) (drop legal : Bool) (o : SF) (s : State) : State :=
  let addr := s.q.sreg o.a.toNat
  let D := { usDesc o op legal [.sreg o.d.toNat, .sreg o.a.toNat] with b := .none, skip := .sreg o.d.toNat 64 }
  D.counter s addr (if drop then .write else .read) (fun t _ pa =>
    match t.counter pa with
    | none => .stop 0x0E2 (laneMask s.batch) addr
    | some c => t.behindRelease true 5 (fun u => u.askHome c (u.request (if drop then .drop o.d.toNat else .exact o.d.toNat) 0)))

/-- The loss of a die or package (R249): counters homed there are lost, and what its clusters held of the others. `here` picks the
lost homes, `theirs` the lost holders. -/
def State.loseCounters (s : State) (here theirs : Nat → Bool) : State :=
  s.counters.foldl (fun (t : State) c =>
    if c.gone then t
    else if here c.pa then
      (c.reqs ++ c.waiters).foldl (fun (u : State) r => u.giveBack c.pa r)
        { t with counters := t.counters.map (fun x => if x.pa = c.pa then { x with gone := true, reqs := [], waiters := [] } else x) }
    else
      let amount := (c.known.filter (fun x => theirs x.1)).foldl (fun a x => a + x.2) 0
      let hit := c.holders.any theirs
      let c1 := { c with
        lost := c.lost + amount, loss := c.loss || hit
        cmask := (List.range 64).foldl (fun m h => if theirs h then putBit m h false else m) c.cmask
        allow := c.allow.filter (fun x => !theirs x.1), known := c.known.filter (fun x => !theirs x.1)
        reqs := c.reqs.filter (fun r => !theirs r.holder), waiters := c.waiters.filter (fun r => !theirs r.holder) }
      t.settleCounter c1) s

/-! ## Subscriptions (R250 to R254) -/

/-- The entries in use in the table of a core (R250): those of its resident folios. -/
def State.subEntries (s : State) (die core : Nat) : List Nat :=
  (s.subs.filter (fun x => s.folios.any (fun y => y.fid = x.src && y.die = die && y.core = core))).map (·.entry)

/-- A subscription handle (R250). -/
def subHandle (gen member entry : Nat) : DWord := BitVec.ofNat 64 (gen % 65536 * 65536 + member % 32 * 256 + entry % 16)

/-- The names of the updates of a subscription that are on their way. -/
def State.updatesOf (s : State) (sel : Nat → Bool) : List Nat :=
  (s.inbound.filter (fun w => match w.sub with | some x => sel x | none => false)).map (·.id)

/-- subscribe (R250). The operands give offsets and no address: %eaddr of its 0x060, 0x061 and 0x062 is 0 (log 116). -/
def uniSubscribe (D : Desc) (d g : Nat) (s : State) : State :=
  let v := s.q.sreg g
  let u := s.q.sreg (g + 1)
  let len := fieldOf v 63 32
  let doff := fieldOf v 31 0
  let glog := fieldOf u 27 24
  let member := fieldOf u 23 19
  let soff := fieldOf u 18 0
  let n := 2 ^ glog
  let stop := fun (c : Nat) => Res.stop c (laneMask s.batch) 0
  let src := s.member s.q.fid member
  D.runU s (
    if glog < 2 ∨ 6 < glog ∨ len = 0 ∨ 65536 < len ∨ doff % n ≠ 0 ∨ soff % n ≠ 0 ∨ len % n ≠ 0 then stop 0x060
    else if s.fol.scratchBytes < doff + len ∨ (match src with | some m => decide ((s.folio m).scratchBytes < soff + len) | none => false) = true then
      stop 0x061
    else match src with
      | none => stop 0x062
      | some m =>
        if m = s.q.fid then stop 0x062
        else
          let x := s.folio m
          let used := s.subEntries x.die x.core
          match (List.range 16).find? (fun e => !used.contains e) with
          | none => stop 0x0E3
          | some e =>
            let key := (x.die * 512 + x.core) * 16 + e
            let gen := (Sparse.get 0 key s.subGens + 1) % 65536
            let id := s.next
            let y : Sub := { id := id, src := m, entry := e, gen := gen, dst := s.q.fid, soff := soff, doff := doff, len := len, glog := glog }
            let s1 : State := { s with next := s.next + 1, subGens := Sparse.set 0 key gen s.subGens
                                       subs := if x.ended then s.subs else s.subs ++ [y] }
            let s2 := (List.range (len / n)).foldl (fun (t : State) i =>
              (t.send 0 s.q.fid (doff + i * n) (s.bytesAt (scratchLoc m (soff + i * n)) n) (some id)).sendBad
                (s.scratchPoison m (soff + i * n) n)) s1
            .wait s2 (.drain (s2.updatesOf (fun z => z = id)) (.primed d (subHandle gen member e))))

/-- The live entry that a handle names (R253, R254). -/
def State.subOf (s : State) (h : DWord) : Option Sub :=
  match s.member s.q.fid (fieldOf h 12 8) with
  | none => none
  | some m => s.subs.find? (fun x => x.src = m && x.entry = fieldOf h 3 0 && x.gen = fieldOf h 31 16 && !x.closing)

/-- unsub (R253). -/
def uniUnsub (op : Nat) (legal : Bool) (o : SF) (s : State) : State :=
  ({ usDesc o op legal [.sreg o.a.toNat] with b := .none }).runU s (
    match s.subOf (s.q.sreg o.a.toNat) with
    | none => .done (s.setK 1 false)
    | some x =>
      if x.dst ≠ s.q.fid then .done (s.setK 1 false)
      else
        let s1 := (s.flushSub x).modSub x.id (fun y => { y with closing := true })
        .wait s1 (.drain (s1.updatesOf (fun z => z = x.id)) (.unsubbed x.id)))

/-- sflush (R254): one entry, or with s0 every entry of the folio. -/
def uniSflush (op : Nat) (legal : Bool) (o : SF) (s : State) : State :=
  let mine := fun (x : Sub) => x.src = s.q.fid || x.dst = s.q.fid
  let go := fun (ids : List Nat) =>
    let s0 := s.ownScratch s.q.uid
    let xs := s0.subs.filter (fun x => ids.contains x.id)
    let s1 := xs.foldl (fun (t : State) x => t.flushSub x) s0
    Res.wait s1 (.drain (s1.updatesOf (fun z => ids.contains z)) .flushed)
  ({ usDesc o op legal [.sreg o.a.toNat] with b := .none }).runU s (
    if o.a = 0 then go ((s.subs.filter mine).map Sub.id)
    else match s.subOf (s.q.sreg o.a.toNat) with
      | some x => if mine x then go [x.id] else .done (s.setK 1 false)
      | none => .done (s.setK 1 false))

/-- A quire's batch whose updates have all been written goes on (R250, R253, R254), and sees them (R281, R287). -/
def State.endDrain (s : State) (uid : Nat) (w : Wait) : State :=
  match w.kind with
  | .drain ids fin =>
    if s.inbound.any (fun x => ids.contains x.id) then s
    else match fin with
      | .primed reg h => (s.seeUpdates uid [0]).modQuire uid (fun q => (q.setS reg h).complete w)
      | .unsubbed id =>
        ({ s.seeUpdates uid [0] with subs := s.subs.filter (fun x => x.id ≠ id) } : State).modQuire uid (fun q => (q.setK 1 true).complete w)
      | .flushed => (s.seeUpdates uid [0]).modQuire uid (fun q => (q.setK 1 true).complete w)
  | _ => s

/-- Every batch whose updates have all been written goes on. -/
def State.endDrains (s : State) : State :=
  s.quires.foldl (fun (t : State) q => q.waits.foldl (fun (t : State) w => t.endDrain q.uid w) t) s

/-! ## The meanings, one for each instruction -/

/-- ATOM_LL (R233). -/
def execAtomLL (o : LF) (s : State) : Host.Outcome State Fault Refusal :=
  laneAtom 0x25 o.legalAtom o s

/-- CAS_LL (R234). -/
def execCasLL (o : LF) (s : State) : Host.Outcome State Fault Refusal :=
  laneCas 0x26 o.legalCas o s

/-- RED_LL (R236). -/
def execRedLL (o : LF) (s : State) : Host.Outcome State Fault Refusal :=
  laneRed 0x27 o.legalRed o s

/-- SATOM_UL (R233). -/
def execSatomUL (o : LF) (s : State) : Host.Outcome State Fault Refusal :=
  uniAtom 0x12 o.legalAtom o s

/-- SCAS_UL (R234). -/
def execScasUL (o : LF) (s : State) : Host.Outcome State Fault Refusal :=
  uniCas 0x12 o.legalCas o s

/-- CINIT_UL (R243). -/
def execCinitUL (o : LF) (s : State) : Host.Outcome State Fault Refusal :=
  .next (uniCinit 0x25 o.legalCinit o s)

/-- CDROP_US (R247). -/
def execCdropUS (o : SF) (s : State) : Host.Outcome State Fault Refusal :=
  .next (uniCexact 0x25 true true o s)

/-- CTAKE_US (R244). -/
def execCtakeUS (o : SF) (s : State) : Host.Outcome State Fault Refusal :=
  .next (uniCtake (counterDesc 0x26 4 o.pr o.neg true o.a.toNat (.sreg o.b.toNat)) o.a.toNat (.sreg o.b.toNat) false s)

/-- CTAKE_UL (R244). -/
def execCtakeUL (o : LF) (s : State) : Host.Outcome State Fault Refusal :=
  .next (uniCtake (counterDesc 0x26 8 o.pr o.neg o.legalCtake o.a.toNat (.sreg o.b.toNat)) o.a.toNat (.sreg o.b.toNat) (o.modl.getLsbD 0) s)

/-- CTAKE_UI (R244). -/
def execCtakeUI (o : IF) (s : State) : Host.Outcome State Fault Refusal :=
  .next (uniCtake (counterDesc 0x26 8 o.pr o.neg o.legalCtake o.a.toNat (.imm (o.imm.setWidth 64))) o.a.toNat (.imm (o.imm.setWidth 64)) (o.modi.getLsbD 0) s)

/-- CGIVE_US (R246). -/
def execCgiveUS (o : SF) (s : State) : Host.Outcome State Fault Refusal :=
  .next (uniCgive (counterDesc 0x26 4 o.pr o.neg true o.a.toNat (.sreg o.b.toNat)) o.a.toNat (.sreg o.b.toNat) s)

/-- CGIVE_UL (R246). -/
def execCgiveUL (o : LF) (s : State) : Host.Outcome State Fault Refusal :=
  .next (uniCgive (counterDesc 0x26 8 o.pr o.neg o.plain o.a.toNat (.sreg o.b.toNat)) o.a.toNat (.sreg o.b.toNat) s)

/-- CGIVE_UI (R246). -/
def execCgiveUI (o : IF) (s : State) : Host.Outcome State Fault Refusal :=
  .next (uniCgive (counterDesc 0x26 8 o.pr o.neg ((o.modi = 0 : Bool)) o.a.toNat (.imm (o.imm.setWidth 64))) o.a.toNat (.imm (o.imm.setWidth 64)) s)

/-- CEXACT_US (R247). -/
def execCexactUS (o : SF) (s : State) : Host.Outcome State Fault Refusal :=
  .next (uniCexact 0x27 false true o s)

/-- SUBSCRIBE_US (R250). -/
def execSubscribeUS (o : SF) (s : State) : Host.Outcome State Fault Refusal :=
  .next (uniSubscribe { uni := true, op := 0x28, len := 4, pr := o.pr, neg := o.neg, legal := true, uses := [.sreg o.d.toNat, .sgroup o.a.toNat 2], a := .sreg o.a.toNat, wa := 64, skip := .sreg o.d.toNat 64 } o.d.toNat o.a.toNat s)

/-- SUBSCRIBE_UL (R250). -/
def execSubscribeUL (o : LF) (s : State) : Host.Outcome State Fault Refusal :=
  .next (uniSubscribe { uni := true, op := 0x28, len := 8, pr := o.pr, neg := o.neg, legal := o.plain, uses := [.sreg o.d.toNat, .sgroup o.a.toNat 2], a := .sreg o.a.toNat, wa := 64, skip := .sreg o.d.toNat 64 } o.d.toNat o.a.toNat s)

/-- UNSUB_US (R253). -/
def execUnsubUS (o : SF) (s : State) : Host.Outcome State Fault Refusal :=
  .next (uniUnsub 0x28 ((o.d = 0 && o.b = 0 : Bool)) o s)

/-- SFLUSH_US (R254). -/
def execSflushUS (o : SF) (s : State) : Host.Outcome State Fault Refusal :=
  .next (uniSflush 0x29 ((o.d = 0 && o.b = 0 : Bool)) o s)

end Sys2Proof.Machine
end

