-- ==== Sys2Proof/WellFormed.lean ====
section
/-! DEFINITION. Which instructions are well formed: the modifier and given-as-0 fields of the word hold values that
the mnemonic permits (R59, R62, R63). A word that breaks one is no instruction and raises 0x021 (R64 check 5). The
checks that need the machine (names against the version, the frame, alignment) stand with the meanings. -/

namespace Sys2Proof

/-- The checks of R64 step 5 that the word alone decides. Rows of a form that has no modifiers are always well formed;
a reserved word and an event are no instruction words and are well formed as data. -/
def Instr.wf : Instr → Bool
  | .addLS _ => true
  | .addLL o => o.tySat
  | .addLI _ => true
  | .subLS _ => true
  | .subLL o => o.tySat
  | .subLI _ => true
  | .mulLS _ => true
  | .mulLL o => o.legalMul
  | .mulLI _ => true
  | .madLL o => o.tySat
  | .divLS _ => true
  | .divLL o => o.tySat
  | .divLI _ => true
  | .remLS _ => true
  | .remLL o => o.tyOnly
  | .remLI o => o.tyOnly
  | .minLS _ => true
  | .minLL o => o.tyOnly
  | .minLI o => o.tyOnly
  | .maxLS _ => true
  | .maxLL o => o.tyOnly
  | .maxLI o => o.tyOnly
  | .andLS _ => true
  | .andLL o => o.tyOnly
  | .andLI o => o.tyOnly
  | .orLS _ => true
  | .orLL o => o.tyOnly
  | .orLI o => o.tyOnly
  | .xorLS _ => true
  | .xorLL o => o.tyOnly
  | .xorLI o => o.tyOnly
  | .andnLS _ => true
  | .andnLL o => o.tyOnly
  | .andnLI o => o.tyOnly
  | .notLS _ => true
  | .notLL o => o.tyOnly
  | .negLS _ => true
  | .negLL o => o.legalNeg
  | .absLS _ => true
  | .absLL o => o.legalNeg
  | .shlLS _ => true
  | .shlLL o => o.tyOnly
  | .shlLI o => o.tyOnly
  | .shrLS _ => true
  | .shrLL o => o.tyOnly
  | .shrLI o => o.tyOnly
  | .sarLS _ => true
  | .sarLL o => o.tyOnly
  | .sarLI o => o.tyOnly
  | .rotLS _ => true
  | .rotLL o => o.tyOnly
  | .rotLI o => o.tyOnly
  | .clzLS _ => true
  | .clzLL o => o.tyOnly
  | .ctzLS _ => true
  | .ctzLL o => o.tyOnly
  | .popcLS _ => true
  | .popcLL o => o.tyOnly
  | .brevLS _ => true
  | .brevLL o => o.tyOnly
  | .bfxLS _ => true
  | .bfxLL o => o.tyOnly
  | .bfxLI o => o.tyOnly
  | .bfiLL o => o.tyOnly
  | .cmpLS o => (o.cond ≠ 7 : Bool)
  | .cmpLL o => o.legalCmp
  | .cmpLI o => o.legalCmp
  | .selLL o => o.legalMov
  | .movLS _ => true
  | .movLL o => o.legalMov
  | .moviLI o => o.legalMovi
  | .faddLS _ => true
  | .faddLL o => o.legalF
  | .faddLI o => o.legalF
  | .fsubLS _ => true
  | .fsubLL o => o.legalF
  | .fsubLI o => o.legalF
  | .fmulLS _ => true
  | .fmulLL o => o.legalF
  | .fmulLI o => o.legalF
  | .fmaLL o => o.legalFma
  | .fdivLS _ => true
  | .fdivLL o => o.legalF
  | .fsqrtLS _ => true
  | .fsqrtLL o => o.legalF
  | .fminLS _ => true
  | .fminLL o => o.legalFnr5
  | .fminLI o => o.legalFnr
  | .fmaxLS _ => true
  | .fmaxLL o => o.legalFnr5
  | .fmaxLI o => o.legalFnr
  | .fminnLS _ => true
  | .fminnLL o => o.legalFnr5
  | .fminnLI o => o.legalFnr
  | .fmaxnLS _ => true
  | .fmaxnLL o => o.legalFnr5
  | .fmaxnLI o => o.legalFnr
  | .fminmLL o => o.legalFnr5
  | .fminmLI o => o.legalFnr
  | .fmaxmLL o => o.legalFnr5
  | .fmaxmLI o => o.legalFnr
  | .fabsLS _ => true
  | .fabsLL o => o.legalFnr5
  | .fnegLS _ => true
  | .fnegLL o => o.legalFnr5
  | .fcpysLS _ => true
  | .fcpysLL o => o.legalFnr5
  | .fcmpLS _ => true
  | .fcmpLL o => o.legalFcmp 5
  | .fcmpLI o => o.legalFnr
  | .fclassLS _ => true
  | .fclassLL o => o.legalFnr5
  | .fcvtLL o => o.legalFcvt 7
  | .fcvtiLS _ => true
  | .fcvtiLL o => o.legalFcvti
  | .icvtfLS _ => true
  | .icvtfLL o => o.legalFcvti
  | .frintLS _ => true
  | .frintLL o => o.legalFrint
  | .fexpiLS _ => true
  | .fexpiLL o => o.legalF
  | .fexpiLI o => o.legalFexpi
  | .fexpxLS _ => true
  | .fexpxLL o => o.legalFnr3
  | .fexp2fLS _ => true
  | .fexp2fLL o => o.legalF
  | .flog2fLS _ => true
  | .flog2fLL o => o.legalF
  | .fsinpifLS _ => true
  | .fsinpifLL o => o.legalF
  | .fcospifLS _ => true
  | .fcospifLL o => o.legalF
  | .fseedrLS _ => true
  | .fseedrLL o => o.legalFnr3
  | .fseedqLS _ => true
  | .fseedqLL o => o.legalFnr3
  | .ldLS _ _ => true
  | .ldLL o => o.legalMem
  | .ldLI o => o.tyOnly
  | .stLS _ _ => true
  | .stLL o => o.legalMem
  | .stLI o => o.tyOnly
  | .ldsLS _ _ => true
  | .ldsLL o => o.legalLds
  | .ldsLI o => o.tyOnly
  | .stsLS _ _ => true
  | .stsLL o => o.legalLds
  | .stsLI o => o.tyOnly
  | .prefLS _ => true
  | .prefLL o => o.legalPref
  | .dscLS _ => true
  | .dscLL o => o.legalDsc
  | .cwbLS _ => true
  | .cwbLL o => o.legalCwb
  | .atomLL o => o.legalAtom
  | .casLL o => o.legalCas
  | .redLL o => o.legalRed
  | .shflLS _ _ => true
  | .shflLL o => o.legalShfl
  | .shflLI o => o.tyOnly
  | .voteLL o => o.legalShfl
  | .bcastLS _ => true
  | .bcastLL o => o.legalMov
  | .lidLS _ => true
  | .lidLL o => o.plain
  | .vtagLS _ => true
  | .vtagLL o => o.plain
  | .addrLS _ _ => true
  | .addrLL o => o.legalAddr
  | .addrLI o => (o.modi = 0 : Bool)
  | .braLI o => o.legalRel
  | .gatherLI o => o.legalRel
  | .fspawnLI o => o.legalRel
  | .fexitLS o => (o.d = 0 && o.a = 0 && o.b = 0 : Bool)
  | .callLI o => o.legalCall
  | .retLS o => (o.d = 0 && o.a = 0 && o.b = 0 : Bool)
  | .fmarkLI o => o.legalFmark
  | .unwindLS o => (o.d = 0 && o.a = 0 && o.b = 0 : Bool)
  | .brxLS o => (o.d = 0 && o.b = 0 : Bool)
  | .brxLL o => (o.plain && o.d = 0 && o.b = 0 && o.c = 0)
  | .icvtLL o => o.legalIcvt
  | .icvtLI o => o.legalIcvt
  | .mreadLL o => o.legalMread
  | .mwriteLL o => o.legalMwrite
  | .mtkreadLL o => o.legalMtkread
  | .saddUS _ => true
  | .saddUL o => o.tySat
  | .saddUI _ => true
  | .ssubUS _ => true
  | .ssubUL o => o.tySat
  | .ssubUI _ => true
  | .smulUS _ => true
  | .smulUL o => o.legalMul
  | .smulUI _ => true
  | .sdivUS _ => true
  | .sdivUL o => o.tySat
  | .sdivUI _ => true
  | .sremUS _ => true
  | .sremUL o => o.tyOnly
  | .sremUI o => o.tyOnly
  | .sminUS _ => true
  | .sminUL o => o.tyOnly
  | .sminUI o => o.tyOnly
  | .smaxUS _ => true
  | .smaxUL o => o.tyOnly
  | .smaxUI o => o.tyOnly
  | .sandUS _ => true
  | .sandUL o => o.tyOnly
  | .sandUI o => o.tyOnly
  | .sorUS _ => true
  | .sorUL o => o.tyOnly
  | .sorUI o => o.tyOnly
  | .sxorUS _ => true
  | .sxorUL o => o.tyOnly
  | .sxorUI o => o.tyOnly
  | .sandnUS _ => true
  | .sandnUL o => o.tyOnly
  | .sandnUI o => o.tyOnly
  | .sshlUS _ => true
  | .sshlUL o => o.tyOnly
  | .sshlUI o => o.tyOnly
  | .sshrUS _ => true
  | .sshrUL o => o.tyOnly
  | .sshrUI o => o.tyOnly
  | .ssarUS _ => true
  | .ssarUL o => o.tyOnly
  | .ssarUI o => o.tyOnly
  | .srotUS _ => true
  | .srotUL o => o.tyOnly
  | .srotUI o => o.tyOnly
  | .sclzUS _ => true
  | .sclzUL o => o.tyOnly
  | .sctzUS _ => true
  | .sctzUL o => o.tyOnly
  | .spopcUS _ => true
  | .spopcUL o => o.tyOnly
  | .scmpUS o => (o.cond ≠ 7 : Bool)
  | .scmpUL o => o.legalCmp
  | .scmpUI o => o.legalCmp
  | .sselUL o => o.plain
  | .smovUS _ => true
  | .smovUL o => o.plain
  | .smoviUI o => o.legalSmovi
  | .sgetUS _ => true
  | .sgetUL o => o.tyOnly
  | .sbfxUS _ => true
  | .sbfxUL o => o.tyOnly
  | .sbfxUI o => o.tyOnly
  | .sfaddUS _ => true
  | .sfaddUL o => o.legalF
  | .sfaddUI o => o.legalSf
  | .sfsubUS _ => true
  | .sfsubUL o => o.legalF
  | .sfsubUI o => o.legalSf
  | .sfmulUS _ => true
  | .sfmulUL o => o.legalF
  | .sfmulUI o => o.legalSf
  | .sfmaUL o => o.legalFma
  | .sfcmpUS _ => true
  | .sfcmpUL o => o.legalFcmp 3
  | .sfcmpUI o => o.legalSfcmp
  | .sfcvtUL o => o.legalFcvt 5
  | .sfdivUS _ => true
  | .sfdivUL o => o.legalF
  | .sfsqrtUS _ => true
  | .sfsqrtUL o => o.legalF
  | .sldUS _ _ => true
  | .sldUL o => o.legalMem
  | .sldUI o => o.tyOnly
  | .sstUS _ _ => true
  | .sstUL o => o.legalMem
  | .sstUI o => o.tyOnly
  | .satomUL o => o.legalAtom
  | .scasUL o => o.legalCas
  | .cpUL o => (o.legalCp && o.c = 0)
  | .cpmUL o => o.legalCp
  | .twaitUS o => (o.d = 0 && o.b = 0 : Bool)
  | .twaitUI o => o.legalTok
  | .ttestUS _ => true
  | .ttestUI o => o.legalTok
  | .cconnUS _ => true
  | .tsendUL o => (o.tokOnly && o.b = 0 && o.c = 0)
  | .trecvUL o => (o.tokOnly && o.b = 0 && o.c = 0)
  | .fenceUS o => o.legalFence
  | .xfenceUS o => o.legalXfence
  | .sgangUS o => (o.d = 0 && o.b = 0 : Bool)
  | .mmaUL o => o.legalMma
  | .mdistUL o => o.legalMma
  | .mtopkUL o => o.legalMtopk
  | .mzeroUS o => (o.a = 0 && o.b = 0 : Bool)
  | .mflagUS o m2 => (o.a = 0 && o.b = 0 && !m2.getLsbD 1 : Bool)
  | .barUS o m2 => (o.d = 0 && o.a = 0 && o.b = 0 && !m2.getLsbD 1 : Bool)
  | .barriveUS o => o.legalSplit
  | .bwaitUS o => o.legalWait
  | .qinitUS o => (o.d = 0 && o.b = 0 : Bool)
  | .qallowUS o => (o.d = 0 : Bool)
  | .qpushUS o m2 => (o.d = 0 && !m2.getLsbD 1 : Bool)
  | .qpopUS o m2 => (o.b = 0 && !m2.getLsbD 1 : Bool)
  | .cinitUL o => o.legalCinit
  | .cdropUS _ => true
  | .ctakeUS _ => true
  | .ctakeUL o => o.legalCtake
  | .ctakeUI o => o.legalCtake
  | .cgiveUS _ => true
  | .cgiveUL o => o.plain
  | .cgiveUI o => (o.modi = 0 : Bool)
  | .cexactUS _ => true
  | .subscribeUS _ => true
  | .subscribeUL o => o.plain
  | .unsubUS o => (o.d = 0 && o.b = 0 : Bool)
  | .sflushUS o => (o.d = 0 && o.b = 0 : Bool)
  | .carveUS o => (o.d = 0 && o.b = 0 : Bool)
  | .sbrUI o => o.legalRel
  | .sjmpUS o => (o.d = 0 && o.b = 0 : Bool)
  | .sbrxUS o => (o.d = 0 : Bool)
  | .slaunchUL o => o.tokOnly
  | .ssignalUS o => (o.d = 0 && o.a = 0 && o.b = 0 : Bool)
  | .nopUS _ => true
  | .pauseUS o => (o.d = 0 && o.a = 0 && o.b = 0 : Bool)
  | .yieldUS o => (o.d = 0 && o.a = 0 && o.b = 0 : Bool)
  | .haltUS _ => true
  | .sysUS o => o.legalSys
  | .trapUS o => o.legalSys
  | .fresumeUS o => (o.d.extractLsb' 1 5 = 0 && o.b = 0 : Bool)
  | .fkillUS o => (o.d.extractLsb' 0 2 ≠ 3 && o.d.extractLsb' 2 4 = 0 && o.b = 0 : Bool)
  | .pmapUS o => (o.b = 0 : Bool)
  | .rdsrUS o => sysregKnown o.sysnum
  | .wrsrUS o => sysregKnown o.sysnum
  | .eretUS o => (o.d = 0 && o.a = 0 && o.b = 0 : Bool)
  | .msendUS o => (o.b = 0 : Bool)
  | .mrecvUS o => (o.b.extractLsb' 1 5 = 0 : Bool)
  | .ckbeginUS o => (o.d = 0 && o.b = 0 : Bool)
  | .ckshardUL o => (o.tokOnly && o.d = 0 && o.b = 0 && o.c = 0)
  | .ckcommitUS o => (o.b = 0 : Bool)
  | .linkctlStatus o => (o.b = 0 : Bool)
  | .linkctlPause o => (o.b = 0 : Bool)
  | .linkctlRepair o => (o.b = 0 : Bool)
  | .linkctlRetrain o => (o.b = 0 : Bool)
  | .linkctlResume o => (o.b = 0 : Bool)
  | .tlbctlUS o => (o.d.extractLsb' 2 4 = 0 && o.b = 0 : Bool)
  | .reservedWord _ _ => true
  | .lqctl _ _ => true
  | .keycmdProgram _ => true
  | .keycmdErase _ => true
  | .latecntClear _ => true
  | .rhmapClear _ _ => true
  | .registerWrite _ _ _ => true
  | .powerOn => true
  | .imageRefetch => true
  | .permitGrant _ => true
  | .thermalHold => true
  | .thermalTrip => true
  | .registrarBind _ => true
  | .volumeStart _ _ => true
  | .preemptSave _ => true
  | .restore _ _ _ => true
  | .gatherRelease _ _ _ => true
  | .frameArchive _ _ => true
  | .frameRefill _ _ => true
  | .carveApply _ => true
  | .matrixChunk _ => true
  | .copySegment _ => true
  | .tileDelivery _ _ => true
  | .inboundWrite _ => true
  | .counterHomeRequest _ => true
  | .redPartialEviction _ => true
  | .redRecall _ => true
  | .peerProbe _ _ _ => true
  | .l2BypassRead _ _ => true
  | .lineFill _ _ => true
  | .lineWriteBack _ _ => true
  | .faultRecord _ => true
  | .handlerFolioStart _ _ _ => true
  | .curatorTrapEntry _ _ => true
  | .curatorTimer _ _ => true
  | .flitRetry _ => true
  | .linkDetour _ => true
  | .pauseEnd _ _ _ => true
  | .reachTimeout _ _ => true
  | .sequencerTimeout _ => true
  | .sequencerNumber _ => true
  | .heartbeat _ => true
  | .heartbeatMiss _ _ => true
  | .evict _ => true
  | .evictionDiscovered _ => true
  | .admission _ => true
  | .inval _ _ => true
  | .ack _ _ => true
  | .ckshardCompletion _ => true
  | .softErrorCorrection _ => true
  | .temperatureFalls => true
  | .dieFailure _ => true
  | .rv64MemoryAccess _ => true
  | .uncorrectableError _ => true
  | .flitAcknowledged _ => true

end Sys2Proof
end

