-- ==== Sys2Proof/Decode.lean ====
section
/-! DEFINITION. The decoder and the encoder (spec 03): total on any words and bytes, rejecting by name.

Lean's code generator has a limit on the number of constructors with arguments, which Instr exceeds: a function that
builds an Instr of a late row has no compiled code and is marked so. The kernel evaluates all of them. -/

namespace Sys2Proof

/-! ## Reading the layouts (R50 to R53) -/

/-- Bit 31: a uniform word (R48). -/
def isUniform (w : Word) : Bool := w.getLsbD 31
/-- Bit 24: a long form of two words (R48). -/
def isLong (w : Word) : Bool := w.getLsbD 24
/-- Bit 7, the I bit of a long form: LI or UI (R51, R52). -/
def isImm (w : Word) : Bool := w.getLsbD 7
/-- The primary opcode, bits 30:25 (R50). -/
def opOf (w : Word) : Nat := (w.extractLsb' 25 6).toNat
/-- m2 of a short form (R50). -/
def m2Of (w : Word) : BitVec 2 := w.extractLsb' 0 2
/-- SUB of LL and UL: bits 19:16 (R51). -/
def subL (w : Word) : Nat := (w.extractLsb' 16 4).toNat
/-- SUB of LI and UI: bits 6:4 (R52). -/
def subI (w : Word) : Nat := (w.extractLsb' 4 3).toNat

/-- The fields of a short form (R50). -/
def SF.ofWord (w : Word) : SF :=
  { pr := w.extractLsb' 21 3, neg := w.getLsbD 20,
    d := w.extractLsb' 14 6, a := w.extractLsb' 8 6, b := w.extractLsb' 2 6 }

/-- The fields of a long form (R51). -/
def LF.ofWords (w0 w1 : Word) : LF :=
  { pr := w0.extractLsb' 21 3, neg := w0.getLsbD 20,
    modh := w0.extractLsb' 8 8, modl := w0.extractLsb' 0 7,
    d := w1.extractLsb' 24 8, a := w1.extractLsb' 16 8, b := w1.extractLsb' 8 8, c := w1.extractLsb' 0 8 }

/-- The fields of a long-immediate form (R52). -/
def IF.ofWords (w0 w1 : Word) : IF :=
  { pr := w0.extractLsb' 21 3, neg := w0.getLsbD 20,
    d := w0.extractLsb' 14 6, a := w0.extractLsb' 8 6, modi := w0.extractLsb' 0 4, imm := w1 }

/-! ## The opcode maps (R60 to R62) -/

/-- The lane words of form LS: primary opcode, then SUB (R60, R62). -/
def laneShort (op sub : Nat) (o : SF) (m2 : BitVec 2) : Option Instr :=
  match op, sub with
  | 0x00, 0 => some (.addLS o)
  | 0x01, 0 => some (.subLS o)
  | 0x02, 0 => some (.mulLS o)
  | 0x04, 0 => some (.divLS o)
  | 0x05, 0 => some (.remLS o)
  | 0x06, 0 => some (.minLS o)
  | 0x07, 0 => some (.maxLS o)
  | 0x08, 0 => some (.andLS o)
  | 0x08, 1 => some (.orLS o)
  | 0x08, 2 => some (.xorLS o)
  | 0x08, 3 => some (.andnLS o)
  | 0x09, 0 => some (.notLS o)
  | 0x09, 1 => some (.negLS o)
  | 0x09, 2 => some (.absLS o)
  | 0x0A, 0 => some (.shlLS o)
  | 0x0A, 1 => some (.shrLS o)
  | 0x0A, 2 => some (.sarLS o)
  | 0x0A, 3 => some (.rotLS o)
  | 0x0B, 0 => some (.clzLS o)
  | 0x0B, 1 => some (.ctzLS o)
  | 0x0B, 2 => some (.popcLS o)
  | 0x0B, 3 => some (.brevLS o)
  | 0x0C, 0 => some (.bfxLS o)
  | 0x0D, 0 => some (.cmpLS o)
  | 0x0F, 0 => some (.movLS o)
  | 0x10, 0 => some (.faddLS o)
  | 0x11, 0 => some (.fsubLS o)
  | 0x12, 0 => some (.fmulLS o)
  | 0x14, 0 => some (.fdivLS o)
  | 0x15, 0 => some (.fsqrtLS o)
  | 0x16, 0 => some (.fminLS o)
  | 0x16, 1 => some (.fmaxLS o)
  | 0x16, 2 => some (.fminnLS o)
  | 0x16, 3 => some (.fmaxnLS o)
  | 0x17, 0 => some (.fabsLS o)
  | 0x17, 1 => some (.fnegLS o)
  | 0x17, 2 => some (.fcpysLS o)
  | 0x18, 0 => some (.fcmpLS o)
  | 0x19, 0 => some (.fclassLS o)
  | 0x1B, 0 => some (.fcvtiLS o)
  | 0x1B, 1 => some (.icvtfLS o)
  | 0x1C, 0 => some (.frintLS o)
  | 0x1D, 0 => some (.fexpiLS o)
  | 0x1D, 1 => some (.fexpxLS o)
  | 0x1E, 0 => some (.fexp2fLS o)
  | 0x1E, 1 => some (.flog2fLS o)
  | 0x1E, 2 => some (.fsinpifLS o)
  | 0x1E, 3 => some (.fcospifLS o)
  | 0x1F, 0 => some (.fseedrLS o)
  | 0x1F, 1 => some (.fseedqLS o)
  | 0x20, _ => some (.ldLS o m2)
  | 0x21, _ => some (.stLS o m2)
  | 0x22, _ => some (.ldsLS o m2)
  | 0x23, _ => some (.stsLS o m2)
  | 0x24, 0 => some (.prefLS o)
  | 0x24, 1 => some (.dscLS o)
  | 0x24, 2 => some (.cwbLS o)
  | 0x28, _ => some (.shflLS o m2)
  | 0x29, 1 => some (.bcastLS o)
  | 0x2A, 0 => some (.lidLS o)
  | 0x2A, 1 => some (.vtagLS o)
  | 0x2B, _ => some (.addrLS o m2)
  | 0x2F, 0 => some (.fexitLS o)
  | 0x31, 0 => some (.retLS o)
  | 0x32, 1 => some (.unwindLS o)
  | 0x33, 0 => some (.brxLS o)
  | _, _ => none

/-- The lane words of form LL: primary opcode, then SUB (R60, R62). -/
def laneLong (op sub : Nat) (o : LF) : Option Instr :=
  match op, sub with
  | 0x00, 0 => some (.addLL o)
  | 0x01, 0 => some (.subLL o)
  | 0x02, 0 => some (.mulLL o)
  | 0x03, 0 => some (.madLL o)
  | 0x04, 0 => some (.divLL o)
  | 0x05, 0 => some (.remLL o)
  | 0x06, 0 => some (.minLL o)
  | 0x07, 0 => some (.maxLL o)
  | 0x08, 0 => some (.andLL o)
  | 0x08, 1 => some (.orLL o)
  | 0x08, 2 => some (.xorLL o)
  | 0x08, 3 => some (.andnLL o)
  | 0x09, 0 => some (.notLL o)
  | 0x09, 1 => some (.negLL o)
  | 0x09, 2 => some (.absLL o)
  | 0x0A, 0 => some (.shlLL o)
  | 0x0A, 1 => some (.shrLL o)
  | 0x0A, 2 => some (.sarLL o)
  | 0x0A, 3 => some (.rotLL o)
  | 0x0B, 0 => some (.clzLL o)
  | 0x0B, 1 => some (.ctzLL o)
  | 0x0B, 2 => some (.popcLL o)
  | 0x0B, 3 => some (.brevLL o)
  | 0x0C, 0 => some (.bfxLL o)
  | 0x0C, 1 => some (.bfiLL o)
  | 0x0D, 0 => some (.cmpLL o)
  | 0x0E, 0 => some (.selLL o)
  | 0x0F, 0 => some (.movLL o)
  | 0x10, 0 => some (.faddLL o)
  | 0x11, 0 => some (.fsubLL o)
  | 0x12, 0 => some (.fmulLL o)
  | 0x13, 0 => some (.fmaLL o)
  | 0x14, 0 => some (.fdivLL o)
  | 0x15, 0 => some (.fsqrtLL o)
  | 0x16, 0 => some (.fminLL o)
  | 0x16, 1 => some (.fmaxLL o)
  | 0x16, 2 => some (.fminnLL o)
  | 0x16, 3 => some (.fmaxnLL o)
  | 0x16, 4 => some (.fminmLL o)
  | 0x16, 5 => some (.fmaxmLL o)
  | 0x17, 0 => some (.fabsLL o)
  | 0x17, 1 => some (.fnegLL o)
  | 0x17, 2 => some (.fcpysLL o)
  | 0x18, 0 => some (.fcmpLL o)
  | 0x19, 0 => some (.fclassLL o)
  | 0x1A, 0 => some (.fcvtLL o)
  | 0x1B, 0 => some (.fcvtiLL o)
  | 0x1B, 1 => some (.icvtfLL o)
  | 0x1C, 0 => some (.frintLL o)
  | 0x1D, 0 => some (.fexpiLL o)
  | 0x1D, 1 => some (.fexpxLL o)
  | 0x1E, 0 => some (.fexp2fLL o)
  | 0x1E, 1 => some (.flog2fLL o)
  | 0x1E, 2 => some (.fsinpifLL o)
  | 0x1E, 3 => some (.fcospifLL o)
  | 0x1F, 0 => some (.fseedrLL o)
  | 0x1F, 1 => some (.fseedqLL o)
  | 0x20, 0 => some (.ldLL o)
  | 0x21, 0 => some (.stLL o)
  | 0x22, 0 => some (.ldsLL o)
  | 0x23, 0 => some (.stsLL o)
  | 0x24, 0 => some (.prefLL o)
  | 0x24, 1 => some (.dscLL o)
  | 0x24, 2 => some (.cwbLL o)
  | 0x25, 0 => some (.atomLL o)
  | 0x26, 0 => some (.casLL o)
  | 0x27, 0 => some (.redLL o)
  | 0x28, 0 => some (.shflLL o)
  | 0x29, 0 => some (.voteLL o)
  | 0x29, 1 => some (.bcastLL o)
  | 0x2A, 0 => some (.lidLL o)
  | 0x2A, 1 => some (.vtagLL o)
  | 0x2B, 0 => some (.addrLL o)
  | 0x33, 0 => some (.brxLL o)
  | 0x34, 0 => some (.icvtLL o)
  | 0x35, 0 => some (.mreadLL o)
  | 0x36, 0 => some (.mwriteLL o)
  | 0x37, 0 => some (.mtkreadLL o)
  | _, _ => none

/-- The lane words of form LI: primary opcode, then SUB (R60, R62). -/
def laneImm (op sub : Nat) (o : IF) : Option Instr :=
  match op, sub with
  | 0x00, 0 => some (.addLI o)
  | 0x01, 0 => some (.subLI o)
  | 0x02, 0 => some (.mulLI o)
  | 0x04, 0 => some (.divLI o)
  | 0x05, 0 => some (.remLI o)
  | 0x06, 0 => some (.minLI o)
  | 0x07, 0 => some (.maxLI o)
  | 0x08, 0 => some (.andLI o)
  | 0x08, 1 => some (.orLI o)
  | 0x08, 2 => some (.xorLI o)
  | 0x08, 3 => some (.andnLI o)
  | 0x0A, 0 => some (.shlLI o)
  | 0x0A, 1 => some (.shrLI o)
  | 0x0A, 2 => some (.sarLI o)
  | 0x0A, 3 => some (.rotLI o)
  | 0x0C, 0 => some (.bfxLI o)
  | 0x0D, 0 => some (.cmpLI o)
  | 0x0F, 1 => some (.moviLI o)
  | 0x10, 0 => some (.faddLI o)
  | 0x11, 0 => some (.fsubLI o)
  | 0x12, 0 => some (.fmulLI o)
  | 0x16, 0 => some (.fminLI o)
  | 0x16, 1 => some (.fmaxLI o)
  | 0x16, 2 => some (.fminnLI o)
  | 0x16, 3 => some (.fmaxnLI o)
  | 0x16, 4 => some (.fminmLI o)
  | 0x16, 5 => some (.fmaxmLI o)
  | 0x18, 0 => some (.fcmpLI o)
  | 0x1D, 0 => some (.fexpiLI o)
  | 0x20, 0 => some (.ldLI o)
  | 0x21, 0 => some (.stLI o)
  | 0x22, 0 => some (.ldsLI o)
  | 0x23, 0 => some (.stsLI o)
  | 0x28, 0 => some (.shflLI o)
  | 0x2B, 0 => some (.addrLI o)
  | 0x2C, 0 => some (.braLI o)
  | 0x2D, 0 => some (.gatherLI o)
  | 0x2E, 0 => some (.fspawnLI o)
  | 0x30, 0 => some (.callLI o)
  | 0x32, 0 => some (.fmarkLI o)
  | 0x34, 0 => some (.icvtLI o)
  | _, _ => none

/-- The uniform words of form US: primary opcode, then SUB (R61, R62). -/
noncomputable def uniformShort (op sub : Nat) (o : SF) (m2 : BitVec 2) : Option Instr :=
  match op, sub with
  | 0x00, 0 => some (.saddUS o)
  | 0x01, 0 => some (.ssubUS o)
  | 0x02, 0 => some (.smulUS o)
  | 0x03, 0 => some (.sdivUS o)
  | 0x03, 1 => some (.sremUS o)
  | 0x04, 0 => some (.sminUS o)
  | 0x04, 1 => some (.smaxUS o)
  | 0x05, 0 => some (.sandUS o)
  | 0x05, 1 => some (.sorUS o)
  | 0x05, 2 => some (.sxorUS o)
  | 0x05, 3 => some (.sandnUS o)
  | 0x06, 0 => some (.sshlUS o)
  | 0x06, 1 => some (.sshrUS o)
  | 0x06, 2 => some (.ssarUS o)
  | 0x06, 3 => some (.srotUS o)
  | 0x07, 0 => some (.sclzUS o)
  | 0x07, 1 => some (.sctzUS o)
  | 0x07, 2 => some (.spopcUS o)
  | 0x08, 0 => some (.scmpUS o)
  | 0x0A, 0 => some (.smovUS o)
  | 0x0B, 0 => some (.sgetUS o)
  | 0x0B, 1 => some (.sbfxUS o)
  | 0x0C, 0 => some (.sfaddUS o)
  | 0x0C, 1 => some (.sfsubUS o)
  | 0x0D, 0 => some (.sfmulUS o)
  | 0x0E, 0 => some (.sfcmpUS o)
  | 0x0F, 0 => some (.sfdivUS o)
  | 0x0F, 1 => some (.sfsqrtUS o)
  | 0x10, _ => some (.sldUS o m2)
  | 0x11, _ => some (.sstUS o m2)
  | 0x15, 0 => some (.twaitUS o)
  | 0x15, 1 => some (.ttestUS o)
  | 0x16, 0 => some (.cconnUS o)
  | 0x17, 0 => some (.fenceUS o)
  | 0x17, 1 => some (.xfenceUS o)
  | 0x18, 0 => some (.sgangUS o)
  | 0x1C, 0 => some (.mzeroUS o)
  | 0x1D, _ => some (.mflagUS o m2)
  | 0x20, _ => some (.barUS o m2)
  | 0x21, 0 => some (.barriveUS o)
  | 0x21, 1 => some (.bwaitUS o)
  | 0x22, 0 => some (.qinitUS o)
  | 0x22, 1 => some (.qallowUS o)
  | 0x23, _ => some (.qpushUS o m2)
  | 0x24, _ => some (.qpopUS o m2)
  | 0x25, 1 => some (.cdropUS o)
  | 0x26, 0 => some (.ctakeUS o)
  | 0x26, 1 => some (.cgiveUS o)
  | 0x27, 0 => some (.cexactUS o)
  | 0x28, 0 => some (.subscribeUS o)
  | 0x28, 1 => some (.unsubUS o)
  | 0x29, 0 => some (.sflushUS o)
  | 0x2A, 0 => some (.carveUS o)
  | 0x2D, 0 => some (.sjmpUS o)
  | 0x2D, 1 => some (.sbrxUS o)
  | 0x2E, 1 => some (.ssignalUS o)
  | 0x2F, 0 => some (.nopUS o)
  | 0x2F, 1 => some (.pauseUS o)
  | 0x2F, 2 => some (.yieldUS o)
  | 0x2F, 3 => some (.haltUS o)
  | 0x30, 0 => some (.sysUS o)
  | 0x30, 1 => some (.trapUS o)
  | 0x31, 0 => some (.fresumeUS o)
  | 0x31, 1 => some (.fkillUS o)
  | 0x32, 0 => some (.pmapUS o)
  | 0x33, 0 => some (.rdsrUS o)
  | 0x33, 1 => some (.wrsrUS o)
  | 0x34, 0 => some (.eretUS o)
  | 0x35, 0 => some (.msendUS o)
  | 0x35, 1 => some (.mrecvUS o)
  | 0x36, 0 => some (.ckbeginUS o)
  | 0x36, 2 => some (.ckcommitUS o)
  | 0x37, 0 => some (.linkctlStatus o)
  | 0x37, 1 => some (.tlbctlUS o)
  | _, _ => none

/-- The uniform words of form UL: primary opcode, then SUB (R61, R62). -/
noncomputable def uniformLong (op sub : Nat) (o : LF) : Option Instr :=
  match op, sub with
  | 0x00, 0 => some (.saddUL o)
  | 0x01, 0 => some (.ssubUL o)
  | 0x02, 0 => some (.smulUL o)
  | 0x03, 0 => some (.sdivUL o)
  | 0x03, 1 => some (.sremUL o)
  | 0x04, 0 => some (.sminUL o)
  | 0x04, 1 => some (.smaxUL o)
  | 0x05, 0 => some (.sandUL o)
  | 0x05, 1 => some (.sorUL o)
  | 0x05, 2 => some (.sxorUL o)
  | 0x05, 3 => some (.sandnUL o)
  | 0x06, 0 => some (.sshlUL o)
  | 0x06, 1 => some (.sshrUL o)
  | 0x06, 2 => some (.ssarUL o)
  | 0x06, 3 => some (.srotUL o)
  | 0x07, 0 => some (.sclzUL o)
  | 0x07, 1 => some (.sctzUL o)
  | 0x07, 2 => some (.spopcUL o)
  | 0x08, 0 => some (.scmpUL o)
  | 0x09, 0 => some (.sselUL o)
  | 0x0A, 0 => some (.smovUL o)
  | 0x0B, 0 => some (.sgetUL o)
  | 0x0B, 1 => some (.sbfxUL o)
  | 0x0C, 0 => some (.sfaddUL o)
  | 0x0C, 1 => some (.sfsubUL o)
  | 0x0D, 0 => some (.sfmulUL o)
  | 0x0D, 1 => some (.sfmaUL o)
  | 0x0E, 0 => some (.sfcmpUL o)
  | 0x0E, 1 => some (.sfcvtUL o)
  | 0x0F, 0 => some (.sfdivUL o)
  | 0x0F, 1 => some (.sfsqrtUL o)
  | 0x10, 0 => some (.sldUL o)
  | 0x11, 0 => some (.sstUL o)
  | 0x12, 0 => some (.satomUL o)
  | 0x12, 1 => some (.scasUL o)
  | 0x13, 0 => some (.cpUL o)
  | 0x14, 0 => some (.cpmUL o)
  | 0x16, 1 => some (.tsendUL o)
  | 0x16, 2 => some (.trecvUL o)
  | 0x19, 0 => some (.mmaUL o)
  | 0x1A, 0 => some (.mdistUL o)
  | 0x1B, 0 => some (.mtopkUL o)
  | 0x25, 0 => some (.cinitUL o)
  | 0x26, 0 => some (.ctakeUL o)
  | 0x26, 1 => some (.cgiveUL o)
  | 0x28, 0 => some (.subscribeUL o)
  | 0x2E, 0 => some (.slaunchUL o)
  | 0x36, 1 => some (.ckshardUL o)
  | _, _ => none

/-- The uniform words of form UI: primary opcode, then SUB (R61, R62). -/
noncomputable def uniformImm (op sub : Nat) (o : IF) : Option Instr :=
  match op, sub with
  | 0x00, 0 => some (.saddUI o)
  | 0x01, 0 => some (.ssubUI o)
  | 0x02, 0 => some (.smulUI o)
  | 0x03, 0 => some (.sdivUI o)
  | 0x03, 1 => some (.sremUI o)
  | 0x04, 0 => some (.sminUI o)
  | 0x04, 1 => some (.smaxUI o)
  | 0x05, 0 => some (.sandUI o)
  | 0x05, 1 => some (.sorUI o)
  | 0x05, 2 => some (.sxorUI o)
  | 0x05, 3 => some (.sandnUI o)
  | 0x06, 0 => some (.sshlUI o)
  | 0x06, 1 => some (.sshrUI o)
  | 0x06, 2 => some (.ssarUI o)
  | 0x06, 3 => some (.srotUI o)
  | 0x08, 0 => some (.scmpUI o)
  | 0x0A, 1 => some (.smoviUI o)
  | 0x0B, 1 => some (.sbfxUI o)
  | 0x0C, 0 => some (.sfaddUI o)
  | 0x0C, 1 => some (.sfsubUI o)
  | 0x0D, 0 => some (.sfmulUI o)
  | 0x0E, 0 => some (.sfcmpUI o)
  | 0x10, 0 => some (.sldUI o)
  | 0x11, 0 => some (.sstUI o)
  | 0x15, 0 => some (.twaitUI o)
  | 0x15, 1 => some (.ttestUI o)
  | 0x26, 0 => some (.ctakeUI o)
  | 0x26, 1 => some (.cgiveUI o)
  | 0x2C, 0 => some (.sbrUI o)
  | _, _ => none
/-- The primary opcodes the maps list (R60, R61); every other one is reserved. -/
def opListed (uni : Bool) (op : Nat) : Bool :=
  if uni then op ≤ 0x1D || (0x20 ≤ op && op ≤ 0x2A) || (0x2C ≤ op && op ≤ 0x37) else op ≤ 0x37

/-- The instruction of a first and a second word as the maps name it, before the modifiers are checked. -/
noncomputable def parse (w0 w1 : Word) : Option Instr :=
  match isUniform w0, isLong w0, isImm w0 with
  | false, false, _ => laneShort (opOf w0) (m2Of w0).toNat (SF.ofWord w0) (m2Of w0)
  | true, false, _ => uniformShort (opOf w0) (m2Of w0).toNat (SF.ofWord w0) (m2Of w0)
  | false, true, false => laneLong (opOf w0) (subL w0) (LF.ofWords w0 w1)
  | true, true, false => uniformLong (opOf w0) (subL w0) (LF.ofWords w0 w1)
  | false, true, true => laneImm (opOf w0) (subI w0) (IF.ofWords w0 w1)
  | true, true, true => uniformImm (opOf w0) (subI w0) (IF.ofWords w0 w1)

/-- Why a word is no instruction (R63); the causes are those of R64 checks 2 and 5. -/
inductive Reject where
  /-- Reserved primary opcode: 0x020. -/
  | reservedOpcode
  /-- SUB beyond the entry, or a form the mnemonic lacks: 0x021. -/
  | lackedForm
  /-- A modifier or given-as-0 field with a value the mnemonic does not permit: 0x021. -/
  | illegalModifier
  /-- Fewer bytes than the instruction has. -/
  | truncated
  deriving DecidableEq, Repr

/-- The instruction of a first word and the word after it (which a short form does not use), under encoding version 3;
what an older version lacks is checked by the meanings (R68). -/
noncomputable def decode (w0 w1 : Word) : Except Reject Instr :=
  if opListed (isUniform w0) (opOf w0) then
    match parse w0 w1 with
    | some i => if i.wf then .ok i else .error .illegalModifier
    | none => .error .lackedForm
  else .error .reservedOpcode

/-- One little-endian word at the head of a byte list (R48). -/
def takeWord : List Byte → Option (Word × List Byte)
  | b0 :: b1 :: b2 :: b3 :: rest => some (b3 ++ b2 ++ b1 ++ b0, rest)
  | _ => none

/-- The first instruction of a byte list and the bytes after it. -/
noncomputable def decodeBytes (bs : List Byte) : Except Reject (Instr × List Byte) :=
  match takeWord bs with
  | none => .error .truncated
  | some (w0, rest) =>
    if isLong w0 then
      match takeWord rest with
      | none => .error .truncated
      | some (w1, rest') =>
        match decode w0 w1 with
        | .ok i => .ok (i, rest')
        | .error e => .error e
    else
      match decode w0 0 with
      | .ok i => .ok (i, rest)
      | .error e => .error e

/-- The bytes of a word in memory order (R48). -/
def wordBytes (w : Word) : List Byte :=
  [w.extractLsb' 0 8, w.extractLsb' 8 8, w.extractLsb' 16 8, w.extractLsb' 24 8]

/-- The first and second word of an instruction numbered as spec/opcode_table.json numbers its bits. -/
def tableWords (nbits w : Nat) : Word × Word :=
  let v := w % 2 ^ nbits
  (BitVec.ofNat 32 v, BitVec.ofNat 32 (v / 2 ^ 32))

/-- The instruction the decoder reads from an instruction whose bits are `w`. -/
noncomputable def decodeTableWord (nbits w : Nat) : Option Instr :=
  let ws := tableWords nbits w
  match decodeBytes (wordBytes ws.1 ++ wordBytes ws.2) with
  | .ok (i, _) => some i
  | .error _ => none

/-! ## The encoder, from the same layouts -/

/-- The word of a short form (R50, R53). -/
def encS (uni : Bool) (op : BitVec 6) (o : SF) (m2 : BitVec 2) : Word :=
  BitVec.ofBool uni ++ op ++ 0#1 ++ o.pr ++ BitVec.ofBool o.neg ++ o.d ++ o.a ++ o.b ++ m2

/-- The first word of a long form (R51). -/
def encL0 (uni : Bool) (op : BitVec 6) (sub : BitVec 4) (o : LF) : Word :=
  BitVec.ofBool uni ++ op ++ 1#1 ++ o.pr ++ BitVec.ofBool o.neg ++ sub ++ o.modh ++ 0#1 ++ o.modl

/-- The second word of a long form (R51). -/
def encL1 (o : LF) : Word := o.d ++ o.a ++ o.b ++ o.c

/-- The first word of a long-immediate form (R52). -/
def encI0 (uni : Bool) (op : BitVec 6) (sub : BitVec 3) (o : IF) : Word :=
  BitVec.ofBool uni ++ op ++ 1#1 ++ o.pr ++ BitVec.ofBool o.neg ++ o.d ++ o.a ++ 1#1 ++ sub ++ o.modi

/-- The second word of a long-immediate form (R52). -/
def encI1 (o : IF) : Word := o.imm

/-- The words of an instruction: first word, and the second word of a long form. Events and reserved words have no
words of their own; `none`. -/
def encode : Instr → Option (Word × Option Word)
  | .addLS o => some (encS false 0x00 o 0, none)
  | .addLL o => some (encL0 false 0x00 0 o, some (encL1 o))
  | .addLI o => some (encI0 false 0x00 0 o, some (encI1 o))
  | .subLS o => some (encS false 0x01 o 0, none)
  | .subLL o => some (encL0 false 0x01 0 o, some (encL1 o))
  | .subLI o => some (encI0 false 0x01 0 o, some (encI1 o))
  | .mulLS o => some (encS false 0x02 o 0, none)
  | .mulLL o => some (encL0 false 0x02 0 o, some (encL1 o))
  | .mulLI o => some (encI0 false 0x02 0 o, some (encI1 o))
  | .madLL o => some (encL0 false 0x03 0 o, some (encL1 o))
  | .divLS o => some (encS false 0x04 o 0, none)
  | .divLL o => some (encL0 false 0x04 0 o, some (encL1 o))
  | .divLI o => some (encI0 false 0x04 0 o, some (encI1 o))
  | .remLS o => some (encS false 0x05 o 0, none)
  | .remLL o => some (encL0 false 0x05 0 o, some (encL1 o))
  | .remLI o => some (encI0 false 0x05 0 o, some (encI1 o))
  | .minLS o => some (encS false 0x06 o 0, none)
  | .minLL o => some (encL0 false 0x06 0 o, some (encL1 o))
  | .minLI o => some (encI0 false 0x06 0 o, some (encI1 o))
  | .maxLS o => some (encS false 0x07 o 0, none)
  | .maxLL o => some (encL0 false 0x07 0 o, some (encL1 o))
  | .maxLI o => some (encI0 false 0x07 0 o, some (encI1 o))
  | .andLS o => some (encS false 0x08 o 0, none)
  | .andLL o => some (encL0 false 0x08 0 o, some (encL1 o))
  | .andLI o => some (encI0 false 0x08 0 o, some (encI1 o))
  | .orLS o => some (encS false 0x08 o 1, none)
  | .orLL o => some (encL0 false 0x08 1 o, some (encL1 o))
  | .orLI o => some (encI0 false 0x08 1 o, some (encI1 o))
  | .xorLS o => some (encS false 0x08 o 2, none)
  | .xorLL o => some (encL0 false 0x08 2 o, some (encL1 o))
  | .xorLI o => some (encI0 false 0x08 2 o, some (encI1 o))
  | .andnLS o => some (encS false 0x08 o 3, none)
  | .andnLL o => some (encL0 false 0x08 3 o, some (encL1 o))
  | .andnLI o => some (encI0 false 0x08 3 o, some (encI1 o))
  | .notLS o => some (encS false 0x09 o 0, none)
  | .notLL o => some (encL0 false 0x09 0 o, some (encL1 o))
  | .negLS o => some (encS false 0x09 o 1, none)
  | .negLL o => some (encL0 false 0x09 1 o, some (encL1 o))
  | .absLS o => some (encS false 0x09 o 2, none)
  | .absLL o => some (encL0 false 0x09 2 o, some (encL1 o))
  | .shlLS o => some (encS false 0x0A o 0, none)
  | .shlLL o => some (encL0 false 0x0A 0 o, some (encL1 o))
  | .shlLI o => some (encI0 false 0x0A 0 o, some (encI1 o))
  | .shrLS o => some (encS false 0x0A o 1, none)
  | .shrLL o => some (encL0 false 0x0A 1 o, some (encL1 o))
  | .shrLI o => some (encI0 false 0x0A 1 o, some (encI1 o))
  | .sarLS o => some (encS false 0x0A o 2, none)
  | .sarLL o => some (encL0 false 0x0A 2 o, some (encL1 o))
  | .sarLI o => some (encI0 false 0x0A 2 o, some (encI1 o))
  | .rotLS o => some (encS false 0x0A o 3, none)
  | .rotLL o => some (encL0 false 0x0A 3 o, some (encL1 o))
  | .rotLI o => some (encI0 false 0x0A 3 o, some (encI1 o))
  | .clzLS o => some (encS false 0x0B o 0, none)
  | .clzLL o => some (encL0 false 0x0B 0 o, some (encL1 o))
  | .ctzLS o => some (encS false 0x0B o 1, none)
  | .ctzLL o => some (encL0 false 0x0B 1 o, some (encL1 o))
  | .popcLS o => some (encS false 0x0B o 2, none)
  | .popcLL o => some (encL0 false 0x0B 2 o, some (encL1 o))
  | .brevLS o => some (encS false 0x0B o 3, none)
  | .brevLL o => some (encL0 false 0x0B 3 o, some (encL1 o))
  | .bfxLS o => some (encS false 0x0C o 0, none)
  | .bfxLL o => some (encL0 false 0x0C 0 o, some (encL1 o))
  | .bfxLI o => some (encI0 false 0x0C 0 o, some (encI1 o))
  | .bfiLL o => some (encL0 false 0x0C 1 o, some (encL1 o))
  | .cmpLS o => some (encS false 0x0D o 0, none)
  | .cmpLL o => some (encL0 false 0x0D 0 o, some (encL1 o))
  | .cmpLI o => some (encI0 false 0x0D 0 o, some (encI1 o))
  | .selLL o => some (encL0 false 0x0E 0 o, some (encL1 o))
  | .movLS o => some (encS false 0x0F o 0, none)
  | .movLL o => some (encL0 false 0x0F 0 o, some (encL1 o))
  | .moviLI o => some (encI0 false 0x0F 1 o, some (encI1 o))
  | .faddLS o => some (encS false 0x10 o 0, none)
  | .faddLL o => some (encL0 false 0x10 0 o, some (encL1 o))
  | .faddLI o => some (encI0 false 0x10 0 o, some (encI1 o))
  | .fsubLS o => some (encS false 0x11 o 0, none)
  | .fsubLL o => some (encL0 false 0x11 0 o, some (encL1 o))
  | .fsubLI o => some (encI0 false 0x11 0 o, some (encI1 o))
  | .fmulLS o => some (encS false 0x12 o 0, none)
  | .fmulLL o => some (encL0 false 0x12 0 o, some (encL1 o))
  | .fmulLI o => some (encI0 false 0x12 0 o, some (encI1 o))
  | .fmaLL o => some (encL0 false 0x13 0 o, some (encL1 o))
  | .fdivLS o => some (encS false 0x14 o 0, none)
  | .fdivLL o => some (encL0 false 0x14 0 o, some (encL1 o))
  | .fsqrtLS o => some (encS false 0x15 o 0, none)
  | .fsqrtLL o => some (encL0 false 0x15 0 o, some (encL1 o))
  | .fminLS o => some (encS false 0x16 o 0, none)
  | .fminLL o => some (encL0 false 0x16 0 o, some (encL1 o))
  | .fminLI o => some (encI0 false 0x16 0 o, some (encI1 o))
  | .fmaxLS o => some (encS false 0x16 o 1, none)
  | .fmaxLL o => some (encL0 false 0x16 1 o, some (encL1 o))
  | .fmaxLI o => some (encI0 false 0x16 1 o, some (encI1 o))
  | .fminnLS o => some (encS false 0x16 o 2, none)
  | .fminnLL o => some (encL0 false 0x16 2 o, some (encL1 o))
  | .fminnLI o => some (encI0 false 0x16 2 o, some (encI1 o))
  | .fmaxnLS o => some (encS false 0x16 o 3, none)
  | .fmaxnLL o => some (encL0 false 0x16 3 o, some (encL1 o))
  | .fmaxnLI o => some (encI0 false 0x16 3 o, some (encI1 o))
  | .fminmLL o => some (encL0 false 0x16 4 o, some (encL1 o))
  | .fminmLI o => some (encI0 false 0x16 4 o, some (encI1 o))
  | .fmaxmLL o => some (encL0 false 0x16 5 o, some (encL1 o))
  | .fmaxmLI o => some (encI0 false 0x16 5 o, some (encI1 o))
  | .fabsLS o => some (encS false 0x17 o 0, none)
  | .fabsLL o => some (encL0 false 0x17 0 o, some (encL1 o))
  | .fnegLS o => some (encS false 0x17 o 1, none)
  | .fnegLL o => some (encL0 false 0x17 1 o, some (encL1 o))
  | .fcpysLS o => some (encS false 0x17 o 2, none)
  | .fcpysLL o => some (encL0 false 0x17 2 o, some (encL1 o))
  | .fcmpLS o => some (encS false 0x18 o 0, none)
  | .fcmpLL o => some (encL0 false 0x18 0 o, some (encL1 o))
  | .fcmpLI o => some (encI0 false 0x18 0 o, some (encI1 o))
  | .fclassLS o => some (encS false 0x19 o 0, none)
  | .fclassLL o => some (encL0 false 0x19 0 o, some (encL1 o))
  | .fcvtLL o => some (encL0 false 0x1A 0 o, some (encL1 o))
  | .fcvtiLS o => some (encS false 0x1B o 0, none)
  | .fcvtiLL o => some (encL0 false 0x1B 0 o, some (encL1 o))
  | .icvtfLS o => some (encS false 0x1B o 1, none)
  | .icvtfLL o => some (encL0 false 0x1B 1 o, some (encL1 o))
  | .frintLS o => some (encS false 0x1C o 0, none)
  | .frintLL o => some (encL0 false 0x1C 0 o, some (encL1 o))
  | .fexpiLS o => some (encS false 0x1D o 0, none)
  | .fexpiLL o => some (encL0 false 0x1D 0 o, some (encL1 o))
  | .fexpiLI o => some (encI0 false 0x1D 0 o, some (encI1 o))
  | .fexpxLS o => some (encS false 0x1D o 1, none)
  | .fexpxLL o => some (encL0 false 0x1D 1 o, some (encL1 o))
  | .fexp2fLS o => some (encS false 0x1E o 0, none)
  | .fexp2fLL o => some (encL0 false 0x1E 0 o, some (encL1 o))
  | .flog2fLS o => some (encS false 0x1E o 1, none)
  | .flog2fLL o => some (encL0 false 0x1E 1 o, some (encL1 o))
  | .fsinpifLS o => some (encS false 0x1E o 2, none)
  | .fsinpifLL o => some (encL0 false 0x1E 2 o, some (encL1 o))
  | .fcospifLS o => some (encS false 0x1E o 3, none)
  | .fcospifLL o => some (encL0 false 0x1E 3 o, some (encL1 o))
  | .fseedrLS o => some (encS false 0x1F o 0, none)
  | .fseedrLL o => some (encL0 false 0x1F 0 o, some (encL1 o))
  | .fseedqLS o => some (encS false 0x1F o 1, none)
  | .fseedqLL o => some (encL0 false 0x1F 1 o, some (encL1 o))
  | .ldLS o m2 => some (encS false 0x20 o m2, none)
  | .ldLL o => some (encL0 false 0x20 0 o, some (encL1 o))
  | .ldLI o => some (encI0 false 0x20 0 o, some (encI1 o))
  | .stLS o m2 => some (encS false 0x21 o m2, none)
  | .stLL o => some (encL0 false 0x21 0 o, some (encL1 o))
  | .stLI o => some (encI0 false 0x21 0 o, some (encI1 o))
  | .ldsLS o m2 => some (encS false 0x22 o m2, none)
  | .ldsLL o => some (encL0 false 0x22 0 o, some (encL1 o))
  | .ldsLI o => some (encI0 false 0x22 0 o, some (encI1 o))
  | .stsLS o m2 => some (encS false 0x23 o m2, none)
  | .stsLL o => some (encL0 false 0x23 0 o, some (encL1 o))
  | .stsLI o => some (encI0 false 0x23 0 o, some (encI1 o))
  | .prefLS o => some (encS false 0x24 o 0, none)
  | .prefLL o => some (encL0 false 0x24 0 o, some (encL1 o))
  | .dscLS o => some (encS false 0x24 o 1, none)
  | .dscLL o => some (encL0 false 0x24 1 o, some (encL1 o))
  | .cwbLS o => some (encS false 0x24 o 2, none)
  | .cwbLL o => some (encL0 false 0x24 2 o, some (encL1 o))
  | .atomLL o => some (encL0 false 0x25 0 o, some (encL1 o))
  | .casLL o => some (encL0 false 0x26 0 o, some (encL1 o))
  | .redLL o => some (encL0 false 0x27 0 o, some (encL1 o))
  | .shflLS o m2 => some (encS false 0x28 o m2, none)
  | .shflLL o => some (encL0 false 0x28 0 o, some (encL1 o))
  | .shflLI o => some (encI0 false 0x28 0 o, some (encI1 o))
  | .voteLL o => some (encL0 false 0x29 0 o, some (encL1 o))
  | .bcastLS o => some (encS false 0x29 o 1, none)
  | .bcastLL o => some (encL0 false 0x29 1 o, some (encL1 o))
  | .lidLS o => some (encS false 0x2A o 0, none)
  | .lidLL o => some (encL0 false 0x2A 0 o, some (encL1 o))
  | .vtagLS o => some (encS false 0x2A o 1, none)
  | .vtagLL o => some (encL0 false 0x2A 1 o, some (encL1 o))
  | .addrLS o m2 => some (encS false 0x2B o m2, none)
  | .addrLL o => some (encL0 false 0x2B 0 o, some (encL1 o))
  | .addrLI o => some (encI0 false 0x2B 0 o, some (encI1 o))
  | .braLI o => some (encI0 false 0x2C 0 o, some (encI1 o))
  | .gatherLI o => some (encI0 false 0x2D 0 o, some (encI1 o))
  | .fspawnLI o => some (encI0 false 0x2E 0 o, some (encI1 o))
  | .fexitLS o => some (encS false 0x2F o 0, none)
  | .callLI o => some (encI0 false 0x30 0 o, some (encI1 o))
  | .retLS o => some (encS false 0x31 o 0, none)
  | .fmarkLI o => some (encI0 false 0x32 0 o, some (encI1 o))
  | .unwindLS o => some (encS false 0x32 o 1, none)
  | .brxLS o => some (encS false 0x33 o 0, none)
  | .brxLL o => some (encL0 false 0x33 0 o, some (encL1 o))
  | .icvtLL o => some (encL0 false 0x34 0 o, some (encL1 o))
  | .icvtLI o => some (encI0 false 0x34 0 o, some (encI1 o))
  | .mreadLL o => some (encL0 false 0x35 0 o, some (encL1 o))
  | .mwriteLL o => some (encL0 false 0x36 0 o, some (encL1 o))
  | .mtkreadLL o => some (encL0 false 0x37 0 o, some (encL1 o))
  | .saddUS o => some (encS true 0x00 o 0, none)
  | .saddUL o => some (encL0 true 0x00 0 o, some (encL1 o))
  | .saddUI o => some (encI0 true 0x00 0 o, some (encI1 o))
  | .ssubUS o => some (encS true 0x01 o 0, none)
  | .ssubUL o => some (encL0 true 0x01 0 o, some (encL1 o))
  | .ssubUI o => some (encI0 true 0x01 0 o, some (encI1 o))
  | .smulUS o => some (encS true 0x02 o 0, none)
  | .smulUL o => some (encL0 true 0x02 0 o, some (encL1 o))
  | .smulUI o => some (encI0 true 0x02 0 o, some (encI1 o))
  | .sdivUS o => some (encS true 0x03 o 0, none)
  | .sdivUL o => some (encL0 true 0x03 0 o, some (encL1 o))
  | .sdivUI o => some (encI0 true 0x03 0 o, some (encI1 o))
  | .sremUS o => some (encS true 0x03 o 1, none)
  | .sremUL o => some (encL0 true 0x03 1 o, some (encL1 o))
  | .sremUI o => some (encI0 true 0x03 1 o, some (encI1 o))
  | .sminUS o => some (encS true 0x04 o 0, none)
  | .sminUL o => some (encL0 true 0x04 0 o, some (encL1 o))
  | .sminUI o => some (encI0 true 0x04 0 o, some (encI1 o))
  | .smaxUS o => some (encS true 0x04 o 1, none)
  | .smaxUL o => some (encL0 true 0x04 1 o, some (encL1 o))
  | .smaxUI o => some (encI0 true 0x04 1 o, some (encI1 o))
  | .sandUS o => some (encS true 0x05 o 0, none)
  | .sandUL o => some (encL0 true 0x05 0 o, some (encL1 o))
  | .sandUI o => some (encI0 true 0x05 0 o, some (encI1 o))
  | .sorUS o => some (encS true 0x05 o 1, none)
  | .sorUL o => some (encL0 true 0x05 1 o, some (encL1 o))
  | .sorUI o => some (encI0 true 0x05 1 o, some (encI1 o))
  | .sxorUS o => some (encS true 0x05 o 2, none)
  | .sxorUL o => some (encL0 true 0x05 2 o, some (encL1 o))
  | .sxorUI o => some (encI0 true 0x05 2 o, some (encI1 o))
  | .sandnUS o => some (encS true 0x05 o 3, none)
  | .sandnUL o => some (encL0 true 0x05 3 o, some (encL1 o))
  | .sandnUI o => some (encI0 true 0x05 3 o, some (encI1 o))
  | .sshlUS o => some (encS true 0x06 o 0, none)
  | .sshlUL o => some (encL0 true 0x06 0 o, some (encL1 o))
  | .sshlUI o => some (encI0 true 0x06 0 o, some (encI1 o))
  | .sshrUS o => some (encS true 0x06 o 1, none)
  | .sshrUL o => some (encL0 true 0x06 1 o, some (encL1 o))
  | .sshrUI o => some (encI0 true 0x06 1 o, some (encI1 o))
  | .ssarUS o => some (encS true 0x06 o 2, none)
  | .ssarUL o => some (encL0 true 0x06 2 o, some (encL1 o))
  | .ssarUI o => some (encI0 true 0x06 2 o, some (encI1 o))
  | .srotUS o => some (encS true 0x06 o 3, none)
  | .srotUL o => some (encL0 true 0x06 3 o, some (encL1 o))
  | .srotUI o => some (encI0 true 0x06 3 o, some (encI1 o))
  | .sclzUS o => some (encS true 0x07 o 0, none)
  | .sclzUL o => some (encL0 true 0x07 0 o, some (encL1 o))
  | .sctzUS o => some (encS true 0x07 o 1, none)
  | .sctzUL o => some (encL0 true 0x07 1 o, some (encL1 o))
  | .spopcUS o => some (encS true 0x07 o 2, none)
  | .spopcUL o => some (encL0 true 0x07 2 o, some (encL1 o))
  | .scmpUS o => some (encS true 0x08 o 0, none)
  | .scmpUL o => some (encL0 true 0x08 0 o, some (encL1 o))
  | .scmpUI o => some (encI0 true 0x08 0 o, some (encI1 o))
  | .sselUL o => some (encL0 true 0x09 0 o, some (encL1 o))
  | .smovUS o => some (encS true 0x0A o 0, none)
  | .smovUL o => some (encL0 true 0x0A 0 o, some (encL1 o))
  | .smoviUI o => some (encI0 true 0x0A 1 o, some (encI1 o))
  | .sgetUS o => some (encS true 0x0B o 0, none)
  | .sgetUL o => some (encL0 true 0x0B 0 o, some (encL1 o))
  | .sbfxUS o => some (encS true 0x0B o 1, none)
  | .sbfxUL o => some (encL0 true 0x0B 1 o, some (encL1 o))
  | .sbfxUI o => some (encI0 true 0x0B 1 o, some (encI1 o))
  | .sfaddUS o => some (encS true 0x0C o 0, none)
  | .sfaddUL o => some (encL0 true 0x0C 0 o, some (encL1 o))
  | .sfaddUI o => some (encI0 true 0x0C 0 o, some (encI1 o))
  | .sfsubUS o => some (encS true 0x0C o 1, none)
  | .sfsubUL o => some (encL0 true 0x0C 1 o, some (encL1 o))
  | .sfsubUI o => some (encI0 true 0x0C 1 o, some (encI1 o))
  | .sfmulUS o => some (encS true 0x0D o 0, none)
  | .sfmulUL o => some (encL0 true 0x0D 0 o, some (encL1 o))
  | .sfmulUI o => some (encI0 true 0x0D 0 o, some (encI1 o))
  | .sfmaUL o => some (encL0 true 0x0D 1 o, some (encL1 o))
  | .sfcmpUS o => some (encS true 0x0E o 0, none)
  | .sfcmpUL o => some (encL0 true 0x0E 0 o, some (encL1 o))
  | .sfcmpUI o => some (encI0 true 0x0E 0 o, some (encI1 o))
  | .sfcvtUL o => some (encL0 true 0x0E 1 o, some (encL1 o))
  | .sfdivUS o => some (encS true 0x0F o 0, none)
  | .sfdivUL o => some (encL0 true 0x0F 0 o, some (encL1 o))
  | .sfsqrtUS o => some (encS true 0x0F o 1, none)
  | .sfsqrtUL o => some (encL0 true 0x0F 1 o, some (encL1 o))
  | .sldUS o m2 => some (encS true 0x10 o m2, none)
  | .sldUL o => some (encL0 true 0x10 0 o, some (encL1 o))
  | .sldUI o => some (encI0 true 0x10 0 o, some (encI1 o))
  | .sstUS o m2 => some (encS true 0x11 o m2, none)
  | .sstUL o => some (encL0 true 0x11 0 o, some (encL1 o))
  | .sstUI o => some (encI0 true 0x11 0 o, some (encI1 o))
  | .satomUL o => some (encL0 true 0x12 0 o, some (encL1 o))
  | .scasUL o => some (encL0 true 0x12 1 o, some (encL1 o))
  | .cpUL o => some (encL0 true 0x13 0 o, some (encL1 o))
  | .cpmUL o => some (encL0 true 0x14 0 o, some (encL1 o))
  | .twaitUS o => some (encS true 0x15 o 0, none)
  | .twaitUI o => some (encI0 true 0x15 0 o, some (encI1 o))
  | .ttestUS o => some (encS true 0x15 o 1, none)
  | .ttestUI o => some (encI0 true 0x15 1 o, some (encI1 o))
  | .cconnUS o => some (encS true 0x16 o 0, none)
  | .tsendUL o => some (encL0 true 0x16 1 o, some (encL1 o))
  | .trecvUL o => some (encL0 true 0x16 2 o, some (encL1 o))
  | .fenceUS o => some (encS true 0x17 o 0, none)
  | .xfenceUS o => some (encS true 0x17 o 1, none)
  | .sgangUS o => some (encS true 0x18 o 0, none)
  | .mmaUL o => some (encL0 true 0x19 0 o, some (encL1 o))
  | .mdistUL o => some (encL0 true 0x1A 0 o, some (encL1 o))
  | .mtopkUL o => some (encL0 true 0x1B 0 o, some (encL1 o))
  | .mzeroUS o => some (encS true 0x1C o 0, none)
  | .mflagUS o m2 => some (encS true 0x1D o m2, none)
  | .barUS o m2 => some (encS true 0x20 o m2, none)
  | .barriveUS o => some (encS true 0x21 o 0, none)
  | .bwaitUS o => some (encS true 0x21 o 1, none)
  | .qinitUS o => some (encS true 0x22 o 0, none)
  | .qallowUS o => some (encS true 0x22 o 1, none)
  | .qpushUS o m2 => some (encS true 0x23 o m2, none)
  | .qpopUS o m2 => some (encS true 0x24 o m2, none)
  | .cinitUL o => some (encL0 true 0x25 0 o, some (encL1 o))
  | .cdropUS o => some (encS true 0x25 o 1, none)
  | .ctakeUS o => some (encS true 0x26 o 0, none)
  | .ctakeUL o => some (encL0 true 0x26 0 o, some (encL1 o))
  | .ctakeUI o => some (encI0 true 0x26 0 o, some (encI1 o))
  | .cgiveUS o => some (encS true 0x26 o 1, none)
  | .cgiveUL o => some (encL0 true 0x26 1 o, some (encL1 o))
  | .cgiveUI o => some (encI0 true 0x26 1 o, some (encI1 o))
  | .cexactUS o => some (encS true 0x27 o 0, none)
  | .subscribeUS o => some (encS true 0x28 o 0, none)
  | .subscribeUL o => some (encL0 true 0x28 0 o, some (encL1 o))
  | .unsubUS o => some (encS true 0x28 o 1, none)
  | .sflushUS o => some (encS true 0x29 o 0, none)
  | .carveUS o => some (encS true 0x2A o 0, none)
  | .sbrUI o => some (encI0 true 0x2C 0 o, some (encI1 o))
  | .sjmpUS o => some (encS true 0x2D o 0, none)
  | .sbrxUS o => some (encS true 0x2D o 1, none)
  | .slaunchUL o => some (encL0 true 0x2E 0 o, some (encL1 o))
  | .ssignalUS o => some (encS true 0x2E o 1, none)
  | .nopUS o => some (encS true 0x2F o 0, none)
  | .pauseUS o => some (encS true 0x2F o 1, none)
  | .yieldUS o => some (encS true 0x2F o 2, none)
  | .haltUS o => some (encS true 0x2F o 3, none)
  | .sysUS o => some (encS true 0x30 o 0, none)
  | .trapUS o => some (encS true 0x30 o 1, none)
  | .fresumeUS o => some (encS true 0x31 o 0, none)
  | .fkillUS o => some (encS true 0x31 o 1, none)
  | .pmapUS o => some (encS true 0x32 o 0, none)
  | .rdsrUS o => some (encS true 0x33 o 0, none)
  | .wrsrUS o => some (encS true 0x33 o 1, none)
  | .eretUS o => some (encS true 0x34 o 0, none)
  | .msendUS o => some (encS true 0x35 o 0, none)
  | .mrecvUS o => some (encS true 0x35 o 1, none)
  | .ckbeginUS o => some (encS true 0x36 o 0, none)
  | .ckshardUL o => some (encL0 true 0x36 1 o, some (encL1 o))
  | .ckcommitUS o => some (encS true 0x36 o 2, none)
  | .linkctlStatus o => some (encS true 0x37 o 0, none)
  | .linkctlPause o => some (encS true 0x37 o 0, none)
  | .linkctlRepair o => some (encS true 0x37 o 0, none)
  | .linkctlRetrain o => some (encS true 0x37 o 0, none)
  | .linkctlResume o => some (encS true 0x37 o 0, none)
  | .tlbctlUS o => some (encS true 0x37 o 1, none)
  | .reservedWord _ _ => none
  | .lqctl _ _ => none
  | .keycmdProgram _ => none
  | .keycmdErase _ => none
  | .latecntClear _ => none
  | .rhmapClear _ _ => none
  | .registerWrite _ _ _ => none
  | .powerOn => none
  | .imageRefetch => none
  | .permitGrant _ => none
  | .thermalHold => none
  | .thermalTrip => none
  | .registrarBind _ => none
  | .volumeStart _ _ => none
  | .preemptSave _ => none
  | .restore _ _ _ => none
  | .gatherRelease _ _ _ => none
  | .frameArchive _ _ => none
  | .frameRefill _ _ => none
  | .carveApply _ => none
  | .matrixChunk _ => none
  | .copySegment _ => none
  | .tileDelivery _ _ => none
  | .inboundWrite _ => none
  | .counterHomeRequest _ => none
  | .redPartialEviction _ => none
  | .redRecall _ => none
  | .peerProbe _ _ _ => none
  | .l2BypassRead _ _ => none
  | .lineFill _ _ => none
  | .lineWriteBack _ _ => none
  | .faultRecord _ => none
  | .handlerFolioStart _ _ _ => none
  | .curatorTrapEntry _ _ => none
  | .curatorTimer _ _ => none
  | .flitRetry _ => none
  | .linkDetour _ => none
  | .pauseEnd _ _ _ => none
  | .reachTimeout _ _ => none
  | .sequencerTimeout _ => none
  | .sequencerNumber _ => none
  | .heartbeat _ => none
  | .heartbeatMiss _ _ => none
  | .evict _ => none
  | .evictionDiscovered _ => none
  | .admission _ => none
  | .inval _ _ => none
  | .ack _ _ => none
  | .ckshardCompletion _ => none
  | .softErrorCorrection _ => none
  | .temperatureFalls => none
  | .dieFailure _ => none
  | .rv64MemoryAccess _ => none
  | .uncorrectableError _ => none
  | .flitAcknowledged _ => none

/-- The constructor that a decoded word has: the five rows of `linkctl` share one word, whose operation is read from an
s register (R420); the decoder answers the first of them. Every other instruction is its own. -/
noncomputable def Instr.wordForm : Instr → Instr
  | .linkctlPause o => .linkctlStatus o
  | .linkctlRepair o => .linkctlStatus o
  | .linkctlRetrain o => .linkctlStatus o
  | .linkctlResume o => .linkctlStatus o
  | i => i

/-- The bytes of an instruction word or pair, as the hardware stores them (R48). -/
def Instr.bytes (i : Instr) : List Byte :=
  match encode i with
  | none => []
  | some (w0, none) => wordBytes w0
  | some (w0, some w1) => wordBytes w0 ++ wordBytes w1

end Sys2Proof
end

