-- ==== Sys2Proof/Machine/Palette.lean ====
section
/-! DEFINITION. Palette slot records and the scratchpad swizzle (R39, R85 to R87). -/

namespace Sys2Proof.Machine

/-- FMT of a slot record (R85). -/
def slotFmt (r : QWord) : Fmt := fmtOf (r.extractLsb' 0 4)
/-- BLK: elements of K per scale, 0 none (R85). -/
def slotBlk (r : QWord) : Nat := match fieldOf r 9 8 with | 1 => 16 | 2 => 32 | 3 => 64 | _ => 0
/-- SFMT: 0 none, 1 E8, 2 F16 (R85). -/
def slotSfmt (r : QWord) : Nat := fieldOf r 11 10
/-- SWZ (R85). -/
def slotSwz (r : QWord) : Nat := fieldOf r 47 32
/-- SSTRIDE (R85). -/
def slotSstride (r : QWord) : Nat := fieldOf r 71 48
/-- SADDR (R85). -/
def slotSaddr (r : QWord) : Nat := fieldOf r 127 72

/-- A swizzle descriptor satisfies R87. -/
def swzOk (z : Nat) : Bool :=
  let c := 4 + z / 2 ^ 13 % 4
  let sh := z / 2 ^ 8 % 32
  let w := z / 2 ^ 5 % 8
  z % 32 = 0 && (if z / 2 ^ 15 % 2 = 1 then 1 ≤ w && c + w ≤ sh && sh + w ≤ 19 else z / 2 ^ 5 % 2 ^ 10 = 0)

/-- A slot record that does not fail the launch (R86). -/
def slotOk (r : QWord) : Bool :=
  r = 0 ||
  (r.getLsbD 7 && fieldOf r 31 12 = 0 && fieldOf r 6 4 = 0 && slotSfmt r ≠ 3
    && (slotSfmt r ≠ 0 || (fieldOf r 9 8 = 0 && slotSaddr r = 0 && slotSstride r = 0))
    && (slotSfmt r = 0 || (fieldOf r 9 8 ≠ 0 && 2 ≤ fieldOf r 3 0 && fieldOf r 3 0 ≤ 7))
    && (slotSfmt r ≠ 2 || (slotSaddr r % 2 = 0 && slotSstride r % 2 = 0))
    && swzOk (slotSwz r))

/-- The swizzle of a scratchpad offset (R87). -/
def swizzle (z x : Nat) : Nat :=
  if z / 2 ^ 15 % 2 = 0 then x
  else
    let c := 4 + z / 2 ^ 13 % 4
    let sh := z / 2 ^ 8 % 32
    let w := z / 2 ^ 5 % 8
    x ^^^ (x / 2 ^ sh % 2 ^ w * 2 ^ c)

/-- Slot n of the issuing folio's palette. -/
def State.slot (s : State) (n : Nat) : QWord := recSlot s.fol.record n

/-! ## The units that a format needs (R10, R12) -/

/-- The part has the F64 matrix path (R10). -/
def Part.f64m (p : Part) : Bool := p ≠ .q940
/-- The log formats are absent on a Q920 (R10, R12). -/
def State.fmtUnit (s : State) (t : Fmt) : Bool := !(t.isLog && s.part = .q920)
/-- The units that the matrix path needs for a format (R12). -/
def State.matUnit (s : State) (t : Fmt) : Bool := (t ≠ .f64 || s.part.f64m) && s.fmtUnit t
/-- The units that a matrix operation needs for two palette slots; an empty slot needs none. -/
def State.slotUnits (s : State) (a b : Nat) : Bool :=
  (s.slot a = 0 || s.matUnit (slotFmt (s.slot a))) && (s.slot b = 0 || s.matUnit (slotFmt (s.slot b)))

end Sys2Proof.Machine
end

