-- ==== Sys2Proof/Machine/Fetch.lean ====
section
/-! DEFINITION. Fetching an instruction's words (R48, R49, R66), and the word that is no instruction (R63 to R65). -/

namespace Sys2Proof.Machine

/-- What a fetch finds: the words (the second one only behind a first word at a multiple of 8), a trap, or an address whose
home cannot be reached now. -/
inductive Fetch where
  | words (w0 w1 : Word) (t : Target)
  | stop (code : Nat) (eaddr : Nat)
  | waits (ea : Nat)
  deriving DecidableEq, Repr

/-- Fetch at an address in a folio, with the causes of its translation (R66, R359); a window address raises 0x081 (log 28). The
eight bytes that hold the word lie in one page. A word behind the first word of a long form is no instruction (R49). -/
def State.fetch (s : State) (fid pc : Nat) : Fetch :=
  match s.route fid (pc / 8 * 8) .fetch with
  | .error c => .stop c pc
  | .ok (.scratch _ _) => .stop 0x081 pc
  | .ok (.waits ea) => .waits ea
  | .ok t =>
    if s.poisoned t then .stop 0x161 pc
    else
      let v := s.readAt (s.folio fid).die t 8
      let lo : Word := BitVec.ofNat 32 v
      let hi : Word := BitVec.ofNat 32 (v / 2 ^ 32)
      if pc % 8 = 0 then .words lo hi t
      else if isLong lo then .stop 0x020 0
      else .words hi 0 t

/-- A trap before any instruction is known: the members of the batch, and no operands. -/
def State.fetchRecord (s : State) (code eaddr : Nat) : Trap :=
  { code := code, sup := s.super, epc := s.pc, elanes := laneMask s.batch, eaddr := BitVec.ofNat 64 eaddr, who := s.whoOf s.q
    lanes := s.batch.map (fun f => ((f.lane, { act := true, exc := 0x80 }) : Nat × LaneRec)), len := 0
    pc := s.pc, frame := s.sel.2 }
/-- It is taken. -/
def State.fetchTrap (s : State) (code eaddr : Nat) : State := s.unblocked.takeTrap (s.fetchRecord code eaddr)

/-- The length of the instruction at an address, for a trap that was raised before its word was read: 8 behind a long first
word, else 4; where no word can be read, one of the two by a free choice, since the spec states no length. -/
def State.lengthAt (s : State) (fid pc : Nat) : Nat :=
  match s.fetch fid pc with
  | .words w _ _ => if isLong w then 8 else 4
  | _ => if s.choose pc 2 = 0 then 4 else 8

/-- The number field of `rdsr` and `wrsr` in a first word (R381). -/
def wordSysnum (w0 : Word) : Nat := (SF.ofWord w0).sysnum.toNat

/-- Privilege of a word by its opcode (R63, R382): the supervisor opcodes, and `rdsr` and `wrsr` of a management register. -/
def wordPriv (w0 : Word) : Bool :=
  !(isUniform w0 && opOf w0 = 0x33 && !isLong w0 && (m2Of w0).toNat ≤ 1 && 0x800 ≤ wordSysnum w0)

/-- The unit that a word needs whatever its SUB (R12, R64, R135, R179): the checkpoint engine; for the matrix opcodes and `fcvt`,
what their formats need. -/
def State.wordUnit (s : State) (w0 w1 : Word) : Bool :=
  let o := LF.ofWords w0 w1
  match isUniform w0, isLong w0, opOf w0 with
  | true, _, 0x36 => s.part ≠ .q920
  | true, true, 0x19 | true, true, 0x1A => s.slotUnits (fieldOf o.modl 2 0) (fieldOf o.modl 5 3)
  | false, true, 0x1A => s.fmtUnit (fmtOf o.sfmt) && s.fmtUnit (fmtOf o.dfmt)
  | false, true, 0x35 | false, true, 0x36 => s.matUnit (fmtOf o.dfmt)
  | _, _, _ => true

/-- RESERVED_WORD (R63 to R65): position, opcode and version, privilege, the unit that the word needs, then 0x021. A word that parses but
carries an illegal modifier is run by its own meaning, which makes the checks of R64 in their order. -/
def reservedWord (w0 w1 : Word) (s : State) : State :=
  let D : Desc := { uni := isUniform w0, op := opOf w0, len := if isLong w0 then 8 else 4, pr := w0.extractLsb' 21 3
                    neg := w0.getLsbD 20, priv := wordPriv w0 || s.super, legal := false
                    unit := s.wordUnit w0 w1 }
  let trap := fun (c : Nat) => s.unblocked.takeTrap (D.trap s c (laneMask (D.fibres s)))
  if s.pc.toNat % 8 = 4 ∧ isLong w0 = true then trap 0x020
  else if !opListed (isUniform w0) (opOf w0) then trap 0x020
  else trap ((D.cause s).getD 0x021)

/-! ## The meanings, one for each instruction -/

/-- RESERVED_WORD (R63). -/
def execReservedWord (w0 w1 : Word) (s : State) : Host.Outcome State Fault Refusal := .next (reservedWord w0 w1 s)

end Sys2Proof.Machine
end

