-- ==== Sys2Proof/Machine/Integer.lean ====
section
/-! DEFINITION. The integer, logic, movement and identity instructions (spec 05). -/

namespace Sys2Proof.Machine

/-! ## Results on W-bit patterns -/

/-- The integer operations of R102 to R104 (min and max included). -/
inductive IntOp where
  | add | sub | mul | mad | div | rem | min | max | and | or | xor | andn | not | neg | abs
  deriving DecidableEq, Repr

/-- The W-bit result pattern of an operation on W-bit patterns (R102 to R104), after Fit. -/
def intPat (k : IntOp) (t : ITy) (hi sat : Bool) (px py pz : Nat) : Nat :=
  let x := patVal t px
  let y := patVal t py
  let m := 2 ^ t.w
  match k with
  | .add => fit (x + y) t sat
  | .sub => fit (x - y) t sat
  | .mul => fit (if hi then floorShift (x * y) t.w else x * y) t sat
  | .mad => fit (x * y + patVal t pz) t sat
  | .div => fit (x.tdiv y) t sat
  | .rem => fit (x - y * x.tdiv y) t sat
  | .min => fit (if y < x then y else x) t sat
  | .max => fit (if x < y then y else x) t sat
  | .and => (px &&& py) % m
  | .or => (px ||| py) % m
  | .xor => (px ^^^ py) % m
  | .andn => (px % m) ^^^ ((px &&& py) % m)
  | .not => m - 1 - px % m
  | .neg => fit (-x) t sat
  | .abs => fit x.natAbs t sat

/-- Ext to `wr` bits (R98). -/
def extTo (p : Nat) (t : ITy) (wr : Nat) : Nat := (ext64 p t).toNat % 2 ^ wr

/-- The register width of a lane operand (R98). -/
def wrOf (t : ITy) : Nat := if t.w = 64 then 64 else 32

/-- The shifts of R105. -/
inductive ShiftOp where
  | shl | shr | sar | rot
  deriving DecidableEq, Repr

/-- The result pattern of a shift by `n` (R105). -/
def shiftPat (k : ShiftOp) (w p n : Nat) : Nat :=
  let q := p % 2 ^ w
  match k with
  | .shl => if w ≤ n then 0 else q * 2 ^ n % 2 ^ w
  | .shr => if w ≤ n then 0 else q / 2 ^ n
  | .sar => (floorShift (patVal ⟨w, true⟩ q) (min n w) % 2 ^ w).toNat
  | .rot => let r := n % w; (q * 2 ^ r % 2 ^ w) + q / 2 ^ (w - r)

/-- The bit counts and the reversal of R106. -/
inductive BitOp where
  | clz | ctz | popc | brev
  deriving DecidableEq, Repr

/-- Their results (R106). -/
def bitPat (k : BitOp) (w p : Nat) : Nat :=
  match k with
  | .clz => clzOf w (p % 2 ^ w)
  | .ctz => ctzOf w (p % 2 ^ w)
  | .popc => popcOf w p
  | .brev => brevOf w p

/-- pos of a bit-field control word (R107). -/
def fieldPos (q : Nat) : Nat := q % 64
/-- len of a bit-field control word (R107). -/
def fieldLen (q w : Nat) : Nat := min (q / 256 % 128) w

/-- `bfx` (R107). -/
def bfxPat (t : ITy) (p q : Nat) : Nat :=
  let len := fieldLen q t.w
  let g := floorShift (patVal t p) (fieldPos q) % 2 ^ len
  let g' := if t.signed ∧ 0 < len ∧ 2 ^ (len - 1) ≤ g then g - 2 ^ len else g
  fit g' t false

/-- `bfi` (R107): bits pos to pos + len - 1 below W from a, the others from c. -/
def bfiPat (t : ITy) (pa pc q : Nat) : Nat :=
  let pos := fieldPos q
  let top := min (pos + fieldLen q t.w) t.w
  let c := pc % 2 ^ t.w
  if top ≤ pos then c
  else c % 2 ^ pos + 2 ^ pos * (pa % 2 ^ (top - pos)) + 2 ^ top * (c / 2 ^ top)

/-- COND of `cmp` (R108). -/
def cmpHolds (t : ITy) (cond px py : Nat) : Bool :=
  let x := patVal t px
  let y := patVal t py
  match cond with
  | 0 => x = y
  | 1 => x ≠ y
  | 2 => x < y
  | 3 => x ≤ y
  | 4 => y < x
  | 5 => y ≤ x
  | _ => (px &&& py) % 2 ^ t.w ≠ 0

/-- COMB of `cmp` (R108). -/
def combine (comb : Nat) (old t : Bool) : Bool :=
  match comb with | 1 => old && t | 2 => old || t | _ => t

/-- SourceLane of `shfl` (R112). -/
def sourceLane (mode l y : Nat) : Nat :=
  match mode with
  | 0 => y % 32
  | 1 => (l + y) % 32
  | 2 =>
    let g := min (y % 8) 5
    let j := y / 8 % 32
    l - l % 2 ^ g + j % 2 ^ g
  | _ => l ^^^ (y % 32)

/-- `icvt` (R116): v / 2^n rounded once, then Fit. Since |v| < 2^65, every n from 67 on rounds as 67 does. -/
def icvtPat (src dst : ITy) (sat : Bool) (rnd p n : Nat) : Nat :=
  let v := patVal src p
  fit (roundInt rnd (v < 0) v.natAbs (2 ^ min n 67)) dst sat

/-! ## Lane instructions -/

/-- The common part of a lane word of this chapter. -/
def LArgs.desc (x : LArgs) (op : Nat) (legal : Bool) (uses : List Use) (w : Nat) (wd : Nat) : Desc :=
  { uni := false, op := op, len := x.len, pr := x.pr, neg := x.neg, legal := legal, uses := uses
    a := .name x.a, b := x.b, c := .name x.c, wa := w, wb := w, skip := .lane x.d wd (some .int) }

/-- add, sub, mul, mad, min, max, and the logic operations (R102, R104). -/
def laneInt (k : IntOp) (op : Nat) (legal : Bool) (x : LArgs) (s : State) : State :=
  let t := laneTy x.ty
  let w := wrOf t
  let D := x.desc op legal ([.dst x.d w, .src x.a w] ++ x.b.use w ++ (if k = .mad then [.src x.c w] else [])) w w
  D.lanewise s x.d w (some .int) (fun f =>
    extTo (intPat k t x.hi x.sat (s.rd f x.a w) (s.arg f x.b w) (s.rd f x.c w)) t w)

/-- not, neg and abs: b is unused (R104). -/
def laneInt1 (k : IntOp) (op : Nat) (legal : Bool) (x : LArgs) (s : State) : State :=
  let t := laneTy x.ty
  let w := wrOf t
  let D := { x.desc op legal [.dst x.d w, .src x.a w] w w with b := .none }
  D.lanewise s x.d w (some .int) (fun f => extTo (intPat k t false x.sat (s.rd f x.a w) 0 0) t w)

/-- The entries of a division by zero (R372; log 11): the other lanes are prepared with their result, and the lanes of a
zero divisor with a free value, since the spec states none. -/
def divRecs (s : State) (base : List (Nat × LaneRec)) (zero : Word) (val : Nat → Nat) : List (Nat × LaneRec) :=
  base.map (fun x =>
    let v : DWord := if zero.getLsbD x.1 then Config.freeWord s.tick x.1 else BitVec.ofNat 64 (val x.1)
    (x.1, { x.2 with dflt := v, res := v.setWidth 128, exc := 0, wr := x.2.act }))

/-- div and rem: a zero divisor in any active fibre traps before any is written (R103). -/
def laneDiv (k : IntOp) (op : Nat) (legal : Bool) (x : LArgs) (s : State) : State :=
  let t := laneTy x.ty
  let w := wrOf t
  let D := x.desc op legal ([.dst x.d w, .src x.a w] ++ x.b.use w) w w
  let act := s.active x.pr x.neg
  let res := fun f : Fibre => extTo (intPat k t false x.sat (s.rd f x.a w) (s.arg f x.b w) 0) t w
  let z := act.filter (fun f => patVal t (s.arg f x.b w) = 0)
  if z.isEmpty then D.lanewise s x.d w (some .int) res
  else D.run s (.trap { D.trap s 0x008 (laneMask z) with
      lanes := divRecs s (D.lanes s (laneMask z)) (laneMask z) (fun l =>
        match act.find? (fun f => f.lane = l) with | some f => res f | none => 0) })

/-- shl, shr, sar and rot: the amount is a single register (R105). -/
def laneShift (k : ShiftOp) (op : Nat) (legal : Bool) (x : LArgs) (s : State) : State :=
  let t := laneTy x.ty
  let w := wrOf t
  let D := { x.desc op legal ([.dst x.d w, .src x.a w] ++ x.b.use 32) w w with wb := 32 }
  D.lanewise s x.d w (some .int) (fun f => extTo (shiftPat k t.w (s.rd f x.a w) (s.arg f x.b 32)) t w)

/-- clz, ctz, popc: a 32-bit result; brev: width Wr (R106). -/
def laneBits (k : BitOp) (op : Nat) (legal : Bool) (x : LArgs) (s : State) : State :=
  let t := laneTy x.ty
  let w := wrOf t
  let wd := if k = .brev then w else 32
  let D := { x.desc op legal [.dst x.d wd, .src x.a w] w wd with b := .none }
  D.lanewise s x.d wd (some .int) (fun f =>
    if k = .brev then extTo (bitPat k t.w (s.rd f x.a w)) t w else bitPat k t.w (s.rd f x.a w))

/-- bfx (R107). -/
def laneBfx (op : Nat) (legal : Bool) (x : LArgs) (s : State) : State :=
  let t := laneTy x.ty
  let w := wrOf t
  let D := { x.desc op legal ([.dst x.d w, .src x.a w] ++ x.b.use 32) w w with wb := 32 }
  D.lanewise s x.d w (some .int) (fun f => extTo (bfxPat t (s.rd f x.a w) (s.arg f x.b 32)) t w)

/-- bfi (R107). -/
def laneBfi (op : Nat) (legal : Bool) (x : LArgs) (s : State) : State :=
  let t := laneTy x.ty
  let w := wrOf t
  let D := { x.desc op legal ([.dst x.d w, .src x.a w] ++ x.b.use 32 ++ [.src x.c w]) w w with wb := 32 }
  D.lanewise s x.d w (some .int) (fun f =>
    extTo (bfiPat t (s.rd f x.a w) (s.rd f x.c w) (s.arg f x.b 32)) t w)

/-- cmp: a predicate destination with COND and COMB; no latch (R99, R108). In LL, bits 7:6 of d8 must be 0, else 0x040. -/
def laneCmp (op : Nat) (legal : Bool) (comb : Nat) (x : LArgs) (s : State) : State :=
  let t := laneTy x.ty
  let w := wrOf t
  let pd := x.dn % 8
  let D := { x.desc op legal ([.below x.dn 64, .src x.a w] ++ x.b.use w) w w with skip := .pred pd comb }
  D.run s (.done (s.writePreds pd ((s.active x.pr x.neg).map (fun f =>
    (f.lane, combine comb (f.pred pd) (cmpHolds t (x.dn / 8 % 8) (s.rd f x.a w) (s.arg f x.b w)))))))

/-- sel: a or b by a predicate in c8<3:0>; c8<7:4> must be 0, else 0x040 (R109). -/
def laneSel (op : Nat) (legal : Bool) (o : LF) (s : State) : State :=
  let x := llArgs o
  let w := wrOf (laneTy x.ty)
  let c := o.c.toNat
  let D := { x.desc op legal ([.dst x.d w, .src x.a w] ++ x.b.use w ++ [.below c 16]) w w with c := .none }
  D.lanewise s x.d w (some .int) (fun f =>
    if f.pred (c % 8) != o.c.getLsbD 3 then s.rd f x.a w else s.arg f x.b w)

/-- mov: a copy over Wr bits (R110). -/
def laneMov (op : Nat) (legal : Bool) (x : LArgs) (s : State) : State :=
  let w := wrOf (laneTy x.ty)
  let D := { x.desc op legal [.dst x.d w, .src x.a w] w w with b := .none }
  D.lanewise s x.d w (some .int) (fun f => s.rd f x.a w)

/-- movi: the immediate (R110). -/
def laneMovi (op : Nat) (legal : Bool) (x : LArgs) (s : State) : State :=
  let w := wrOf (laneTy x.ty)
  let D := { x.desc op legal [.dst x.d w] w w with a := .none }
  D.lanewise s x.d w (some .int) (fun f => s.arg f x.b w)

/-- lid: the lane index (R111). -/
def laneLid (op : Nat) (legal : Bool) (x : LArgs) (s : State) : State :=
  let D := { x.desc op legal [.dst x.d 32] 32 32 with a := .none, b := .none }
  D.lanewise s x.d 32 (some .int) (fun f => f.lane)

/-- The tag code that vtag answers for a name (R111, R33). -/
def tagCode (encv : Nat) (fr : Frame) (n : Name) : Nat :=
  if encv = 1 then 2
  else match n with
    | .v r => (match fr.tag r with | .u _ => 0 | .a _ _ => 1 | .g => 2)
    | .o _ | .latch _ => 2
    | .lane => 1
    | _ => 0

/-- vtag (R111). -/
def laneVtag (op : Nat) (legal : Bool) (x : LArgs) (s : State) : State :=
  let D := { x.desc op legal [.dst x.d 32, .src x.a 32] 32 32 with b := .none }
  D.lanewise s x.d 32 (some .int) (fun _ => tagCode s.encv s.frm x.a)

/-- shfl (R112): a value of another active fibre of the batch, or the fibre's own. -/
def laneShfl (op : Nat) (legal : Bool) (mode w : Nat) (x : LArgs) (s : State) : State :=
  let D := { x.desc op legal ([.dst x.d w, .src x.a w] ++ x.b.use 32) w w with wb := 32 }
  let act := s.active x.pr x.neg
  D.lanewise s x.d w (some .int) (fun f =>
    match act.find? (fun g => g.lane = sourceLane mode f.lane (s.arg f x.b 32)) with
    | some g => s.rd g x.a w
    | none => s.rd f x.a w)

/-- The value of `vote` (R113): modes mask, some, every, same. -/
def voteVal (mode : Nat) (vs : List (Nat × Nat)) : Nat :=
  match mode with
  | 0 => (vs.filter (fun x => x.2 ≠ 0)).foldl (fun m x => m + 2 ^ x.1) 0
  | 1 => if vs.any (fun x => x.2 ≠ 0) then 1 else 0
  | 2 => if vs.all (fun x => x.2 ≠ 0) then 1 else 0
  | _ => if vs.all (fun x => vs.all (fun y => x.2 = y.2)) then 1 else 0

/-- vote (R113). -/
def laneVote (op : Nat) (legal : Bool) (mode : Nat) (x : LArgs) (s : State) : State :=
  let w := wrOf (laneTy x.ty)
  let D := { x.desc op legal [.dst x.d 32, .src x.a w] w 32 with b := .none }
  D.lanewise s x.d 32 (some .int) (fun _ =>
    voteVal mode ((s.active x.pr x.neg).map (fun f => (f.lane, s.rd f x.a w))))

/-- bcast: a of the lowest active fibre (R113). -/
def laneBcast (op : Nat) (legal : Bool) (x : LArgs) (s : State) : State :=
  let w := wrOf (laneTy x.ty)
  let D := { x.desc op legal [.dst x.d w, .src x.a w] w w with b := .none }
  D.lanewise s x.d w (some .int) (fun _ =>
    match s.active x.pr x.neg with | f :: _ => s.rd f x.a w | [] => 0)

/-- icvt (R116): the amount is a single register, or imm32<5:0>. -/
def laneIcvt (op : Nat) (legal : Bool) (srcty : BitVec 3) (rnd : Nat) (x : LArgs) (s : State) : State :=
  let st := laneTy srcty
  let dt := laneTy x.ty
  let D := { x.desc op legal ([.dst x.d (wrOf dt), .src x.a (wrOf st)] ++ x.b.use 32) (wrOf st) (wrOf dt) with wb := 32 }
  D.lanewise s x.d (wrOf dt) (some .int) (fun f =>
    extTo (icvtPat st dt x.sat rnd (s.rd f x.a (wrOf st)) (s.arg f x.b 32)) dt (wrOf dt))

/-! ## Uniform instructions: Wr is 64 and no latch is written (R117) -/

/-- The common part of a uniform word. -/
def UArgs.desc (x : UArgs) (op : Nat) (legal : Bool) (uses : List Use) : Desc :=
  { uni := true, op := op, len := x.len, pr := x.pr, neg := x.neg, legal := legal, uses := uses
    a := .sreg x.a, b := x.b, wa := 64, wb := 64, skip := .sreg x.d 64 }

/-- sadd, ssub, smul, smin, smax and the logic operations. -/
def uniInt (k : IntOp) (op : Nat) (legal : Bool) (x : UArgs) (s : State) : State :=
  let t := uniTy x.ty
  (x.desc op legal ([.sreg x.d, .sreg x.a] ++ x.b.use 64)).scalar s x.d
    (extTo (intPat k t x.hi x.sat (s.q.sreg x.a).toNat (s.uarg x.b 64) 0) t 64)

/-- sdiv and srem: a zero divisor raises 0x008 with the members of the batch (R117). -/
def uniDiv (k : IntOp) (op : Nat) (legal : Bool) (x : UArgs) (s : State) : State :=
  let t := uniTy x.ty
  let D := x.desc op legal ([.sreg x.d, .sreg x.a] ++ x.b.use 64)
  if patVal t (s.uarg x.b 64) = 0 then
    D.runU s (.trap { D.trap s 0x008 (laneMask s.batch) with
      lanes := divRecs s (D.lanes s (laneMask s.batch)) 1 (fun _ => 0) })
  else D.scalar s x.d (extTo (intPat k t false x.sat (s.q.sreg x.a).toNat (s.uarg x.b 64) 0) t 64)

/-- sshl, sshr, ssar, srot: the amount is the low 32 bits of b (R117). -/
def uniShift (k : ShiftOp) (op : Nat) (legal : Bool) (x : UArgs) (s : State) : State :=
  let t := uniTy x.ty
  (x.desc op legal ([.sreg x.d, .sreg x.a] ++ x.b.use 32)).scalar s x.d
    (extTo (shiftPat k t.w (s.q.sreg x.a).toNat (s.uarg x.b 32)) t 64)

/-- sclz, sctz, spopc (R117). -/
def uniBits (k : BitOp) (op : Nat) (legal : Bool) (x : UArgs) (s : State) : State :=
  ({ x.desc op legal [.sreg x.d, .sreg x.a] with b := .none }).scalar s x.d
    (bitPat k (uniTy x.ty).w (s.q.sreg x.a).toNat)

/-- sbfx (R115). -/
def uniBfx (op : Nat) (legal : Bool) (x : UArgs) (s : State) : State :=
  let t := uniTy x.ty
  (x.desc op legal ([.sreg x.d, .sreg x.a] ++ x.b.use 32)).scalar s x.d
    (extTo (bfxPat t (s.q.sreg x.a).toNat (s.uarg x.b 32)) t 64)

/-- scmp: kd with COND and COMB; in UL, bits 7:6 of d8 must be 0, else 0x040 (R108). -/
def uniCmp (op : Nat) (legal : Bool) (comb : Nat) (x : UArgs) (s : State) : State :=
  let t := uniTy x.ty
  let kd := x.d % 8
  let D := { x.desc op legal ([.below x.d 64, .sreg x.a] ++ x.b.use 64) with skip := .kpred kd comb }
  D.runU s (.done (s.setK kd (combine comb (s.q.kpred kd)
    (cmpHolds t (x.d / 8 % 8) (s.q.sreg x.a).toNat (s.uarg x.b 64)))))

/-- ssel (R109). -/
def uniSel (op : Nat) (legal : Bool) (o : LF) (s : State) : State :=
  let x := ulArgs o
  (x.desc op legal [.sreg x.d, .sreg x.a, .sreg o.b.toNat, .below x.c 16]).scalar s x.d
    (if s.q.kpred (x.c % 8) != o.c.getLsbD 3 then (s.q.sreg x.a).toNat else s.uarg x.b 64)

/-- smov (R110). -/
def uniMov (op : Nat) (legal : Bool) (x : UArgs) (s : State) : State :=
  ({ x.desc op legal [.sreg x.d, .sreg x.a] with b := .none }).scalar s x.d (s.q.sreg x.a).toNat

/-- smovi: the immediate, or with .hi bits 63:32 alone (R110). -/
def uniMovi (op : Nat) (legal : Bool) (o : IF) (s : State) : State :=
  let x := uiArgs o
  let D := { x.desc op legal [.sreg x.d] with a := .none }
  D.scalar s x.d (if o.top then (s.q.sreg x.d).toNat % 2 ^ 32 + o.imm.toNat * 2 ^ 32 else s.uarg x.b 64)

/-- All of a list are equal to the first. -/
def allSame (vs : List Nat) : Bool :=
  match vs with | [] => true | v :: rest => rest.all (fun x => x = v)

/-- The value that sget takes from the batch, or none for 0x043 (R114, R33). A register tagged U gives the tag's value, also where a
fibre that returned into the frame after the last write holds another one (log 101). -/
def sgetVal (s : State) (n : Name) (w : Nat) : Option Nat :=
  let vals := s.batch.map (fun f => s.rd f n w)
  if s.encv = 1 then some (vals.headD 0)
  else match n with
    | .v r =>
      (match s.frm.tag r, s.frm.tag (r + 1) with
       | .u x, .u y => some (if w = 64 then x.toNat + 2 ^ 32 * y.toNat else x.toNat)
       | .u x, _ => if w = 64 then none else some x.toNat
       | _, _ => none)
    | .o _ | .latch _ => if allSame vals then some (vals.headD 0) else none
    | .lane => (match s.batch with | [f] => some f.lane | _ => none)
    | _ => some (vals.headD (match n with | .s r => (s.q.sreg r).toNat % 2 ^ w | _ => 0))

/-- sget: a lane value to the uniform side; TY uses the lane encoding (R97, R114). -/
def uniSget (op : Nat) (legal : Bool) (ty : BitVec 3) (n : Name) (x : UArgs) (s : State) : State :=
  let t := laneTy ty
  let w := wrOf t
  let D := { x.desc op legal [.sreg x.d, .src n w] with a := .none, b := .none }
  match sgetVal s n w with
  | some v => D.scalar s x.d (extTo (v % 2 ^ t.w) t 64)
  | none => D.runU s (.stop 0x043 (laneMask s.batch) 0)

/-! ## The meanings, one for each instruction -/

/-- ADD_LS (R102). -/
def execAddLS (o : SF) (s : State) : Host.Outcome State Fault Refusal :=
  .next (laneInt .add 0x00 true (lsArgs o) s)

/-- ADD_LL (R102). -/
def execAddLL (o : LF) (s : State) : Host.Outcome State Fault Refusal :=
  .next (laneInt .add 0x00 o.tySat (llArgs o) s)

/-- ADD_LI (R102). -/
def execAddLI (o : IF) (s : State) : Host.Outcome State Fault Refusal :=
  .next (laneInt .add 0x00 true (liArgs o) s)

/-- SUB_LS (R102). -/
def execSubLS (o : SF) (s : State) : Host.Outcome State Fault Refusal :=
  .next (laneInt .sub 0x01 true (lsArgs o) s)

/-- SUB_LL (R102). -/
def execSubLL (o : LF) (s : State) : Host.Outcome State Fault Refusal :=
  .next (laneInt .sub 0x01 o.tySat (llArgs o) s)

/-- SUB_LI (R102). -/
def execSubLI (o : IF) (s : State) : Host.Outcome State Fault Refusal :=
  .next (laneInt .sub 0x01 true (liArgs o) s)

/-- MUL_LS (R102). -/
def execMulLS (o : SF) (s : State) : Host.Outcome State Fault Refusal :=
  .next (laneInt .mul 0x02 true (lsArgs o) s)

/-- MUL_LL (R102). -/
def execMulLL (o : LF) (s : State) : Host.Outcome State Fault Refusal :=
  .next (laneInt .mul 0x02 o.legalMul (llArgs o) s)

/-- MUL_LI (R102). -/
def execMulLI (o : IF) (s : State) : Host.Outcome State Fault Refusal :=
  .next (laneInt .mul 0x02 true (liArgs o) s)

/-- MAD_LL (R102). -/
def execMadLL (o : LF) (s : State) : Host.Outcome State Fault Refusal :=
  .next (laneInt .mad 0x03 o.tySat (llArgs o) s)

/-- DIV_LS (R103). -/
def execDivLS (o : SF) (s : State) : Host.Outcome State Fault Refusal :=
  .next (laneDiv .div 0x04 true (lsArgs o) s)

/-- DIV_LL (R103). -/
def execDivLL (o : LF) (s : State) : Host.Outcome State Fault Refusal :=
  .next (laneDiv .div 0x04 o.tySat (llArgs o) s)

/-- DIV_LI (R103). -/
def execDivLI (o : IF) (s : State) : Host.Outcome State Fault Refusal :=
  .next (laneDiv .div 0x04 true (liArgs o) s)

/-- REM_LS (R103). -/
def execRemLS (o : SF) (s : State) : Host.Outcome State Fault Refusal :=
  .next (laneDiv .rem 0x05 true (lsArgs o) s)

/-- REM_LL (R103). -/
def execRemLL (o : LF) (s : State) : Host.Outcome State Fault Refusal :=
  .next (laneDiv .rem 0x05 o.tyOnly (llArgs o) s)

/-- REM_LI (R103). -/
def execRemLI (o : IF) (s : State) : Host.Outcome State Fault Refusal :=
  .next (laneDiv .rem 0x05 o.tyOnly (liArgs o) s)

/-- MIN_LS (R102). -/
def execMinLS (o : SF) (s : State) : Host.Outcome State Fault Refusal :=
  .next (laneInt .min 0x06 true (lsArgs o) s)

/-- MIN_LL (R102). -/
def execMinLL (o : LF) (s : State) : Host.Outcome State Fault Refusal :=
  .next (laneInt .min 0x06 o.tyOnly (llArgs o) s)

/-- MIN_LI (R102). -/
def execMinLI (o : IF) (s : State) : Host.Outcome State Fault Refusal :=
  .next (laneInt .min 0x06 o.tyOnly (liArgs o) s)

/-- MAX_LS (R102). -/
def execMaxLS (o : SF) (s : State) : Host.Outcome State Fault Refusal :=
  .next (laneInt .max 0x07 true (lsArgs o) s)

/-- MAX_LL (R102). -/
def execMaxLL (o : LF) (s : State) : Host.Outcome State Fault Refusal :=
  .next (laneInt .max 0x07 o.tyOnly (llArgs o) s)

/-- MAX_LI (R102). -/
def execMaxLI (o : IF) (s : State) : Host.Outcome State Fault Refusal :=
  .next (laneInt .max 0x07 o.tyOnly (liArgs o) s)

/-- AND_LS (R104). -/
def execAndLS (o : SF) (s : State) : Host.Outcome State Fault Refusal :=
  .next (laneInt .and 0x08 true (lsArgs o) s)

/-- AND_LL (R104). -/
def execAndLL (o : LF) (s : State) : Host.Outcome State Fault Refusal :=
  .next (laneInt .and 0x08 o.tyOnly (llArgs o) s)

/-- AND_LI (R104). -/
def execAndLI (o : IF) (s : State) : Host.Outcome State Fault Refusal :=
  .next (laneInt .and 0x08 o.tyOnly (liArgs o) s)

/-- OR_LS (R104). -/
def execOrLS (o : SF) (s : State) : Host.Outcome State Fault Refusal :=
  .next (laneInt .or 0x08 true (lsArgs o) s)

/-- OR_LL (R104). -/
def execOrLL (o : LF) (s : State) : Host.Outcome State Fault Refusal :=
  .next (laneInt .or 0x08 o.tyOnly (llArgs o) s)

/-- OR_LI (R104). -/
def execOrLI (o : IF) (s : State) : Host.Outcome State Fault Refusal :=
  .next (laneInt .or 0x08 o.tyOnly (liArgs o) s)

/-- XOR_LS (R104). -/
def execXorLS (o : SF) (s : State) : Host.Outcome State Fault Refusal :=
  .next (laneInt .xor 0x08 true (lsArgs o) s)

/-- XOR_LL (R104). -/
def execXorLL (o : LF) (s : State) : Host.Outcome State Fault Refusal :=
  .next (laneInt .xor 0x08 o.tyOnly (llArgs o) s)

/-- XOR_LI (R104). -/
def execXorLI (o : IF) (s : State) : Host.Outcome State Fault Refusal :=
  .next (laneInt .xor 0x08 o.tyOnly (liArgs o) s)

/-- ANDN_LS (R104). -/
def execAndnLS (o : SF) (s : State) : Host.Outcome State Fault Refusal :=
  .next (laneInt .andn 0x08 true (lsArgs o) s)

/-- ANDN_LL (R104). -/
def execAndnLL (o : LF) (s : State) : Host.Outcome State Fault Refusal :=
  .next (laneInt .andn 0x08 o.tyOnly (llArgs o) s)

/-- ANDN_LI (R104). -/
def execAndnLI (o : IF) (s : State) : Host.Outcome State Fault Refusal :=
  .next (laneInt .andn 0x08 o.tyOnly (liArgs o) s)

/-- NOT_LS (R104). -/
def execNotLS (o : SF) (s : State) : Host.Outcome State Fault Refusal :=
  .next (laneInt1 .not 0x09 true (lsArgs o) s)

/-- NOT_LL (R104). -/
def execNotLL (o : LF) (s : State) : Host.Outcome State Fault Refusal :=
  .next (laneInt1 .not 0x09 o.tyOnly (llArgs o) s)

/-- NEG_LS (R104). -/
def execNegLS (o : SF) (s : State) : Host.Outcome State Fault Refusal :=
  .next (laneInt1 .neg 0x09 true (lsArgs o) s)

/-- NEG_LL (R104). -/
def execNegLL (o : LF) (s : State) : Host.Outcome State Fault Refusal :=
  .next (laneInt1 .neg 0x09 o.legalNeg (llArgs o) s)

/-- ABS_LS (R104). -/
def execAbsLS (o : SF) (s : State) : Host.Outcome State Fault Refusal :=
  .next (laneInt1 .abs 0x09 true (lsArgs o) s)

/-- ABS_LL (R104). -/
def execAbsLL (o : LF) (s : State) : Host.Outcome State Fault Refusal :=
  .next (laneInt1 .abs 0x09 o.legalNeg (llArgs o) s)

/-- SHL_LS (R105). -/
def execShlLS (o : SF) (s : State) : Host.Outcome State Fault Refusal :=
  .next (laneShift .shl 0x0A true (lsArgs o) s)

/-- SHL_LL (R105). -/
def execShlLL (o : LF) (s : State) : Host.Outcome State Fault Refusal :=
  .next (laneShift .shl 0x0A o.tyOnly (llArgs o) s)

/-- SHL_LI (R105). -/
def execShlLI (o : IF) (s : State) : Host.Outcome State Fault Refusal :=
  .next (laneShift .shl 0x0A o.tyOnly { liArgs o with b := .imm (o.imm.setWidth 64) } s)

/-- SHR_LS (R105). -/
def execShrLS (o : SF) (s : State) : Host.Outcome State Fault Refusal :=
  .next (laneShift .shr 0x0A true (lsArgs o) s)

/-- SHR_LL (R105). -/
def execShrLL (o : LF) (s : State) : Host.Outcome State Fault Refusal :=
  .next (laneShift .shr 0x0A o.tyOnly (llArgs o) s)

/-- SHR_LI (R105). -/
def execShrLI (o : IF) (s : State) : Host.Outcome State Fault Refusal :=
  .next (laneShift .shr 0x0A o.tyOnly { liArgs o with b := .imm (o.imm.setWidth 64) } s)

/-- SAR_LS (R105). -/
def execSarLS (o : SF) (s : State) : Host.Outcome State Fault Refusal :=
  .next (laneShift .sar 0x0A true (lsArgs o) s)

/-- SAR_LL (R105). -/
def execSarLL (o : LF) (s : State) : Host.Outcome State Fault Refusal :=
  .next (laneShift .sar 0x0A o.tyOnly (llArgs o) s)

/-- SAR_LI (R105). -/
def execSarLI (o : IF) (s : State) : Host.Outcome State Fault Refusal :=
  .next (laneShift .sar 0x0A o.tyOnly { liArgs o with b := .imm (o.imm.setWidth 64) } s)

/-- ROT_LS (R105). -/
def execRotLS (o : SF) (s : State) : Host.Outcome State Fault Refusal :=
  .next (laneShift .rot 0x0A true (lsArgs o) s)

/-- ROT_LL (R105). -/
def execRotLL (o : LF) (s : State) : Host.Outcome State Fault Refusal :=
  .next (laneShift .rot 0x0A o.tyOnly (llArgs o) s)

/-- ROT_LI (R105). -/
def execRotLI (o : IF) (s : State) : Host.Outcome State Fault Refusal :=
  .next (laneShift .rot 0x0A o.tyOnly { liArgs o with b := .imm (o.imm.setWidth 64) } s)

/-- CLZ_LS (R106). -/
def execClzLS (o : SF) (s : State) : Host.Outcome State Fault Refusal :=
  .next (laneBits .clz 0x0B true (lsArgs o) s)

/-- CLZ_LL (R106). -/
def execClzLL (o : LF) (s : State) : Host.Outcome State Fault Refusal :=
  .next (laneBits .clz 0x0B o.tyOnly (llArgs o) s)

/-- CTZ_LS (R106). -/
def execCtzLS (o : SF) (s : State) : Host.Outcome State Fault Refusal :=
  .next (laneBits .ctz 0x0B true (lsArgs o) s)

/-- CTZ_LL (R106). -/
def execCtzLL (o : LF) (s : State) : Host.Outcome State Fault Refusal :=
  .next (laneBits .ctz 0x0B o.tyOnly (llArgs o) s)

/-- POPC_LS (R106). -/
def execPopcLS (o : SF) (s : State) : Host.Outcome State Fault Refusal :=
  .next (laneBits .popc 0x0B true (lsArgs o) s)

/-- POPC_LL (R106). -/
def execPopcLL (o : LF) (s : State) : Host.Outcome State Fault Refusal :=
  .next (laneBits .popc 0x0B o.tyOnly (llArgs o) s)

/-- BREV_LS (R106). -/
def execBrevLS (o : SF) (s : State) : Host.Outcome State Fault Refusal :=
  .next (laneBits .brev 0x0B true (lsArgs o) s)

/-- BREV_LL (R106). -/
def execBrevLL (o : LF) (s : State) : Host.Outcome State Fault Refusal :=
  .next (laneBits .brev 0x0B o.tyOnly (llArgs o) s)

/-- BFX_LS (R107). -/
def execBfxLS (o : SF) (s : State) : Host.Outcome State Fault Refusal :=
  .next (laneBfx 0x0C true (lsArgs o) s)

/-- BFX_LL (R107). -/
def execBfxLL (o : LF) (s : State) : Host.Outcome State Fault Refusal :=
  .next (laneBfx 0x0C o.tyOnly (llArgs o) s)

/-- BFX_LI (R107). -/
def execBfxLI (o : IF) (s : State) : Host.Outcome State Fault Refusal :=
  .next (laneBfx 0x0C o.tyOnly { liArgs o with b := .imm (o.imm.setWidth 64) } s)

/-- BFI_LL (R107). -/
def execBfiLL (o : LF) (s : State) : Host.Outcome State Fault Refusal :=
  .next (laneBfi 0x0C o.tyOnly (llArgs o) s)

/-- CMP_LS (R108). -/
def execCmpLS (o : SF) (s : State) : Host.Outcome State Fault Refusal :=
  .next (laneCmp 0x0D ((o.cond ≠ 7 : Bool)) 0 (lsArgs o) s)

/-- CMP_LL (R108). -/
def execCmpLL (o : LF) (s : State) : Host.Outcome State Fault Refusal :=
  .next (laneCmp 0x0D o.legalCmp o.comb.toNat (llArgs o) s)

/-- CMP_LI (R108). -/
def execCmpLI (o : IF) (s : State) : Host.Outcome State Fault Refusal :=
  .next (laneCmp 0x0D o.legalCmp 0 (liArgs o) s)

/-- SEL_LL (R109). -/
def execSelLL (o : LF) (s : State) : Host.Outcome State Fault Refusal :=
  .next (laneSel 0x0E o.legalMov o s)

/-- MOV_LS (R110). -/
def execMovLS (o : SF) (s : State) : Host.Outcome State Fault Refusal :=
  .next (laneMov 0x0F true (lsArgs o) s)

/-- MOV_LL (R110). -/
def execMovLL (o : LF) (s : State) : Host.Outcome State Fault Refusal :=
  .next (laneMov 0x0F o.legalMov (llArgs o) s)

/-- MOVI_LI (R110). -/
def execMoviLI (o : IF) (s : State) : Host.Outcome State Fault Refusal :=
  .next (laneMovi 0x0F o.legalMovi (liArgs o) s)

/-- SHFL_LS (R112). -/
def execShflLS (o : SF) (m2 : BitVec 2) (s : State) : Host.Outcome State Fault Refusal :=
  .next (laneShfl 0x28 true m2.toNat 32 (lsArgs o) s)

/-- SHFL_LL (R112). -/
def execShflLL (o : LF) (s : State) : Host.Outcome State Fault Refusal :=
  .next (laneShfl 0x28 o.legalShfl o.mode.toNat (wrOf (laneTy o.ty)) (llArgs o) s)

/-- SHFL_LI (R112). -/
def execShflLI (o : IF) (s : State) : Host.Outcome State Fault Refusal :=
  .next (laneShfl 0x28 o.tyOnly (o.modi.toNat % 4) (if o.modi.getLsbD 2 then 64 else 32) { liArgs o with b := .imm (o.imm.setWidth 64) } s)

/-- VOTE_LL (R113). -/
def execVoteLL (o : LF) (s : State) : Host.Outcome State Fault Refusal :=
  .next (laneVote 0x29 o.legalShfl o.mode.toNat (llArgs o) s)

/-- BCAST_LS (R113). -/
def execBcastLS (o : SF) (s : State) : Host.Outcome State Fault Refusal :=
  .next (laneBcast 0x29 true (lsArgs o) s)

/-- BCAST_LL (R113). -/
def execBcastLL (o : LF) (s : State) : Host.Outcome State Fault Refusal :=
  .next (laneBcast 0x29 o.legalMov (llArgs o) s)

/-- LID_LS (R111). -/
def execLidLS (o : SF) (s : State) : Host.Outcome State Fault Refusal :=
  .next (laneLid 0x2A true (lsArgs o) s)

/-- LID_LL (R111). -/
def execLidLL (o : LF) (s : State) : Host.Outcome State Fault Refusal :=
  .next (laneLid 0x2A o.plain (llArgs o) s)

/-- VTAG_LS (R111). -/
def execVtagLS (o : SF) (s : State) : Host.Outcome State Fault Refusal :=
  .next (laneVtag 0x2A true (lsArgs o) s)

/-- VTAG_LL (R111). -/
def execVtagLL (o : LF) (s : State) : Host.Outcome State Fault Refusal :=
  .next (laneVtag 0x2A o.plain (llArgs o) s)

/-- ICVT_LL (R116). -/
def execIcvtLL (o : LF) (s : State) : Host.Outcome State Fault Refusal :=
  .next (laneIcvt 0x34 o.legalIcvt o.low3 o.icvtRnd.toNat (llArgs o) s)

/-- ICVT_LI (R116). -/
def execIcvtLI (o : IF) (s : State) : Host.Outcome State Fault Refusal :=
  .next (laneIcvt 0x34 o.legalIcvt o.srcty o.icvtRnd.toNat { liArgs o with b := .imm (o.imm.setWidth 64 &&& 63) } s)

/-- SADD_US (R117). -/
def execSaddUS (o : SF) (s : State) : Host.Outcome State Fault Refusal :=
  .next (uniInt .add 0x00 true (usArgs o) s)

/-- SADD_UL (R117). -/
def execSaddUL (o : LF) (s : State) : Host.Outcome State Fault Refusal :=
  .next (uniInt .add 0x00 o.tySat (ulArgs o) s)

/-- SADD_UI (R117). -/
def execSaddUI (o : IF) (s : State) : Host.Outcome State Fault Refusal :=
  .next (uniInt .add 0x00 true (uiArgs o) s)

/-- SSUB_US (R117). -/
def execSsubUS (o : SF) (s : State) : Host.Outcome State Fault Refusal :=
  .next (uniInt .sub 0x01 true (usArgs o) s)

/-- SSUB_UL (R117). -/
def execSsubUL (o : LF) (s : State) : Host.Outcome State Fault Refusal :=
  .next (uniInt .sub 0x01 o.tySat (ulArgs o) s)

/-- SSUB_UI (R117). -/
def execSsubUI (o : IF) (s : State) : Host.Outcome State Fault Refusal :=
  .next (uniInt .sub 0x01 true (uiArgs o) s)

/-- SMUL_US (R117). -/
def execSmulUS (o : SF) (s : State) : Host.Outcome State Fault Refusal :=
  .next (uniInt .mul 0x02 true (usArgs o) s)

/-- SMUL_UL (R117). -/
def execSmulUL (o : LF) (s : State) : Host.Outcome State Fault Refusal :=
  .next (uniInt .mul 0x02 o.legalMul (ulArgs o) s)

/-- SMUL_UI (R117). -/
def execSmulUI (o : IF) (s : State) : Host.Outcome State Fault Refusal :=
  .next (uniInt .mul 0x02 true (uiArgs o) s)

/-- SDIV_US (R117). -/
def execSdivUS (o : SF) (s : State) : Host.Outcome State Fault Refusal :=
  .next (uniDiv .div 0x03 true (usArgs o) s)

/-- SDIV_UL (R117). -/
def execSdivUL (o : LF) (s : State) : Host.Outcome State Fault Refusal :=
  .next (uniDiv .div 0x03 o.tySat (ulArgs o) s)

/-- SDIV_UI (R117). -/
def execSdivUI (o : IF) (s : State) : Host.Outcome State Fault Refusal :=
  .next (uniDiv .div 0x03 true (uiArgs o) s)

/-- SREM_US (R117). -/
def execSremUS (o : SF) (s : State) : Host.Outcome State Fault Refusal :=
  .next (uniDiv .rem 0x03 true (usArgs o) s)

/-- SREM_UL (R117). -/
def execSremUL (o : LF) (s : State) : Host.Outcome State Fault Refusal :=
  .next (uniDiv .rem 0x03 o.tyOnly (ulArgs o) s)

/-- SREM_UI (R117). -/
def execSremUI (o : IF) (s : State) : Host.Outcome State Fault Refusal :=
  .next (uniDiv .rem 0x03 o.tyOnly (uiArgs o) s)

/-- SMIN_US (R117). -/
def execSminUS (o : SF) (s : State) : Host.Outcome State Fault Refusal :=
  .next (uniInt .min 0x04 true (usArgs o) s)

/-- SMIN_UL (R117). -/
def execSminUL (o : LF) (s : State) : Host.Outcome State Fault Refusal :=
  .next (uniInt .min 0x04 o.tyOnly (ulArgs o) s)

/-- SMIN_UI (R117). -/
def execSminUI (o : IF) (s : State) : Host.Outcome State Fault Refusal :=
  .next (uniInt .min 0x04 o.tyOnly (uiArgs o) s)

/-- SMAX_US (R117). -/
def execSmaxUS (o : SF) (s : State) : Host.Outcome State Fault Refusal :=
  .next (uniInt .max 0x04 true (usArgs o) s)

/-- SMAX_UL (R117). -/
def execSmaxUL (o : LF) (s : State) : Host.Outcome State Fault Refusal :=
  .next (uniInt .max 0x04 o.tyOnly (ulArgs o) s)

/-- SMAX_UI (R117). -/
def execSmaxUI (o : IF) (s : State) : Host.Outcome State Fault Refusal :=
  .next (uniInt .max 0x04 o.tyOnly (uiArgs o) s)

/-- SAND_US (R117). -/
def execSandUS (o : SF) (s : State) : Host.Outcome State Fault Refusal :=
  .next (uniInt .and 0x05 true (usArgs o) s)

/-- SAND_UL (R117). -/
def execSandUL (o : LF) (s : State) : Host.Outcome State Fault Refusal :=
  .next (uniInt .and 0x05 o.tyOnly (ulArgs o) s)

/-- SAND_UI (R117). -/
def execSandUI (o : IF) (s : State) : Host.Outcome State Fault Refusal :=
  .next (uniInt .and 0x05 o.tyOnly (uiArgs o) s)

/-- SOR_US (R117). -/
def execSorUS (o : SF) (s : State) : Host.Outcome State Fault Refusal :=
  .next (uniInt .or 0x05 true (usArgs o) s)

/-- SOR_UL (R117). -/
def execSorUL (o : LF) (s : State) : Host.Outcome State Fault Refusal :=
  .next (uniInt .or 0x05 o.tyOnly (ulArgs o) s)

/-- SOR_UI (R117). -/
def execSorUI (o : IF) (s : State) : Host.Outcome State Fault Refusal :=
  .next (uniInt .or 0x05 o.tyOnly (uiArgs o) s)

/-- SXOR_US (R117). -/
def execSxorUS (o : SF) (s : State) : Host.Outcome State Fault Refusal :=
  .next (uniInt .xor 0x05 true (usArgs o) s)

/-- SXOR_UL (R117). -/
def execSxorUL (o : LF) (s : State) : Host.Outcome State Fault Refusal :=
  .next (uniInt .xor 0x05 o.tyOnly (ulArgs o) s)

/-- SXOR_UI (R117). -/
def execSxorUI (o : IF) (s : State) : Host.Outcome State Fault Refusal :=
  .next (uniInt .xor 0x05 o.tyOnly (uiArgs o) s)

/-- SANDN_US (R117). -/
def execSandnUS (o : SF) (s : State) : Host.Outcome State Fault Refusal :=
  .next (uniInt .andn 0x05 true (usArgs o) s)

/-- SANDN_UL (R117). -/
def execSandnUL (o : LF) (s : State) : Host.Outcome State Fault Refusal :=
  .next (uniInt .andn 0x05 o.tyOnly (ulArgs o) s)

/-- SANDN_UI (R117). -/
def execSandnUI (o : IF) (s : State) : Host.Outcome State Fault Refusal :=
  .next (uniInt .andn 0x05 o.tyOnly (uiArgs o) s)

/-- SSHL_US (R117). -/
def execSshlUS (o : SF) (s : State) : Host.Outcome State Fault Refusal :=
  .next (uniShift .shl 0x06 true (usArgs o) s)

/-- SSHL_UL (R117). -/
def execSshlUL (o : LF) (s : State) : Host.Outcome State Fault Refusal :=
  .next (uniShift .shl 0x06 o.tyOnly (ulArgs o) s)

/-- SSHL_UI (R117). -/
def execSshlUI (o : IF) (s : State) : Host.Outcome State Fault Refusal :=
  .next (uniShift .shl 0x06 o.tyOnly { uiArgs o with b := .imm (o.imm.setWidth 64) } s)

/-- SSHR_US (R117). -/
def execSshrUS (o : SF) (s : State) : Host.Outcome State Fault Refusal :=
  .next (uniShift .shr 0x06 true (usArgs o) s)

/-- SSHR_UL (R117). -/
def execSshrUL (o : LF) (s : State) : Host.Outcome State Fault Refusal :=
  .next (uniShift .shr 0x06 o.tyOnly (ulArgs o) s)

/-- SSHR_UI (R117). -/
def execSshrUI (o : IF) (s : State) : Host.Outcome State Fault Refusal :=
  .next (uniShift .shr 0x06 o.tyOnly { uiArgs o with b := .imm (o.imm.setWidth 64) } s)

/-- SSAR_US (R117). -/
def execSsarUS (o : SF) (s : State) : Host.Outcome State Fault Refusal :=
  .next (uniShift .sar 0x06 true (usArgs o) s)

/-- SSAR_UL (R117). -/
def execSsarUL (o : LF) (s : State) : Host.Outcome State Fault Refusal :=
  .next (uniShift .sar 0x06 o.tyOnly (ulArgs o) s)

/-- SSAR_UI (R117). -/
def execSsarUI (o : IF) (s : State) : Host.Outcome State Fault Refusal :=
  .next (uniShift .sar 0x06 o.tyOnly { uiArgs o with b := .imm (o.imm.setWidth 64) } s)

/-- SROT_US (R117). -/
def execSrotUS (o : SF) (s : State) : Host.Outcome State Fault Refusal :=
  .next (uniShift .rot 0x06 true (usArgs o) s)

/-- SROT_UL (R117). -/
def execSrotUL (o : LF) (s : State) : Host.Outcome State Fault Refusal :=
  .next (uniShift .rot 0x06 o.tyOnly (ulArgs o) s)

/-- SROT_UI (R117). -/
def execSrotUI (o : IF) (s : State) : Host.Outcome State Fault Refusal :=
  .next (uniShift .rot 0x06 o.tyOnly { uiArgs o with b := .imm (o.imm.setWidth 64) } s)

/-- SCLZ_US (R117). -/
def execSclzUS (o : SF) (s : State) : Host.Outcome State Fault Refusal :=
  .next (uniBits .clz 0x07 true (usArgs o) s)

/-- SCLZ_UL (R117). -/
def execSclzUL (o : LF) (s : State) : Host.Outcome State Fault Refusal :=
  .next (uniBits .clz 0x07 o.tyOnly (ulArgs o) s)

/-- SCTZ_US (R117). -/
def execSctzUS (o : SF) (s : State) : Host.Outcome State Fault Refusal :=
  .next (uniBits .ctz 0x07 true (usArgs o) s)

/-- SCTZ_UL (R117). -/
def execSctzUL (o : LF) (s : State) : Host.Outcome State Fault Refusal :=
  .next (uniBits .ctz 0x07 o.tyOnly (ulArgs o) s)

/-- SPOPC_US (R117). -/
def execSpopcUS (o : SF) (s : State) : Host.Outcome State Fault Refusal :=
  .next (uniBits .popc 0x07 true (usArgs o) s)

/-- SPOPC_UL (R117). -/
def execSpopcUL (o : LF) (s : State) : Host.Outcome State Fault Refusal :=
  .next (uniBits .popc 0x07 o.tyOnly (ulArgs o) s)

/-- SCMP_US (R108). -/
def execScmpUS (o : SF) (s : State) : Host.Outcome State Fault Refusal :=
  .next (uniCmp 0x08 ((o.cond ≠ 7 : Bool)) 0 (usArgs o) s)

/-- SCMP_UL (R108). -/
def execScmpUL (o : LF) (s : State) : Host.Outcome State Fault Refusal :=
  .next (uniCmp 0x08 o.legalCmp o.comb.toNat (ulArgs o) s)

/-- SCMP_UI (R108). -/
def execScmpUI (o : IF) (s : State) : Host.Outcome State Fault Refusal :=
  .next (uniCmp 0x08 o.legalCmp 0 (uiArgs o) s)

/-- SSEL_UL (R109). -/
def execSselUL (o : LF) (s : State) : Host.Outcome State Fault Refusal :=
  .next (uniSel 0x09 o.plain o s)

/-- SMOV_US (R110). -/
def execSmovUS (o : SF) (s : State) : Host.Outcome State Fault Refusal :=
  .next (uniMov 0x0A true (usArgs o) s)

/-- SMOV_UL (R110). -/
def execSmovUL (o : LF) (s : State) : Host.Outcome State Fault Refusal :=
  .next (uniMov 0x0A o.plain (ulArgs o) s)

/-- SMOVI_UI (R110). -/
def execSmoviUI (o : IF) (s : State) : Host.Outcome State Fault Refusal :=
  .next (uniMovi 0x0A o.legalSmovi o s)

/-- SGET_US (R114). -/
def execSgetUS (o : SF) (s : State) : Host.Outcome State Fault Refusal :=
  .next (uniSget 0x0B true 0 (shortName o.a) (usArgs o) s)

/-- SGET_UL (R114). -/
def execSgetUL (o : LF) (s : State) : Host.Outcome State Fault Refusal :=
  .next (uniSget 0x0B o.tyOnly o.ty (longName o.a) (ulArgs o) s)

/-- SBFX_US (R115). -/
def execSbfxUS (o : SF) (s : State) : Host.Outcome State Fault Refusal :=
  .next (uniBfx 0x0B true (usArgs o) s)

/-- SBFX_UL (R115). -/
def execSbfxUL (o : LF) (s : State) : Host.Outcome State Fault Refusal :=
  .next (uniBfx 0x0B o.tyOnly (ulArgs o) s)

/-- SBFX_UI (R115). -/
def execSbfxUI (o : IF) (s : State) : Host.Outcome State Fault Refusal :=
  .next (uniBfx 0x0B o.tyOnly { uiArgs o with b := .imm (o.imm.setWidth 64) } s)

end Sys2Proof.Machine
end

