-- ==== Sys2Proof/Machine/Record.lean ====
section
/-! DEFINITION. The fault record as bytes (R371, R372), what a handler has left in it (R374, R377), and what a resumption
writes (R377). -/

namespace Sys2Proof.Machine

/-- The trap with RES, SETF and WR as they stand in a record whose bytes are given (R374, R377). -/
def Trap.handled (t : Trap) (at_ : Nat → Byte) : Trap :=
  { t with lanes := (List.range 32).map (fun l =>
      (l, { t.laneRec l with
        res := BitVec.ofNat 128 (leNat ((List.range 16).map (fun i => at_ (96 + 64 * l + i))))
        setf := at_ (114 + 64 * l)
        wr := at_ (115 + 64 * l) = 1 })) }
/-- The trap as the record at offset 0 of a handler's scratchpad gives it. -/
def State.handledTrap (s : State) (fid : Nat) (t : Trap) : Trap := t.handled (fun o => s.byte (scratchLoc fid o))
/-- The trap as its record in the trap queue gives it. -/
def State.kernelTrap (s : State) (h : HeldFault) : Trap :=
  match h.at_ with
  | some pa => h.trap.handled (fun o => s.plain 0 (pa + o))
  | none => h.trap

/-- The lanes of a trap with WR 1 that are fibres of the trapping frame, with their entries. -/
def Trap.written (t : Trap) (q : Quire) : List (Nat × LaneRec) :=
  t.lanes.filter (fun x => x.2.wr && q.fibres.any (fun f => f.lane = x.1 && f.frame = t.frame))

/-- What `fresume.skip` writes in the trapping quire, put in front (R377). -/
def Trap.apply (t : Trap) (s : State) : State :=
  let ls := t.written s.q
  let r := t.laneRec 0
  match t.skip with
  | .lane n w latch => s.writeLanes n w latch (ls.map (fun x => (x.1, x.2.res.toNat % 2 ^ w)))
  | .pred pd comb => s.writePreds pd (ls.map (fun x =>
      (x.1, combine comb (match s.q.fibres.find? (fun f => f.lane = x.1) with | some f => f.pred pd | none => false) (x.2.res.getLsbD 0))))
  | .sreg n w =>
    if !r.wr then s
    else if w = 128 then (s.setS n (r.res.setWidth 64)).setS (n + 1) (r.res.extractLsb' 64 64) else s.setS n (r.res.setWidth 64)
  | .kpred kd comb => if r.wr then s.setK kd (combine comb (s.q.kpred kd) (r.res.getLsbD 0)) else s
  | .sys => if r.wr then (s.setS 1 (r.res.setWidth 64)).setS 2 (r.res.extractLsb' 64 64) else s
  | .nothing => s

/-- The flags that a skip raises (R377). -/
def Trap.flags (t : Trap) (s : State) : State :=
  let ls := t.written s.q
  s.mapFibres (fun f => match ls.find? (fun x => x.1 = f.lane) with
    | some x => { f with fflags := f.fflags ||| x.2.setf.setWidth 5 }
    | none => f)

/-- A held quire goes on (R377): re-issued at %epc, skipped, or behind its `sys` or `trap`. `len` is the length of the trapping
instruction. -/
def Quire.resume (q : Quire) (t : Trap) (skip : Bool) (len : Nat) : Quire :=
  let s0 : State := { q := { q with held := none }, sel := (t.pc, t.frame) }
  let go := fun (s : State) (dest : DWord) => (s.move (s0.batch.map (fun f => (f.lane, dest)))).q
  if t.skip = .sys then go (if skip then t.apply s0 else s0) t.epc
  else if skip then go (t.flags (t.apply s0)) (t.epc + BitVec.ofNat 64 len)
  else s0.q

end Sys2Proof.Machine
end

