-- ==== Sys2Proof/Machine/Life.lean ====
section
/-! DEFINITION. The ends of quires, folios, volumes and collections, and the completion bitmap (R265, R308, R310, R312,
R332, R374). -/

namespace Sys2Proof.Machine

/-! ## Positions (R308) -/

/-- The folio positions of a shelf in each dimension (R308). -/
def recFolios (r : BitVec 2048) : Nat × Nat × Nat :=
  let d := recDims r
  (d.1 * recFpv r, d.2.1, d.2.2)
/-- The number of folio positions of a shelf. -/
def recCount (r : BitVec 2048) : Nat := let n := recFolios r; n.1 * n.2.1 * n.2.2
/-- The bit index of a position (R308). -/
def bitIndex (r : BitVec 2048) (p : Nat × Nat × Nat) : Nat :=
  let n := recFolios r
  (p.2.2 * n.2.1 + p.2.1) * n.1 + p.1
/-- The position of folio m of the volume with coordinates as %volid (R42, R308). -/
def folioPos (r : BitVec 2048) (vol : DWord) (m : Nat) : Nat × Nat × Nat :=
  (fieldOf vol 15 0 * recFpv r + m, fieldOf vol 31 16, fieldOf vol 47 32)
/-- CBMAP of a record (R307). -/
def recCbmap (r : BitVec 2048) : Nat := recField r 447 384

/-- Set one bit of a byte of a space by an OR at its home, with the releases that it is (R312). A byte whose home cannot be reached
now takes the bit later (`bits`); one that does not translate as a write takes none (log 91). -/
def State.orBit (s : State) (d asid : Nat) (super : Bool) (ea bit : Nat) (rels : List Rel) : State :=
  match s.routeSpace d asid super ea .write with
  | .ok (.mem t pa) =>
    let b := putBit (s.homeByte t.attr.kid pa) bit true
    (s.putHome t.attr.kid pa [b]).tagged pa [b] d (rels ++ s.relsAt pa)
  | .ok (.waits _) => { s with bits := s.bits ++ [⟨d, asid, super, ea, bit, rels⟩] }
  | _ => s

/-- Set the completion bit of a folio, with the releases that it is (R312). -/
def State.setBit (s : State) (x : Folio) (rels : List Rel) : State :=
  let cb := recCbmap x.record
  match x.kind with
  | .normal =>
    if cb = 0 then s
    else
      let i := bitIndex x.record (folioPos x.record x.vol x.folioid)
      s.orBit x.die x.asid x.super (cb + i / 8) (i % 8) rels
  | _ => s

/-- The bits whose homes could not be reached are tried again, in their order (R312, R411). -/
def State.drainBits (s : State) : State :=
  s.bits.foldl (fun (t : State) b => t.orBit b.die b.asid b.sup b.va b.bit b.rels) { s with bits := [] }

/-! ## Collections (R310, R412) -/

/-- Change a collection. -/
def State.modColl (s : State) (uid : Nat) (f : Coll → Coll) : State :=
  { s with colls := s.colls.map (fun c => if c.uid = uid then f c else c) }
/-- Change a shelf of a collection. -/
def Coll.modShelf (c : Coll) (i : Nat) (f : Shelf → Shelf) : Coll :=
  { c with shelves := c.shelves.mapIdx (fun j x => if j = i then f x else x) }

/-- Every folio of every shelf has completed or been dropped. -/
def Coll.finished (c : Coll) : Bool := c.shelves.all (fun x => recCount x.record ≤ x.done)

/-- The collections that have finished complete: their tokens (R310), and LQDONE of the dies that enqueued them (R383). -/
def State.reapColls (s : State) : State :=
  (s.colls.filter Coll.finished).foldl (fun (t : State) c =>
    let t1 : State := { t with colls := t.colls.filter (fun y => y.uid ≠ c.uid) }
    let t2 := match c.token with | some (uid, k) => t1.finishTok uid k c.status none | none => t1
    match c.lq with
    | some d => t2.modDie d (fun z => { z with mgmt := Sparse.set 0 0x843 (Sparse.get 0 0x843 z.mgmt + 1) z.mgmt })
    | none => t2) s

/-! ## Ends -/

/-- The quires of a folio, resident or saved. -/
def State.folioQuires (s : State) (fid : Nat) : List Nat :=
  ((s.quires ++ s.saved.flatMap (·.quires)).filter (fun q => q.uid ≠ 0 && q.fid = fid)).map (·.uid)
/-- A release at device scope of every access of a folio's quires (R312). -/
def State.releaseFolio (s : State) (fid : Nat) : State :=
  ((s.folioQuires fid).foldl (fun (t : State) u => (t.settleOwed u).settleFrom u) s).releaseOn (s.folio fid).die 5
/-- That release cannot complete now (R207). -/
def State.folioBlocked (s : State) (fid : Nat) : Bool :=
  (s.folioQuires fid).any (fun u => s.releaseBlocked u (s.folio fid).die 5)
/-- That release as those who synchronise with it read it: one of each quire. -/
def State.folioRels (s : State) (fid : Nat) : List Rel := (s.folioQuires fid).map (fun u => s.relOf u 5)

/-- The quires of a folio have all ended. -/
def State.folioOver (s : State) (fid : Nat) : Bool := (s.quires.filter (fun q => q.fid = fid && q.uid ≠ 0)).all Quire.ended

/-- A send and a receive belong together (R222): one process and channel, each the other's peer, the same place in order. -/
def State.tilesMatch (s : State) (a b : TileOp) : Bool :=
  a.send && !b.send && a.conn.asid = b.conn.asid && a.conn.chan = b.conn.chan && a.index = b.index
    && a.conn.die = b.die && b.conn.die = a.die && a.conn.pkg = s.pkgid && b.conn.pkg = s.pkgid

/-- Sends towards an endpoint of a folio that has ended, with no receive posted for them, complete with status target ended (R222). -/
def State.endSends (s : State) (x : Folio) : State :=
  let meant := fun (a : TileOp) => x.conns.any (fun c => match c.2 with
    | some k => k.asid = a.conn.asid && k.chan = a.conn.chan && a.conn.die = x.die && a.conn.pkg = s.pkgid && k.die = a.die && k.pkg = s.pkgid
    | none => false)
  let dead := s.tiles.filter (fun a => a.send && meant a && !s.tiles.any (s.tilesMatch a))
  dead.foldl (fun (t : State) a => t.finishTok a.quire a.tok 2 none) { s with tiles := s.tiles.filter (fun a => !dead.contains a) }

/-- A folio completes when its last quire exits (R312): a device-scope release of its quires' accesses, its subscriptions end
(R255), its bit, its place in the collection; a handler folio whose fault is still held passes it to the kernel instance with what
it left in the record (R374). `status` is what the collection's token takes when the folio was ended by `fkill`. -/
def State.completeFolio (s : State) (fid : Nat) (status : BitVec 2) (bit : Bool) : State :=
  let x := s.folio fid
  let s1 := (s.releaseFolio fid).endSubs fid
  let s2 := if bit then s1.setBit x (s1.folioRels fid) else s1
  let s3 := (s2.modFolio fid (fun y => { y with ended := true })).endSends x
  match x.kind with
  | .handler i g =>
    (match (s3.die x.die).held.find? (fun h => h.index = i ∧ h.gen = g) with
     | some h => s3.toKernel x.die { h with trap := s.handledTrap fid h.trap }
     | none => s3)
  | _ =>
    s3.modColl x.coll (fun c =>
      { (c.modShelf x.shelf (fun y => { y with done := y.done + 1 })) with status := statusMax c.status status })

/-- A folio whose quires have all ended and are idle is freed with its bind record: at once where it is alone in its volume, where
the whole volume has ended, or where the volume has let it go (`State.returnShares`); otherwise R265 keeps it. Its scratchpad's
pending writes find it gone. -/
def State.freeFolio (s : State) (fid : Nat) : State :=
  let x := s.folio fid
  let ms := (s.volume x.vid).members.map (·.2)
  let party := if ms.contains fid then ms else [fid]
  if x.ended ∧ party.all (fun f => (s.folio f).ended && s.folioIdle f) = true then
    let t := party.foldl (fun (t : State) f => t.dropBind (s.folio f)) s
    { t with
      folios := s.folios.filter (fun y => !party.contains y.fid)
      volumes := if ms.contains fid then s.volumes.filter (fun v => v.vid ≠ x.vid) else s.volumes
      rest := s.rest.filter (fun q => !party.contains q.fid)
      q := if s.q.uid ≠ 0 ∧ party.contains s.q.fid = true then {} else s.q }
  else s

/-- Free every folio that can be freed, and complete the collections that have finished. A folio that has ended takes no more sends
while it is still co-resident (R222, R265). -/
def State.reap (s : State) : State :=
  ((s.folios.filter (·.ended)).foldl (fun (t : State) x => (t.endSends x).freeFolio x.fid) s).reapColls

/-- A `cpm` or `ckshard` whose batch no longer waits for its permit leaves the permit queue (R333). -/
def State.dropOrphans (s : State) : State :=
  let waits := fun (id : Nat) => (s.quires ++ s.saved.flatMap (·.quires)).any (fun q => q.waits.any (fun w => w.kind = .permit id))
  let copies := s.copies.filter (fun c => c.started || waits c.id)
  let shards := s.shards.filter (fun x => x.permit || waits x.id)
  { s with
    copies := copies, shards := shards
    permits := s.permits.filter (fun p => match p with
      | .copy id => copies.any (fun c => c.id = id)
      | .shard id => shards.any (fun x => x.id = id)
      | .matrix _ => true) }

/-- After fibres of quire `uid` have ended: when the quire has ended it counts as arrived at every barrier, with the release of an arrival
(R260, R264; log 107); when it was its folio's last, the folio completes (R312). -/
def State.afterEnd (s0 : State) (uid : Nat) (status : BitVec 2) (bit : Bool) : State :=
  let s := s0.dropOrphans
  let q := s.quire uid
  if q.uid = 0 ∨ q.fibres ≠ [] then s
  else
    let s1 := s.settleFrom uid
    let s2 := if s1.folioOver q.fid ∧ (s1.folio q.fid).ended = false then s1.completeFolio q.fid status bit else s1
    (s2.barsAfterEnd q.fid uid).reap

/-- The scope of the release with which some fibres of the issuing quire end (R264, R312): device where with them its folio ends,
folio where the quire does; none else. -/
def State.endScope (s : State) (fs : List Fibre) : Nat :=
  if s.q.fibres.any (fun f => !fs.any (fun g => g.lane = f.lane)) then 0
  else if (s.rest.filter (fun q => q.fid = s.q.fid && q.uid ≠ 0)).all Quire.ended then 5 else 2

/-- Fibres of the issuing quire end and something else happens with them; the batch waits while the release of that end cannot complete. -/
def State.ending (s : State) (fs : List Fibre) (effect : Res) : Res :=
  if fs ≠ [] ∧ s.endScope fs = 5 ∧ s.folioBlocked s.q.fid = true then .wait s (.flush 7) else effect

end Sys2Proof.Machine
end

