-- ==== Sys2Proof/Machine/Launch.lean ====
section
/-! DEFINITION. From launch to issue slot (spec 15): launch records and their checks, `slaunch`, `ssignal`, `yield`, LQCTL,
binding, and the start of volumes and handler folios. -/

namespace Sys2Proof.Machine

/-! ## The checks of a record (R311) -/

/-- The carve-out request breaks R45. -/
def carveBad (r : BitVec 2048) : Bool :=
  let frame := recField r 101 96
  let scratch := recField r 107 102
  let l1 := recField r 113 108
  let band := recField r 119 114
  let nb := recField r 124 120
  let nq := recField r 76 72 + 1
  16 < nb || band < ceilDiv (nq * nb) 2 || frame * 16384 < nq * (recField r 91 87 * 8) * 128 || 32 < scratch
    || 60 < frame + scratch + l1 + band

/-- The reserved bits of a record (R307). -/
def recReserved (r : BitVec 2048) : Bool :=
  recField r 1023 768 ≠ 0 || recField r 383 336 ≠ 0 || recField r 183 176 ≠ 0 || recField r 127 125 ≠ 0 || recField r 95 92 ≠ 0

/-- Code 7: the dependence fields (R311). A record whose unlisted fields are all 0, as the table of R302 sets them, has PRODSH 0 and fails
here: R311 is followed, whatever R184 and R302 say of that program (log 94). -/
def depBad (rs : List (BitVec 2048)) (i : Nat) (r : BitVec 2048) : Bool :=
  let p := recField r 191 184
  if p = 0xFF then recField r 335 192 ≠ 0
  else i ≤ p || recCbmap (rs.getD p 0) = 0 || recField r 335 320 = 0 || recField r 287 272 = 0 || recField r 239 224 = 0

/-- Code 8 without the home test: alignments and the delegated range (R311). -/
def alignBad (r : BitVec 2048) : Bool :=
  recField r 63 0 % 8 ≠ 0 || recCbmap r % 8 ≠ 0 || recField r 703 640 % 1024 ≠ 0 || recField r 767 704 % 1024 ≠ 0
    || recField r 575 512 % 4096 ≠ 0 || recField r 639 576 % 4096 ≠ 0 || recField r 639 576 < recField r 575 512

/-- The 64-byte lines that a range of bytes touches. -/
def linesOver (lo n : Nat) : List Nat :=
  if n = 0 then [] else (List.range ((lo + n - 1) / 64 - lo / 64 + 1)).map (fun i => (lo / 64 + i) * 64)

/-- Where a range lies, line by line, or the first fault. -/
def routeRange (route : Nat → Except Nat Target) (lo n : Nat) : Except (Nat × Nat) (List Target) :=
  (linesOver lo n).foldl (fun r a =>
    match r with
    | .error e => .error e
    | .ok ts => match route (max a lo) with
      | .error c => .error (c, max a lo)
      | .ok t => .ok (ts ++ [t])) (.ok [])

/-- What the checks of one shelf find: nothing, a launch error, a fault of its bitmap range, or that its bitmap's home cannot be
reached now. -/
inductive ShelfCheck where
  | fine
  | code (c : Nat)
  | fault (c addr : Nat)
  | waits (addr : Nat)
  deriving DecidableEq, Repr

/-- The checks of shelf i, codes in ascending order (R311). `write` says where a write of the launching party goes (R204). -/
def State.checkShelf (s : State) (write : Nat → Except Nat Target) (target : Nat) (rs : List (BitVec 2048)) (i : Nat) : ShelfCheck :=
  let r := rs.getD i 0
  let encv := recField r 67 64
  let f8 := recField r 91 87
  if encv = 0 ∨ 4 ≤ encv then .code 1
  else if recReserved r = true ∨ recField r 70 68 ≠ recField (rs.getD 0 0) 70 68 then .code 2
  else if 24 ≤ recField r 86 82 then .code 3
  else if f8 = 0 ∨ 28 < f8 ∨ (encv = 1 ∧ 5 < f8) then .code 4
  else if carveBad r then .code 5
  else if !(List.range 8).all (fun n => slotOk (recSlot r n)) then .code 6
  else if depBad rs i r then .code 7
  else if alignBad r then .code 8
  else if recCbmap r = 0 then .fine
  else match routeRange write (recCbmap r) (ceilDiv (recCount r) 8) with
    | .error (c, a) => .fault c a
    | .ok ts =>
      match ts.findSome? (fun t => match t with | .waits a => some a | _ => none) with
      | some a => .waits a
      | none =>
      if ts.all (fun t => match t with | .mem x _ => paDie x.pa = target && paPkg x.pa = s.pkgid | _ => false) then .fine
      else .code 8

/-- The first shelf that does not pass, in ascending order (R311). -/
def State.checkShelves (s : State) (write : Nat → Except Nat Target) (target : Nat) (rs : List (BitVec 2048)) : Option (Nat × ShelfCheck) :=
  (List.range rs.length).findSome? (fun i =>
    match s.checkShelf write target rs i with
    | .fine => none
    | x => some (i, x))

/-- The collection-level check: its code (R311). -/
def State.launchCode (s : State) (n : Nat) (tbits : Nat) (target : Nat) : Option Nat :=
  if n = 0 ∨ 64 < n ∨ tbits ≠ 0 then some 3
  else if s.part.dies ≤ target ∨ (s.die target).admitted = false then some 9
  else none

/-- The records at routed lines. -/
def State.readRecords (s : State) (d : Nat) (ts : List Target) (n : Nat) : List (BitVec 2048) :=
  let bs := s.readLines d ts (256 * n)
  (List.range n).map (fun i => BitVec.ofNat 2048 (leNat ((bs.drop (256 * i)).take 256)))

/-- Clear the bytes of a bitmap at its home. -/
def State.clearBitmap (s : State) (d asid : Nat) (super : Bool) (r : BitVec 2048) : State :=
  if recCbmap r = 0 then s
  else (List.range (ceilDiv (recCount r) 8)).foldl (fun (t : State) i =>
    match t.routeSpace d asid super (recCbmap r + i) .write with
    | .ok (.mem x pa) => t.putHome x.attr.kid pa [0]
    | _ => t) s

/-- The collections in a die's launch queue. -/
def State.queueOf (s : State) (d : Nat) : List Coll := s.colls.filter (fun c => c.die = d)

/-- Enqueue a collection (R310, R42): bitmaps cleared, number and place taken. -/
def State.enqueue (s : State) (d asid : Nat) (super sup : Bool) (target : Nat) (rs : List (BitVec 2048))
    (token : Option (Nat × Nat)) (lq : Option Nat) : State :=
  let s1 := rs.foldl (fun (t : State) r => t.clearBitmap d asid super r) s
  let c : Coll := { uid := s1.next, die := target, number := (s1.die target).colls % 2 ^ 24, asid := asid, sup := sup
                    prio := recField (rs.getD 0 0) 70 68, order := s1.order
                    qent := ((List.range 64).find? (fun i => !(s1.queueOf target).any (fun y => y.qent = i))).getD 0
                    shelves := rs.map (fun r => { record := r }), token := token, lq := lq }
  ({ s1 with colls := s1.colls ++ [c], next := s1.next + 1, order := s1.order + 1 }).modDie target
    (fun z => { z with colls := z.colls + 1 })

/-- The target die of sT or of TSEL and TDIE (R310). -/
def launchTarget (here sel : Nat) (other : Bool) : Nat := if other then sel else here

/-- slaunch (R310, R311). -/
def uniSlaunch (op : Nat) (legal : Bool) (o : LF) (s : State) : Host.Outcome State Fault Refusal :=
  let x := ulArgs o
  let n := (s.q.sreg o.b.toNat).toNat
  let tv := s.q.sreg o.c.toNat
  let addr := (s.q.sreg o.a.toNat).toNat
  let tok := o.low3.toNat
  let D : Desc := { uni := true, op := op, len := 8, pr := x.pr, neg := x.neg, legal := legal
                    uses := [.sreg x.d, .sreg x.a, .sreg o.b.toNat, .sreg o.c.toNat]
                    a := .sreg x.a, b := .sreg o.b.toNat, c := .sreg o.c.toNat, wa := 64, wb := 64, skip := .sreg x.d 64 }
  let here := s.fol.die
  let target := launchTarget here (fieldOf tv 1 0) (tv.getLsbD 3)
  let fail := fun (c i : Nat) => Res.done ((s.setS x.d (BitVec.ofNat 64 (c * 256 + i))).setK 1 false)
  if (D.cause s).isSome || !s.kActive x.pr x.neg then .next (D.run s (.done s))
  else match s.launchCode n (fieldOf tv 63 4 * 2 + fieldOf tv 2 2) target with
    | some c => .next (D.run s (fail c 0))
    | none =>
      if addr % 64 ≠ 0 then .next (D.run s (.stop 0x060 (laneMask s.batch) (BitVec.ofNat 64 addr)))
      else match s.routeLines s.q.fid addr (256 * n) .read with
        | .error (c, a) => .next (D.run s (.stop c (laneMask s.batch) (BitVec.ofNat 64 a)))
        | .ok ts =>
          match s.hindrance (ts.map (fun t => ({ lane := 0, ea := addr, t := t } : Access))) 64 true with
            | some r => .next (D.run s r)
            | none =>
              if (s.q.tok tok).count = 63 then .next (D.run s (.wait s (.tokenFull tok)))
              else if 64 ≤ (s.queueOf target).length then .next (D.run s (.wait s (.launch target)))
              else
                let rs := s.readRecords here ts n
                match s.checkShelves (fun ea => s.route s.q.fid ea .write) target rs with
                | some (i, .code c) => .next (D.run s (fail c i))
                | some (_, .fault c a) => .next (D.run s (.stop c (laneMask s.batch) (BitVec.ofNat 64 a)))
                | some (_, .waits a) => .next (D.run s (.wait s (.reach a)))
                | _ => .next (D.run s (s.behindRelease true 5 (fun t =>
                  let s1 := (t.startLaunch tok).enqueue here s.fol.asid s.super false target rs (some (s.q.uid, tok)) none
                  .done ((s1.setS x.d 0).setK 1 true))))

/-- ssignal (R312): the release of every access of the folio's quires, and the bit of the folio. -/
def uniSsignal (op : Nat) (legal : Bool) (o : SF) (s : State) : State :=
  ({ usDesc o op legal [] with a := .none, b := .none }).runU s (
    if s.folioBlocked s.q.fid then .wait s (.flush 7)
    else
      let t := s.releaseFolio s.q.fid
      .done (t.setBit s.fol (t.folioRels s.q.fid)))

/-- yield (R320): the stamp becomes the clock, and until the quire issues again the firmware may pre-empt its folio for a unit of the same
priority. -/
def uniYield (op : Nat) (legal : Bool) (o : SF) (s : State) : State :=
  ({ usDesc o op legal [] with a := .none, b := .none }).runU s (.done { s with q := { s.q with stamp := s.clock, yielded := true } })

/-- A write of quire `uid` (0: an RV64 core) to LQCTL of die `d` (R383): the checks and effects of `slaunch` without a token, its release
for the writer among them (R310); its outcome in LQSTAT. While the launch queue is full, or the home of a record, a bitmap or a line that
the release writes back cannot be reached, the write waits: `none`. It waits for room before it
reads its records, which it reads in supervisor mode (log 122). -/
def State.lqctl (s : State) (uid d : Nat) (v : DWord) : Option State :=
  let stat := fun (t : State) (x : Nat) =>
    t.modDie d (fun z => { z with mgmt := Sparse.set 0 0x842 (BitVec.ofNat 64 x) z.mgmt })
  let n := fieldOf v 6 0
  let asid := fieldOf v 63 48
  let target := launchTarget d (fieldOf v 10 9) (v.getLsbD 11)
  let addr := (s.mgmt d 0x840).toNat
  match s.launchCode n 0 target with
  | some c => some (stat s (c * 256))
  | none =>
    if addr % 64 ≠ 0 then some (stat s (10 * 256))
    else if 64 ≤ (s.queueOf target).length then none
    else match routeRange (fun ea => s.routeSpace d asid true ea .read) addr (256 * n) with
      | .error (_, a) => some (stat s (10 * 256 + (a - addr) / 256))
      | .ok ts =>
        if ts.any (fun t => match t with | .waits _ => true | _ => false) then none
        else
        let rs := s.readRecords d ts n
        match s.checkShelves (fun ea => s.routeSpace d asid true ea .write) target rs with
        | some (_, .waits _) => none
        | some (i, .code c) => some (stat s (c * 256 + i))
        | some (i, _) => some (stat s (10 * 256 + i))
        | none =>
          let home := if uid = 0 then 4 else (s.folio (s.quire uid).fid).die
          if s.releaseBlocked uid home 5 then none
          else some (stat ((s.releaseFor uid home 5).enqueue d asid true (v.getLsbD 15) target rs none (some d)) (2 ^ 16))

/-! ## Dependences (R309) -/

/-- The producer range of one dimension, clipped: first and one past the last (R309). -/
def depRange (scale off span c n : Nat) : Nat × Nat :=
  let o : Int := (BitVec.ofNat 16 off).toInt
  let lo : Int := scale * c + o
  let hi : Int := lo + span - 1
  ((max 0 lo).toNat, (min hi (n - 1) + 1).toNat)

/-- The producer positions a consumer position depends on (R309). -/
def depPositions (prod cons : BitVec 2048) (c : Nat × Nat × Nat) : List (Nat × Nat × Nat) :=
  let n := recFolios prod
  let span := fun (r : Nat × Nat) => (List.range (r.2 - r.1)).map (fun i => r.1 + i)
  let xs := span (depRange (recField cons 207 192) (recField cons 223 208) (recField cons 239 224) c.1 n.1)
  let ys := span (depRange (recField cons 255 240) (recField cons 271 256) (recField cons 287 272) c.2.1 n.2.1)
  let zs := span (depRange (recField cons 303 288) (recField cons 319 304) (recField cons 335 320) c.2.2 n.2.2)
  xs.flatMap (fun x => ys.flatMap (fun y => zs.map (fun z => (x, y, z))))

/-- Volume coordinates of a linear index, laid out as %volid (R42). -/
def volCoord (r : BitVec 2048) (i : Nat) : DWord :=
  let d := recDims r
  BitVec.ofNat 64 (i % d.1 + i / d.1 % d.2.1 * 2 ^ 16 + i / (d.1 * d.2.1) * 2 ^ 32)

/-- Bit `i` of a bitmap at its home reads 1. -/
def State.bitSet (s : State) (d asid : Nat) (cb i : Nat) : Bool :=
  match s.routeSpace d asid true (cb + i / 8) .read with
  | .ok (.mem t pa) => (s.homeByte t.attr.kid pa).getLsbD (i % 8)
  | _ => false

/-- Every dependence bit of every member of a volume reads 1 (R314). -/
def State.depsReady (s : State) (c : Coll) (shelf vol : Nat) : Bool :=
  match c.shelves[shelf]? with
  | none => false
  | some x =>
    let r := x.record
    let p := recField r 191 184
    if p = 0xFF then true
    else match c.shelves[p]? with
      | none => false
      | some y => (List.range (recFpv r)).all (fun m =>
          (depPositions y.record r (folioPos r (volCoord r vol) m)).all (fun q =>
            s.bitSet c.die c.asid (recCbmap y.record) (bitIndex y.record q)))

/-! ## Cores, slots and granules (R43, R313) -/

/-- Granules of a split. -/
def carveSum (c : BitVec 29) : Nat := fieldOf c 5 0 + fieldOf c 11 6 + fieldOf c 17 12 + fieldOf c 23 18
/-- The place of a record in the slot table (R313). -/
def Bind.index (b : Bind) : Nat := b.core * 32 + b.qbase
/-- The volume group of a record (R313). -/
def Bind.group (b : Bind) : Nat × Nat × Nat := (b.coll, b.shelf, b.vgid)
/-- The folios that hold slots and granules of a core: the resident ones, and those whose save waits at step 7 (R386). -/
def State.onCore (s : State) (d core : Nat) : List Folio :=
  (s.folios ++ (s.saved.filter (·.step7)).flatMap (·.folios)).filter (fun x => x.die = d && x.core = core)
/-- The records of a die that are bound on a core and wait for their start. -/
def State.boundOn (s : State) (d core : Nat) : List Bind :=
  (s.die d).slots.filter (fun b => b.core = core && !(s.onCore d core).any (fun x => x.qbase = b.qbase))
/-- Granules of the folios of a core. -/
def State.granules (s : State) (d core : Nat) : Nat := ((s.onCore d core).map (fun x => carveSum x.carve)).foldl (· + ·) 0
/-- Granules that the bound records of a core will take. -/
def State.boundGranules (s : State) (d core : Nat) : Nat := ((s.boundOn d core).map (fun b => carveSum b.carve)).foldl (· + ·) 0
/-- Quire slots in use on a core. -/
def State.slotTaken (s : State) (d core slot : Nat) : Bool :=
  (s.onCore d core).any (fun x => x.qbase ≤ slot && slot < x.qbase + x.qcnt)
/-- Quire slots bound on a core. -/
def State.slotBound (s : State) (d core slot : Nat) : Bool :=
  (s.boundOn d core).any (fun b => b.qbase ≤ slot && slot < b.qbase + b.qcnt)
/-- A run of quire slots is free. -/
def State.slotsFree (s : State) (d core base n : Nat) : Bool :=
  base + n ≤ 32 && (List.range n).all (fun i => !s.slotTaken d core (base + i))
/-- A folio's split and slots fit a core at a base, beside the resident folios (R314). -/
def State.startFits (s : State) (d core base n : Nat) (carve : BitVec 29) : Bool :=
  s.slotsFree d core base n && s.granules d core + carveSum carve ≤ 60
/-- They fit beside the bound records, too: a bound unit holds its slots and granules (R315). -/
def State.coreFits (s : State) (d core base n : Nat) (carve : BitVec 29) : Bool :=
  s.startFits d core base n carve && (List.range n).all (fun i => !s.slotBound d core (base + i))
    && s.granules d core + s.boundGranules d core + carveSum carve ≤ 60
/-- The lowest base at which a folio fits a core. -/
def State.fitBase (s : State) (d core n : Nat) (carve : BitVec 29) : Option Nat :=
  (List.range 32).find? (fun b => s.coreFits d core b n carve)

/-- The split that a record asks for. -/
def recCarve (r : BitVec 2048) : BitVec 29 := r.extractLsb' 96 29

/-- First fit of a volume in a cluster: a core and a base for each of its folios, which are given by their quire slots and splits: the
lowest core that fits and that no earlier one takes. -/
def State.fitCluster (s : State) (d cl : Nat) (ds : List (Nat × BitVec 29)) : Option (List (Nat × Nat)) :=
  ds.foldl (fun acc y => acc.bind (fun ps =>
    ((List.range 24).findSome? (fun i =>
      let c := cl * 24 + i
      if ps.any (fun p => p.1 = c) then none else (s.fitBase d c y.1 y.2).map (fun b => (c, b)))).map (fun p => ps ++ [p]))) (some [])

/-! ## Binding (R315) -/

/-- A unit that waits to be bound: collection, shelf, volume index. -/
structure UnitId where
  coll  : Nat
  shelf : Nat
  vol   : Nat
  deriving DecidableEq, Repr

/-- The waiting units of a die in the order in which they bind (R315): higher priority, then earlier collection, then shelf
and linear index, a saved unit in its old place; units re-queued on the die after the loss of another ahead of the collection's other units
(R412). -/
def State.waiting (s : State) (d : Nat) : List (Coll × UnitId) :=
  (sortOn (fun c => (7 - c.prio) * 2 ^ 64 + c.order) s.colls).flatMap (fun c =>
    [[VolState.requeued d], if c.die = d then [.waiting, .saved] else []].flatMap (fun st => (List.range c.shelves.length).flatMap (fun i =>
      match c.shelves[i]? with
      | none => []
      | some x =>
        if recCount x.record ≤ x.done then []
        else
        let n := recDims x.record
        ((List.range (n.1 * n.2.1 * n.2.2)).filter (fun v => st.contains (Sparse.get .waiting v x.vols))).map
          (fun v => (c, ⟨c.uid, i, v⟩)))))

/-- The record of a unit. -/
def Coll.unitRec (c : Coll) (u : UnitId) : BitVec 2048 := (c.shelves.getD u.shelf { record := 0 }).record

/-- A unit that has been saved (R386). -/
def State.savedUnit (s : State) (u : UnitId) : Option Saved :=
  s.saved.find? (fun v => v.coll = u.coll && v.folios.any (fun x => x.shelf = u.shelf && volIndex x.record x.vol = u.vol))
/-- The quire slots and the split that each folio of a unit needs. -/
def State.demands (s : State) (c : Coll) (u : UnitId) : List (Nat × BitVec 29) :=
  match s.savedUnit u with
  | some v => v.folios.map (fun x => (x.qcnt, x.carve))
  | none => List.replicate (recFpv (c.unitRec u)) (recField (c.unitRec u) 76 72 + 1, recCarve (c.unitRec u))
/-- A unit waits for nothing but space: its dependence bits read 1, or its save has left no remap entry in use (R314, R391). -/
def State.unitReady (s : State) (c : Coll) (u : UnitId) : Bool :=
  match s.savedUnit u with
  | some v => !s.remaps.any (fun r => v.folios.any (fun x => x.fid = r.fid))
  | none => s.depsReady c u.shelf u.vol

/-- Where a die has room for a handler folio: in each cluster the lowest core and base (R373). -/
def State.handlerSpots (s : State) (d : Nat) : List (Nat × Nat) :=
  (List.range 16).filterMap (fun cl => (List.range 24).findSome? (fun i =>
    (s.fitBase d (cl * 24 + i) 1 0x41).map (fun b => (cl * 24 + i, b))))

/-- Clusters closed to a unit because an earlier unit of equal or higher priority waits for one (R315); a handler folio stands at the head
of the queue with priority 7 (R373), and its target has collection 0. -/
def State.closed (s : State) (d : Nat) (c : Coll) (u : UnitId) : List Nat :=
  ((s.die d).targets.filter (fun t =>
    (t.1 = 0 && (s.die d).handlers.any (fun h => h.index = t.2.1)) ||
    (s.waiting d).any (fun w => w.2 = ⟨t.1, t.2.1, t.2.2.1⟩ && w.2 ≠ u && c.prio ≤ w.1.prio &&
      ((w.1.order < c.order) || (w.1.uid = c.uid && (t.2.1 < u.shelf || (t.2.1 = u.shelf && t.2.2.1 < u.vol))))))).map (fun t => t.2.2.2)

/-- Where a unit could bind now: each open cluster with room, by first fit. -/
def State.placesOf (s : State) (d : Nat) (c : Coll) (u : UnitId) : List (List (Nat × Nat)) :=
  if s.unitReady c u then
    ((List.range 16).filter (fun cl => !(s.closed d c u).contains cl)).filterMap (fun cl => s.fitCluster d cl (s.demands c u))
  else []

/-- The first unit in the bind order that can bind now; none while a handler folio that has room waits to start. -/
def State.nextUnit (s : State) (d : Nat) : Option (Coll × UnitId) :=
  if (s.die d).handlers ≠ [] ∧ s.handlerSpots d ≠ [] then none
  else (s.waiting d).find? (fun w => s.placesOf d w.1 w.2 ≠ [])

/-- A unit that is passed over for lack of space is assigned a cluster of the firmware's choice, which it keeps (R315). -/
def State.assignTarget (s : State) (d coll shelf vol : Nat) : State :=
  if (s.die d).targets.any (fun x => x.1 = coll ∧ x.2.1 = shelf ∧ x.2.2.1 = vol) then s
  else s.modDie d (fun z => { z with targets := z.targets ++ [(coll, shelf, vol, s.choose (1000 + vol) 16)] })
/-- So are the handler folios and the units that wait before `u`. -/
def State.assignTargets (s : State) (d : Nat) (u : UnitId) : State :=
  let s1 := (s.die d).handlers.foldl (fun (t : State) h => t.assignTarget d 0 h.index 0) s
  ((s.waiting d).takeWhile (fun w => w.2 ≠ u)).foldl (fun (t : State) w =>
    if t.unitReady w.1 w.2 then t.assignTarget d w.2.coll w.2.shelf w.2.vol else t) s1

/-- A placement that the registrar's rules allow for a unit (R314, R315): distinct cores of one open cluster, each with free
slots and room. -/
def State.placeOk (s : State) (d : Nat) (c : Coll) (u : UnitId) (cores qbases : List Nat) : Bool :=
  let ds := s.demands c u
  cores.length = ds.length && qbases.length = ds.length
    && (match cores with
        | [] => false
        | x :: xs => xs.all (fun y => y / 24 = x / 24) && x < 384 && !(s.closed d c u).contains (x / 24))
    && decide cores.Nodup
    && ((cores.zip qbases).zip ds).all (fun p => s.coreFits d p.1.1 p.1.2 p.2.1 p.2.2)

/-- A VGID for a new group of a shelf: 9 bits, of no other group of it on the die; which one is the firmware's choice. None while all 512
are in use (R313). -/
def State.newVgid (s : State) (d coll shelf : Nat) : Option Nat :=
  let free := (List.range 512).filter (fun g => !(s.die d).slots.any (fun b => b.group = (coll, shelf, g)))
  free[s.choose (1000 + 2 ^ 32) free.length]?

/-- The priority of a resident folio. -/
def Folio.prio (x : Folio) : Nat := recField x.record 70 68
/-- The bind records of a resident folio's volume. -/
def State.recordsOf (s : State) (x : Folio) : List Bind :=
  (s.die x.die).slots.filter (fun b => (s.volume x.vid).members.any (fun m => b.isOf (s.folio m.2)))
/-- A unit of some priority on a die waits for lack of space: a handler folio, which has priority 7, or one of the bind order. -/
def State.wanting (s : State) (d : Nat) (p : Nat → Bool) : Bool :=
  ((s.die d).handlers ≠ [] && p 7 && s.handlerSpots d = [])
    || (s.waiting d).any (fun w => p w.1.prio && s.unitReady w.1 w.2 && s.placesOf d w.1 w.2 = [])
/-- The firmware may ask for the save of a resident folio's unit (R315, R320): a unit of higher priority cannot bind for lack of
space and no resident unit of a lower one than this is left to ask; or one of its quires has yielded and a unit of at least its
priority waits. -/
def State.mayPreempt (s : State) (x : Folio) : Bool :=
  let asked := fun (y : Folio) => (s.recordsOf y).any (fun b => b.state = 2)
  let lower := s.folios.any (fun y => y.die = x.die && y.kind = .normal && y.prio < x.prio && !asked y)
  x.fid ≠ 0 && x.kind = .normal && s.folios.any (fun y => y.fid = x.fid) && !asked x
    && ((!lower && s.wanting x.die (fun p => x.prio < p))
      || ((s.quires.any (fun q => q.uid ≠ 0 && q.fid = x.fid && q.yielded)) && s.wanting x.die (fun p => x.prio ≤ p)))

/-- REGISTRAR_BIND (R313, R315): bind records for the first unit in order that can bind, where the firmware puts it, outside the
clusters that the units passed over are assigned first; or STATE 2 on a resident unit. -/
def registrarAct (a : BindAct) (s : State) : State :=
  match a with
  | .bind d coll shelf vol cores qbases =>
    let u : UnitId := ⟨coll, shelf, vol⟩
    (match s.nextUnit d with
     | some (c, v) =>
       let s1 := s.assignTargets d u
       if v ≠ u ∨ s.placeOk d c u cores qbases = false ∨ (s.savedUnit u).isSome = true then s
       else if s1.placeOk d c u cores qbases = false then s1
       else match s.newVgid d coll shelf with
       | none => s
       | some vg =>
         let r := c.unitRec u
         let recs := ((cores.zip qbases).zipIdx).map (fun p =>
           ({ coll := coll, shelf := shelf, volIdx := vol, folioid := p.2, qbase := p.1.2, qcnt := recField r 76 72 + 1
              core := p.1.1, vgid := vg, state := 1, carve := recCarve r } : Bind))
         (s1.modDie d (fun z => { z with
             slots := z.slots ++ recs
             targets := z.targets.filter (fun t => ¬ (t.1 = coll ∧ t.2.1 = shelf ∧ t.2.2.1 = vol)) })).modColl coll
           (fun y => y.modShelf shelf (fun x => { x with vols := Sparse.set .waiting vol (.bound vg) x.vols }))
     | none => s)
  | .preempt fid =>
    let x := s.folio fid
    if s.mayPreempt x then
      s.modDie x.die (fun z => { z with slots := z.slots.map (fun b =>
        if (s.recordsOf x).contains b then { b with state := 2 } else b) })
    else s

/-! ## Starting (R20, R29, R45, R314) -/

/-- A quire of a starting folio: its entry frame, and the initial fibres in lanes 0 to n - 1 (R20, R45). -/
def newQuire (uid fid quireid slot : Nat) (entry : DWord) (frame8 nfib clock : Nat) : Quire :=
  let mask := laneMask ((List.range nfib).map (fun l => ({ lane := l, pc := entry, frame := 0 } : Fibre)))
  { uid := uid, fid := fid, quireid := quireid, slot := slot, stamp := clock
    fibres := (List.range nfib).map (fun l => Fibre.arrive { lane := l, pc := entry, frame := 0 })
    frames := [{ id := 0, size8 := frame8, refs := mask, owned := mask, base := quireid * frame8 }] }

/-- The quires of a starting folio. -/
def newQuires (uid0 fid qbase nq : Nat) (entry : DWord) (frame8 nfib clock : Nat) : List Quire :=
  (List.range nq).map (fun i => newQuire (uid0 + i) fid i (qbase + i) entry frame8 nfib clock)

/-- The group of bind records meets the conditions of R314. -/
def State.groupOk (s : State) (d : Nat) (c : Coll) (bs : List Bind) : Bool :=
  match bs with
  | [] => false
  | b :: rest =>
    let r := (c.shelves.getD b.shelf { record := 0 }).record
    bs.length = recFpv r && rest.all (fun x => x.core / 24 = b.core / 24) && decide (bs.map (·.core)).Nodup
      && bs.all (fun x => x.state = 1 && s.startFits d x.core x.qbase x.qcnt x.carve)

/-- The start acquire of a quire on all its paths (R312). -/
def State.startView (s : State) (uid : Nat) : State := (s.sync uid).orderPaths uid [1, 2, 3]

/-- The first record of the group that a number names: the index in the slot table of one of its records. -/
def State.groupAt (s : State) (d index : Nat) : List Bind :=
  match (s.die d).slots.find? (fun b => b.index = index) with
  | some b => (s.die d).slots.filter (fun x => x.group = b.group && x.state = 1)
  | none => []

/-- VOLUME_START (R314): every member becomes resident in one step, with its start acquire (R312). A group that breaks a rule
other than the dependence bits returns to free. The event names a group by the place of one of its records. -/
def startVolume (d index : Nat) (s : State) : State :=
  let bs := s.groupAt d index
  match bs with
  | [] => s
  | b :: _ =>
    match s.colls.find? (fun c => c.uid = b.coll) with
    | none => s
    | some c =>
      if Sparse.get .waiting b.volIdx (c.shelves.getD b.shelf { record := 0 }).vols ≠ .bound b.vgid then s
      else
      let setVol := fun (t : State) (v : VolState) =>
        t.modColl c.uid (fun y => y.modShelf b.shelf (fun x => { x with vols := Sparse.set .waiting b.volIdx v x.vols }))
      if !s.groupOk d c bs then
        setVol (s.modDie d (fun z => { z with slots := z.slots.filter (fun x => x.group ≠ b.group) })) .waiting
      else if !s.depsReady c b.shelf b.volIdx then s
      else
        let r := (c.shelves.getD b.shelf { record := 0 }).record
        let vid := s.next
        let fids := bs.map (fun x => (x.folioid, vid + 1 + x.folioid))
        let fs := bs.map (fun x => ({
          fid := vid + 1 + x.folioid, die := d, core := x.core, qbase := x.qbase, qcnt := x.qcnt, folioid := x.folioid
          vid := vid, coll := c.uid, shelf := b.shelf, shelfid := BitVec.ofNat 32 (b.shelf % 256 + c.number * 256)
          vol := volCoord r b.volIdx, asid := c.asid, sup := c.sup, record := r, carve := x.carve } : Folio))
        let uid0 := vid + 1 + bs.length
        let qs := bs.flatMap (fun x => newQuires (uid0 + x.folioid * 32) (vid + 1 + x.folioid) x.qbase x.qcnt (recEntry r)
          (recField r 91 87) (recField r 81 77 + 1) s.clock)
        let s1 : State := { s with
          folios := s.folios ++ fs
          volumes := s.volumes ++ [{ vid := vid, members := fids }]
          rest := s.rest ++ qs
          next := uid0 + 32 * bs.length }
        setVol ((qs.map (·.uid)).foldl State.startView (s1.acquireOn d 5)) .resident

/-! ## The meanings, one for each instruction -/

/-- SLAUNCH_UL (R310). -/
def execSlaunchUL (o : LF) (s : State) : Host.Outcome State Fault Refusal :=
  uniSlaunch 0x2E o.tokOnly o s

/-- SSIGNAL_US (R312). -/
def execSsignalUS (o : SF) (s : State) : Host.Outcome State Fault Refusal :=
  .next (uniSsignal 0x2E ((o.d = 0 && o.a = 0 && o.b = 0 : Bool)) o s)

/-- YIELD_US (R320). -/
def execYieldUS (o : SF) (s : State) : Host.Outcome State Fault Refusal :=
  .next (uniYield 0x2F ((o.d = 0 && o.a = 0 && o.b = 0 : Bool)) o s)

end Sys2Proof.Machine
end

