-- ==== Sys2Proof/Machine/Copy.lean ====
section
/-! DEFINITION. Copies, tokens, connections and tiles, and fences (spec 10, R215 to R223). -/

namespace Sys2Proof.Machine

/-! ## Issue of a copy (R215, R216) -/

/-- A side of a copy: base address and pitch. -/
structure Side where
  base  : DWord
  pitch : DWord
  deriving DecidableEq, Repr

/-- The address of linear offset o on a side: row and byte by R215. -/
def Side.at (x : Side) (rowBytes o : Nat) : Nat :=
  (x.base + BitVec.ofNat 64 (o / rowBytes) * x.pitch + BitVec.ofNat 64 (o % rowBytes)).toNat

/-- Where a window address lies: the member (none for the own window) and the offset; nothing outside the windows (R188). -/
def windowSlot (a : Nat) : Option (Option Nat × Nat) :=
  if a < windowBase then none
  else if a < windowBase + 0x80000 then some (none, a - windowBase)
  else if clusterBase ≤ a ∧ a < clusterBase + 24 * 0x80000 then
    some (some ((a - clusterBase) / 0x80000), (a - clusterBase) % 0x80000)
  else none

/-- A side with bits 63:56 set, or in the window region but in no window (0x080). -/
def sideLost (x : Side) : Bool :=
  let a := x.base.toNat
  2 ^ 56 ≤ a || (windowBase ≤ a && windowSlot a = none)

/-- A 2-D extent that begins at an offset leaves a scratchpad of `size` bytes. -/
def extentOut (off : Nat) (pitch : DWord) (rowBytes rows size : Nat) : Bool :=
  let last : Int := off + (rows - 1 : Nat) * pitch.toInt
  rowBytes ≠ 0 && rows ≠ 0 && (last < 0 || (size : Int) < max (off : Int) last + rowBytes)

/-- A window side: 0x062 for a member that is not co-resident, 0x061 for an extent that leaves its scratchpad. -/
def State.sideWindow (s : State) (x : Side) (rowBytes rows : Nat) : Option Nat :=
  match windowSlot x.base.toNat with
  | none => none
  | some (m, off) =>
    match (match m with | none => some s.q.fid | some k => s.member s.q.fid k) with
    | none => some 0x062
    | some fid => if extentOut off x.pitch rowBytes rows (s.folio fid).scratchBytes then some 0x061 else none

/-- The first failing issue check of `cp` (R216): cause and address. -/
def State.cpCheck (s : State) (src dst : Side) (rowBytes rows : Nat) : Option (Nat × DWord) :=
  if sideLost src then some (0x080, src.base)
  else if sideLost dst then some (0x080, dst.base)
  else match s.sideWindow src rowBytes rows, s.sideWindow dst rowBytes rows with
    | some c, _ => some (c, src.base)
    | none, some c => some (c, dst.base)
    | none, none => none

/-- The members that a mask names. -/
def maskMembers (mask : Nat) : List Nat := (List.range 24).filter (fun m => mask.testBit m)

/-- The first failing issue check of `cpm` (R216); the last is of the extent that the offsets span (log 79). -/
def State.cpmCheck (s : State) (src dst : Side) (rowBytes rows mask : Nat) : Option (Nat × DWord) :=
  match s.cpCheck src dst rowBytes rows with
    | some c => some c
    | none =>
      if dst.base.toNat / 2 ^ 19 ≠ 0 then some (0x061, dst.base)
      else if mask / 2 ^ 24 ≠ 0 ∨ (maskMembers mask).any (fun m => s.member s.q.fid m = none) = true then some (0x062, dst.base)
      else if (maskMembers mask).any (fun m =>
          extentOut dst.base.toNat dst.pitch rowBytes rows (s.folio ((s.member s.q.fid m).getD 0)).scratchBytes) then
        some (0x061, dst.base)
      else none

/-- The allocations of the issuing volume: member, allocation, core (R211). -/
def State.allocations (s : State) : List (Nat × Nat × Nat) :=
  (s.volume s.fol.vid).members.map (fun m => (m.1, m.2, (s.folio m.2).core))

/-- The bytes that a copy moves. -/
def CopyOp.total (c : CopyOp) : Nat := if c.mask = some 0 then 0 else c.rowBytes * c.rows

/-- Change a copy operation. -/
def State.modCopy (s : State) (id : Nat) (f : CopyOp → CopyOp) : State :=
  { s with copies := s.copies.map (fun c => if c.id = id then f c else c) }
/-- A copy has moved everything: its token completes ok, or target ended where bytes were dropped (R211, R216). -/
def State.endCopy (s : State) (c : CopyOp) : State :=
  ({ s with copies := s.copies.filter (fun x => x.id ≠ c.id) } : State).finishTok c.quire c.tok (if c.late then 2 else 0) none
/-- A copy of nothing is complete at once. -/
def State.tryEndCopy (s : State) (id : Nat) : State :=
  match s.copies.find? (fun c => c.id = id) with
  | some c => if c.total ≤ c.pos then s.endCopy c else s
  | none => s

/-- Another copy is in the copy queue of the issuing cluster. -/
def State.clusterBusy (s : State) : Bool :=
  s.copies.any (fun c => (s.folio c.fid).die = s.fol.die && (s.folio c.fid).core / 24 = s.fol.core / 24)

/-- `cp` and `cpm` (R215, R216). The copy queue's length is not stated: while other copies of the cluster are in flight it may
be full, by a free choice. A slot that SWS or SWD names needs no unit: only its swizzle is used, not its format (log 100). -/
def uniCopy (op : Nat) (multi legal : Bool) (o : LF) (s : State) : State :=
  let g := o.a.toNat
  let slotN := fieldOf o.modh 7 5
  let flags := fieldOf o.modh 4 3
  let slot := if flags = 0 then 0 else s.slot slotN
  let src : Side := ⟨s.q.sreg g, s.q.sreg (g + 2)⟩
  let dst : Side := ⟨s.q.sreg (g + 1), s.q.sreg (g + 3)⟩
  let size := s.q.sreg o.b.toNat
  let rowBytes := fieldOf size 31 0
  let rows := fieldOf size 63 32
  let mask := (s.q.sreg o.c.toNat).toNat
  let tok := o.low3.toNat
  let D : Desc := { uni := true, op := op, len := 8, pr := o.pr, neg := o.neg, legal := legal && (flags = 0 || slot ≠ 0)
                    uses := [.sgroup g 4, .sreg o.b.toNat] ++ (if multi then [.sreg o.c.toNat] else [])
                    a := .sreg g, b := .sreg o.b.toNat, c := if multi then .sreg o.c.toNat else .none, wa := 64, wb := 64 }
  let c : CopyOp := { id := s.next, quire := s.q.uid, fid := s.q.fid, members := s.allocations
                      src := src.base, dst := dst.base, spitch := src.pitch, dpitch := dst.pitch
                      rowBytes := rowBytes, rows := rows, sws := flags % 2 = 1, swd := 2 ≤ flags, slot := slot
                      hint := o.hnt.toNat, mask := if multi then some mask else none, tok := tok, epc := s.pc
                      elanes := laneMask s.batch, engine := s.choose 4 2, rels := (s.view s.q.uid).pub, permit := !multi, started := !multi }
  let s1 : State := { s with next := s.next + 1, copies := s.copies ++ [c] }
  D.runU s (
    match (if multi then s.cpmCheck src dst rowBytes rows mask else s.cpCheck src dst rowBytes rows) with
    | some (code, ea) => .stop code (laneMask s.batch) ea
    | none =>
      if (s.q.tok tok).count = 63 then .wait s (.tokenFull tok)
      else if s.clusterBusy ∧ s.choose 1 2 = 1 then .wait s .copyQueue
      else if multi then .wait { s1 with permits := s1.permits ++ [.copy c.id] } (.permit c.id)
      else .done ((s1.startTok tok).tryEndCopy c.id))

/-! ## Segments (R217, R218) -/

/-- One side of a segment: where its first byte lies, and how far the page or scratchpad goes; or an inner cause; or the home
cannot be reached now. -/
inductive Leg where
  | mem (t : Trans) (pa run : Nat)
  | scratch (fid core off run : Nat)
  | device (x : Leaf) (pa run : Nat)
  | fault (code : Nat)
  | waits
  deriving DecidableEq, Repr

/-- A segment that writes n bytes from an address on ends before the first live counter descriptor behind its first line (R241). -/
def State.liveRun (s : State) (pa n : Nat) : Nat :=
  ((s.counters.filter (fun c => !c.gone && pa < c.pa)).map (fun c => c.pa - pa)).foldl min n

/-- A side of a copy at an address (R217), for the allocations captured at issue. A side is of one kind throughout: one that has
begun in memory and whose later bytes lie in a window is read as that window's (log 112). -/
def State.leg (s : State) (c : CopyOp) (a : Nat) (acc : Acc) : Leg :=
  match windowSlot a with
  | some (none, off) => .scratch c.fid (s.folio c.fid).core off (0x80000 - off)
  | some (some m, off) =>
    (match c.members.find? (fun x => x.1 = m) with
     | some (_, fid, core) => .scratch fid core off (0x80000 - off)
     | none => .fault 0x062)
  | none =>
    match s.route c.fid a acc (.copy c.engine) with
    | .error code => .fault code
    | .ok (.mem t pa) =>
      let run := t.leaf.va + t.leaf.size - a
      .mem { t with attr := { t.attr with hint := c.hint } } pa (if acc = .write then s.liveRun pa run else run)
    | .ok (.device x pa) => .device x pa (x.va + x.size - a)
    | .ok (.waits _) => .waits
    | .ok (.scratch _ _) => .fault 0x080

/-- Bytes left in a leg. -/
def Leg.run : Leg → Nat
  | .mem _ _ r => r
  | .scratch _ _ _ r => r
  | .device _ _ r => r
  | _ => 0

/-- The targets that byte o of a copy is written to. -/
def State.destLegs (s : State) (c : CopyOp) (o : Nat) : List Leg :=
  let d : Side := ⟨c.dst, c.dpitch⟩
  match c.mask with
  | none => [s.leg c (d.at c.rowBytes o) .write]
  | some mask => (maskMembers mask).map (fun m =>
      match c.members.find? (fun x => x.1 = m) with
      | some (_, fid, core) => .scratch fid core (d.at c.rowBytes o) (0x80000 - d.at c.rowBytes o)
      | none => .fault 0x062)

/-- The next segment of a copy (R217): its length, source and destinations. -/
def State.segment (s : State) (c : CopyOp) : Nat × Leg × List Leg :=
  let src : Side := ⟨c.src, c.spitch⟩
  let from_ := s.leg c (src.at c.rowBytes c.pos) .read
  let tos := s.destLegs c c.pos
  let row := c.rowBytes - c.pos % c.rowBytes
  ((tos.map Leg.run).foldl min (min row from_.run), from_, tos)

/-- The physical offset of a scratchpad offset of a side (R87, R217). -/
def CopyOp.phys (c : CopyOp) (swz : Bool) (off : Nat) : Nat := if swz then swizzle (slotSwz c.slot) off else off

/-- A byte of an allocation is still of the generation that the copy captured (R211, R275). -/
def State.copyKeeps (s : State) (c : CopyOp) (fid off : Nat) : Bool :=
  s.takesWrites fid && off < (s.folio fid).scratchBytes && c.cuts.all (fun k => k.1 ≠ fid || off < k.2)

/-- The pieces of n bytes from an offset that lie in one 8-byte element each: first byte and length. -/
def pieces (off n : Nat) : List (Nat × Nat) :=
  (List.range ((off % 8 + n + 7) / 8)).map (fun i => let lo := 8 * i - off % 8; (lo, min n (8 * (i + 1) - off % 8) - lo))

/-- The lines of n bytes of a memory leg: of each the first byte and length, and its target under its own virtual address. -/
def lineParts (t : Trans) (pa n : Nat) : List (Nat × Nat × Target) :=
  (List.range ((pa % 64 + n + 63) / 64)).map (fun i =>
    let lo := 64 * i - pa % 64
    (lo, min n (64 * (i + 1) - pa % 64) - lo, .mem { t with pa := t.pa + lo, attr := { t.attr with va := t.attr.va + lo } } (pa + lo)))

/-- The n bytes of a source leg as the engine reads them for its quire, and the state behind (R217, R287). A scratchpad that has
gone reads 0 (R211). -/
def State.legBytes (s : State) (c : CopyOp) (x : Leg) (n : Nat) : List Byte × State :=
  let die := (s.folio c.fid).die
  let p := Path.copy c.engine
  match x with
  | .mem t pa _ =>
    (lineParts t pa n).foldl (fun (r : List Byte × State) e =>
      let y := ((r.2.touch die (s.folio c.fid).core .cluster false e.2.2).recallFor die e.2.2).engineRead c.quire die p e.2.2 e.2.1 (c.pos + e.1)
      (r.1 ++ y.1, y.2)) ([], s.cacheTarget c.fid p (.mem t pa))
  | .scratch fid _ off _ =>
    (pieces off n).foldl (fun (r : List Byte × State) e =>
      let o := c.phys c.sws (off + e.1)
      let y := r.2.engineRead c.quire die p (.scratch fid o) e.2 (c.pos + e.1)
      (r.1 ++ y.1.zipIdx.map (fun b => if s.copyKeeps c fid (o + b.2) then b.1 else 0), y.2)) ([], s)
  | .device x pa _ => s.engineRead c.quire die p (.device x pa) n c.pos
  | _ => ([], s)

/-- The place of byte i of a leg. -/
def CopyOp.place (c : CopyOp) (swz : Bool) (x : Leg) (i : Nat) : Nat :=
  match x with
  | .mem _ pa _ => pa + i
  | .scratch fid _ off _ => scratchLoc fid (c.phys swz (off + i))
  | _ => 2 ^ 79

/-- Write bytes at a destination leg; a scratchpad that has gone, wholly or beyond a shrunk limit, drops and
counts them (R211, R275). -/
def State.legWrite (s : State) (c : CopyOp) (x : Leg) (bs : List Byte) : State :=
  let die := (s.folio c.fid).die
  let p := Path.copy c.engine
  match x with
  | .mem t pa _ =>
    (lineParts t pa bs.length).foldl (fun (z : State) e =>
      let part := (bs.drop e.1).take e.2.1
      let z1 := part.zipIdx.foldl (fun (z : State) b =>
          z.storeBytes die { t.attr with va := t.attr.va + e.1 + b.2 } (pa + e.1 + b.2) [b.1] c.rels (some 9))
        (z.touch die (s.folio c.fid).core .cluster true e.2.2)
      z1.wroteNow c.quire die e.2.2 part.length p) (s.cacheTarget c.fid p (.mem t pa))
  | .device x pa _ => s.cacheTarget c.fid p (.device x pa)
  | .scratch fid core off _ =>
    let o := fun (i : Nat) => c.phys c.swd (off + i)
    let s1 := bs.zipIdx.foldl (fun (t : State) b => if s.copyKeeps c fid (o b.2) then
      (t.scratchWrite fid (o b.2) [b.1] c.rels (some 9)).wroteNow c.quire die (.scratch fid (o b.2)) 1 p else t) s
    if (List.range bs.length).all (fun i => s.copyKeeps c fid (o i)) then s1
    else (s1.countLate die core).modCopy c.id (fun y => { y with late := true })
  | _ => s

/-- Poison travels with copied bytes, from the line of each to the line it is written to (R375). -/
def State.spreadPoison (s : State) (c : CopyOp) (x : Leg) (tos : List Leg) (n : Nat) : State :=
  if s.poison = [] then s
  else
    let bad := (List.range n).filter (fun i => s.poison.contains (c.place c.sws x i / 64))
    let ls := (bad.flatMap (fun i => tos.map (fun y => c.place c.swd y i / 64))).eraseDups
    { s with poison := s.poison ++ ls.filter (fun l => !s.poison.contains l) }

/-- The trap of a copy fault (R218, R370, R371). -/
def State.copyTrap (s : State) (c : CopyOp) (inner ea : Nat) : Trap :=
  { code := 0x0C0, inner := inner, eng := true, sup := (s.folio c.fid).super, epc := c.epc, elanes := c.elanes
    eaddr := BitVec.ofNat 64 ea, tok := some c.tok, who := s.whoOf (s.quire c.quire), prog := BitVec.ofNat 64 c.pos, pc := c.epc }

/-- A copy fault holds the copy; a `cpm` gives up its permit (R218, R319). -/
def State.faultCopy (s : State) (c : CopyOp) (inner ea : Nat) : State :=
  (s.modCopy c.id (fun y => { y with permit := y.mask.isNone })).recordFault (.copy c.id) c.fid (s.copyTrap c inner ea)

/-- A bad scratchpad byte among those a segment reads (R375). -/
def State.badSource (s : State) (c : CopyOp) (x : Leg) (n : Nat) : Bool :=
  s.bad ≠ [] &&
  match x with
  | .scratch fid _ off _ => (List.range n).any (fun i => s.badScratch (.scratch fid (c.phys c.sws (off + i))) 1)
  | _ => false

/-- The continuation of a held copy acquires at device scope on its path before its first read (R397). -/
def State.resumeCopy (s : State) (c : CopyOp) : State :=
  if c.resumed then
    ((s.acquireOn (s.folio c.fid).die 5).orderPaths c.quire [1]).modCopy c.id (fun y => { y with resumed := false })
  else s

/-- COPY_SEGMENT (R217, R218): the next segment is translated and written, or the copy is held. Where both sides fault, the fault is
that of the source (log 92). -/
def copySegment (id : Nat) (s0 : State) : Host.Outcome State Fault Refusal :=
  let s := match s0.copies.find? (fun c => c.id = id && c.permit && c.started && c.held.isNone && c.pend.isNone) with
    | some c => s0.resumeCopy c
    | none => s0
  match s.copies.find? (fun c => c.id = id) with
  | none => .next s
  | some c =>
    if !c.permit || !c.started || c.held.isSome || c.pend.isSome then .next s
    else
      let (n, src, tos) := s.segment c
      let da : Side := ⟨c.dst, c.dpitch⟩
      let sa : Side := ⟨c.src, c.spitch⟩
      let bad := tos.findSome? (fun y => match y with | .fault k => some k | _ => none)
      match src, bad with
      | .fault k, _ => .next (s.faultCopy c k (sa.at c.rowBytes c.pos))
      | _, some k => .next (s.faultCopy c k (da.at c.rowBytes c.pos))
      | _, none =>
        if src = .waits ∨ tos.any (fun y => y = .waits) = true then .next s
        else if s.badSource c src n then .next (s.faultCopy c 0x160 (sa.at c.rowBytes c.pos))
        else
          let r := s.legBytes c src n
          let s1 := (tos.foldl (fun (t : State) y => t.legWrite c y r.1) r.2).spreadPoison c src tos n
          .next ((s1.modCopy id (fun y => { y with pos := y.pos + n })).tryEndCopy id)

/-- A copy operation is abandoned (R218): its token completes partial with the fault's record, and its entry is freed. -/
def State.abandonCopy (s : State) (c : CopyOp) : State :=
  let h := s.heldBy (.copy c.id)
  let r := match h with | some h => some h.2.trap | none => c.pend
  let s1 : State := { s with copies := s.copies.filter (fun x => x.id ≠ c.id) }
  let s2 := match h with | some h => s1.freeEntry h.1 h.2.index | none => s1
  s2.finishTok c.quire c.tok 1 r

/-! ## Tokens (R219, R220) -/

/-- Every token of a mask has count 0. -/
def Quire.tokensDone (q : Quire) (mask : Nat) : Bool := (List.range 8).all (fun n => !mask.testBit n || (q.tok n).count = 0)
/-- The lowest token of a mask with status unit lost (R413). -/
def Quire.lostToken (q : Quire) (mask : Nat) : Option Nat :=
  (List.range 8).find? (fun n => mask.testBit n && (q.tok n).status = 3)
/-- The visibility effect of a complete mask: what the operations have written is seen on the core path; where a token completed a
collection, an acquire at device scope (R219, R287, R310). -/
def State.tokensSeen (s : State) (mask : Nat) : State :=
  if (List.range 8).any (fun n => mask.testBit n && (s.q.tok n).launch) then s.acquireAll s.q.uid s.fol.die 5
  else if mask % 256 = 0 then s
  else s.crossPaths s.q.uid [1, 3] [0]

/-- The common part of `twait` and `ttest`. -/
def tokDesc (op len : Nat) (pr : BitVec 3) (neg legal : Bool) (uses : List Use) (a : Arg) (skip : SkipDest) : Desc :=
  { uni := true, op := op, len := len, pr := pr, neg := neg, legal := legal, uses := uses, a := a, wa := 64, wb := 64, skip := skip }

/-- twait (R219, R413). -/
def uniTwait (D : Desc) (mask : Nat) (s : State) : State :=
  D.runU s (
    if s.q.tokensDone mask then
      match s.q.lostToken mask with
      | some n => .trap { D.trap s 0x141 (laneMask s.batch) with tok := some n }
      | none => .done (s.tokensSeen mask)
    else .wait s (.tokens mask))

/-- The result of `ttest` (R220). -/
def ttestWord (q : Quire) (mask : Nat) : Nat :=
  (List.range 8).foldl (fun v n =>
    if mask.testBit n then
      v + (if (q.tok n).count = 0 then 2 ^ n else 0) + (q.tok n).status.toNat * 2 ^ (8 + 2 * n)
    else v) 0

/-- ttest (R220). -/
def uniTtest (D : Desc) (d mask : Nat) (s : State) : State :=
  let all := s.q.tokensDone mask
  D.runU s (.done (((if all then s.tokensSeen mask else s).setS d (BitVec.ofNat 64 (ttestWord s.q mask))).setK 1 all))

/-! ## Connections and tiles (R221, R222, R413) -/

/-- Connection register n of a folio. -/
def Folio.conn (x : Folio) (n : Nat) : Option Conn := Sparse.get none n x.conns

/-- Another live folio of the die holds the endpoint: a resident one that has not ended (log 115). -/
def State.endpointHeld (s : State) (asid chan : Nat) : Bool :=
  s.folios.any (fun x => x.fid ≠ s.q.fid && x.die = s.fol.die && !x.ended
    && x.conns.any (fun c => match c.2 with | some k => k.asid = asid && k.chan = chan | none => false))

/-- The incarnation of a peer die: of another package, how often that has been evicted (R413; log 93). -/
def State.peerGen (s : State) (pkg die : Nat) : Nat := if pkg = s.pkgid then (s.die die).incarn.toNat else Sparse.get 0 pkg s.pkgGen

/-- cconn (R221). -/
def uniCconn (op : Nat) (legal : Bool) (o : SF) (s : State) : State :=
  let v := s.q.sreg o.a.toNat
  let D := { usDesc o op legal [.below o.d.toNat 16, .sreg o.a.toNat] with b := .none }
  let chan := fieldOf v 23 8
  let die := fieldOf v 7 6
  let pkg := fieldOf v 5 0
  let c : Conn := { asid := s.fol.asid, chan := chan, die := die, pkg := pkg, incarn := s.peerGen pkg die }
  D.runU s (
    if fieldOf v 63 24 ≠ 0 ∨ s.endpointHeld s.fol.asid chan = true then .stop 0x0E0 (laneMask s.batch) 0
    else .done (s.modFolio s.q.fid (fun x => { x with conns := Sparse.set none (o.d.toNat % 16) (some c) x.conns })))

/-- The peer die of a connection has changed incarnation since `cconn`, or is gone with its package (R413). -/
def State.connGone (s : State) (c : Conn) : Bool :=
  s.peerGen c.pkg c.die ≠ c.incarn || (if c.pkg = s.pkgid then !(s.die c.die).admitted else !s.pkgs.getLsbD c.pkg)

/-- tsend and trecv (R222): checks, then the operation is posted. The address of a trap is OFF, and the checks come in the order in
which they stand here (log 103). -/
def uniTile (op : Nat) (send legal : Bool) (o : LF) (s : State) : State :=
  let n := o.d.toNat
  let v := s.q.sreg o.a.toNat
  let off := fieldOf v 31 0
  let len := fieldOf v 63 32
  let tok := o.low3.toNat
  let D : Desc := { uni := true, op := op, len := 8, pr := o.pr, neg := o.neg, legal := legal
                    uses := [.below n 16, .sreg o.a.toNat], a := .sreg o.a.toNat, wa := 64, wb := 64 }
  let stop := fun (c : Nat) (e : Nat) => Res.stop c (laneMask s.batch) (BitVec.ofNat 64 e)
  D.runU s (
    if off % 8 ≠ 0 ∨ len % 8 ≠ 0 then stop 0x060 off
    else if 65536 < len ∨ s.fol.scratchBytes < off + len then stop 0x061 off
    else match s.fol.conn n with
      | none => stop 0x0E0 0
      | some c =>
        if s.connGone c then stop 0x141 0
        else if (s.q.tok tok).count = 63 then .wait s (.tokenFull tok)
        else
          let t : TileOp := { id := s.next, send := send, quire := s.q.uid, fid := s.q.fid, die := s.fol.die, conn := c
                              index := if send then c.sends else c.recvs, off := off, len := len, tok := tok
                              rels := (s.view s.q.uid).pub }
          let c' := if send then { c with sends := c.sends + 1 } else { c with recvs := c.recvs + 1 }
          let s1 : State := { s with next := s.next + 1, tiles := s.tiles ++ [t] }
          .done ((s1.modFolio s.q.fid (fun x => { x with conns := Sparse.set none n (some c') x.conns })).startTok tok))

/-- The record of tiles of different lengths: the bytes delivered (R222). -/
def tileRecord (n : Nat) : Trap := { code := 0, epc := 0, prog := BitVec.ofNat 64 n }

/-- The outcome and the record of a tile of n bytes between two lengths (R222). -/
def tileOutcome (same : Bool) (n : Nat) : BitVec 2 × Option Trap := if same then (0, none) else (1, some (tileRecord n))

/-- The first n bytes of a sender's tile on the network-tile path, each with the mark of poison, and the state behind (R222, R287).
What a shrink has taken reads 0 (R211). -/
def State.tileBytes (s : State) (a : TileOp) (n : Nat) : List (Byte × Bool) × State :=
  let r := s.engineRead a.quire a.die .tile (.scratch a.fid a.off) n a.id
  ((r.1.take n).zipIdx.map (fun b => (if a.off + b.2 < min a.cut (s.folio a.fid).scratchBytes then b.1 else 0, s.scratchPoison a.fid (a.off + b.2) 1)), r.2)

/-- The bytes of a tile arrive at a receiver (R222): those that still belong to its allocation are written, with their poison; one
that does not is dropped, and the outcome is target ended (R211, R275). -/
def State.tileWrite (s : State) (b : TileOp) (bs : List (Byte × Bool)) (out : BitVec 2 × Option Trap) : State :=
  let fits := fun (i : Nat) => s.takesWrites b.fid && b.off + i < min b.cut (s.folio b.fid).scratchBytes
  let s1 := bs.zipIdx.foldl (fun (t : State) x =>
    if fits x.2 then ((t.scratchWrite b.fid (b.off + x.2) [x.1.1] b.rels (some 9)).markPoison x.1.2 (t.scratchHome b.fid (b.off + x.2)) 1).wroteNow
      b.quire b.die (.scratch b.fid (b.off + x.2)) 1 .tile else t) s
  if (List.range bs.length).all fits then s1.finishTok b.quire b.tok out.1 out.2
  else (s1.countLate b.die (s.folio b.fid).core).finishTok b.quire b.tok 2 none

/-- The other package of a connection is of the domain and can be reached (R411). -/
def State.peerUp (s : State) (c : Conn) : Bool :=
  c.pkg ≠ s.pkgid && s.pkgs.getLsbD c.pkg && !s.deadPkgs.getLsbD c.pkg && s.fabricUp

/-- A send towards another package is acknowledged: the tile, the receiver's length and whether its folio has ended are free choices
(R222; log 93). -/
def State.remoteAck (s : State) (a : TileOp) : State :=
  let n := min a.len (s.choose 1 (a.len / 8 + 2) * 8)
  let out := if s.choose 2 3 = 0 then ((2 : BitVec 2), none) else tileOutcome (s.choose 2 3 = 1) n
  s.finishTok a.quire a.tok out.1 out.2

/-- A tile from another package arrives: its bytes and its length are free (R222; log 93). -/
def State.remoteTile (s : State) (b : TileOp) : State :=
  let same := s.choose 2 2 = 0
  let n := if same then b.len else min b.len (s.choose 1 (b.len / 8 + 1) * 8)
  s.tileWrite b ((List.range n).map (fun i => ((Config.freeWord s.tick (7000 + i)).setWidth 8, false))) (tileOutcome same n)

/-- A tile whose peer is a package that cannot be reached, or is gone, completes with status unit lost (R222). -/
def State.loseTile (s : State) (x : TileOp) : State :=
  ({ s with tiles := s.tiles.filter (fun y => y.id ≠ x.id) } : State).finishTok x.quire x.tok 3 none

/-- TILE_DELIVERY (R222): the tile is written, and both tokens complete. With 0 for the receiver a send to another package is
acknowledged, with 0 for the sender a tile of another package arrives; where that package cannot be reached the unit is lost.
Nothing is delivered while an endpoint is saved (R390). -/
def tileDelivery (snd rcv : Nat) (s : State) : State :=
  let go : State := { s with tiles := s.tiles.filter (fun t => t.id ≠ snd ∧ t.id ≠ rcv) }
  match s.tiles.find? (fun t => t.id = snd && t.send), s.tiles.find? (fun t => t.id = rcv && !t.send) with
  | some a, some b =>
    if !s.tilesMatch a b ∨ s.isSaved a.fid = true ∨ s.isSaved b.fid = true then s
    else if s.takesWrites b.fid = false then
      ((go.countLate b.die (s.folio b.fid).core).finishTok a.quire a.tok 2 none).finishTok b.quire b.tok 2 none
    else
      let n := min a.len b.len
      let out := tileOutcome (a.len = b.len) n
      let r := go.tileBytes a n
      (r.2.tileWrite b r.1 out).finishTok a.quire a.tok out.1 out.2
  | some a, none =>
    if rcv ≠ 0 ∨ s.isSaved a.fid = true ∨ a.conn.pkg = s.pkgid then s else if s.peerUp a.conn then go.remoteAck a else s.loseTile a
  | none, some b =>
    if snd ≠ 0 ∨ s.isSaved b.fid = true ∨ b.conn.pkg = s.pkgid then s else if s.peerUp b.conn then go.remoteTile b else s.loseTile b
  | none, none => s

/-- Tiles whose peer is gone complete with status unit lost (R222, R409 step 5). -/
def State.loseTiles (s : State) : State :=
  (s.tiles.filter (fun t => s.connGone t.conn)).foldl State.loseTile s

/-! ## Fences (R223) -/

/-- fence (R223): a release is carried by every later write (R288); a full fence is a release and an acquire. -/
def uniFence (op : Nat) (legal : Bool) (o : SF) (s : State) : State :=
  let scope := fieldOf o.d 2 0
  let kind := fieldOf o.d 4 3
  ({ usDesc o op legal [] with a := .none, b := .none }).runU s (s.behindRelease (kind ≠ 1) scope (fun s1 =>
    let s2 := if kind = 1 then s1 else s1.publish s.q.uid scope
    .done (if kind = 2 then s2 else s2.acquireFence (kind = 0) scope)))

/-- The paths of a mask of path bits (R223). -/
def maskPaths (m : BitVec 6) : List Nat := (List.range 5).filter (fun i => m.getLsbD i)

/-- xfence (R223): the quire's earlier stores and those that happen before, where FROM has the core path, and its updates on their
way, where it has the subscription path, are performed; events on the TO paths that follow are behind them, and behind the earlier
ones of the FROM paths (R287). An engine operation that is complete has written. -/
def uniXfence (op : Nat) (legal : Bool) (o : SF) (s : State) : State :=
  let from_ := maskPaths o.d
  let dst := (maskPaths o.a).filter (· ≤ 3)
  ({ usDesc o op legal [] with a := .none, b := .none }).runU s (
    if from_.contains 0 && s.pendingBlocked s.q.uid then .wait s (.flush 4)
    else
      let s1 := if from_.contains 0 then (s.settleOwed s.q.uid).settleFrom s.q.uid else s
      let s2 := if from_.contains 4 then (s1.settle (fun w => w.from_ = s.q.uid && w.sub.isSome)).seeUpdates s.q.uid dst else s1
      .done (s2.crossPaths s.q.uid (from_.filter (· ≤ 3)) dst))

/-! ## The meanings, one for each instruction -/

/-- CP_UL (R216). -/
def execCpUL (o : LF) (s : State) : Host.Outcome State Fault Refusal :=
  .next (uniCopy 0x13 false ((o.legalCp && o.c = 0)) o s)

/-- CPM_UL (R216). -/
def execCpmUL (o : LF) (s : State) : Host.Outcome State Fault Refusal :=
  .next (uniCopy 0x14 true o.legalCp o s)

/-- TWAIT_US (R219). -/
def execTwaitUS (o : SF) (s : State) : Host.Outcome State Fault Refusal :=
  .next (uniTwait (tokDesc 0x15 4 o.pr o.neg ((o.d = 0 && o.b = 0 : Bool)) [.sreg o.a.toNat] (.sreg o.a.toNat) .nothing) (fieldOf (s.q.sreg o.a.toNat) 7 0) s)

/-- TWAIT_UI (R219). -/
def execTwaitUI (o : IF) (s : State) : Host.Outcome State Fault Refusal :=
  .next (uniTwait (tokDesc 0x15 8 o.pr o.neg o.legalTok [.sreg o.a.toNat] (.imm (o.imm.setWidth 64)) .nothing) (fieldOf o.imm 7 0) s)

/-- TTEST_US (R220). -/
def execTtestUS (o : SF) (s : State) : Host.Outcome State Fault Refusal :=
  .next (uniTtest (tokDesc 0x15 4 o.pr o.neg true [.sreg o.d.toNat, .sreg o.a.toNat] (.sreg o.a.toNat) (.sreg o.d.toNat 64)) o.d.toNat (fieldOf (s.q.sreg o.a.toNat) 7 0) s)

/-- TTEST_UI (R220). -/
def execTtestUI (o : IF) (s : State) : Host.Outcome State Fault Refusal :=
  .next (uniTtest (tokDesc 0x15 8 o.pr o.neg o.legalTok [.sreg o.d.toNat] (.imm (o.imm.setWidth 64)) (.sreg o.d.toNat 64)) o.d.toNat (fieldOf o.imm 7 0) s)

/-- CCONN_US (R221). -/
def execCconnUS (o : SF) (s : State) : Host.Outcome State Fault Refusal :=
  .next (uniCconn 0x16 true o s)

/-- TSEND_UL (R222). -/
def execTsendUL (o : LF) (s : State) : Host.Outcome State Fault Refusal :=
  .next (uniTile 0x16 true ((o.tokOnly && o.b = 0 && o.c = 0)) o s)

/-- TRECV_UL (R222). -/
def execTrecvUL (o : LF) (s : State) : Host.Outcome State Fault Refusal :=
  .next (uniTile 0x16 false ((o.tokOnly && o.b = 0 && o.c = 0)) o s)

/-- FENCE_US (R223). -/
def execFenceUS (o : SF) (s : State) : Host.Outcome State Fault Refusal :=
  .next (uniFence 0x17 o.legalFence o s)

/-- XFENCE_US (R223). -/
def execXfenceUS (o : SF) (s : State) : Host.Outcome State Fault Refusal :=
  .next (uniXfence 0x17 o.legalXfence o s)

end Sys2Proof.Machine
end

