-- ==== Sys2Proof/Machine/Exact.lean ====
section
/-! DEFINITION. The arithmetic of the matrix engine (R158 to R163, R172): exact terms, chunk sums, and accumulation into a cell.
Flags are NV, OV, NX from bit 0 up (R151). -/

namespace Sys2Proof.Machine

/-- A set of matrix flags (R151). -/
abbrev MFlags := BitVec 3
def mNV : MFlags := 1
def mOV : MFlags := 2
def mNX : MFlags := 4

/-- A signalling NaN records NV (R158). -/
def FV.mSig : FV → MFlags
  | .nan true => mNV
  | _ => 0

/-- The exact product of two factors whose NaNs have been recorded (R158). -/
def fvMul : FV → FV → FV × MFlags
  | .nan _, _ | _, .nan _ => (.nan false, 0)
  | .inf a, .inf b => (.inf (a != b), 0)
  | .inf a, .fin b m _ | .fin b m _, .inf a => if m = 0 then (.nan false, mNV) else (.inf (a != b), 0)
  | .fin a m e, .fin b n f => (.fin (a != b) (m * n) (e + f), 0)

/-- The exact sum of two terms; infinities of both signs make a NaN and record NV (R158). -/
def fvAdd : FV → FV → FV × MFlags
  | .nan _, _ | _, .nan _ => (.nan false, 0)
  | .inf a, .inf b => if a = b then (.inf a, 0) else (.nan false, mNV)
  | .inf a, _ | _, .inf a => (.inf a, 0)
  | .fin a m e, .fin b n f => let (r, k, g) := addFin 0 a m e b n f; (.fin r k g, 0)

/-- The value of an integer element (R81, R83). -/
def elemInt (t : Fmt) (x : Nat) : Int :=
  match t with
  | .i32 => (BitVec.ofNat 32 x).toInt
  | .i16 => (BitVec.ofNat 16 x).toInt
  | .i8 => (BitVec.ofNat 8 x).toInt
  | .n8 => x % 256
  | .i4 => (BitVec.ofNat 4 x).toInt
  | .n4 => x % 16
  | .t2 => (match x % 4 with | 1 => 1 | 3 => -1 | _ => 0)
  | _ => if x % 2 = 0 then 1 else -1

/-- A scale as a factor (R84, R83): E8 or F16. -/
def scaleVal (sfmt x : Nat) : FV :=
  if sfmt = 1 then .fin false 1 (if x % 256 = 255 then 0 else (x % 256 : Nat) - 127) else (fpar .f16).read x

/-- An element of a row as the engine takes it: an integer; a sign and logarithm in eighths with its scale, none for zero; or
a scaled value. -/
inductive Elem where
  | int (v : Int)
  | log (v : Option (Bool × Int)) (scale : FV)
  | val (v : FV)
  deriving DecidableEq, Repr

/-- A raw element and its scale, read as a kind of pair asks for: `log` when both formats are logarithmic and a product is
formed (R80), `val` otherwise (R158). -/
def elemOf (t : Fmt) (asLog : Bool) (raw : Nat) (scale : Option FV) : Elem × MFlags :=
  if !t.isFloat then (.int (elemInt t raw), 0)
  else
    let sc := scale.getD (.fin false 1 0)
    if asLog then (.log (logRead t raw) sc, sc.mSig)
    else
      let v := fmtRead t raw
      let (p, f) := fvMul v sc
      (.val p, v.mSig ||| sc.mSig ||| f)

/-- Term of `mma` (R158). -/
def mmaTerm : Elem → Elem → FV × MFlags
  | .int a, .int b => (.fin (a * b < 0) (a * b).natAbs 0, 0)
  | .val a, .val b => fvMul a b
  | .log a sa, .log b sb =>
    let p : FV := match a, b with
      | some (n1, l1), some (n2, l2) => let (m, e) := logLin (l1 + l2); .fin (n1 != n2) m e
      | _, _ => .fin false 0 0
    let (q, f) := fvMul p sa
    let (r, g) := fvMul q sb
    (r, f ||| g)
  | _, _ => (.nan false, 0)

/-- Term of `mdist` (R172): the squared difference, which is first rounded when a format is F32 or F64. -/
def mdistTerm (round : Bool) : Elem → Elem → FV × MFlags
  | .int a, .int b => (.fin false ((a - b) * (a - b)).natAbs 0, 0)
  | .val a, .val b =>
    let (d, f) := fvAdd a (b.negIf true)
    (match d with
     | .nan _ => (.nan false, f)
     | .inf _ => (.inf false, f)
     | .fin n m e =>
       if round then
         let (v, exc) := (fpar .f64).put 0 false n m e
         match (fpar .f64).read v with
         | .fin _ k g => (.fin false (k * k) (2 * g), f)
         | _ => (.inf false, f ||| (if exc &&& excOF = 0 then 0 else mOV))
       else (.fin false (m * m) (2 * e), f))
  | _, _ => (.nan false, 0)

/-- The chunk sum (R158): exact where all terms are finite; two infinities of different sign record NV, whatever else occurs. -/
def chunkSum (ts : List (FV × MFlags)) : FV × MFlags :=
  let has := fun (v : FV) => ts.any (fun t => t.1 = v)
  let f := ts.foldl (fun f t => f ||| t.2) 0
  if has (.inf false) && has (.inf true) then (.nan false, f ||| mNV)
  else (ts.foldl (fun acc t => (fvAdd acc t.1).1) (.fin false 0 0), f)

/-- HI of a cell (R148). -/
def cellHi (x : QWord) : Nat := fieldOf x 63 0
/-- LO of a cell (R148). -/
def cellLo (x : QWord) : Nat := fieldOf x 127 64
/-- A cell of HI and LO. -/
def cellOf (hi lo : Nat) : QWord := BitVec.ofNat 128 (hi + 2 ^ 64 * lo)

/-- The exact difference of a value and a number of F64. -/
def fvMinus (n : Bool) (m : Nat) (e : Int) (h : FV) : Bool × Nat × Int :=
  match h with
  | .fin n2 m2 e2 => addFin 0 n m e (!n2) m2 e2
  | _ => (false, 0, 0)

/-- The sum of the parts of a cell as one value: exact where both are finite. -/
def cellVal (x : QWord) : FV := (fvAdd ((fpar .f64).read (cellHi x)) ((fpar .f64).read (cellLo x))).1

/-- AccAdd (R159), and with one binary64 word where double words are absent (R163). -/
def accAdd (double : Bool) (cell : QWord) (S : FV) : QWord × MFlags :=
  let p := fpar .f64
  let h := p.read (cellHi cell)
  let finite := fun v : FV => match v with | .fin _ _ _ => true | _ => false
  if !finite h ∨ !finite S then
    let (r, exc) := fAdd p 0 false h S
    (cellOf r 0, if (match h, S with | .inf a, .inf b => a != b | _, _ => false) && exc ≠ 0 then mNV else 0)
  else
    match (fvAdd (if double then cellVal cell else h) S).1 with
    | .fin n m e =>
      if m = 0 then (0, 0)
      else
        let (hi, exc) := p.roundTo 0 false n m e
        if exc &&& excOF ≠ 0 then (cellOf hi 0, mOV)
        else if !double then (cellOf hi 0, 0)
        else
          let (n', m', e') := fvMinus n m e (p.read hi)
          (cellOf hi (if m' = 0 then 0 else (p.roundTo 0 false n' m' e').1), 0)
    | .inf n => (cellOf (p.signed n p.inf) 0, 0)
    | .nan _ => (cellOf p.nan 0, 0)

/-- A cell of two integer operands (R160). -/
def accInt (cell : QWord) (S : FV) : QWord :=
  match S with
  | .fin n m e => BitVec.ofInt 128 (cell.toInt + (if n then -1 else 1) * ((m * 2 ^ e.toNat : Nat) : Int))
  | _ => cell

end Sys2Proof.Machine
end

