-- ==== Sys2Proof/Machine/FloatFun.lean ====
section
/-! DEFINITION. The fraction functions (R139). Each value is enclosed between two fixed-point numbers with `w` fraction bits; when
both round alike, that is the correctly rounded result, and otherwise the enclosure is computed more narrowly. The last
enclosure is far below the distance at which a function value of these formats comes to a rounding boundary. -/

namespace Sys2Proof.Machine

/-- Product of fixed-point numbers with w fraction bits. -/
def fxMul (w a b : Nat) : Nat := a * b / 2 ^ w

/-- Σ p / k2^i / (2i + 1), with the signs of an arctangent or all positive. -/
def fxAtanGo (alt : Bool) (k2 : Nat) : Nat → Nat → Nat → Int → Int
  | 0, _, _, acc => acc
  | n + 1, p, i, acc =>
    if p = 0 then acc
    else
      let t : Int := p / (2 * i + 1)
      fxAtanGo alt k2 n (p / k2) (i + 1) (if alt && i % 2 = 1 then acc - t else acc + t)
/-- π, by arctangents of 1/5 and 1/239. -/
def fxPi (w : Nat) : Nat :=
  (16 * fxAtanGo true 25 w (2 ^ w / 5) 0 0 - 4 * fxAtanGo true (239 * 239) w (2 ^ w / 239) 0 0).toNat
/-- The natural logarithm of 2, twice the area tangent of 1/3. -/
def fxLn2 (w : Nat) : Nat := (2 * fxAtanGo false 9 w (2 ^ w / 3) 0 0).toNat

/-- Σ t^i / i!, from a term. -/
def fxExpGo (w t : Nat) : Nat → Nat → Nat → Nat → Nat
  | 0, _, _, acc => acc
  | n + 1, p, i, acc => if p = 0 then acc else fxExpGo w t n (fxMul w p t / (i + 1)) (i + 1) (acc + p)

/-- An alternating series of t² whose term j divides by two successive numbers from `i`: sine from 2, cosine from 1. -/
def fxTrigGo (w t2 : Nat) : Nat → Nat → Nat → Bool → Int → Int
  | 0, _, _, _, acc => acc
  | n + 1, p, i, neg, acc =>
    if p = 0 then acc
    else fxTrigGo w t2 n (fxMul w p t2 / (i * (i + 1))) (i + 2) (!neg) (if neg then acc - p else acc + p)
/-- Sine of a small angle. -/
def fxSin (w t : Nat) : Nat := (fxTrigGo w (fxMul w t t) w t 2 false 0).toNat
/-- Cosine of a small angle. -/
def fxCos (w t : Nat) : Nat := (fxTrigGo w (fxMul w t t) w (2 ^ w) 1 false 0).toNat

/-- Σ z^(2i+1) / (2i + 1). -/
def fxAreaGo (w z2 : Nat) : Nat → Nat → Nat → Nat → Nat
  | 0, _, _, acc => acc
  | n + 1, p, i, acc => if p = 0 then acc else fxAreaGo w z2 n (fxMul w p z2) (i + 1) (acc + p / (2 * i + 1))

/-- The four functions. -/
inductive FracFun where
  | exp2 | log2 | sinpi | cospi
  deriving DecidableEq, Repr

/-- sin(π r) for 0 ≤ r ≤ 1/2. -/
def fxSinPi (w r : Nat) : Nat :=
  if r ≤ 2 ^ w / 4 then fxSin w (fxMul w (fxPi w) r) else fxCos w (fxMul w (fxPi w) (2 ^ w / 2 - r))

/-- Sign and magnitude of a function of ±x, all with w fraction bits; the error is below 2^20 units. -/
def FracFun.approx (k : FracFun) (w : Nat) (neg : Bool) (x : Nat) : Bool × Nat :=
  let one := 2 ^ w
  match k with
  | .exp2 =>
    let t := fxMul w (fxLn2 w) (if neg then one - x else x)
    let r := fxExpGo w t w one 0 0
    (false, if neg then r / 2 else r)
  | .log2 =>
    let z := (if x < one then one - x else x - one) * one / (x + one)
    (x < one, 2 * fxAreaGo w (fxMul w z z) w z 0 0 * one / fxLn2 w)
  | .sinpi => (neg, fxSinPi w (min x (one - x)))
  | .cospi => if x ≤ one / 2 then (false, fxSinPi w (one / 2 - x)) else (true, fxSinPi w (x - one / 2))

/-- The rounded value, from enclosures of growing precision. -/
def FracFun.round (k : FracFun) (p : FPar) (mode : Nat) (uf neg : Bool) (m : Nat) (e : Int) : List Nat → Nat × Exc
  | [] => (p.nan, 0)
  | prec :: more =>
    let w := prec + 64 + 2 * (-e).toNat
    let (n, v) := k.approx w neg (m * 2 ^ (w + e).toNat)
    let lo := p.roundTo mode uf n (2 * (v - 2 ^ 20) + 1) (-w - 1)
    let hi := p.roundTo mode uf n (2 * (v + 2 ^ 20) - 1) (-w - 1)
    if lo = hi ∨ more = [] then lo else k.round p mode uf neg m e more

/-- The function is defined at ±m × 2^e (R139). -/
def FracFun.inDomain (k : FracFun) (neg : Bool) (m : Nat) (e : Int) : Bool :=
  match k with
  | .log2 => !neg && magCmp m e 1 (-1) ≠ .lt && magCmp m e 1 1 ≠ .gt
  | _ => magCmp m e 1 0 ≠ .gt

/-- The exact results (R139), as patterns. -/
def FracFun.exact (k : FracFun) (p : FPar) (neg : Bool) (m : Nat) (e : Int) : Option Nat :=
  let num := fun (n : Bool) (e : Int) => (p.put 0 false n 1 e).1
  let is := fun e' : Int => magCmp m e 1 e' = .eq
  match k with
  | .exp2 => if m = 0 then some (num false 0) else if is 0 then some (num false (if neg then -1 else 1)) else none
  | .log2 => if is (-1) then some (num true 0) else if is 0 then some 0 else if is 1 then some (num false 0) else none
  | .sinpi => if m = 0 || is 0 then some (p.signed neg 0) else if is (-1) then some (num neg 0) else none
  | .cospi => if m = 0 then some (num false 0) else if is (-1) then some 0 else if is 0 then some (num true 0) else none

/-- fexp2f, flog2f, fsinpif, fcospif (R139). -/
def FracFun.apply (k : FracFun) (p : FPar) (mode : Nat) (uf : Bool) (x : FV) : Nat × Exc :=
  match x with
  | .nan _ => (p.nan, x.sig)
  | .inf _ => (p.nan, excNV)
  | .fin n m e =>
    if !k.inDomain n m e then (p.nan, excNV)
    else match k.exact p n m e with
      | some r => (r, 0)
      | none => k.round p mode uf n m e [p.fb + 33, 2 * p.fb + 34, 4 * p.fb + 68, 16 * p.fb + 80]

end Sys2Proof.Machine
end

