-- ==== Sys2Proof/Machine/Float.lean ====
section
/-! DEFINITION. The floating-point instructions (R123 to R144): every lane is computed, then the whole word traps or is
written and sets flags (R93, R94). -/

namespace Sys2Proof.Machine

/-! ## Rounding field and traps -/

/-- The rounding mode of a field: 7 reads %frm (R88, R125). -/
def State.mode (s : State) (rnd : Nat) : Nat := if rnd = 7 then s.q.frm.toNat else rnd
/-- DYN with %frm = 5 is refused outside the conversions (R89). -/
def State.dynOk (s : State) (rnd : Nat) : Bool := rnd ≠ 7 || s.q.frm ≠ 5
/-- The rounding field of an LI or UI word (R125). -/
def dynRnd (top : Bool) : Nat := if top then 7 else 0
/-- The underflow trap is enabled (R91, R92). -/
def State.ufTrap (s : State) : Bool := s.q.ftrap.getLsbD 3

/-- INFO of a class 0 trap (R371). -/
def fpInfo (ft mode pd comb : Nat) : DWord := BitVec.ofNat 64 (ft % 8 + mode % 8 * 8 + pd % 8 * 64 + comb % 4 * 512)

/-- The class 0 part of a lane's entry (R372): the default result, the exceptions, and what `fresume.skip` will write. -/
def LaneRec.fp (r : LaneRec) (v : Nat) (exc : Exc) (hit : Bool) : LaneRec :=
  { r with dflt := BitVec.ofNat 64 v, res := BitVec.ofNat 128 v, exc := exc.setWidth 8
           setf := if hit then 0 else exc.setWidth 8, wr := r.act }

/-- The exceptions of all lanes together. -/
def excAll (rs : List (Fibre × Nat × Exc)) : Exc := rs.foldl (fun a x => a ||| x.2.2) 0

/-- Exceptions set in the flags of one lane. -/
def Fibre.flag (f : Fibre) (e : Exc) : Fibre := { f with fflags := f.fflags ||| e }

/-- R93: the trap of a lane word, lowest exception first, if an enabled one is signalled. -/
def Desc.fpTrap (D : Desc) (s : State) (info : DWord) (rs : List (Fibre × Nat × Exc)) : Option Trap :=
  let hit := excAll rs &&& s.q.ftrap
  if hit = 0 then none
  else
    let c := ctzOf 5 hit.toNat
    let el := laneMask ((rs.filter (fun x => x.2.2.getLsbD c)).map (·.1))
    some { D.trap s (c + 1) el with
      info := info
      lanes := (D.lanes s 0).map (fun (l, r) =>
        match rs.find? (fun x => x.1.lane = l) with
        | some x => (l, r.fp x.2.1 x.2.2 (el.getLsbD l))
        | none => (l, r)) }

/-- R93: the lane word traps, or writes every active lane and sets its flags. `wr` writes the results. -/
def Desc.fpRun (D : Desc) (s : State) (info : DWord) (g : Fibre → Nat × Exc)
    (wr : List (Nat × Nat) → State) : State :=
  let rs := (s.active D.pr D.neg).map (fun f => (f, g f))
  D.run s (match D.fpTrap s info rs with
    | some t => .trap t
    | none => .done ((wr (rs.map (fun x => (x.1.lane, x.2.1)))).mapFibres (fun f =>
        match rs.find? (fun x => x.1.lane = f.lane && s.inBatch f) with
        | some x => f.flag x.2.2
        | none => f)))

/-- R94: the uniform word traps with the members in %elanes, or writes and sets every member's flags. -/
def Desc.fpRunU (D : Desc) (s : State) (info : DWord) (r : Nat × Exc) (wr : Nat → State) : State :=
  let hit := r.2 &&& s.q.ftrap
  D.runU s (
    if hit ≠ 0 then .trap { D.trap s (ctzOf 5 hit.toNat + 1) (laneMask s.batch) with
      info := info
      lanes := (D.lanes s 0).map (fun (l, e) => (l, e.fp r.1 r.2 true)) }
    else .done ((wr r.1).mapFibres (fun f => if s.inBatch f then f.flag r.2 else f)))

/-! ## The operations on elements of one format -/

/-- An operation whose operands and result have the format FT, or whose result is one 32-bit register. -/
inductive FloatOp where
  | add | sub | mul | div | sqrt
  | fma (np nc : Bool)
  | minmax (k : MinMax)
  | abs | neg | cpys
  | fclass
  | rint (loud : Bool)
  | expi | expx
  | frac (k : FracFun)
  | seedr | seedq
  deriving DecidableEq, Repr

/-- The operation has a second source. -/
def FloatOp.binary : FloatOp → Bool
  | .add | .sub | .mul | .div | .fma _ _ | .minmax _ | .cpys | .expi => true
  | _ => false
/-- The latch an operation writes (R127). -/
def FloatOp.latch : FloatOp → Latch
  | .expi | .expx | .frac _ | .seedr | .seedq => .sfu
  | _ => .fp
/-- Width of the destination: one register for `fclass` and `fexpx` (R133, R138). -/
def FloatOp.width (k : FloatOp) (t : Fmt) : Nat :=
  match k with
  | .fclass | .expx => 32
  | _ => regBits t

/-- The default result and the exceptions of one lane (R129 to R140). -/
def FloatOp.apply (k : FloatOp) (t : Fmt) (mode : Nat) (uf : Bool) (a b c : Nat) : Nat × Exc :=
  let p := fpar t
  let x := p.read a
  let y := p.read b
  match k with
  | .add => fAdd p mode uf x y
  | .sub => fAdd p mode uf x (y.negIf true)
  | .mul => fMul p mode uf x y
  | .div => fDiv p mode uf x y
  | .sqrt => fSqrt p mode uf x
  | .fma np nc => fFma p mode uf (x.negIf np) y ((p.read c).negIf nc)
  | .minmax m => fMinMax m p (a % 2 ^ fmtBits t) (b % 2 ^ fmtBits t)
  | .abs => (a % p.signBit, 0)
  | .neg => (a % p.signBit + (if a / p.signBit % 2 = 1 then 0 else p.signBit), 0)
  | .cpys => (a % p.signBit + (if b / p.signBit % 2 = 1 then p.signBit else 0), 0)
  | .fclass => (fClass p a, 0)
  | .rint loud => fRint p mode loud x
  | .expi => fExpi p mode uf x (BitVec.ofNat 32 b).toInt
  | .expx => fExpx x
  | .frac f => f.apply p mode uf x
  | .seedr => fSeedr p uf x
  | .seedq => fSeedq p uf x

/-! ## Lane instructions -/

/-- The element pattern of an immediate (R126). -/
def fimm (t : Fmt) (imm : Word) : DWord := if t = .f64 then imm ++ (0 : Word) else imm.setWidth 64

/-- LI fields of a float instruction; `expi` takes its exponent as it stands. -/
def lfArgs (k : FloatOp) (o : IF) : LArgs :=
  { liArgs o with b := .imm (match k with | .expi => o.imm.setWidth 64 | _ => fimm (laneFt o.ty) o.imm) }

/-- A lane instruction of one format. -/
def laneFloat (k : FloatOp) (op : Nat) (legal : Bool) (rnd : Nat) (x : LArgs) (s : State) : State :=
  let t := laneFt x.ty
  let w := regBits t
  let wd := k.width t
  let wb := match k with | .expi => 32 | _ => w
  let third := match k with | .fma _ _ => true | _ => false
  let D : Desc :=
    { uni := false, op := op, len := x.len, pr := x.pr, neg := x.neg, legal := legal, dyn := s.dynOk rnd
      uses := [.dst x.d wd, .src x.a w] ++ (if k.binary then x.b.use wb else []) ++ (if third then [.src x.c w] else [])
      a := .name x.a, b := if k.binary then x.b else .none, c := if third then .name x.c else .none
      wa := w, wb := wb, skip := .lane x.d wd (some k.latch) }
  D.fpRun s (fpInfo x.ty.toNat (s.mode rnd) 0 0)
    (fun f => k.apply t (s.mode rnd) s.ufTrap (s.arg f D.a w) (s.arg f D.b wb) (s.arg f D.c w))
    (s.writeLanes x.d wd (some k.latch))

/-- fcmp: a predicate under COMB (R132). -/
def laneFcmp (op : Nat) (legal : Bool) (comb : Nat) (quiet : Bool) (x : LArgs) (s : State) : State :=
  let t := laneFt x.ty
  let w := regBits t
  let pd := x.dn % 8
  let D : Desc :=
    { uni := false, op := op, len := x.len, pr := x.pr, neg := x.neg, legal := legal
      uses := [.below x.dn 64, .src x.a w] ++ x.b.use w
      a := .name x.a, b := x.b, wa := w, wb := w, skip := .pred pd comb }
  D.fpRun s (fpInfo x.ty.toNat 0 pd comb)
    (fun f =>
      let r := fCmp (x.dn / 8 % 8) quiet ((fpar t).read (s.rd f x.a w)) ((fpar t).read (s.arg f x.b w))
      (r.1.toNat, r.2))
    (fun rs => s.mapFibres (fun f =>
      match rs.find? (fun r => r.1 = f.lane && s.inBatch f) with
      | some r => f.setPred pd (combine comb (f.pred pd) (r.2 = 1))
      | none => f))

/-- A conversion: widths of source and destination and the function on one element. -/
def laneConv (op : Nat) (unit legal : Bool) (ft mode ws wd : Nat) (x : LArgs) (g : Nat → Nat × Exc) (s : State) : State :=
  let D : Desc :=
    { uni := false, op := op, len := x.len, pr := x.pr, neg := x.neg, unit := unit, legal := legal
      uses := [.dst x.d wd, .src x.a ws], a := .name x.a, wa := ws, skip := .lane x.d wd (some .fp) }
  D.fpRun s (fpInfo ft mode 0 0) (fun f => g (s.rd f x.a ws)) (s.writeLanes x.d wd (some .fp))

/-- fcvt (R134, R135). An exact one with RND 7 reads no %frm: its fault record gives 7 as the
mode, and 0 as FT, which a conversion does not name (log 102). -/
def laneFcvt (op : Nat) (legal : Bool) (o : LF) (s : State) : State :=
  let src := fmtOf o.sfmt
  let dst := fmtOf o.dfmt
  laneConv op (s.fmtUnit src && s.fmtUnit dst) legal 0 o.rnd.toNat (regBits src) (regBits dst) (llArgs o)
    (fConvert src dst o.rnd.toNat s.ufTrap) s

/-- fcvti (R136): the integer is extended to the width of its type. -/
def laneFcvti (op : Nat) (legal : Bool) (ity : BitVec 3) (rnd : Nat) (x : LArgs) (s : State) : State :=
  let t := laneTy ity
  laneConv op true legal x.ty.toNat rnd (regBits (laneFt x.ty)) (wrOf t) x
    (fun a => let r := fToInt t rnd ((fpar (laneFt x.ty)).read a); (extTo r.1 t (wrOf t), r.2)) s

/-- icvtf (R136). -/
def laneIcvtf (op : Nat) (legal : Bool) (ity : BitVec 3) (rnd : Nat) (x : LArgs) (s : State) : State :=
  let t := laneTy ity
  laneConv op true legal x.ty.toNat rnd (wrOf t) (regBits (laneFt x.ty)) x
    (fun a => fFromInt (fpar (laneFt x.ty)) rnd s.ufTrap (patVal t a)) s

/-! ## Uniform instructions (R141) -/

/-- UI fields of a float instruction (R126). -/
def ufArgs (o : IF) : UArgs := { uiArgs o with b := .imm (fimm (uniFt o.ty) o.imm) }

/-- The uniform operations of one format. -/
def uniFloat (k : FloatOp) (op : Nat) (legal : Bool) (rnd : Nat) (x : UArgs) (s : State) : State :=
  let t := uniFt x.ty
  let third := match k with | .fma _ _ => true | _ => false
  let D : Desc :=
    { uni := true, op := op, len := x.len, pr := x.pr, neg := x.neg, legal := legal, dyn := s.dynOk rnd
      uses := [.sreg x.d, .sreg x.a] ++ (if k.binary then x.b.use 64 else []) ++ (if third then [.sreg x.c] else [])
      a := .sreg x.a, b := if k.binary then x.b else .none, c := if third then .sreg x.c else .none
      wa := 64, wb := 64, skip := .sreg x.d 64 }
  D.fpRunU s (fpInfo x.ty.toNat (s.mode rnd) 0 0)
    (k.apply t (s.mode rnd) s.ufTrap (s.uarg D.a 64) (s.uarg D.b 64) (s.uarg D.c 64))
    (fun v => s.setS x.d (BitVec.ofNat 64 v))

/-- sfcmp. -/
def uniFcmp (op : Nat) (legal : Bool) (comb : Nat) (quiet : Bool) (x : UArgs) (s : State) : State :=
  let t := uniFt x.ty
  let kd := x.d % 8
  let D : Desc :=
    { uni := true, op := op, len := x.len, pr := x.pr, neg := x.neg, legal := legal
      uses := [.below x.d 64, .sreg x.a] ++ x.b.use 64
      a := .sreg x.a, b := x.b, wa := 64, wb := 64, skip := .kpred kd comb }
  let r := fCmp (x.d / 8 % 8) quiet ((fpar t).read (s.q.sreg x.a).toNat) ((fpar t).read (s.uarg x.b 64))
  D.fpRunU s (fpInfo x.ty.toNat 0 kd comb) (r.1.toNat, r.2)
    (fun v => s.setK kd (combine comb (s.q.kpred kd) (v = 1)))

/-- sfcvt: its codes name no log format, so it needs no unit (R141, R143). The mode and the FT that its fault record
gives are as those of fcvt (log 102). -/
def uniFcvt (op : Nat) (legal : Bool) (o : LF) (s : State) : State :=
  let x := ulArgs o
  let src := fmtOf o.sfmt
  let dst := fmtOf o.dfmt
  let D : Desc :=
    { uni := true, op := op, len := x.len, pr := x.pr, neg := x.neg, legal := legal
      uses := [.sreg x.d, .sreg x.a], a := .sreg x.a, wa := 64, skip := .sreg x.d 64 }
  D.fpRunU s (fpInfo 0 o.rnd.toNat 0 0) (fConvert src dst o.rnd.toNat s.ufTrap (s.q.sreg x.a).toNat)
    (fun v => s.setS x.d (BitVec.ofNat 64 v))

/-! ## The meanings, one for each instruction -/

/-- FADD_LS (R129). -/
def execFaddLS (o : SF) (s : State) : Host.Outcome State Fault Refusal :=
  .next (laneFloat .add 0x10 true 0 (lsArgs o) s)

/-- FADD_LL (R129). -/
def execFaddLL (o : LF) (s : State) : Host.Outcome State Fault Refusal :=
  .next (laneFloat .add 0x10 o.legalF o.rnd.toNat (llArgs o) s)

/-- FADD_LI (R129). -/
def execFaddLI (o : IF) (s : State) : Host.Outcome State Fault Refusal :=
  .next (laneFloat .add 0x10 o.legalF (dynRnd o.top) (lfArgs .add o) s)

/-- FSUB_LS (R129). -/
def execFsubLS (o : SF) (s : State) : Host.Outcome State Fault Refusal :=
  .next (laneFloat .sub 0x11 true 0 (lsArgs o) s)

/-- FSUB_LL (R129). -/
def execFsubLL (o : LF) (s : State) : Host.Outcome State Fault Refusal :=
  .next (laneFloat .sub 0x11 o.legalF o.rnd.toNat (llArgs o) s)

/-- FSUB_LI (R129). -/
def execFsubLI (o : IF) (s : State) : Host.Outcome State Fault Refusal :=
  .next (laneFloat .sub 0x11 o.legalF (dynRnd o.top) (lfArgs .sub o) s)

/-- FMUL_LS (R129). -/
def execFmulLS (o : SF) (s : State) : Host.Outcome State Fault Refusal :=
  .next (laneFloat .mul 0x12 true 0 (lsArgs o) s)

/-- FMUL_LL (R129). -/
def execFmulLL (o : LF) (s : State) : Host.Outcome State Fault Refusal :=
  .next (laneFloat .mul 0x12 o.legalF o.rnd.toNat (llArgs o) s)

/-- FMUL_LI (R129). -/
def execFmulLI (o : IF) (s : State) : Host.Outcome State Fault Refusal :=
  .next (laneFloat .mul 0x12 o.legalF (dynRnd o.top) (lfArgs .mul o) s)

/-- FMA_LL (R129). -/
def execFmaLL (o : LF) (s : State) : Host.Outcome State Fault Refusal :=
  .next (laneFloat (.fma o.np o.nc) 0x13 o.legalFma o.rnd.toNat (llArgs o) s)

/-- FDIV_LS (R129). -/
def execFdivLS (o : SF) (s : State) : Host.Outcome State Fault Refusal :=
  .next (laneFloat .div 0x14 true 0 (lsArgs o) s)

/-- FDIV_LL (R129). -/
def execFdivLL (o : LF) (s : State) : Host.Outcome State Fault Refusal :=
  .next (laneFloat .div 0x14 o.legalF o.rnd.toNat (llArgs o) s)

/-- FSQRT_LS (R129). -/
def execFsqrtLS (o : SF) (s : State) : Host.Outcome State Fault Refusal :=
  .next (laneFloat .sqrt 0x15 true 0 (lsArgs o) s)

/-- FSQRT_LL (R129). -/
def execFsqrtLL (o : LF) (s : State) : Host.Outcome State Fault Refusal :=
  .next (laneFloat .sqrt 0x15 o.legalF o.rnd.toNat (llArgs o) s)

/-- FMIN_LS (R130). -/
def execFminLS (o : SF) (s : State) : Host.Outcome State Fault Refusal :=
  .next (laneFloat (.minmax .min) 0x16 true 0 (lsArgs o) s)

/-- FMIN_LL (R130). -/
def execFminLL (o : LF) (s : State) : Host.Outcome State Fault Refusal :=
  .next (laneFloat (.minmax .min) 0x16 o.legalFnr5 o.rnd.toNat (llArgs o) s)

/-- FMIN_LI (R130). -/
def execFminLI (o : IF) (s : State) : Host.Outcome State Fault Refusal :=
  .next (laneFloat (.minmax .min) 0x16 o.legalFnr (dynRnd o.top) (lfArgs (.minmax .min) o) s)

/-- FMAX_LS (R130). -/
def execFmaxLS (o : SF) (s : State) : Host.Outcome State Fault Refusal :=
  .next (laneFloat (.minmax .max) 0x16 true 0 (lsArgs o) s)

/-- FMAX_LL (R130). -/
def execFmaxLL (o : LF) (s : State) : Host.Outcome State Fault Refusal :=
  .next (laneFloat (.minmax .max) 0x16 o.legalFnr5 o.rnd.toNat (llArgs o) s)

/-- FMAX_LI (R130). -/
def execFmaxLI (o : IF) (s : State) : Host.Outcome State Fault Refusal :=
  .next (laneFloat (.minmax .max) 0x16 o.legalFnr (dynRnd o.top) (lfArgs (.minmax .max) o) s)

/-- FMINN_LS (R130). -/
def execFminnLS (o : SF) (s : State) : Host.Outcome State Fault Refusal :=
  .next (laneFloat (.minmax .minn) 0x16 true 0 (lsArgs o) s)

/-- FMINN_LL (R130). -/
def execFminnLL (o : LF) (s : State) : Host.Outcome State Fault Refusal :=
  .next (laneFloat (.minmax .minn) 0x16 o.legalFnr5 o.rnd.toNat (llArgs o) s)

/-- FMINN_LI (R130). -/
def execFminnLI (o : IF) (s : State) : Host.Outcome State Fault Refusal :=
  .next (laneFloat (.minmax .minn) 0x16 o.legalFnr (dynRnd o.top) (lfArgs (.minmax .minn) o) s)

/-- FMAXN_LS (R130). -/
def execFmaxnLS (o : SF) (s : State) : Host.Outcome State Fault Refusal :=
  .next (laneFloat (.minmax .maxn) 0x16 true 0 (lsArgs o) s)

/-- FMAXN_LL (R130). -/
def execFmaxnLL (o : LF) (s : State) : Host.Outcome State Fault Refusal :=
  .next (laneFloat (.minmax .maxn) 0x16 o.legalFnr5 o.rnd.toNat (llArgs o) s)

/-- FMAXN_LI (R130). -/
def execFmaxnLI (o : IF) (s : State) : Host.Outcome State Fault Refusal :=
  .next (laneFloat (.minmax .maxn) 0x16 o.legalFnr (dynRnd o.top) (lfArgs (.minmax .maxn) o) s)

/-- FMINM_LL (R130). -/
def execFminmLL (o : LF) (s : State) : Host.Outcome State Fault Refusal :=
  .next (laneFloat (.minmax .minm) 0x16 o.legalFnr5 o.rnd.toNat (llArgs o) s)

/-- FMINM_LI (R130). -/
def execFminmLI (o : IF) (s : State) : Host.Outcome State Fault Refusal :=
  .next (laneFloat (.minmax .minm) 0x16 o.legalFnr (dynRnd o.top) (lfArgs (.minmax .minm) o) s)

/-- FMAXM_LL (R130). -/
def execFmaxmLL (o : LF) (s : State) : Host.Outcome State Fault Refusal :=
  .next (laneFloat (.minmax .maxm) 0x16 o.legalFnr5 o.rnd.toNat (llArgs o) s)

/-- FMAXM_LI (R130). -/
def execFmaxmLI (o : IF) (s : State) : Host.Outcome State Fault Refusal :=
  .next (laneFloat (.minmax .maxm) 0x16 o.legalFnr (dynRnd o.top) (lfArgs (.minmax .maxm) o) s)

/-- FABS_LS (R131). -/
def execFabsLS (o : SF) (s : State) : Host.Outcome State Fault Refusal :=
  .next (laneFloat .abs 0x17 true 0 (lsArgs o) s)

/-- FABS_LL (R131). -/
def execFabsLL (o : LF) (s : State) : Host.Outcome State Fault Refusal :=
  .next (laneFloat .abs 0x17 o.legalFnr5 o.rnd.toNat (llArgs o) s)

/-- FNEG_LS (R131). -/
def execFnegLS (o : SF) (s : State) : Host.Outcome State Fault Refusal :=
  .next (laneFloat .neg 0x17 true 0 (lsArgs o) s)

/-- FNEG_LL (R131). -/
def execFnegLL (o : LF) (s : State) : Host.Outcome State Fault Refusal :=
  .next (laneFloat .neg 0x17 o.legalFnr5 o.rnd.toNat (llArgs o) s)

/-- FCPYS_LS (R131). -/
def execFcpysLS (o : SF) (s : State) : Host.Outcome State Fault Refusal :=
  .next (laneFloat .cpys 0x17 true 0 (lsArgs o) s)

/-- FCPYS_LL (R131). -/
def execFcpysLL (o : LF) (s : State) : Host.Outcome State Fault Refusal :=
  .next (laneFloat .cpys 0x17 o.legalFnr5 o.rnd.toNat (llArgs o) s)

/-- FCMP_LS (R132). -/
def execFcmpLS (o : SF) (s : State) : Host.Outcome State Fault Refusal :=
  .next (laneFcmp 0x18 true 0 false (lsArgs o) s)

/-- FCMP_LL (R132). -/
def execFcmpLL (o : LF) (s : State) : Host.Outcome State Fault Refusal :=
  .next (laneFcmp 0x18 (o.legalFcmp 5) o.comb.toNat o.quiet (llArgs o) s)

/-- FCMP_LI (R132). -/
def execFcmpLI (o : IF) (s : State) : Host.Outcome State Fault Refusal :=
  .next (laneFcmp 0x18 o.legalFnr 0 false (lfArgs .add o) s)

/-- FCLASS_LS (R133). -/
def execFclassLS (o : SF) (s : State) : Host.Outcome State Fault Refusal :=
  .next (laneFloat .fclass 0x19 true 0 (lsArgs o) s)

/-- FCLASS_LL (R133). -/
def execFclassLL (o : LF) (s : State) : Host.Outcome State Fault Refusal :=
  .next (laneFloat .fclass 0x19 o.legalFnr5 o.rnd.toNat (llArgs o) s)

/-- FCVT_LL (R134). -/
def execFcvtLL (o : LF) (s : State) : Host.Outcome State Fault Refusal :=
  .next (laneFcvt 0x1A (o.legalFcvt 7) o s)

/-- FCVTI_LS (R136). -/
def execFcvtiLS (o : SF) (s : State) : Host.Outcome State Fault Refusal :=
  .next (laneFcvti 0x1B true 0 0 (lsArgs o) s)

/-- FCVTI_LL (R136). -/
def execFcvtiLL (o : LF) (s : State) : Host.Outcome State Fault Refusal :=
  .next (laneFcvti 0x1B o.legalFcvti o.low3 o.rnd.toNat (llArgs o) s)

/-- ICVTF_LS (R136). -/
def execIcvtfLS (o : SF) (s : State) : Host.Outcome State Fault Refusal :=
  .next (laneIcvtf 0x1B true 0 0 (lsArgs o) s)

/-- ICVTF_LL (R136). -/
def execIcvtfLL (o : LF) (s : State) : Host.Outcome State Fault Refusal :=
  .next (laneIcvtf 0x1B o.legalFcvti o.low3 o.rnd.toNat (llArgs o) s)

/-- FRINT_LS (R137). -/
def execFrintLS (o : SF) (s : State) : Host.Outcome State Fault Refusal :=
  .next (laneFloat (.rint false) 0x1C true 0 (lsArgs o) s)

/-- FRINT_LL (R137). -/
def execFrintLL (o : LF) (s : State) : Host.Outcome State Fault Refusal :=
  .next (laneFloat (.rint o.xflag) 0x1C o.legalFrint o.rnd.toNat (llArgs o) s)

/-- FEXPI_LS (R138). -/
def execFexpiLS (o : SF) (s : State) : Host.Outcome State Fault Refusal :=
  .next (laneFloat .expi 0x1D true 0 (lsArgs o) s)

/-- FEXPI_LL (R138). -/
def execFexpiLL (o : LF) (s : State) : Host.Outcome State Fault Refusal :=
  .next (laneFloat .expi 0x1D o.legalF o.rnd.toNat (llArgs o) s)

/-- FEXPI_LI (R138). -/
def execFexpiLI (o : IF) (s : State) : Host.Outcome State Fault Refusal :=
  .next (laneFloat .expi 0x1D o.legalFexpi (dynRnd o.top) (lfArgs .expi o) s)

/-- FEXPX_LS (R138). -/
def execFexpxLS (o : SF) (s : State) : Host.Outcome State Fault Refusal :=
  .next (laneFloat .expx 0x1D true 0 (lsArgs o) s)

/-- FEXPX_LL (R138). -/
def execFexpxLL (o : LF) (s : State) : Host.Outcome State Fault Refusal :=
  .next (laneFloat .expx 0x1D o.legalFnr3 o.rnd.toNat (llArgs o) s)

/-- FEXP2F_LS (R139). -/
def execFexp2fLS (o : SF) (s : State) : Host.Outcome State Fault Refusal :=
  .next (laneFloat (.frac .exp2) 0x1E true 0 (lsArgs o) s)

/-- FEXP2F_LL (R139). -/
def execFexp2fLL (o : LF) (s : State) : Host.Outcome State Fault Refusal :=
  .next (laneFloat (.frac .exp2) 0x1E o.legalF o.rnd.toNat (llArgs o) s)

/-- FLOG2F_LS (R139). -/
def execFlog2fLS (o : SF) (s : State) : Host.Outcome State Fault Refusal :=
  .next (laneFloat (.frac .log2) 0x1E true 0 (lsArgs o) s)

/-- FLOG2F_LL (R139). -/
def execFlog2fLL (o : LF) (s : State) : Host.Outcome State Fault Refusal :=
  .next (laneFloat (.frac .log2) 0x1E o.legalF o.rnd.toNat (llArgs o) s)

/-- FSINPIF_LS (R139). -/
def execFsinpifLS (o : SF) (s : State) : Host.Outcome State Fault Refusal :=
  .next (laneFloat (.frac .sinpi) 0x1E true 0 (lsArgs o) s)

/-- FSINPIF_LL (R139). -/
def execFsinpifLL (o : LF) (s : State) : Host.Outcome State Fault Refusal :=
  .next (laneFloat (.frac .sinpi) 0x1E o.legalF o.rnd.toNat (llArgs o) s)

/-- FCOSPIF_LS (R139). -/
def execFcospifLS (o : SF) (s : State) : Host.Outcome State Fault Refusal :=
  .next (laneFloat (.frac .cospi) 0x1E true 0 (lsArgs o) s)

/-- FCOSPIF_LL (R139). -/
def execFcospifLL (o : LF) (s : State) : Host.Outcome State Fault Refusal :=
  .next (laneFloat (.frac .cospi) 0x1E o.legalF o.rnd.toNat (llArgs o) s)

/-- FSEEDR_LS (R140). -/
def execFseedrLS (o : SF) (s : State) : Host.Outcome State Fault Refusal :=
  .next (laneFloat .seedr 0x1F true 0 (lsArgs o) s)

/-- FSEEDR_LL (R140). -/
def execFseedrLL (o : LF) (s : State) : Host.Outcome State Fault Refusal :=
  .next (laneFloat .seedr 0x1F o.legalFnr3 o.rnd.toNat (llArgs o) s)

/-- FSEEDQ_LS (R140). -/
def execFseedqLS (o : SF) (s : State) : Host.Outcome State Fault Refusal :=
  .next (laneFloat .seedq 0x1F true 0 (lsArgs o) s)

/-- FSEEDQ_LL (R140). -/
def execFseedqLL (o : LF) (s : State) : Host.Outcome State Fault Refusal :=
  .next (laneFloat .seedq 0x1F o.legalFnr3 o.rnd.toNat (llArgs o) s)

/-- SFADD_US (R141). -/
def execSfaddUS (o : SF) (s : State) : Host.Outcome State Fault Refusal :=
  .next (uniFloat .add 0x0C true 0 (usArgs o) s)

/-- SFADD_UL (R141). -/
def execSfaddUL (o : LF) (s : State) : Host.Outcome State Fault Refusal :=
  .next (uniFloat .add 0x0C o.legalF o.rnd.toNat (ulArgs o) s)

/-- SFADD_UI (R141). -/
def execSfaddUI (o : IF) (s : State) : Host.Outcome State Fault Refusal :=
  .next (uniFloat .add 0x0C o.legalSf (dynRnd o.top) (ufArgs o) s)

/-- SFSUB_US (R141). -/
def execSfsubUS (o : SF) (s : State) : Host.Outcome State Fault Refusal :=
  .next (uniFloat .sub 0x0C true 0 (usArgs o) s)

/-- SFSUB_UL (R141). -/
def execSfsubUL (o : LF) (s : State) : Host.Outcome State Fault Refusal :=
  .next (uniFloat .sub 0x0C o.legalF o.rnd.toNat (ulArgs o) s)

/-- SFSUB_UI (R141). -/
def execSfsubUI (o : IF) (s : State) : Host.Outcome State Fault Refusal :=
  .next (uniFloat .sub 0x0C o.legalSf (dynRnd o.top) (ufArgs o) s)

/-- SFMUL_US (R141). -/
def execSfmulUS (o : SF) (s : State) : Host.Outcome State Fault Refusal :=
  .next (uniFloat .mul 0x0D true 0 (usArgs o) s)

/-- SFMUL_UL (R141). -/
def execSfmulUL (o : LF) (s : State) : Host.Outcome State Fault Refusal :=
  .next (uniFloat .mul 0x0D o.legalF o.rnd.toNat (ulArgs o) s)

/-- SFMUL_UI (R141). -/
def execSfmulUI (o : IF) (s : State) : Host.Outcome State Fault Refusal :=
  .next (uniFloat .mul 0x0D o.legalSf (dynRnd o.top) (ufArgs o) s)

/-- SFMA_UL (R141). -/
def execSfmaUL (o : LF) (s : State) : Host.Outcome State Fault Refusal :=
  .next (uniFloat (.fma o.np o.nc) 0x0D o.legalFma o.rnd.toNat (ulArgs o) s)

/-- SFCMP_US (R141). -/
def execSfcmpUS (o : SF) (s : State) : Host.Outcome State Fault Refusal :=
  .next (uniFcmp 0x0E true 0 false (usArgs o) s)

/-- SFCMP_UL (R141). -/
def execSfcmpUL (o : LF) (s : State) : Host.Outcome State Fault Refusal :=
  .next (uniFcmp 0x0E (o.legalFcmp 3) o.comb.toNat o.quiet (ulArgs o) s)

/-- SFCMP_UI (R141). -/
def execSfcmpUI (o : IF) (s : State) : Host.Outcome State Fault Refusal :=
  .next (uniFcmp 0x0E o.legalSfcmp 0 false (ufArgs o) s)

/-- SFCVT_UL (R141). -/
def execSfcvtUL (o : LF) (s : State) : Host.Outcome State Fault Refusal :=
  .next (uniFcvt 0x0E (o.legalFcvt 5) o s)

/-- SFDIV_US (R141). -/
def execSfdivUS (o : SF) (s : State) : Host.Outcome State Fault Refusal :=
  .next (uniFloat .div 0x0F true 0 (usArgs o) s)

/-- SFDIV_UL (R141). -/
def execSfdivUL (o : LF) (s : State) : Host.Outcome State Fault Refusal :=
  .next (uniFloat .div 0x0F o.legalF o.rnd.toNat (ulArgs o) s)

/-- SFSQRT_US (R141). -/
def execSfsqrtUS (o : SF) (s : State) : Host.Outcome State Fault Refusal :=
  .next (uniFloat .sqrt 0x0F true 0 (usArgs o) s)

/-- SFSQRT_UL (R141). -/
def execSfsqrtUL (o : LF) (s : State) : Host.Outcome State Fault Refusal :=
  .next (uniFloat .sqrt 0x0F o.legalF o.rnd.toNat (ulArgs o) s)

end Sys2Proof.Machine
end

