-- ==== Sys2Proof/Machine/Matrix.lean ====
section
/-! DEFINITION. The matrix engine and its instructions (spec 07, R148 to R180). -/

namespace Sys2Proof.Machine

/-! ## Bands and matrix state -/

/-- The key of cell (i, j) of a band. -/
def cellKey (band i j : Nat) : Nat := band * 512 + i * 32 + j
/-- Cell (i, j) of a band of a quire (R148). -/
def Quire.cell (q : Quire) (band i j : Nat) : QWord := Sparse.get 0 (cellKey band i j) q.bands
/-- Write a cell. -/
def Quire.setCell (q : Quire) (band i j : Nat) (v : QWord) : Quire :=
  { q with bands := Sparse.set 0 (cellKey band i j) v q.bands }
/-- Every cell of a band reads zero (R174). -/
def Quire.zeroBand (q : Quire) (band : Nat) : Quire :=
  { q with bands := q.bands.filter (fun c => c.1 / 512 ≠ band) }

/-- %mprog (R150): state 0 idle, 1 running, 2 faulted. -/
def mprogOf (st chunks : Nat) : Word := BitVec.ofNat 32 (st * 2 ^ 30 + chunks % 2 ^ 24)

/-- The chunk size of a format (R154). -/
def chunkOf (t : Fmt) : Nat :=
  match t with
  | .f64 => 4 | .f32 | .i32 => 8 | .f16 | .b16 | .i16 => 16 | .l6 | .i4 | .n4 | .t2 | .b1 => 64 | _ => 32
/-- The alignment of bases and strides (R154). -/
def alignOf (t : Fmt) : Nat := max 1 (fmtBits t / 8)

/-- The slot records of an operation. -/
def State.opSlot (s : State) (op : MatOp) (b : Bool) : QWord :=
  recSlot (s.folio op.fid).record (if b then op.bslot else op.aslot)
/-- C of an operation (R155). -/
def State.chunkSize (s : State) (op : MatOp) : Nat :=
  min (chunkOf (slotFmt (s.opSlot op false))) (chunkOf (slotFmt (s.opSlot op true)))
/-- NC of an operation (R155). -/
def State.chunks (s : State) (op : MatOp) : Nat := ceilDiv op.k (s.chunkSize op)

/-- The part accumulates double words (R10). -/
def Part.mdwacc (p : Part) : Bool := p ≠ .q940

/-- A quire has an engine operation in flight (R153). -/
def State.engineBusy (s : State) (uid : Nat) : Bool := s.matops.any (fun o => o.members.any (fun m => m.quire = uid))
/-- An operation of the quire in flight writes the band (R153). -/
def State.bandBusy (s : State) (uid band : Nat) : Bool :=
  s.matops.any (fun o => o.members.any (fun m => m.quire = uid ∧ m.band = band))

/-- A cell of a quire's bands that `pick` picks is bad (R375). -/
def State.badBand (s : State) (uid : Nat) (pick : Nat → Bool) : Bool :=
  s.bad.any (fun c => match c with | .band q k => q = uid && pick k | _ => false)
/-- Cells that are written are good again. -/
def State.goodCells (s : State) (uid : Nat) (pick : Nat → Bool) : State :=
  { s with bad := s.bad.filter (fun c => match c with | .band q k => !(q = uid && pick k) | _ => true) }

/-- Change a matrix operation. -/
def State.modMat (s : State) (id : Nat) (f : MatOp → MatOp) : State :=
  { s with matops := s.matops.map (fun o => if o.id = id then f o else o) }
/-- Set %mprog in every member. -/
def State.setMprog (s : State) (op : MatOp) (st chunks : Nat) : State :=
  op.members.foldl (fun (t : State) m => t.modQuire m.quire (fun q => { q with mprog := mprogOf st chunks })) s
/-- Each member's flags are ORed into its own %mflags (R152). -/
def State.orMflags (s : State) (op : MatOp) : State :=
  op.members.foldl (fun (t : State) m => t.modQuire m.quire (fun q => { q with mflags := q.mflags ||| m.flags })) s

/-! ## sgang and the rendezvous (R168, R169) -/

/-- sgang (R168). -/
def uniSgang (op : Nat) (legal : Bool) (o : SF) (s : State) : State :=
  let m : Word := (s.q.sreg o.a.toNat).setWidth 32
  let bad := m ≠ 0 && m ≠ (1 : Word) <<< s.q.quireid
    && (!m.getLsbD s.q.quireid || 6 < popcOf 32 m.toNat || m.toNat / 2 ^ s.fol.qcnt ≠ 0)
  ({ usDesc o op legal [.sreg o.a.toNat] with b := .none }).runU s
    (if bad then .stop 0x0C2 (laneMask s.batch) 0 else .done { s with q := { s.q with gang := m } })

/-- A member leaves the latch without having joined: the count that its issue raised falls, and its token has the status and the record that
it had before (R152). -/
def State.leaveLatch (s : State) (op : MatOp) : State :=
  op.members.foldl (fun (t : State) m => t.modQuire m.quire (fun q =>
    let k := q.tok m.tok
    q.setTok m.tok { m.saved with count := k.count - 1, launch := if k.count ≤ 1 then m.saved.launch else k.launch }))
    { s with matops := s.matops.filter (fun o => o.id ≠ op.id) }

/-- A waiting member takes a trap of the rendezvous (R169), once no earlier fault of its quire stands (R368). -/
def State.latchTrap (s : State) (code : Nat) (op : MatOp) : State :=
  op.members.foldl (fun (t : State) m =>
    if (t.quire m.quire).faulted then t.modQuire m.quire (fun q => { q with waits := q.waits.map (fun w =>
      if w.pc = m.trap.pc ∧ w.frame = m.trap.frame then { w with kind := .due code, trap := { m.trap with code := code } } else w) })
    else (t.modQuire m.quire (fun q => q.unblock m.trap.pc m.trap.frame)).recordFault (.quire m.quire) op.fid { m.trap with code := code })
    (s.leaveLatch op)
/-- The traps that had to wait are taken (R368). -/
def State.takeDue (s : State) : State :=
  (s.quires.filter (fun q => q.uid ≠ 0 && !q.faulted)).foldl (fun (t : State) q =>
    match q.waits.find? (fun w => match w.kind with | .due _ => true | _ => false) with
    | some w => (t.modQuire q.uid (fun q => q.unblock w.pc w.frame)).recordFault (.quire q.uid) q.fid w.trap
    | none => t) s

/-- Quires end whose batches wait for permits of matrix operations (R333): the operations leave the permit queue, the tokens of
those quires stand as before, and any other member, which waits with a quire that has ended, takes 0x0C3 (R169; log 95). -/
def State.dropPermits (s : State) (uids : List Nat) : State :=
  (s.matops.filter (fun o => !o.latch && o.members.any (fun m =>
      uids.contains m.quire && (s.quire m.quire).waits.any (fun w => w.kind = .permit o.id)))).foldl (fun (t : State) o =>
    let t1 := (t.leaveLatch { o with members := o.members.filter (fun m => uids.contains m.quire) }).latchTrap 0x0C3
      { o with members := o.members.filter (fun m => !uids.contains m.quire) }
    { t1 with permits := t1.permits.filter (fun p => p ≠ .matrix o.id) }) s

/-- The %quireids of a mask. -/
def maskQuires (m : Word) : List Nat := (List.range 32).filter (fun i => m.getLsbD i)
/-- The quire of this %quireid of the folio still runs. -/
def State.quireLives (s : State) (fid qid : Nat) : Bool :=
  (s.quires ++ s.saved.flatMap (·.quires)).any (fun q => q.uid ≠ 0 ∧ q.fid = fid ∧ q.quireid = qid ∧ q.fibres ≠ [])

/-- The shared fields of an operation agree (R169). -/
def MatOp.agrees (a b : MatOp) : Bool :=
  a.dist = b.dist && a.aslot = b.aslot && a.bslot = b.bslot && a.clr = b.clr && a.k = b.k && a.bbase = b.bbase
    && a.bstride = b.bstride && a.rowB = b.rowB && a.kblk = b.kblk

/-- An operation asks its core for a permit (R152): the batches that issued it wait for the grant. -/
def State.askPermit (s : State) (op : MatOp) : State :=
  let s1 : State := op.members.foldl (fun (t : State) m => t.modQuire m.quire (fun q =>
    { q with waits := q.waits.map (fun w =>
        if w.pc = m.trap.pc ∧ w.frame = m.trap.frame ∧ w.kind = .rendezvous then { w with kind := .permit op.id } else w) })) s
  { s1 with permits := s1.permits ++ [.matrix op.id] }

/-- The rendezvous after a member has entered the latch (R169). -/
def State.rendezvous (s : State) (op : MatOp) : State :=
  let q := (op.members.map (·.quireid)).headD 0
  let mine := s.matops.filter (fun w => w.latch && w.fid = op.fid && w.id ≠ op.id)
  let clash := mine.filter (fun w => (w.mask.getLsbD q || w.members.any (fun m => op.mask.getLsbD m.quireid)) && w.mask ≠ op.mask)
  let group := sortOn (fun w => (w.members.map (·.quireid)).headD 0) (op :: mine.filter (fun w => w.mask = op.mask))
  if clash ≠ [] then (op :: clash).foldl (fun (t : State) w => t.latchTrap 0x0C2 w) s
  else if (maskQuires op.mask).any (fun i => !s.quireLives op.fid i) then group.foldl (fun (t : State) w => t.latchTrap 0x0C3 w) s
  else if (maskQuires op.mask).any (fun i => !group.any (fun w => w.members.any (fun m => m.quireid = i))) then s
  else if group.any (fun w => !op.agrees w) then group.foldl (fun (t : State) w => t.latchTrap 0x0C2 w) s
  else
    let joint := { op with members := group.flatMap (·.members), latch := false }
    let s1 : State := { s with matops := s.matops.filter (fun w => !group.any (fun g => g.id = w.id)) ++ [joint] }
    s1.askPermit joint

/-- A quire has ended: the members that wait for it take 0x0C3 (R169), and its own parts leave the latch. -/
def State.latchEnds (s : State) : State :=
  s.matops.foldl (fun (t : State) w =>
    if !w.latch then t
    else if w.members.any (fun m => !t.quireLives w.fid m.quireid) then t.leaveLatch w
    else if (maskQuires w.mask).any (fun i => !t.quireLives w.fid i) then t.latchTrap 0x0C3 w
    else t) s

/-! ## mma and mdist (R152 to R155, R170, R171) -/

/-- The first failing issue check (R152): alignment of A, then of B, then K. -/
def matCheck (fa fb : Fmt) (ab as_ bb bs : DWord) (k : Nat) : Option (Nat × DWord) :=
  if ab.toNat % alignOf fa ≠ 0 ∨ as_.toNat % alignOf fa ≠ 0 then some (0x060, ab)
  else if bb.toNat % alignOf fb ≠ 0 ∨ bs.toNat % alignOf fb ≠ 0 then some (0x060, bb)
  else if 1048576 < k then some (0x0C1, 0)
  else none

/-- mma and mdist (R170). -/
def uniMat (opc : Nat) (dist legal : Bool) (o : LF) (s : State) : State :=
  let g := o.a.toNat
  let aslot := fieldOf o.modl 2 0
  let bslot := fieldOf o.modl 5 3
  let ra := s.slot aslot
  let rb := s.slot bslot
  let ks := o.modl.getLsbD 6
  let tok := o.low3.toNat
  let so := s.q.sreg o.b.toNat
  let k := if ks then (s.q.sreg o.c.toNat).toNat else o.c.toNat
  let D : Desc :=
    { uni := true, op := opc, len := 8, pr := o.pr, neg := o.neg
      unit := s.slotUnits aslot bslot
      legal := legal && ra ≠ 0 && rb ≠ 0 && (slotFmt ra).isFloat = (slotFmt rb).isFloat
      uses := [.band o.d.toNat, .sgroup g 4, .sreg o.b.toNat] ++ (if ks then [.sreg o.c.toNat] else [])
      a := .sreg g, b := .sreg o.b.toNat, c := if ks then .sreg o.c.toNat else .none, wa := 64, wb := 64 }
  let m : MatMember :=
    { quire := s.q.uid, quireid := s.q.quireid, band := o.d.toNat, abase := s.q.sreg g, astride := s.q.sreg (g + 1)
      rowA := fieldOf so 23 0, tok := tok, saved := s.q.tok tok, trap := D.trap s 0 (laneMask s.batch) }
  let solo := s.q.gang = 0 ∨ s.q.gang = (1 : Word) <<< s.q.quireid
  let op : MatOp :=
    { id := s.next, fid := s.q.fid, members := [m], mask := s.q.gang, latch := ¬ solo, dist := dist, clr := o.modh.getLsbD 3
      aslot := aslot, bslot := bslot, k := k, bbase := s.q.sreg (g + 2), bstride := s.q.sreg (g + 3)
      rowB := fieldOf so 47 24, kblk := fieldOf so 63 48 }
  if (D.cause s).isSome || !s.kActive o.pr o.neg then D.runU s (.done s)
  else if s.engineBusy s.q.uid then D.runU s (.wait s (.engine none))
  else match matCheck (slotFmt ra) (slotFmt rb) m.abase m.astride op.bbase op.bstride k with
    | some (c, ea) => D.runU s (.stop c (laneMask s.batch) ea)
    | none =>
      if (s.q.tok tok).count = 63 then D.runU s (.wait s (.tokenFull tok))
      else
        let s1 := D.runU s (.wait ((({ s with next := s.next + 1, matops := s.matops ++ [op] } : State)).startTok tok) .rendezvous)
        if solo then s1.askPermit op else s1.rendezvous op

/-! ## Operand fetch (R154 to R157, R164) -/

/-- What a fetch of the engine finds. -/
inductive MFetch where
  | bytes (v : Nat)
  | fault (code : Nat)
  | waits
  deriving DecidableEq, Repr

/-- One fetch of the engine: address, length, swizzle, operand (0 A, 1 B, 2 and 3 their scales), and the member whose quire reads. -/
structure FetchAt where
  ea   : Nat
  n    : Nat
  swz  : Nat
  side : Nat
  mem  : MatMember
  deriving DecidableEq, Repr

/-- The aligned 8-byte element in which a target lies, and the place of its first byte there. -/
def Target.around (t : Target) : Target × Nat :=
  match t with
  | .mem x pa => (.mem { x with pa := x.pa - pa % 8 } (pa - pa % 8), pa % 8)
  | .scratch fid off => (.scratch fid (off - off % 8), off % 8)
  | t => (t, 0)

/-- The engine's read of a target for quire `uid` (R167): of each aligned 8-byte element the old value or the new, whichever of its bytes
a chunk reads. The bytes, and the state in which nothing older is to be read on the path by the quire (R290). -/
def State.mread (s : State) (uid die : Nat) (t : Target) (n : Nat) : Nat × State :=
  let a := t.around
  let r := s.engineRead uid die .matrix a.1 8 a.1.loc
  (leNat ((r.1.drop a.2).take n), r.2)

/-- Where a fetch through the matrix path goes, swizzled in a scratchpad (R157). -/
def State.mtarget (s : State) (fid : Nat) (x : FetchAt) : Except Nat Target :=
  match s.route fid x.ea .read .matrix with
  | .ok (.scratch f off) => .ok (.scratch f (swizzle x.swz off))
  | r => r

/-- A fetch. -/
def State.mfetch (s : State) (fid : Nat) (x : FetchAt) : MFetch :=
  match s.mtarget fid x with
  | .error c => .fault c
  | .ok (.waits _) => .waits
  | .ok t =>
    if s.poisoned t then .fault 0x161
    else if s.badScratch t x.n then .fault 0x160
    else .bytes (s.mread x.mem.quire (s.folio fid).die t x.n).1

/-- What a fetch leaves behind: its leaf in the engine's cache (R360), its line recalled (R238), and what its read leaves. `s0` is
the state in which the chunk was read. -/
def State.fetched (s s0 : State) (fid : Nat) (x : FetchAt) : State :=
  let die := (s0.folio fid).die
  match s0.mtarget fid x with
  | .error _ => s
  | .ok t =>
    let a := t.around.1
    (((s.cacheTarget fid .matrix t).touch die (s0.folio fid).core .cluster false t).recallFor die t).keepCoherent x.mem.quire die a (s0.readPlan x.mem.quire die a 8 a.loc .matrix) .matrix

/-- Where element k of a row lies (R154, R82). -/
def elemAt (slot : QWord) (base stride : DWord) (row k : Nat) : Nat :=
  (base + BitVec.ofNat 64 row * stride + BitVec.ofNat 64 (k * fmtBits (slotFmt slot) / 8)).toNat
/-- The bytes of an element. -/
def elemBytes (slot : QWord) : Nat := max 1 (fmtBits (slotFmt slot) / 8)
/-- Where the scale of element k of a row lies (R84, R156). -/
def scaleAt (slot : QWord) (m kblk k : Nat) : Nat :=
  (slotSaddr slot + m * slotSstride slot + (kblk + k / max 1 (slotBlk slot)) * slotSfmt slot) % 2 ^ 64

/-- A row of a chunk: its slot, the member that reads it, and the fetches of its elements and, where the slot has scales, of theirs
(R84, R156), with what they find. -/
structure MRow where
  slot : QWord
  mem  : MatMember
  es   : List (FetchAt × MFetch)
  sc   : List (FetchAt × MFetch)
  deriving DecidableEq, Repr

/-- The fetches of one row (R154, R82). -/
def State.mRow (s : State) (fid : Nat) (slot : QWord) (side : Nat) (base stride : DWord) (row m kblk : Nat) (ks : List Nat) (x : MatMember) :
    MRow :=
  let get := fun (y : FetchAt) => (y, s.mfetch fid y)
  { slot := slot, mem := x
    es := ks.map (fun k => get ⟨elemAt slot base stride row k, elemBytes slot, slotSwz slot, side, x⟩)
    sc := if slotSfmt slot = 0 then [] else ks.map (fun k => get ⟨scaleAt slot m kblk k, slotSfmt slot, 0, side + 2, x⟩) }

/-- The value of a fetch. -/
def MFetch.get : MFetch → Nat
  | .bytes v => v
  | _ => 0

/-- The elements of a row with their scales, by their k. -/
def MRow.elems (r : MRow) (asLog : Bool) (ks : List Nat) : List (Elem × MFlags) :=
  let bits := fmtBits (slotFmt r.slot)
  (ks.zip r.es).zipIdx.map (fun x =>
    elemOf (slotFmt r.slot) asLog (x.1.2.2.get / 2 ^ (x.1.1 * bits % 8) % 2 ^ bits)
      ((r.sc[x.2]?).map (fun f => scaleVal (slotSfmt r.slot) f.2.get)))

/-- Of some fetches the one with the lowest address that finds no bytes. -/
def firstStop (fs : List (FetchAt × MFetch)) : Option (FetchAt × MFetch) :=
  fs.foldl (fun acc f =>
    match f.2, acc with
    | .bytes _, _ => acc
    | _, some y => if f.1.ea < y.1.ea then some f else acc
    | _, none => some f) none
/-- The fetch of a row that is named first: the elements before the scales (R164). -/
def MRow.stop (r : MRow) : Option (FetchAt × MFetch) := (firstStop r.es).or (firstStop r.sc)

/-! ## Chunks (R164, R171) -/

/-- The k of the next chunk. -/
def State.chunkKs (s : State) (op : MatOp) : List Nat :=
  let c := s.chunkSize op
  (List.range (min c (op.k - op.chunk * c))).map (fun i => op.chunk * c + i)

/-- The rows of the next chunk in the order in which their faults are named (R164): each member's A rows, then the B rows, which the
first member reads. -/
def State.chunkRows (s : State) (op : MatOp) : List MRow × List MRow :=
  let ks := s.chunkKs op
  (op.members.flatMap (fun m => (List.range 16).map (fun i =>
     s.mRow op.fid (s.opSlot op false) 0 m.abase m.astride i (m.rowA + i) op.kblk ks m)),
   match op.members with
   | [] => []
   | m :: _ => (List.range 32).map (fun j => s.mRow op.fid (s.opSlot op true) 1 op.bbase op.bstride j (op.rowB + j) op.kblk ks m))

/-- What the next chunk fetches. -/
def chunkFetches (rows : List MRow × List MRow) : List FetchAt := (rows.1 ++ rows.2).flatMap (fun r => (r.es ++ r.sc).map (·.1))
/-- The first fetch of a chunk, in that order, that faults or waits. -/
def chunkStop (rows : List MRow × List MRow) : Option (FetchAt × MFetch) := (rows.1 ++ rows.2).findSome? MRow.stop

/-- One cell takes the chunk's terms (R159, R160, R163, R171). -/
def cellChunk (double int : Bool) (term : Elem → Elem → FV × MFlags) (a b : List (Elem × MFlags)) (cell : QWord) : QWord × MFlags :=
  let (S, f) := chunkSum ((a.zip b).map (fun (x, y) => term x.1 y.1))
  if int then (accInt cell S, f) else let (c, g) := accAdd double cell S; (c, f ||| g)

/-- One chunk into one member's band. -/
def State.bandChunk (s : State) (op : MatOp) (m : MatMember) (arows brows : List (List (Elem × MFlags))) : State :=
  let int := !(slotFmt (s.opSlot op false)).isFloat
  let f32 := [s.opSlot op false, s.opSlot op true].any (fun r => slotFmt r = .f64 || slotFmt r = .f32)
  let term := if op.dist then mdistTerm f32 else mmaTerm
  let flags := (arows ++ brows).foldl (fun (f : MFlags) r => r.foldl (fun g x => g ||| x.2) f) 0
  let q := s.quire m.quire
  let (q', fl) := arows.zipIdx.foldl (fun (acc : Quire × MFlags) (a, i) =>
    brows.zipIdx.foldl (fun (acc : Quire × MFlags) (b, j) =>
      let (c, f) := cellChunk s.part.mdwacc int term a b (q.cell m.band i j)
      (acc.1.setCell m.band i j c, acc.2 ||| f)) acc) (q, flags)
  (s.modQuire m.quire (fun _ => q')).modMat op.id (fun o => { o with
    members := o.members.map (fun x => if x.quire = m.quire then { x with flags := x.flags ||| fl } else x) })

/-- An operation has done all its chunks (R152): flags, tokens, %mprog. -/
def State.endMat (s : State) (op : MatOp) : State :=
  let s1 := (s.orMflags op).setMprog op 0 (s.chunks op)
  op.members.foldl (fun (t : State) m => t.finishTok m.quire m.tok 0 none)
    { s1 with matops := s1.matops.filter (fun o => o.id ≠ op.id) }
/-- An operation without a chunk left ends. -/
def State.tryEndMat (s : State) (id : Nat) : State :=
  match s.matops.find? (fun o => o.id = id) with
  | some op => if s.chunks op ≤ op.chunk then s.endMat op else s
  | none => s

/-- A fetch fault stops the operation at its chunk: cause 0x0C1 in the member that the record names (R164). -/
def State.faultMat (s : State) (op : MatOp) (m : MatMember) (inner ea operand : Nat) : State :=
  let t : Trap := { m.trap with
    code := 0x0C1, inner := inner, eng := true, eaddr := BitVec.ofNat 64 ea, tok := some m.tok, lanes := []
    info := BitVec.ofNat 64 (operand + m.quireid * 256), prog := BitVec.ofNat 64 op.chunk }
  ((s.setMprog op 2 op.chunk).modMat op.id (fun o => { o with permit := false })).recordFault (.matrix op.id) op.fid t

/-- Both operands are logarithmic, and the products are of their codes. -/
def State.asLog (s : State) (op : MatOp) : Bool :=
  (slotFmt (s.opSlot op false)).isLog && (slotFmt (s.opSlot op true)).isLog && !op.dist
/-- The elements of a member's A rows of a chunk. -/
def State.memberRows (s : State) (op : MatOp) (m : MatMember) (rows : List MRow × List MRow) : List (List (Elem × MFlags)) :=
  (rows.1.filter (fun r => r.mem.quire = m.quire)).map (fun r => r.elems (s.asLog op) (s.chunkKs op))
/-- The elements of its B rows. -/
def State.sharedRows (s : State) (op : MatOp) (rows : List MRow × List MRow) : List (List (Elem × MFlags)) :=
  rows.2.map (fun r => r.elems (s.asLog op) (s.chunkKs op))

/-- MATRIX_CHUNK (R164, R171). The first fetch that is named decides: where its home cannot be reached now, the chunk waits. -/
def matrixChunk (id : Nat) (s : State) : Host.Outcome State Fault Refusal :=
  match s.matops.find? (fun o => o.id = id) with
  | none => .next s
  | some op =>
    if !op.permit || op.latch || op.held.isSome || op.pend.isSome || s.isSaved op.fid then .next s
    else
      let rows := s.chunkRows op
      match chunkStop rows with
      | some (x, .fault c) => .next (s.faultMat op x.mem c x.ea x.side)
      | some _ => .next s
      | none =>
        match op.members.find? (fun m => s.badBand m.quire (fun k => k / 512 = m.band)) with
        | some m => .next (s.faultMat op m 0x160 0 (s.choose id 4))
        | none =>
          let s2 := (chunkFetches rows).foldl (fun (t : State) x => t.fetched s op.fid x) s
          let s3 := op.members.foldl (fun (t : State) m => t.bandChunk op m (s.memberRows op m rows) (s.sharedRows op rows)) s2
          .next (((s3.setMprog op 1 (op.chunk + 1)).modMat id (fun o => { o with chunk := o.chunk + 1 })).tryEndMat id)

/-- The permit of an operation is granted (R152, R165): %mprog, the batches go on, CLR before chunk 0; an operation that resumes
after a fault first makes an acquire at device scope on its path (R397). -/
def State.grantMat (s : State) (op : MatOp) : State :=
  let s1 := (s.modMat op.id (fun o => { o with permit := true, resumed := false })).setMprog op 1 op.chunk
  let s2 := op.members.foldl (fun (t : State) m => t.modQuire m.quire (fun q =>
    let q1 := match q.waits.find? (fun w => w.kind = .permit op.id) with | some w => q.complete w | none => q
    if op.clr && op.chunk = 0 then q1.zeroBand m.band else q1)) (op.members.foldl (fun (t : State) m =>
      if op.clr && op.chunk = 0 then t.goodCells m.quire (fun k => k / 512 = m.band) else t) s1)
  (if op.resumed then op.members.foldl (fun (t : State) m => t.orderPaths m.quire [2]) (s2.acquireOn (s.folio op.fid).die 5)
    else s2).tryEndMat op.id

/-- An operation is abandoned after a fault (R165): its tokens complete partial with the record, the flags of its chunks are
recorded, %mprog keeps STATE 2, and its entry is freed. -/
def State.abandonMat (s : State) (op : MatOp) : State :=
  let h := s.heldBy (.matrix op.id)
  let r := match h with | some h => some h.2.trap | none => op.pend
  let s1 := s.orMflags op
  let s2 : State := { s1 with matops := s1.matops.filter (fun o => o.id ≠ op.id)
                              permits := s1.permits.filter (fun p => p ≠ .matrix op.id) }
  let s3 := match h with | some h => s2.freeEntry h.1 h.2.index | none => s2
  op.members.foldl (fun (t : State) m => t.finishTok m.quire m.tok 1 r) s3

/-! ## mtopk, mzero, mflag (R173 to R175) -/

/-- A top-k entry: value pattern and index. -/
abbrev TopK := Nat × Nat

/-- Before (R173): whether `x` goes in front of `y`. -/
def topBefore (desc : Bool) (x y : TopK) : Bool :=
  let a := (fpar .f64).read x.1
  let b := (fpar .f64).read y.1
  if a.isNan && b.isNan then x.2 < y.2
  else if a.isNan then false
  else if b.isNan then true
  else match a.cmp b with
    | some .lt => !desc
    | some .gt => desc
    | _ => x.2 < y.2

/-- Insert behind everything that does not come after it. -/
def topInsert (desc : Bool) (x : TopK) : List TopK → List TopK
  | [] => [x]
  | y :: ys => if topBefore desc x y then x :: y :: ys else y :: topInsert desc x ys

/-- The value of a candidate cell (R173). Where HI is finite and LO is not, the spec gives no sum: the IEEE one is taken (log 80). -/
def topValue (ints : Bool) (x : QWord) : Nat :=
  let p := fpar .f64
  if ints then (fFromInt p 0 false x.toInt).1
  else match p.read (cellHi x) with
    | .fin _ _ _ => (fAdd p 0 false (p.read (cellHi x)) (p.read (cellLo x))).1
    | _ => cellHi x

/-- One row of `mtopk` (R173). -/
def Quire.topkRow (q : Quire) (d src n base : Nat) (desc ints : Bool) (i : Nat) : Quire :=
  let old := (List.range 8).filterMap (fun j =>
    let c := q.cell d i j
    if c.getLsbD 96 then some (fieldOf c 63 0, fieldOf c 95 64) else none)
  let new := (List.range 32).map (fun j => (topValue ints (q.cell src i j), (base + j) % 2 ^ 32))
  let l := ((old ++ new).foldl (fun acc x => topInsert desc x acc) []).take n
  let q1 := (List.range 8).foldl (fun (z : Quire) j => z.setCell d i j (match l[j]? with
    | some (v, x) => BitVec.ofNat 128 (v + x * 2 ^ 64 + 2 ^ 96)
    | none => 0)) q
  (List.range 32).foldl (fun (z : Quire) j => z.setCell src i j 0) q1

/-- mtopk (R173). -/
def uniMtopk (op : Nat) (legal : Bool) (o : LF) (s : State) : State :=
  let D : Desc := { uni := true, op := op, len := 8, pr := o.pr, neg := o.neg, legal := legal
                    uses := [.band o.d.toNat, .band o.a.toNat, .sreg o.b.toNat]
                    b := .sreg o.b.toNat, wb := 64 }
  let base := fieldOf (s.q.sreg o.b.toNat) 31 0
  D.runU s (
    if s.engineBusy s.q.uid then .wait s (.engine none)
    else if s.badBand s.q.uid (fun k => k / 512 = o.a.toNat || (k / 512 = o.d.toNat && k % 32 < 8)) then
      .stop 0x160 (laneMask s.batch) 0
    else .done { s with q := (List.range 16).foldl (fun (q : Quire) i =>
      q.topkRow o.d.toNat o.a.toNat (fieldOf o.modl 2 0 + 1) base (o.modl.getLsbD 3) (o.modl.getLsbD 4) i) s.q })

/-- mzero (R174). -/
def uniMzero (op : Nat) (legal : Bool) (o : SF) (s : State) : State :=
  ({ usDesc o op legal [.band o.d.toNat] with a := .none, b := .none }).runU s (
    if s.bandBusy s.q.uid o.d.toNat then .wait s (.engine (some o.d.toNat))
    else .done { s.goodCells s.q.uid (fun k => k / 512 = o.d.toNat) with q := s.q.zeroBand o.d.toNat })

/-- mflag (R175). -/
def uniMflag (op : Nat) (legal clr : Bool) (o : SF) (s : State) : State :=
  let s1 := s.setS o.d.toNat (s.q.mflags.setWidth 64)
  ({ usDesc o op legal [.sreg o.d.toNat] with a := .none, b := .none, skip := .sreg o.d.toNat 64 }).runU s
    (.done (if clr then { s1 with q := { s1.q with mflags := 0 } } else s1))

/-! ## mread, mwrite, mtkread (R176 to R178) -/

/-- The lanes of some fibres that read a bad cell of the issuing quire's bands (R375). -/
def State.badCells (s : State) (fs : List Fibre) (cell : Fibre → Nat) : Word :=
  if s.bad = [] then 0 else laneMask (fs.filter (fun f => s.badBand s.q.uid (fun k => k = cell f)))

/-- The integer type of a format code 8 to 11 (R176). -/
def intFmt (t : Fmt) : ITy :=
  match t with
  | .i32 => ⟨32, true⟩ | .i16 => ⟨16, true⟩ | .i8 => ⟨8, true⟩ | _ => ⟨8, false⟩

/-- What `mread` makes of a cell, and the matrix flags (R176). -/
def readOut (t : Fmt) (mode : Nat) (sat : Bool) (x : QWord) : Nat × MFlags :=
  let hi := (fpar .f64).read (cellHi x)
  let conv := fun (r : Nat × Exc) =>
    (r.1, (if r.2 &&& excNV = 0 then 0 else mNV) ||| (if r.2 &&& excOF = 0 then 0 else mOV) ||| (if r.2 &&& excNX = 0 then 0 else mNX))
  if t.isLog then
    conv (logFrom t mode (match hi with | .fin _ _ _ => cellVal x | v => v))
  else if t.isFloat then
    let p := fpar t
    match hi with
    | .nan _ => (p.nan, 0)
    | .inf n => (p.signed n p.inf, 0)
    | .fin n 0 e => if cellLo x % 2 ^ 63 = 0 then (p.signed n 0, 0) else conv (fAdd p mode false (.fin n 0 e) ((fpar .f64).read (cellLo x)))
    | v => conv (fAdd p mode false v ((fpar .f64).read (cellLo x)))
  else
    let ty := intFmt t
    let r := x.toInt
    (extTo (fit r ty sat) ty 32, if tyLeast ty ≤ r ∧ r ≤ tyGreatest ty then 0 else mOV)

/-- mread (R176). -/
def laneMread (op : Nat) (legal : Bool) (o : LF) (s : State) : State :=
  let t := fmtOf o.dfmt
  let w := regBits t
  let d := longName o.d
  let band := o.a.toNat
  let row := o.sfmt.toNat
  let rnd := o.rnd.toNat
  let D : Desc := { uni := false, op := op, len := 8, pr := o.pr, neg := o.neg, unit := s.matUnit t
                    legal := legal, dyn := s.dynOk rnd, uses := [.dst d w, .band band], skip := .lane d w (some .mem) }
  let rs := (s.active o.pr o.neg).map (fun f => (f.lane, readOut t (s.mode rnd) (o.modl.getLsbD 6) (s.q.cell band row f.lane)))
  D.run s (
    let bad := s.badCells (s.active o.pr o.neg) (fun f => cellKey band row f.lane)
    if s.bandBusy s.q.uid band then .wait s (.engine (some band))
    else if bad ≠ 0 then .stop 0x160 bad 0
    else
      let s1 := s.writeLanes d w (some .mem) (rs.map (fun x => (x.1, x.2.1)))
      .done { s1 with q := { s1.q with mflags := rs.foldl (fun f x => f ||| x.2.2) s1.q.mflags } })

/-- The cell that `mwrite` makes of an element (R177). -/
def writeIn (t : Fmt) (x : Nat) : QWord × MFlags :=
  if t.isFloat then
    let r := fConvert t .f64 0 false x
    (cellOf r.1 0, if r.2 &&& excNV = 0 then 0 else mNV)
  else (BitVec.ofInt 128 (patVal (intFmt t) x), 0)

/-- mwrite (R177). -/
def laneMwrite (op : Nat) (legal : Bool) (o : LF) (s : State) : State :=
  let t := fmtOf o.dfmt
  let w := regBits t
  let a := longName o.a
  let band := o.d.toNat
  let row := o.sfmt.toNat
  let D : Desc := { uni := false, op := op, len := 8, pr := o.pr, neg := o.neg, unit := s.matUnit t, legal := legal
                    uses := [.band band, .src a w], a := .name a, wa := w }
  D.run s (
    let s1 := s.goodCells s.q.uid (fun k => (s.active o.pr o.neg).any (fun f => k = cellKey band row f.lane))
    if s.bandBusy s.q.uid band then .wait s (.engine (some band))
    else .done { s1 with q := (s.active o.pr o.neg).foldl (fun (q : Quire) f =>
      let (c, fl) := writeIn t (s.rd f a w)
      { q.setCell band row f.lane c with mflags := q.mflags ||| fl }) s.q })

/-- mtkread (R178). -/
def laneMtkread (op : Nat) (legal : Bool) (o : LF) (s : State) : State :=
  let val := o.modl.getLsbD 3
  let e := fieldOf o.modl 2 0
  let w := if val then 64 else 32
  let d := longName o.d
  let band := o.a.toNat
  let D : Desc := { uni := false, op := op, len := 8, pr := o.pr, neg := o.neg, legal := legal
                    uses := [.dst d w, .band band], skip := .lane d w (some .mem) }
  D.run s (
    let bad := s.badCells (s.active o.pr o.neg) (fun f => cellKey band (f.lane % 16) e)
    if s.bandBusy s.q.uid band then .wait s (.engine (some band))
    else if bad ≠ 0 then .stop 0x160 bad 0
    else .done (s.writeLanes d w (some .mem) ((s.active o.pr o.neg).map (fun f =>
      let c := s.q.cell band (f.lane % 16) e
      (f.lane, if c.getLsbD 96 then (if val then fieldOf c 63 0 else fieldOf c 95 64)
               else if val then 0x7FF8000000000000 else 0xFFFFFFFF)))))

/-! ## The meanings, one for each instruction -/

/-- MREAD_LL (R176). -/
def execMreadLL (o : LF) (s : State) : Host.Outcome State Fault Refusal :=
  .next (laneMread 0x35 o.legalMread o s)

/-- MWRITE_LL (R177). -/
def execMwriteLL (o : LF) (s : State) : Host.Outcome State Fault Refusal :=
  .next (laneMwrite 0x36 o.legalMwrite o s)

/-- MTKREAD_LL (R178). -/
def execMtkreadLL (o : LF) (s : State) : Host.Outcome State Fault Refusal :=
  .next (laneMtkread 0x37 o.legalMtkread o s)

/-- SGANG_US (R168). -/
def execSgangUS (o : SF) (s : State) : Host.Outcome State Fault Refusal :=
  .next (uniSgang 0x18 ((o.d = 0 && o.b = 0 : Bool)) o s)

/-- MMA_UL (R170). -/
def execMmaUL (o : LF) (s : State) : Host.Outcome State Fault Refusal :=
  .next (uniMat 0x19 false o.legalMma o s)

/-- MDIST_UL (R172). -/
def execMdistUL (o : LF) (s : State) : Host.Outcome State Fault Refusal :=
  .next (uniMat 0x1A true o.legalMma o s)

/-- MTOPK_UL (R173). -/
def execMtopkUL (o : LF) (s : State) : Host.Outcome State Fault Refusal :=
  .next (uniMtopk 0x1B o.legalMtopk o s)

/-- MZERO_US (R174). -/
def execMzeroUS (o : SF) (s : State) : Host.Outcome State Fault Refusal :=
  .next (uniMzero 0x1C ((o.a = 0 && o.b = 0 : Bool)) o s)

/-- MFLAG_US (R175). -/
def execMflagUS (o : SF) (m2 : BitVec 2) (s : State) : Host.Outcome State Fault Refusal :=
  .next (uniMflag 0x1D ((o.a = 0 && o.b = 0 && !m2.getLsbD 1 : Bool)) (m2.getLsbD 0) o s)

end Sys2Proof.Machine
end

