-- ==== Sys2Proof/Machine/Control.lean ====
section
/-! DEFINITION. Control flow, fibres and frames (spec 16). -/

namespace Sys2Proof.Machine

/-- A relative target: the first word's address plus imm32 (R323). -/
def relTarget (pc : DWord) (imm : Word) : DWord := pc + imm.signExtend 64

/-- The common part of a lane word of this chapter. -/
def ctlDesc (op len : Nat) (pr : BitVec 3) (neg : Bool) (legal : Bool) (uses : List Use) : Desc :=
  { uni := false, op := op, len := len, pr := pr, neg := neg, legal := legal, uses := uses }
/-- The common part of an LI word of this chapter: its operand b is the immediate (R372). -/
def relDesc (op : Nat) (legal : Bool) (o : IF) : Desc :=
  { ctlDesc op 8 o.pr o.neg legal [] with b := .imm (o.imm.signExtend 64), wb := 64 }

/-- The active fibres go to targets, the other members continue at the next instruction (R324). -/
def State.split (s : State) (act : List (Nat × DWord)) (len : Nat) : State :=
  s.move (s.batch.map (fun f =>
    (f.lane, match act.find? (fun x => x.1 = f.lane) with | some x => x.2 | none => f.pc + BitVec.ofNat 64 len)))

/-- bra (R324). -/
def laneBra (op : Nat) (legal : Bool) (o : IF) (s : State) : State :=
  (relDesc op legal o).run s
    (.jump (s.split ((s.active o.pr o.neg).map (fun f => (f.lane, relTarget s.pc o.imm))) 8))

/-- brx (R324): a target that is no multiple of 4 in some active fibre traps them all (R323). -/
def laneBrx (op len : Nat) (pr : BitVec 3) (neg : Bool) (a : Name) (legal : Bool) (s : State) : State :=
  let D := { ctlDesc op len pr neg legal [.src a 64] with a := .name a, wa := 64 }
  let ts := (s.active pr neg).map (fun f => (f.lane, BitVec.ofNat 64 (s.rd f a 64)))
  let bad := ts.filter (fun x => x.2.extractLsb' 0 2 ≠ 0)
  match bad with
  | x :: _ => D.run s (.stop 0x060 (lanesOf (bad.map (·.1))) x.2)
  | [] => D.run s (.jump (s.split ts len))

/-- Every member goes to one target (R325). -/
def State.moveBatch (s : State) (t : DWord) : State := s.move (s.batch.map (fun f => (f.lane, t)))

/-- sbr (R325). -/
def uniSbr (op : Nat) (legal : Bool) (o : IF) (s : State) : State :=
  ({ uni := true, op := op, len := 8, pr := o.pr, neg := o.neg, legal := legal, b := .imm (o.imm.signExtend 64), wb := 64 } : Desc).runU s
    (.jump (s.moveBatch (relTarget s.pc o.imm)))

/-- An indirect uniform branch (R323, R325). -/
def uniJump (D : Desc) (t : DWord) (s : State) : State :=
  D.runU s (if t.extractLsb' 0 2 ≠ 0 then .stop 0x060 (laneMask s.batch) t else .jump (s.moveBatch t))

/-- sjmp (R325). -/
def uniSjmp (op : Nat) (legal : Bool) (o : SF) (s : State) : State :=
  uniJump { usDesc o op legal [.sreg o.a.toNat] with b := .none } (s.q.sreg o.a.toNat) s

/-- sbrx (R325): a table of 8-byte slots. -/
def uniSbrx (op : Nat) (legal : Bool) (o : SF) (s : State) : State :=
  uniJump (usDesc o op legal [.sreg o.a.toNat, .sreg o.b.toNat])
    (s.q.sreg o.a.toNat + BitVec.ofInt 64 (sext32 (s.q.sreg o.b.toNat) * 8)) s

/-- Arm an entry (R327): nothing when the top equals it; the bottom of a full stack is discarded. -/
def armEntry (e : DWord × Nat) (g : List (DWord × Nat)) : List (DWord × Nat) :=
  if g.head? = some e then g else e :: g.take 3

/-- gather (R327). -/
def laneGather (op : Nat) (legal : Bool) (o : IF) (s : State) : State :=
  let act := (s.active o.pr o.neg).map (·.lane)
  (relDesc op legal o).run s (.done (s.mapFibres (fun f =>
    if act.contains f.lane then { f with gather := armEntry (relTarget s.pc o.imm, f.frame) f.gather } else f)))

/-- The lowest lane slot without a live fibre (R331). -/
def Quire.freeSlot (q : Quire) : Option Nat := (List.range 32).find? (fun l => !q.fibres.any (fun f => f.lane = l))

/-- One fibre of `fspawn` (R331): p1 and, where a slot is free, the child. -/
def spawnOne (target : DWord) (q : Quire) (lane : Nat) : Quire :=
  match q.fibres.find? (fun f => f.lane = lane) with
  | none => q
  | some f =>
    match q.freeSlot with
    | none => { q with fibres := q.fibres.map (fun g => if g.lane = lane then g.setPred 1 false else g) }
    | some c =>
      let parent := f.setPred 1 true
      let child : Fibre := { parent with
        lane := c, pc := target, lint := 0, lfp := 0, lsfu := 0, lmem := 0, fflags := 0, parked := false }
      let ids := q.chainOf f
      { q with
        fibres := insertOn (·.lane) child (q.fibres.map (fun g => if g.lane = lane then parent else g))
        frames := q.frames.map (fun fr =>
          let fr1 := if ids.contains fr.id then { fr with refs := putBit fr.refs c true } else fr
          if fr.id = f.frame then fr1.enter c else fr1) }

/-- fspawn (R331): active fibres in ascending lane order; the children then arrive at the target (R328). -/
def laneFspawn (op : Nat) (legal : Bool) (o : IF) (s : State) : State :=
  let target := relTarget s.pc o.imm
  let old := s.q.fibres.map (·.lane)
  let q1 := ((s.active o.pr o.neg).map (·.lane)).foldl (spawnOne target) s.q
  let kids := (q1.fibres.filter (fun f => !old.contains f.lane)).map (fun f => (f.lane, target))
  (relDesc op legal o).run s (.done { s with q := q1.move kids })

/-- fexit (R332). -/
def laneFexit (op : Nat) (legal : Bool) (o : SF) (s : State) : State :=
  let act := s.active o.pr o.neg
  (ctlDesc op 4 o.pr o.neg legal []).run s
    (s.ending act (.done ((s.endFibres act).afterEnd s.q.uid 0 true)))

/-- halt (R333): every live fibre of the quire ends; every wait is withdrawn. -/
def uniHalt (op : Nat) (o : SF) (s : State) : State :=
  ({ usDesc o op true [] with a := .none, b := .none }).runU s
    (s.ending s.q.fibres (.done (((s.dropPermits [s.q.uid]).endFibres s.q.fibres).afterEnd s.q.uid 0 true)))

/-- nop (R334). -/
def uniNop (op : Nat) (o : SF) (s : State) : State :=
  ({ usDesc o op true [] with a := .none, b := .none }).runU s (.done s)

/-- The frame that `call` makes (R336). -/
def callFrame (s : State) (act : List Fibre) (u base depth : Nat) : Frame :=
  { id := s.q.newId, caller := s.sel.2, retpc := s.pc + 8, depth := depth, size8 := u, refs := laneMask act,
    owned := laneMask act, base := base }

/-- call (R336): demand, depth and frame-count checks, then FrameAlloc; the active fibres enter the new frame. With
65,536 live frames there is no archive address, and that of the trap is 0 (log 106). -/
def laneCall (op : Nat) (legal : Bool) (o : IF) (s : State) : State :=
  let D := relDesc op legal o
  let act := s.active o.pr o.neg
  let u := fieldOf o.d 4 0
  let target := relTarget s.pc o.imm
  D.run s (
    if 28 < u ∨ (s.encv = 1 ∧ 5 < u) ∨ s.fol.frameUnits < u then .stop 0x100 (laneMask act) 0
    else if act.any (fun f => f.depth = 65535) then .stop 0x100 (laneMask act) 0
    else match act with
      | [] => .done s
      | f0 :: _ =>
        if 65535 ≤ s.q.frames.length then .stop 0x101 (laneMask act) 0
        else match s.runFor s.q s.sel.2 u with
          | .overflow a => .stop 0x101 (laneMask act) (BitVec.ofNat 64 a)
          | .waits => .wait s (.frameRun u)
          | .run b =>
            let n := callFrame s act u b (f0.depth + 1)
            let inC := fun (f : Fibre) => act.any (fun g => g.lane = f.lane)
            let s1 := s.mapFibres (fun f => if inC f then { f with frame := n.id, depth := f.depth + 1 } else f)
            let s2 : State := { s1 with q := { s1.q with frames := s1.q.frames ++ [n] } }
            .jump (s2.move (s.batch.map (fun f => (f.lane, if inC f then target else f.pc + 8)))))

/-- A fibre's current frame becomes another of its chain (R340, R343): it leaves the frames above, and reads a lane that is
vacant for it by R29; an archived frame does this at its refill. -/
def Quire.popTo (q : Quire) (lane : Nat) (above : List Nat) (id depth : Nat) : Quire :=
  let q1 := q.leave lane above
  { q1 with
    fibres := q1.fibres.map (fun f => if f.lane = lane then { f with frame := id, depth := depth } else f)
    frames := q1.frames.map (fun fr => if fr.id = id ∧ fr.arch = none then fr.enter lane else fr) }

/-- ret (R340): at depth 0 as fexit; otherwise to RETPC in the caller's frame. -/
def laneRet (op : Nat) (legal : Bool) (o : SF) (s : State) : State :=
  let D := ctlDesc op 4 o.pr o.neg legal []
  let act := s.active o.pr o.neg
  let ends := act.filter (fun f => f.depth = 0)
  let rets := act.filter (fun f => f.depth ≠ 0)
  let cur := s.frm
  let q1 := rets.foldl (fun (q : Quire) f => q.popTo f.lane [cur.id] cur.caller (f.depth - 1)) s.q
  let s1 : State := { s with q := q1 }
  let s2 := s1.move (s.batch.map (fun f => (f.lane, if rets.any (fun g => g.lane = f.lane) then cur.retpc else f.pc + 4)))
  D.run s (
    if rets = [] then s.ending ends (.jump ((s2.endFibres ends).afterEnd s.q.uid 0 true))
    else s.intoFrame cur.caller (laneMask rets) ((s2.endFibres ends).afterEnd s.q.uid 0 true))

/-- fmark (R343): the mark belongs to the current frame of the active fibres. -/
def laneFmark (op : Nat) (legal : Bool) (o : IF) (s : State) : State :=
  let h := if o.modi.getLsbD 0 then 0 else relTarget s.pc o.imm
  (relDesc op legal o).run s (.done (
    if s.active o.pr o.neg = [] then s
    else { s with q := s.q.modFrame s.sel.2 (fun fr => { fr with handler := h }) }))

/-- The frames of a chain above the first marked one, and that one (R343). -/
def unwindTarget (q : Quire) (f : Fibre) : Option (List Nat × Nat) :=
  let ids := q.chainOf f
  let above := ids.takeWhile (fun i => (q.frame i).handler = 0)
  match ids.drop above.length with
  | t :: _ => some (above, t)
  | [] => none

/-- unwind (R343): 0x102 for the active fibres without a marked frame; otherwise the frames above are left, their gather
entries dropped, and the fibre goes to the mark. -/
def laneUnwind (op : Nat) (legal : Bool) (o : SF) (s : State) : State :=
  let D := ctlDesc op 4 o.pr o.neg legal []
  let act := s.active o.pr o.neg
  let bad := act.filter (fun f => unwindTarget s.q f = none)
  match bad with
  | _ :: _ => D.run s (.stop 0x102 (laneMask bad) 0)
  | [] =>
    let go := act.filterMap (fun f => (unwindTarget s.q f).map (fun t => (f, t.1, t.2)))
    let q1 := go.foldl (fun (q : Quire) x =>
      let fr := s.q.frame x.2.2
      let q2 := q.popTo x.1.lane x.2.1 x.2.2 fr.depth
      { q2 with fibres := q2.fibres.map (fun g =>
          if g.lane = x.1.lane then { g with gather := g.gather.filter (fun e => !x.2.1.contains e.2) } else g) }) s.q
    let s1 : State := { s with q := q1 }
    let s2 := s1.move (s.batch.map (fun f =>
      (f.lane, match go.find? (fun x => x.1.lane = f.lane) with
        | some x => (s.q.frame x.2.2).handler
        | none => f.pc + 4)))
    D.run s (match go with
      | x :: _ => s.intoFrame x.2.2 (laneMask act) s2
      | [] => .jump s2)

/-! ## Events of this chapter -/

/-- The release condition of a parked point (R328): every live fibre of the quire whose stack holds the entry is parked
at its address. A fifth gather that discards the bottom entry may bring it about too (log 121). -/
def Quire.released (q : Quire) (pc : DWord) (frame : Nat) : Bool :=
  q.fibres.any (fun f => f.parked && f.pc = pc && f.frame = frame) &&
  q.fibres.all (fun f => !f.gather.contains (pc, frame) || (f.parked && f.pc = pc))

/-- GATHER_RELEASE (R328): the parked fibres form one batch. -/
def releaseGather (uid : Nat) (pc : DWord) (frame : Nat) (s : State) : State :=
  if (s.quire uid).released pc frame then
    s.modQuire uid (fun q => { q with fibres := q.fibres.map (fun f =>
      if f.parked ∧ f.pc = pc ∧ f.frame = frame then
        { f with parked := false, gather := f.gather.filter (fun e => e ≠ (pc, frame)) } else f) })
  else s

/-- The units that a batch blocked in a `call`, `ret` or `unwind` waits for (R337, R341), and the frames that leave with it. -/
def Quire.runNeed (q : Quire) (w : Wait) : Option (Nat × List (Nat × Nat)) :=
  match w.kind with
  | .frameRun u => some (u, [])
  | .refill id lanes => some ((q.frame id).size8, q.freedBy w.frame id lanes)
  | _ => none
/-- A batch waits for units inside its instruction. -/
def Wait.forRun (w : Wait) : Bool := match w.kind with | .frameRun _ | .refill _ _ => true | _ => false

/-- A batch that waits for a run of units: its quire, pc and frame, the units, the frames that leave with its instruction, and its
wait; none for a batch whose archived frame is to come back before it issues. -/
structure RunNeed where
  uid   : Nat
  pc    : DWord
  frame : Nat
  units : Nat
  gone  : List (Nat × Nat) := []
  wait  : Option Wait := none
  deriving DecidableEq, Repr

/-- The blocked batches of a folio that wait for units, in the order in which they began to wait (R345). -/
def State.runBlocks (s : State) (fid : Nat) : List RunNeed :=
  (sortOn (fun (x : Nat × RunNeed) => x.1) ((s.quiresOf fid).flatMap (fun q => q.waits.filterMap (fun w => (q.runNeed w).map (fun n =>
    (w.seq, { uid := q.uid, pc := w.pc, frame := w.frame, units := n.1, gone := n.2, wait := some w })))))).map (·.2)

/-- The instruction that waits may still trap (R318): an access, a fetch or a release whose home cannot be reached, `msend`,
`mrecv`. It holds every other batch of its quire. -/
def Wait.mayTrap (w : Wait) : Bool := match w.kind with | .reach _ _ | .fetch _ | .flush _ | .msend | .mrecv => true | _ => false

/-- The first of them that can go on: its quire holds no fault, and no other batch of it holds it. -/
def State.runTurn (s : State) (fid : Nat) : Option RunNeed :=
  (s.runBlocks fid).find? (fun n =>
    let q := s.quire n.uid
    !q.faulted && q.waits.all (fun w => !w.mayTrap || n.wait = some w) && s.runFor q n.frame n.units n.gone ≠ .waits)

/-- A message waits for an instance that runs on the die of a folio (R401, R404). -/
def State.recvReady (s : State) (fid : Nat) : Bool := (s.instances (s.folio fid).die).any (fun i => (s.die i).recv ≠ [])

/-- The first blocked batch of a die whose `slaunch` or LQCTL write waits for room in a launch queue (R321). -/
def State.launchTurn (s : State) (d : Nat) : Option (Nat × Nat) :=
  ((sortOn (fun (x : Nat × Nat × Nat) => x.1) (s.quires.flatMap (fun q => (q.waits.filter (fun w => w.kind = .launch d)).map (fun w =>
    (w.seq, q.uid, w.seq))))).head?).map (·.2)

/-- The condition of a wait holds, so that its batch may issue its instruction again; the waits that other events complete never
become ready here. -/
def State.waitReady (s : State) (q : Quire) (w : Wait) : Bool :=
  match w.kind with
  | .tokens mask => q.tokensDone mask
  | .tokenFull t => (q.tok t).count < 63
  | .copyQueue => true
  | .frameRun _ | .refill _ _ => (match s.runTurn q.fid with | some n => n.uid = q.uid && n.wait = some w | none => false)
  | .split i gen => gen < (s.barrier q.fid ⟨4 ≤ i, some (i % 4)⟩).gen
  | .launch d => !(s.die d).admitted || ((s.queueOf d).length < 64 && s.launchTurn d = some (q.uid, w.seq))
  | .engine (some b) => !s.bandBusy q.uid b
  | .engine none => !s.engineBusy q.uid
  | .mrecv => s.recvReady q.fid
  | .reach ea _ | .fetch ea => (match s.route q.fid ea .read with | .ok (.waits _) => false | _ => true)
  | .flush scope => if scope = 7 then !s.folioBlocked q.fid else !s.releaseBlocked q.uid (s.folio q.fid).die scope
  | .queue _ _ _ _ | .permit _ | .barrier _ | .rendezvous | .counter _ | .recall _ | .drain _ _ | .msend | .shootdown _ | .ckcommit
  | .pause | .due _ => false

/-- The batches of quire `q` with an archived current frame that could issue otherwise (R341): those that are not blocked, and those whose
wait is over. A batch that waits for a run goes on without its own frame. -/
def State.needsRefill (s : State) (q : Quire) : List (DWord × Nat) :=
  if q.held ≠ none ∨ q.pend ≠ none then []
  else (((q.fibres.filter (fun f => !f.parked && (q.frame f.frame).arch ≠ none
      && match q.waits.find? (fun w => w.pc = f.pc && w.frame = f.frame) with
         | none => true
         | some w => !w.forRun && s.waitReady q w))).map (fun f => (f.pc, f.frame))).eraseDups

/-- Who waits for units in a folio: blocked batches in the order in which they began to wait, then refills. -/
def State.runWaits (s : State) (fid : Nat) : List RunNeed :=
  s.runBlocks fid ++ (s.quiresOf fid).flatMap (fun q => (s.needsRefill q).map (fun p =>
    { uid := q.uid, pc := p.1, frame := p.2, units := (q.frame p.2).size8 }))

/-- The frame that the archive engine takes next in a folio, and for whom (R337). -/
def State.archiveFor (s : State) (fid : Nat) : Option (RunNeed × Nat × Nat) :=
  (s.runWaits fid).findSome? (fun n =>
    if (s.frameRun fid n.units n.gone).isSome ∨ (s.folio fid).sliceBytes = 0 then none
    else (s.archiveNext (s.quire n.uid) n.frame n.gone).map (fun x => (n, x.1, x.2)))

/-- A trap of the archive engine in the batch that needs the run: its `call`, `ret` or `unwind`, or the instruction before which its frame
comes back (R337, R338). -/
def State.archiveTrap (s : State) (n : RunNeed) (code addr : Nat) : State :=
  match n.wait with
  | some w => s.trapIn n.uid w code (BitVec.ofNat 64 addr)
  | none =>
    let s1 : State := { s.focus n.uid with sel := (n.pc, n.frame) }
    s1.fetchTrap code addr

/-- FRAME_ARCHIVE (R337, R338): one frame goes to the archive for the batch that waits. A record that does not fit, or a
fault of the area, is the trap of that batch. -/
def archiveFrame (uid id : Nat) (s : State) : State :=
  let fid := (s.quire uid).fid
  match s.archiveFor fid with
  | some (n, u, i) =>
    let q := s.quire n.uid
    if u ≠ uid ∨ i ≠ id then s
    else if !s.fits q uid id then s.archiveTrap n 0x101 (s.archiveAddr q)
    else match s.routeLines fid (s.archiveAddr q) ((s.quire uid).frame id).recordBytes .write with
      | .error (c, a) => s.archiveTrap n c a
      | .ok ts => if (waitsAt ts).isSome then s else s.archive q uid id ts
  | none => s

/-- FRAME_REFILL (R341): the archived current frame of a batch that could issue is copied back to a free run. -/
def refillFrame (uid id : Nat) (s : State) : State :=
  let q := s.quire uid
  let x := s.folio q.fid
  let fr := q.frame id
  match fr.arch, s.frameRun q.fid fr.size8, (s.needsRefill q).find? (fun p => p.2 = id) with
  | some (k, off), some b, some p =>
    (match s.routeLines q.fid (x.sliceAt k + off) fr.recordBytes .read with
     | .error (c, a) => s.archiveTrap { uid := uid, pc := p.1, frame := id, units := fr.size8 } c a
     | .ok ts => if (waitsAt ts).isSome then s else s.refill uid id b ts)
  | _, _, _ => s

/-! ## The meanings, one for each instruction -/

/-- BRA_LI (R324). -/
def execBraLI (o : IF) (s : State) : Host.Outcome State Fault Refusal :=
  .next (laneBra 0x2C o.legalRel o s)

/-- GATHER_LI (R327). -/
def execGatherLI (o : IF) (s : State) : Host.Outcome State Fault Refusal :=
  .next (laneGather 0x2D o.legalRel o s)

/-- FSPAWN_LI (R331). -/
def execFspawnLI (o : IF) (s : State) : Host.Outcome State Fault Refusal :=
  .next (laneFspawn 0x2E o.legalRel o s)

/-- FEXIT_LS (R332). -/
def execFexitLS (o : SF) (s : State) : Host.Outcome State Fault Refusal :=
  .next (laneFexit 0x2F ((o.d = 0 && o.a = 0 && o.b = 0 : Bool)) o s)

/-- CALL_LI (R336). -/
def execCallLI (o : IF) (s : State) : Host.Outcome State Fault Refusal :=
  .next (laneCall 0x30 o.legalCall o s)

/-- RET_LS (R340). -/
def execRetLS (o : SF) (s : State) : Host.Outcome State Fault Refusal :=
  .next (laneRet 0x31 ((o.d = 0 && o.a = 0 && o.b = 0 : Bool)) o s)

/-- FMARK_LI (R343). -/
def execFmarkLI (o : IF) (s : State) : Host.Outcome State Fault Refusal :=
  .next (laneFmark 0x32 o.legalFmark o s)

/-- UNWIND_LS (R343). -/
def execUnwindLS (o : SF) (s : State) : Host.Outcome State Fault Refusal :=
  .next (laneUnwind 0x32 ((o.d = 0 && o.a = 0 && o.b = 0 : Bool)) o s)

/-- BRX_LS (R324). -/
def execBrxLS (o : SF) (s : State) : Host.Outcome State Fault Refusal :=
  .next (laneBrx 0x33 4 o.pr o.neg (shortName o.a) ((o.d = 0 && o.b = 0 : Bool)) s)

/-- BRX_LL (R324). -/
def execBrxLL (o : LF) (s : State) : Host.Outcome State Fault Refusal :=
  .next (laneBrx 0x33 8 o.pr o.neg (longName o.a) ((o.plain && o.d = 0 && o.b = 0 && o.c = 0)) s)

/-- SBR_UI (R325). -/
def execSbrUI (o : IF) (s : State) : Host.Outcome State Fault Refusal :=
  .next (uniSbr 0x2C o.legalRel o s)

/-- SJMP_US (R325). -/
def execSjmpUS (o : SF) (s : State) : Host.Outcome State Fault Refusal :=
  .next (uniSjmp 0x2D ((o.d = 0 && o.b = 0 : Bool)) o s)

/-- SBRX_US (R325). -/
def execSbrxUS (o : SF) (s : State) : Host.Outcome State Fault Refusal :=
  .next (uniSbrx 0x2D ((o.d = 0 : Bool)) o s)

/-- NOP_US (R334). -/
def execNopUS (o : SF) (s : State) : Host.Outcome State Fault Refusal :=
  .next (uniNop 0x2F o s)

/-- HALT_US (R333). -/
def execHaltUS (o : SF) (s : State) : Host.Outcome State Fault Refusal :=
  .next (uniHalt 0x2F o s)

end Sys2Proof.Machine
end

