-- ==== Sys2Proof/Machine/Sha3.lean ====
section
/-! DEFINITION. SHAKE128 and SHAKE256 (FIPS 202) and the verification of an ML-DSA-65 signature (FIPS 204): the functions that R15, R414
and R417 name by their standards. -/

namespace Sys2Proof.Machine

/-! ## Keccak (FIPS 202) -/

/-- A position of the 5 × 5 lanes as its place in the state. -/
def lanePlace (p : Nat × Nat) : Nat := p.1 + 5 * p.2
/-- Where π takes a lane. -/
def piNext (p : Nat × Nat) : Nat × Nat := (p.2, (2 * p.1 + 3 * p.2) % 5)
/-- The walk of ρ from a position: in its n steps, counted from t, it meets every lane but the first, and π takes each lane to the
next. At each the place of the next, and the lane turned by the triangular number of t + 1. -/
def walkLanes (a : List DWord) : Nat → Nat → Nat × Nat → List (Nat × DWord)
  | 0, _, _ => []
  | n + 1, t, p =>
    (lanePlace (piNext p), (a.getD (lanePlace p) 0).rotateLeft ((t + 1) * (t + 2) / 2 % 64)) :: walkLanes a n (t + 1) (piNext p)

/-- θ: every lane takes the parity of the column before it and that, turned by one, of the column behind it. -/
def keccakTheta (a : List DWord) : List DWord :=
  let parity := fun (x : Nat) => ((List.range 5).map (fun y => a.getD (lanePlace (x % 5, y)) 0)).foldr (· ^^^ ·) 0
  let mix := (List.range 5).map (fun x => parity (x + 4) ^^^ (parity (x + 1)).rotateLeft 1)
  a.zipIdx.map (fun l => l.1 ^^^ mix.getD (l.2 % 5) 0)
/-- χ within each row of lanes. -/
def keccakChi (b : List DWord) : List DWord :=
  b.zipIdx.map (fun l =>
    let next := fun (k : Nat) => b.getD (l.2 - l.2 % 5 + (l.2 + k) % 5) 0
    l.1 ^^^ (next 2 &&& ~~~next 1))

/-- The shift register that gives ι its bits goes on by one bit: x⁸ + x⁶ + x⁵ + x⁴ + 1. -/
def iotaShift (r : Nat) : Nat := if r < 128 then 2 * r else 2 * r ^^^ 0x171
/-- What ι adds in a round, of whose bits only those at 2ʲ - 1 are drawn, and the register behind it. -/
def iotaLane (r : Nat) : DWord × Nat :=
  (List.range 7).foldl (fun (v : DWord × Nat) j => (putBit v.1 (2 ^ j - 1) (v.2.testBit 0), iotaShift v.2)) (0, r)

/-- One round over 25 lanes and the register. -/
def keccakRound (a : List DWord × Nat) : List DWord × Nat :=
  let t := keccakTheta a.1
  let moved := walkLanes t 24 0 (1, 0)
  let c := keccakChi ((List.range 25).map (fun i => if i = 0 then t.headD 0 else ((moved.find? (fun m => m.1 = i)).map (·.2)).getD 0))
  let k := iotaLane a.2
  (match c with | l :: ls => (l ^^^ k.1) :: ls | [] => [], k.2)

/-- Keccak-f[1600]: 24 rounds. -/
def keccakF (x : BitVec 1600) : BitVec 1600 :=
  let ls := ((List.range 24).foldl (fun a _ => keccakRound a) ((List.range 25).map (fun i => x.extractLsb' (64 * i) 64), 1)).1
  BitVec.ofNat 1600 (ls.foldr (fun l acc => l.toNat + 2 ^ 64 * acc) 0)

/-- Absorb one byte in blocks of `rate` bytes. -/
def Sponge.byte (rate : Nat) (s : Sponge) (b : Byte) : Sponge :=
  let x := s.bits ^^^ (b.setWidth 1600 <<< (8 * s.pos))
  if s.pos + 1 = rate then { bits := keccakF x, pos := 0 } else { bits := x, pos := s.pos + 1 }

/-- Absorb bytes into SHAKE256. -/
def Sponge.absorb (s : Sponge) (bs : List Byte) : Sponge := bs.foldl (Sponge.byte 136) s

/-- The state from which output is taken: the suffix 1111 and the padding. -/
def Sponge.finish (rate : Nat) (s : Sponge) : BitVec 1600 :=
  keccakF (s.bits ^^^ (0x1F#1600 <<< (8 * s.pos)) ^^^ (0x80#1600 <<< (8 * (rate - 1))))

/-- Output blocks. -/
def squeeze (rate : Nat) : Nat → BitVec 1600 → List Byte
  | 0, _ => []
  | n + 1, x => (List.range rate).map (fun i => x.extractLsb' (8 * i) 8) ++ squeeze rate n (keccakF x)

/-- The first n bytes of a sponge's SHAKE256 output. -/
def Sponge.output (s : Sponge) (n : Nat) : List Byte := (squeeze 136 (n / 136 + 1) (s.finish 136)).take n
/-- n bytes of SHAKE256. -/
def shake256 (bs : List Byte) (n : Nat) : List Byte := (Sponge.absorb {} bs).output n
/-- n bytes of SHAKE128. -/
def shake128 (bs : List Byte) (n : Nat) : List Byte :=
  (squeeze 168 (n / 168 + 1) ((bs.foldl (Sponge.byte 168) {}).finish 168)).take n

/-! ## ML-DSA-65 (FIPS 204): numbers below q, polynomials as 256 of them -/

/-- The modulus q. -/
def dsaQ : Nat := 8380417
/-- A power modulo q, by the bits of the exponent. -/
def dsaPow (x e : Nat) : Nat :=
  ((List.range 23).foldl (fun (a : Nat × Nat) i => (if e.testBit i then a.1 * a.2 % dsaQ else a.1, a.2 * a.2 % dsaQ)) (1, x)).1
/-- The root of node m: 1753 to the reversed eight bits of m. -/
def dsaZeta (m : Nat) : Nat := dsaPow 1753 ((List.range 8).foldl (fun v i => v + (if m.testBit i then 2 ^ (7 - i) else 0)) 0)

/-- The number-theoretic transform below node m. -/
def ntt : Nat → Nat → List Nat → List Nat
  | 0, _, xs => xs
  | n + 1, m, xs =>
    let z := dsaZeta m
    let h := xs.length / 2
    let ps := (xs.take h).zip ((xs.drop h).map (fun x => z * x % dsaQ))
    ntt n (2 * m) (ps.map (fun p => (p.1 + p.2) % dsaQ)) ++ ntt n (2 * m + 1) (ps.map (fun p => (p.1 + dsaQ - p.2) % dsaQ))
/-- Its inverse without the factor 1/256. -/
def nttBack : Nat → Nat → List Nat → List Nat
  | 0, _, xs => xs
  | n + 1, m, xs =>
    let z := dsaPow (dsaZeta m) (dsaQ - 2)
    let h := xs.length / 2
    let ps := (nttBack n (2 * m) (xs.take h)).zip (nttBack n (2 * m + 1) (xs.drop h))
    ps.map (fun p => (p.1 + p.2) % dsaQ) ++ ps.map (fun p => (p.1 + dsaQ - p.2) * z % dsaQ)
/-- NTT of a polynomial. -/
def nttOf (xs : List Nat) : List Nat := ntt 8 1 xs
/-- The inverse NTT. -/
def nttInv (xs : List Nat) : List Nat := (nttBack 8 1 xs).map (fun x => x * 8347681 % dsaQ)
/-- Products and sums by coefficient. -/
def polyMul (a b : List Nat) : List Nat := (a.zip b).map (fun p => p.1 * p.2 % dsaQ)
def polyAdd (a b : List Nat) : List Nat := (a.zip b).map (fun p => (p.1 + p.2) % dsaQ)
def polySub (a b : List Nat) : List Nat := (a.zip b).map (fun p => (p.1 + dsaQ - p.2) % dsaQ)

/-- Fields of `w` bits of some bytes, lowest first. -/
def bitFields (w n : Nat) (bs : List Byte) : List Nat :=
  let v := bs.foldr (fun b acc => b.toNat + 256 * acc) 0
  (List.range n).map (fun i => v / 2 ^ (w * i) % 2 ^ w)

/-- Bytes by three as 23-bit candidates. -/
def dsaTriples : List Byte → List Nat
  | a :: b :: c :: rest => (a.toNat + 256 * b.toNat + 65536 * (c.toNat % 128)) :: dsaTriples rest
  | _ => []
/-- RejNTTPoly: candidates below q, from more output where the first bytes do not suffice. -/
def rejPoly (seed : List Byte) : List Nat :=
  let go := fun (n : Nat) => (dsaTriples (shake128 seed n)).filter (fun x => x < dsaQ)
  let xs := go 1008
  (if 256 ≤ xs.length then xs else go 4032).take 256

/-- SampleInBall: the challenge of a seed. -/
def sampleBall (seed : List Byte) : List Nat :=
  let out := shake256 seed 1088
  let signs := (out.take 8).foldr (fun b acc => b.toNat + 256 * acc) 0
  ((List.range 49).foldl (fun (a : List Nat × List Byte) k =>
    let i := 207 + k
    let rest := a.2.dropWhile (fun b => i < b.toNat)
    let j := (rest.headD 0).toNat
    ((a.1.set i (a.1.getD j 0)).set j (if signs.testBit k then dsaQ - 1 else 1), rest.drop 1)) (List.replicate 256 0, out.drop 8)).1

/-- HintBitUnpack: for each of the six rows the places of its hints; none where the encoding is malformed. -/
def hintRows (y : List Byte) : Option (List (List Nat)) :=
  let pos := y.take 55
  let ends := (y.drop 55).map (·.toNat)
  let r := ends.foldl (fun (a : Option (Nat × List (List Nat))) e =>
    match a with
    | none => none
    | some (i, rows) =>
      let xs := ((pos.drop i).take (e - i)).map (·.toNat)
      if e < i ∨ 55 < e ∨ ¬ (xs.zip (xs.drop 1)).all (fun p => p.1 < p.2) then none else some (e, rows ++ [xs])) (some (0, []))
  match r with
  | some (i, rows) => if (pos.drop i).all (fun b => b = 0) then some rows else none
  | none => none

/-- UseHint on one coefficient. -/
def useHint (h : Bool) (r : Nat) : Nat :=
  let g := 523776
  let r0 : Int := if r % g ≤ g / 2 then (r % g : Nat) else (r % g : Nat) - (g : Int)
  let top := (r : Int) - r0 = (dsaQ : Int) - 1
  let r1 := if top then 0 else (((r : Int) - r0) / g).toNat
  let r0' := if top then r0 - 1 else r0
  if !h then r1 else if 0 < r0' then (r1 + 1) % 16 else (r1 + 15) % 16

/-- The bytes of two 4-bit values each. -/
def nibbles : List Nat → List Byte
  | a :: b :: rest => BitVec.ofNat 8 (a + 16 * b) :: nibbles rest
  | _ => []

/-- The bytes of w1' (FIPS 204): A z - c t1 2^13 with the hints applied, for a key, the vector z, the hints and the challenge. -/
def dsaW1 (pk : List Byte) (zs : List (List Nat)) (hs : List (List Nat)) (chal : List Nat) : List Byte :=
  let zn := zs.map (fun z => nttOf (z.map (fun x => (524288 + dsaQ - x) % dsaQ)))
  let c := nttOf chal
  ((List.range 6).map (fun r =>
    let t := nttOf ((bitFields 10 256 ((pk.drop (32 + 320 * r)).take 320)).map (fun x => x * 8192 % dsaQ))
    let az := (zn.zipIdx).foldl (fun acc (z, s) =>
      polyAdd acc (polyMul (rejPoly (pk.take 32 ++ [BitVec.ofNat 8 s, BitVec.ofNat 8 r])) z)) (List.replicate 256 0)
    ((nttInv (polySub az (polyMul c t))).zipIdx).map (fun (x, i) => useHint ((hs.getD r []).contains i) x))).flatMap nibbles

/-- ML-DSA.Verify for parameter set 65 with the empty context. -/
def dsaVerify (pk msg sig : List Byte) : Bool :=
  if pk.length ≠ 1952 ∨ sig.length ≠ 3309 then false
  else match hintRows (sig.drop 3248) with
    | none => false
    | some hs =>
      let c0 := sig.take 48
      let zs := (List.range 5).map (fun i => bitFields 20 256 ((sig.drop (48 + 640 * i)).take 640))
      let mu := shake256 (shake256 pk 64 ++ [0, 0] ++ msg) 64
      zs.all (fun z => z.all (fun x => 196 < x ∧ x < 1048380)) && shake256 (mu ++ dsaW1 pk zs hs (sampleBall c0)) 48 == c0

end Sys2Proof.Machine
end

