-- ==== Sys2Proof/Machine/Image.lean ====
section
/-! DEFINITION. The save image of a folio (R387 to R389): its bytes, where they lie, and what a restore reads back from them (R391). The order of
the fields inside a part of which the spec states only size and contents is the model's (log 20). -/

namespace Sys2Proof.Machine

/-! ## Parts of the image -/

/-- Bytes filled up with zeros. -/
def padTo (n : Nat) (bs : List Byte) : List Byte := bs ++ List.replicate (n - bs.length) 0

/-- One barrier: generation, and the mask of what has arrived. -/
def barrierBytes (gen mask : Nat) : List Byte := leBytes 4 gen ++ leBytes 4 mask

/-- A connection register as `cconn` takes it (R221), a bit that it is set, and the peer's incarnation. -/
def connBytes (c : Option Conn) : List Byte :=
  match c with
  | none => leBytes 8 0
  | some k => leBytes 8 (k.pkg % 64 + k.die % 4 * 2 ^ 6 + k.chan % 65536 * 2 ^ 8 + 2 ^ 24 + k.incarn % 2 ^ 32 * 2 ^ 32)

/-- An entry of the subscription table (R250). -/
def subBytes (dst : Nat) (x : Sub) : List Byte :=
  padTo 32 (leBytes 4 1 ++ leBytes 4 x.gen ++ leBytes 4 dst ++ leBytes 4 x.glog ++ leBytes 4 x.soff ++ leBytes 4 x.doff ++ leBytes 4 x.len)

/-- The arrivals at a barrier of some quires of a folio, by %quireid. -/
def arrivedMask (qs : List Quire) (b : Barrier) : Nat :=
  qs.foldl (fun m q => if b.arrived.contains q.uid then m ||| 2 ^ q.quireid else m) 0
/-- A folio with these quires has arrived at a volume barrier: every live one has, or none lives (R260, R265). -/
def folioThere (qs : List Quire) (b : Barrier) : Bool := qs.all (fun q => q.ended || b.arrived.contains q.uid)

/-- The folio header, with the subscription entries that the folio has (R387). -/
def State.folioHeader (s : State) (subs : List Sub) (v : Volume) (x : Folio) (qs : List Quire) (framelen : Nat) : List Byte :=
  let vbars := v.bar :: (List.range 4).map (fun i => Sparse.get {} i v.splits)
  padTo 64 (leBytes 2 0x51A7 ++ leBytes 2 x.encv ++ leBytes 4 0 ++ leBytes 8 framelen)
    ++ padTo 64 ((x.bar :: (List.range 4).map (fun i => Sparse.get {} i x.splits)).flatMap (fun b => barrierBytes b.gen (arrivedMask qs b))
        ++ vbars.flatMap (fun b => leBytes 4 b.gen)
        ++ leBytes 4 ((List.range 5).foldl (fun m i => if folioThere qs (vbars.getD i {}) then m + 2 ^ i else m) 0))
    ++ (List.range 16).flatMap (fun i => connBytes (Sparse.get none i x.conns))
    ++ (List.range 16).flatMap (fun i => match subs.find? (fun y => y.src = x.fid && y.entry = i) with
        | some y => subBytes (s.folio y.dst).folioid y
        | none => List.replicate 32 0)
    ++ List.replicate 256 0

/-- A token: count, status, and whether it has a record; the handle of that record is free behind its abandonment, and its bytes are
free (log 20). `key` names the token. -/
def tokenBytes (key : Nat) (t : Token) : List Byte :=
  padTo 16 (leBytes 1 t.count ++ leBytes 1 t.status.toNat ++ leBytes 2 (if t.record.isSome then 1 else 0)
    ++ leBytes 4 (if t.record.isSome then (Config.freeWord key 20).toNat else 0))

/-- The operands that a quire's matrix operation has captured (R152). -/
def State.captureBytes (s : State) (q : Quire) : List Byte :=
  padTo 128 (match s.matops.findSome? (fun o => (o.members.find? (fun m => m.quire = q.uid)).map (fun m => (o, m))) with
    | none => []
    | some (o, m) => leBytes 8 m.abase.toNat ++ leBytes 8 m.astride.toNat ++ leBytes 8 o.bbase.toNat ++ leBytes 8 o.bstride.toNat ++ leBytes 4 m.rowA
        ++ leBytes 4 o.rowB ++ leBytes 4 o.kblk ++ leBytes 4 o.k ++ leBytes 4 o.mask.toNat ++ leBytes 4 o.chunk
        ++ [m.band, m.tok, o.aslot, o.bslot, if o.clr then 1 else 0, if o.dist then 1 else 0].flatMap (leBytes 1))

/-- The kind, address and amount of a wait (R388), in the order of State's list of kinds. -/
def WaitKind.words : WaitKind → Nat × Nat × Nat
  | .tokens m => (1, 0, m) | .tokenFull t => (2, 0, t) | .copyQueue => (3, 0, 0) | .permit op => (4, 0, op) | .frameRun u => (5, 0, u)
  | .refill f l => (6, f, l.toNat) | .split i g => (7, i, g) | .launch d => (8, 0, d) | .queue l p r _ => (9, l, r + if p then 256 else 0)
  | .barrier v => (10, 0, if v then 1 else 0) | .engine b => (11, 0, match b with | some k => k + 1 | none => 0) | .rendezvous => (12, 0, 0)
  | .counter p => (13, p, 0) | .recall p => (14, p, 0) | .drain _ _ => (15, 0, 0) | .msend => (16, 0, 0) | .mrecv => (17, 0, 0)
  | .shootdown i => (18, 0, i) | .ckcommit => (19, 0, 0) | .pause => (20, 0, 0) | .reach p l => (21, p, l.toNat) | .fetch p => (22, p, 0)
  | .flush c => (23, 0, c) | .due c => (24, 0, c)
/-- A wait: kind, address, amount, and its place in the order of waiting. -/
def Wait.bytes (w : Wait) : List Byte :=
  let k := w.kind.words
  leBytes 8 k.1 ++ leBytes 8 k.2.1 ++ leBytes 8 k.2.2 ++ leBytes 8 w.seq

/-- A fibre (R388): PC, o0 to o7, latches in the order of R35, gather stack, %fbase, %fdepth, %fflags, p1 to p7, flags. -/
def Fibre.bytes (f : Fibre) (base : Nat) (blocked : Bool) : List Byte :=
  leBytes 8 f.pc.toNat ++ (List.range 8).flatMap (fun i => leBytes 4 (f.oreg i).toNat)
    ++ [f.lint, f.lfp, f.lsfu, f.lmem].flatMap (fun v => leBytes 8 v.toNat)
    ++ padTo 40 (f.gather.flatMap (fun e => leBytes 8 e.1.toNat ++ leBytes 2 e.2))
    ++ leBytes 2 base ++ leBytes 2 f.depth ++ leBytes 1 f.fflags.toNat ++ leBytes 1 f.preds.toNat
    ++ leBytes 1 (1 + (if f.parked then 2 else 0) + (if blocked then 4 else 0)) ++ List.replicate 9 0

/-- The s registers of a quire block. -/
def Quire.sBytes (q : Quire) : List Byte := (List.range 64).flatMap (fun n => leBytes 8 (q.sreg n).toNat)
/-- The fibres of a quire block, lane 0 first. -/
def Quire.fibreBytes (q : Quire) : List Byte :=
  (List.range 32).flatMap (fun l => match q.fibres.find? (fun f => f.lane = l) with
    | some f => f.bytes (q.frame f.frame).base (q.waits.any (fun w => w.pc = f.pc && w.frame = f.frame))
    | none => List.replicate 128 0)

/-- A quire block (R388): 5120 bytes. -/
def State.quireBlock (s : State) (q : Quire) : List Byte :=
  q.sBytes
    ++ padTo 64 (leBytes 1 q.k.toNat ++ leBytes 1 q.frm.toNat ++ leBytes 1 q.ftrap.toNat ++ leBytes 1 q.mflags.toNat ++ leBytes 4 q.mprog.toNat
        ++ leBytes 4 q.gang.toNat ++ leBytes 4 0 ++ leBytes 8 q.stamp
        ++ leBytes 4 (match s.heldBy (.quire q.uid) with | some (_, h) => handleOf h.index h.gen | none => 0)
        ++ leBytes 1 q.splitP.toNat ++ (List.range 8).flatMap (fun i => leBytes 4 (Sparse.get 0 i q.splitG)))
    ++ (List.range 8).flatMap (fun n => tokenBytes (q.uid * 8 + n) (q.tok n))
    ++ s.captureBytes q
    ++ padTo 128 ((q.waits.take 4).flatMap Wait.bytes)
    ++ List.replicate 64 0
    ++ q.fibreBytes

/-- The bands of a quire, cell by cell (R148, R387). -/
def Quire.bandBytes (q : Quire) (nbands : Nat) : List Byte := (List.range (nbands * 512)).flatMap (fun k => leBytes 16 (Sparse.get 0 k q.bands).toNat)

/-- The registers of a frame block (R389): 4 bytes for U, 8 for A, 128 for G; under version 1 every register is G (R33). -/
def Frame.packed (fr : Frame) (encv r : Nat) : List Byte :=
  match tagBits encv (fr.tag r), fr.tag r with
  | 0, .u v => leBytes 4 v.toNat
  | 1, .a b st => leBytes 4 b.toNat ++ leBytes 4 st.toNat
  | _, _ => (List.range 32).flatMap (fun l => leBytes 4 (if fr.owned.getLsbD l then (fr.v r l).toNat else 0))
/-- The size of the tag vector of a frame block. -/
def Frame.vectorBytes (fr : Frame) : Nat := (2 * (8 * fr.size8) + 63) / 64 * 8
/-- A frame block (R389): header with bit 0 for an archived frame, tag vector, registers, padding to 64 bytes. -/
def Frame.block (fr : Frame) (encv : Nat) : List Byte :=
  let bs := leBytes 64 (fr.header (if fr.arch.isSome then 1 else 0))
    ++ leBytes fr.vectorBytes ((List.range (8 * fr.size8)).foldl (fun m r => m + tagBits encv (fr.tag r) * 4 ^ r) 0)
    ++ (List.range (8 * fr.size8)).flatMap (fr.packed encv)
  padTo ((bs.length + 63) / 64 * 64) bs
/-- The live frames of a quire in ascending FRAMEID. -/
def Quire.framesInOrder (q : Quire) : List Frame := sortOn (·.id) q.frames

/-- The frame blocks of an image. The registers of an archived frame lie in the quire already. -/
def imageFrames (x : Folio) (qs : List Quire) : List Byte := qs.flatMap (fun q => q.framesInOrder.flatMap (fun fr => fr.block x.encv))
/-- The folio header and the quire blocks of an image. -/
def State.imageHead (s : State) (subs : List Sub) (v : Volume) (x : Folio) (qs : List Quire) : List Byte :=
  s.folioHeader subs v x qs (imageFrames x qs).length ++ qs.flatMap s.quireBlock
/-- The image of a folio of a volume with its quires (R387). -/
def State.image (s : State) (v : Volume) (x : Folio) (qs : List Quire) : List Byte :=
  s.imageHead s.subs v x qs ++ qs.flatMap (fun q => q.bandBytes x.nbands) ++ s.bytesAt (scratchLoc x.fid 0) x.scratchBytes ++ imageFrames x qs

/-! ## Where it lies (R386) -/

/-- The first byte of a folio's image: on a 1 KiB boundary of the saving die's memory, in the save area of its process (log 59). -/
def State.imageBase (s : State) (x : Folio) : Nat := s.pkgid * 2 ^ 46 + x.die * 2 ^ 38 + Config.saveArea x.fid % 2 ^ 27 * 1024
/-- The key of a process for its images: the lowest key id of its KEYMASK (log 59). -/
def State.imageKey (s : State) (x : Folio) : Nat :=
  ((List.range 64).find? (fun k => (s.spaceRec x.die x.asid).2.getLsbD k)).getD 0

/-- The poison of a scratchpad's lines stands at the lines of another place, `delta` lines on (R375). -/
def State.movePoison (s : State) (fromLoc toLoc n : Nat) : State :=
  if s.poison = [] then s
  else
    let ls := (List.range (n / 64)).filter (fun i => s.poison.contains (fromLoc / 64 + i))
    { s with poison := s.poison ++ (ls.map (fun i => toLoc / 64 + i)).filter (fun l => !s.poison.contains l) }

/-- The image of a folio is written (R386 step 6). -/
def State.writeImage (s : State) (v : Volume) (x : Folio) (qs : List Quire) : State :=
  let pa := s.imageBase x
  (s.putLong (s.imageKey x) pa (s.image v x qs)).movePoison (scratchLoc x.fid 0) (pa + x.scratchSection) x.scratchBytes

/-! ## What a restore reads back (R391) -/

/-- Bytes of an image. -/
def State.imageBytes (s : State) (kid pa n : Nat) : List Byte := (List.range n).map (fun i => s.plain kid (pa + i))
/-- A number among some bytes. -/
def numAt (bs : List Byte) (off n : Nat) : Nat := leNat ((bs.drop off).take n)

/-- The PC, operand file, latches, %fflags and predicates of a fibre. -/
def Fibre.fromBytes (f : Fibre) (bs : List Byte) : Fibre :=
  let w := fun (o : Nat) => BitVec.ofNat 64 (numAt bs o 8)
  { f with
    pc := w 0 &&& ~~~(3 : DWord)
    o := (List.range 8).foldl (fun m i => Sparse.set 0 i (BitVec.ofNat 32 (numAt bs (8 + 4 * i) 4)) m) f.o
    lint := w 40, lfp := w 48, lsfu := w 56, lmem := w 64
    fflags := BitVec.ofNat 5 (numAt bs 116 1), preds := BitVec.ofNat 8 (numAt bs 117 1) }

/-- The s registers and fibres of a quire from its block, and its bands; a fibre whose PC the image has changed no longer waits. -/
def Quire.fromBlock (q : Quire) (block bands : List Byte) (nbands : Nat) : Quire :=
  let q1 := (List.range 64).foldl (fun (z : Quire) n => z.setS n (BitVec.ofNat 64 (numAt block (8 * n) 8))) q
  ({ q1 with
    fibres := q1.fibres.map (fun f => f.fromBytes ((block.drop (1024 + 128 * f.lane)).take 128))
    bands := (List.range (nbands * 512)).foldl (fun m k => Sparse.set 0 k (BitVec.ofNat 128 (numAt bands (16 * k) 16)) m) q1.bands }
    : Quire).dropEmptyWaits

/-- Every lane that is not vacant takes one value of a register. -/
def Frame.spread (fr : Frame) (r : Nat) (t : Tag) (v : Nat → Word) : Frame :=
  { fr with
    tags := Sparse.set (.u 0) r t fr.tags
    regs := (List.range 32).foldl (fun m l => if fr.owned.getLsbD l then Sparse.set 0 (r * 32 + l) (v l) m else m) fr.regs }
/-- One register from its packed bytes: under a U or A code that says what the tag says, the lanes keep their values (log 20). -/
def Frame.unpack (fr : Frame) (encv r code : Nat) (bs : List Byte) : Frame :=
  let w := fun (o : Nat) => BitVec.ofNat 32 (numAt bs o 4)
  match code with
  | 0 => if fr.tag r = .u (w 0) then fr else fr.spread r (.u (w 0)) (fun _ => w 0)
  | 1 => if fr.tag r = .a (w 0) (w 4) then fr else fr.spread r (.a (w 0) (w 4)) (fun l => Tag.fill (.a (w 0) (w 4)) l)
  | _ => fr.spread r (if tagBits encv (fr.tag r) = 2 then fr.tag r else .g) (fun l => w (4 * l))
/-- A frame from its block, and the length of the block. -/
def Frame.fromBlock (fr : Frame) (encv : Nat) (bs : List Byte) : Frame × Nat :=
  let v := numAt bs 64 fr.vectorBytes
  let r := (List.range (8 * fr.size8)).foldl (fun (a : Frame × Nat) r =>
    let code := v / 4 ^ r % 4
    (a.1.unpack encv r code ((bs.drop a.2).take 128), a.2 + (match code with | 0 => 4 | 1 => 8 | _ => 128))) (fr, 64 + fr.vectorBytes)
  (r.1, (r.2 + 63) / 64 * 64)

/-- The frames of a quire from their blocks, and what follows them. -/
def Quire.fromFrames (q : Quire) (encv : Nat) (bs : List Byte) : Quire × List Byte :=
  q.framesInOrder.foldl (fun (a : Quire × List Byte) fr =>
    let r := fr.fromBlock encv a.2
    (a.1.modFrame fr.id (fun _ => r.1), a.2.drop r.2)) (q, bs)

/-- The quires of a folio, in ascending %quireid, as its image has them (R387 to R389). -/
def State.readImage (s : State) (x : Folio) (qs : List Quire) (pa kid : Nat) : List Quire :=
  let b := fun (o n : Nat) => s.imageBytes kid (pa + o) n
  let bandsAt := 1024 + 5120 * x.qcnt
  let size := x.nbands * 8192
  let q1 := qs.map (fun q => q.fromBlock (b (1024 + 5120 * q.quireid) 5120) (b (bandsAt + q.quireid * size) size) x.nbands)
  let total := (q1.flatMap (·.frames)).foldl (fun m fr => m + 64 + fr.vectorBytes + 128 * (8 * fr.size8) + 64) 0
  (q1.foldl (fun (a : List Quire × List Byte) q =>
    let r := q.fromFrames x.encv a.2
    (a.1 ++ [r.1], r.2)) ([], b (x.scratchSection + x.scratchBytes) total)).1

/-- The 8-byte elements in which some bytes of an image differ from what it was given before are written; bytes of another length
all are. -/
def State.putChanged (s : State) (kid pa : Nat) (old new : List Byte) : State :=
  if old = new then s
  else if old.length ≠ new.length then s.putLong kid pa new
  else (List.range ((new.length + 7) / 8)).foldl (fun (t : State) i =>
    let part := (new.drop (8 * i)).take 8
    if part = (old.drop (8 * i)).take 8 then t else t.putRaw kid (pa + 8 * i) part) s

/-- The images follow what happens to saved quires: the tokens of operations that complete (R390), waits that end and faults that
are resumed, so that a restore goes on from there (R377, R391). What the kernel has changed in an image otherwise stays. -/
def State.syncImages (s : State) : State :=
  s.saved.foldl (fun (t : State) v =>
    let parts := v.folios.map (fun x =>
      let qs := sortOn (·.quireid) (v.quires.filter (fun q => q.fid = x.fid))
      (x.fid, s.imageHead v.subs v.volume x qs, imageFrames x qs))
    if parts = v.wrote then t
    else
      let t1 := v.folios.foldl (fun (t : State) x =>
        match v.images.find? (fun i => i.1 = x.fid), parts.find? (fun p => p.1 = x.fid), v.wrote.find? (fun p => p.1 = x.fid) with
        | some i, some new, some old =>
          (t.putChanged i.2.2 i.2.1 old.2.1 new.2.1).putChanged i.2.2 (i.2.1 + x.scratchSection + x.scratchBytes) old.2.2 new.2.2
        | _, _, _ => t) t
      { t1 with saved := t1.saved.map (fun w => if w.volume.vid = v.volume.vid then { w with wrote := parts } else w) }) s

end Sys2Proof.Machine
end

