-- ==== Sys2Proof/Machine/System.lean ====
section
/-! DEFINITION. System instructions, held faults, handler folios, curators, and pre-emption (spec 19). -/

namespace Sys2Proof.Machine

/-! ## sys and trap (R376) -/

/-- `sys` and `trap`: the cause is the base plus the number; %epc is the next instruction. A word that fails its decode checks is a
trap like any other. -/
def uniSys (base : Nat) (o : SF) (s : State) : State :=
  let D := { usDesc o 0x30 o.legalSys [] with a := .sreg 1, b := .sreg 2 }
  D.runU s (.trap { D.trap s (base + o.d.toNat) (laneMask s.batch) with
    epc := s.pc + 4, info := BitVec.ofNat 64 (o.d.toNat % 16), skip := .sys })

/-! ## fresume (R377) -/

/-- The held fault that a handle names, where the issuing folio may name it: in user mode only one that was delivered to it. The
table is that of the issuing die. -/
def State.entryFor (s : State) (handle : Nat) : Option HeldFault :=
  if handle / 2 ^ 10 % 64 ≠ 0 then none
  else (s.die s.fol.die).held.find? (fun x =>
    x.index = handle % 1024 && x.gen = handle / 2 ^ 16 && (s.super || x.server = some s.q.fid))

/-- A held fault is resumed: its entry is free, and the quire or operation goes on. The record is the issuing handler's, or the one
in the trap queue, as it stands in memory. A `cpm` and a matrix operation ask for a new permit (R319), unless their unit is saved: then they
ask at its restore. -/
def State.resumeFault (s : State) (x : HeldFault) (skip : Bool) : State :=
  let t := if s.super then s.kernelTrap x else s.handledTrap s.q.fid x.trap
  let s1 := s.freeEntry s.fol.die x.index
  let ask := fun (z : State) (h : Heavy) => if s.isSaved x.fid then z else { z with permits := z.permits ++ [h] }
  match x.holder with
  | .quire uid => s1.modQuire uid (fun q => q.resume t skip (if t.len = 0 then s.lengthAt x.fid t.pc.toNat else t.len))
  | .copy id =>
    let s2 := s1.modCopy id (fun c => { c with held := none, resumed := true })
    if s2.copies.any (fun c => c.id = id && !c.permit) then ask s2 (.copy id) else s2
  | .matrix id => ask (s1.modMat id (fun o => { o with held := none, resumed := true })) (.matrix id)

/-- fresume (R377); of a held engine operation it is a release at device scope (R397). -/
def uniFresume (o : SF) (s : State) : State :=
  let D := { usDesc o 0x31 (o.d.extractLsb' 1 5 = 0 && o.b = 0) [.sreg o.a.toNat] with b := .none }
  let skip := o.d.getLsbD 0
  D.runU s (
    match s.entryFor ((s.q.sreg o.a.toNat).toNat / 2 ^ 32) with
    | none => .stop 0x0B0 (laneMask s.batch) 0
    | some x => if x.trap.eng && skip then .stop 0x0B0 (laneMask s.batch) 0
      else s.behindRelease x.trap.eng 5 (fun t => .done (t.resumeFault x skip)))

/-! ## fkill (R378) -/

/-- A held engine operation is abandoned (R165, R218). -/
def State.abandon (s : State) (h : Holder) : State :=
  match h with
  | .quire _ => s
  | .copy id => match s.copies.find? (fun c => c.id = id) with | some c => s.abandonCopy c | none => s
  | .matrix id => match s.matops.find? (fun o => o.id = id) with | some o => s.abandonMat o | none => s

/-- Every resident or saved quire. -/
def State.everyQuire (s : State) : List Quire := (s.quires ++ s.saved.flatMap (·.quires)).filter (fun q => q.uid ≠ 0)
/-- Every resident or saved folio. -/
def State.everyFolio (s : State) : List Folio := s.folios ++ s.saved.flatMap (·.folios)

/-- A saved unit all of whose folios have ended is gone, with what it still held. -/
def State.dropSaved (s : State) : State :=
  let done := fun (v : Saved) => v.folios.all (·.ended) && v.quires.all Quire.idle
  let gone := (s.saved.filter done).flatMap (·.folios)
  if gone = [] then s
  else { s with
    saved := s.saved.filter (fun v => !done v)
    dies := (gone.foldl State.dropBind s).dies }

/-- A folio ends by `fkill` (R378): its held operations are abandoned, its held quires' entries are free, every quire ends as `halt`
ends, and the collection takes a status. -/
def State.killFolio (s : State) (fid : Nat) (status : BitVec 2) : State :=
  let qs := s.everyQuire.filter (fun q => q.fid = fid)
  let s1 := (s.copies.filter (fun c => c.fid = fid && (c.held.isSome || c.pend.isSome))).foldl (fun (t : State) c => t.abandonCopy c) s
  let s2 := (s1.matops.filter (fun o => o.fid = fid && (o.held.isSome || o.pend.isSome))).foldl (fun (t : State) o => t.abandonMat o) s1
  let s3 := qs.foldl (fun (t : State) q =>
    let t := t.settleFrom q.uid
    (match t.heldBy (.quire q.uid) with | some (d, h) => t.freeEntry d h.index | none => t).modQuire q.uid (fun q =>
      { (q.fibres.foldl Quire.endFibre q).dropEmptyWaits with held := none, pend := none })) (s2.dropPermits (qs.map (·.uid)))
  match qs with
  | q :: _ => (s3.afterEnd q.uid status true).dropSaved
  | [] => s3

/-- A shelf ends by `fkill.shelf` (R378): its bound folios end, the others are dropped, and the collection's token takes status
partial. -/
def State.killShelf (s : State) (coll shelf : Nat) : State :=
  let fs := s.everyFolio.filter (fun x => x.coll = coll && x.shelf = shelf && x.kind = .normal)
  let s1 := fs.foldl (fun (t : State) x => t.killFolio x.fid 1) s
  let s2 := s1.modColl coll (fun c =>
    { c.modShelf shelf (fun x => { x with done := max x.done (recCount x.record) }) with status := statusMax c.status 1 })
  ({ s2 with dies := s2.dies.map (fun z => { z with
      slots := z.slots.filter (fun b => ¬ (b.coll = coll ∧ b.shelf = shelf ∧ !s2.everyFolio.any (fun x => x.coll = coll && x.shelf = shelf)))
      targets := z.targets.filter (fun t => ¬ (t.1 = coll ∧ t.2.1 = shelf)) }) } : State).reapColls

/-- fkill (R378). In supervisor mode a zero handle with MODE 2 names a shelf by its launch queue entry and index. -/
def uniFkill (o : SF) (s : State) : State :=
  let mode := fieldOf o.d 1 0
  let D := { usDesc o 0x31 (mode ≠ 3 && o.d.extractLsb' 2 4 = 0 && o.b = 0) [.sreg o.a.toNat] with b := .none }
  let v := s.q.sreg o.a.toNat
  let handle := v.toNat / 2 ^ 32
  let stop := Res.stop 0x0B0 (laneMask s.batch) 0
  D.runU s (
    if s.super && mode = 2 && handle = 0 then
      match (s.queueOf s.fol.die).find? (fun c => c.qent = fieldOf v 15 0 && fieldOf v 23 16 < c.shelves.length) with
      | some c => .done (s.killShelf c.uid (fieldOf v 23 16))
      | none => stop
    else match s.entryFor handle with
      | none => stop
      | some x =>
        match mode with
        | 0 => if x.trap.eng then .done (s.abandon x.holder) else stop
        | 1 => .done (s.killFolio x.fid 1)
        | _ =>
          let y := s.folio x.fid
          let s1 := s.killShelf y.coll y.shelf
          .done (if y.kind = .normal then s1 else s1.killFolio y.fid 1))

/-! ## pmap (R379, R380) -/

/-- A pool record as a 256-bit value (R379). -/
abbrev PoolRec := BitVec 256

/-- The size in bytes of page size index `c`, 0 to 11 (R357, R379). -/
def szcBytes (c : Nat) : Nat := (leafSize (c / 4) (c % 4)).getD 1

/-- A pool record is invalid (R380). -/
def poolBad (r : PoolRec) : Bool :=
  !r.getLsbD 0 || fieldOf r 31 1 ≠ 0 || fieldOf r 255 128 ≠ 0 || 11 < fieldOf r 43 40 || fieldOf r 33 32 = 1
    || fieldOf r 127 76 % szcBytes (fieldOf r 43 40) ≠ 0

/-- The entries of the group that a page fills: where they lie; or a result code; or a cause (0x142: they cannot be reached now). -/
inductive PageGroup where
  | fault (code : Nat)
  | rc (n : Nat)
  | at (pas : List Nat)
  deriving DecidableEq, Repr

/-- Walk to the level of a page size (R380). -/
def State.groupFrom (s : State) (d va szc : Nat) : List (Nat × Nat × Nat) → Nat → PageGroup
  | [], _ => .fault 0x084
  | (level, sh, bits) :: rest, table =>
    let i := va / 2 ^ sh % 2 ^ bits
    if level = szc / 4 then
      let n := max 1 (szcBytes szc / 2 ^ sh)
      let rs := (List.range n).map (fun k => s.reach d (table + 8 * (i / n * n + k)))
      let pas := rs.filterMap (fun r => match r with | .at pa => some pa | _ => none)
      if rs.any (fun r => r = .lost) then .fault 0x140
      else if rs.any (fun r => r = .waits) then .fault 0x142
      else if pas.any (fun pa => ptePerm (s.phys64 pa) ≠ 0 || pteSz (s.phys64 pa) ≠ 0) then .rc 3
      else .at pas
    else match s.reach d (table + 8 * i) with
      | .lost => .fault 0x140
      | .waits => .fault 0x142
      | .at pa =>
        let e := s.phys64 pa
        if ptePerm e ≠ 0 then (if (leafSize level 0).isNone then .fault 0x084 else .rc 3)
        else if pteSz e = 0 then .rc 2
        else if pteSz e ≠ 1 ∨ fieldOf e 63 38 ≠ 0 ∨ s.tableBad (level - 1) (ptePpn e) = true then .fault 0x084
        else s.groupFrom d va szc rest (pteBase e)

/-- The group of a page in a space (R354, R380). -/
def State.pageGroup (s : State) (d asid va szc : Nat) : PageGroup :=
  let lo := (s.spaceRec d asid).1
  if fieldOf lo 63 38 ≠ 0 ∨ fieldOf lo 3 1 ≠ 0 then .fault 0x084
  else if lo.getLsbD 0 = false then .rc 2
  else if s.tableBad 4 (fieldOf lo 37 4) then .fault 0x084
  else s.groupFrom d va szc walkLevels (pteBase (BitVec.ofNat 64 (fieldOf lo 37 4 * 16)))

/-- Every byte of a frame is 0 under its key (R380): at its home; no die keeps a copy of its lines, and nothing older lies under
them. -/
def State.zeroFrame (s : State) (d kid pa size : Nat) : State :=
  let inFrame := fun (x : Nat) => pa ≤ x && x < pa + size
  let s1 := (List.range (size / 64)).foldl (fun (t : State) i =>
    match t.reach d (pa + 64 * i) with
    | .at a => (t.direct (paDie a) 384 .l2 true (a / 64)).putHome kid a (List.replicate 64 0)
    | _ => t) s
  let s2 := (List.range s1.dies.length).foldl (fun (t : State) e => t.dropCopies e (fun c => inFrame (c.line * 64))) s1
  { s2 with
    shadow := s2.shadow.filter (fun x => !inFrame x.1)
    hist := s2.hist.filter (fun x => !inFrame (x.1 % 2 ^ 64))
    class_ := s2.class_.filter (fun x => !inFrame (x.1 % 2 ^ 46 * 64)) }

/-- The leaf entry of a mapped page (R355, R380). -/
def leafOf (home kid asid pa szc perm : Nat) : DWord :=
  BitVec.ofNat 64 (home * 2 ^ 62 + kid * 2 ^ 56 + asid % 65536 * 2 ^ 40
    + (paPkg pa * 2 ^ 28 + paDie pa * 2 ^ 26 + paOff pa / 4096) * 16 + szc % 4 * 4 + perm)

/-- pmap (R380). -/
def uniPmap (o : SF) (s : State) : State :=
  let g := o.a.toNat
  let D := { usDesc o 0x32 (o.b = 0) [.sreg o.d.toNat, .sgroup g 2] with b := .none, skip := .sreg o.d.toNat 64 }
  let va := (s.q.sreg g).toNat
  let v := s.q.sreg (g + 1)
  let d := s.fol.die
  let perm := fieldOf v 1 0
  let asid := if s.super then fieldOf v 47 32 else s.fol.asid
  let stop := fun (c : Nat) (a : Nat) => Res.stop c (laneMask s.batch) (BitVec.ofNat 64 a)
  let fail := fun (n : Nat) => Res.done ((s.setS o.d.toNat (BitVec.ofNat 64 n)).setK 1 false)
  D.runU s (
    if fieldOf v 31 3 ≠ 0 ∨ fieldOf v 63 48 ≠ 0 ∨ (s.super = false ∧ fieldOf v 47 32 ≠ 0) then stop 0x021 0
    else match s.reach d ((s.mgmt d 0x802).toNat + 32 * asid) with
      | .lost => stop 0x140 va
      | .waits => .wait s (.reach va)
      | .at pool =>
        let r : PoolRec := BitVec.ofNat 256 (leNat ((List.range 32).map (fun i => s.homeByte 0 (pool + i))))
        let szc := fieldOf r 43 40
        let next := fieldOf r 59 44
        let size := szcBytes szc
        if szc ≤ 11 ∧ va % size ≠ 0 then stop 0x060 va
        else if poolBad r = true ∨ fieldOf r 75 60 ≤ next then fail 1
        else match s.pageGroup d asid va szc with
          | .fault c => if c = 0x142 then .wait s (.reach va) else stop c va
          | .rc n => fail n
          | .at pas =>
            if s.super = false ∧ ¬ (recField s.fol.record 575 512 ≤ va ∧ va + size ≤ recField s.fol.record 639 576) then fail 4
            else if perm = 0 ∨ (s.super = false ∧ perm = 3) then fail 5
            else if s.releaseBlocked s.q.uid d 6 then .wait s (.flush 6)
            else
              let pa := fieldOf r 127 76 + next * size
              let kid := fieldOf r 39 34
              let e := leafOf (fieldOf r 33 32) kid asid pa szc perm
              let s1 := s.putHome 0 pool (leBytes 32 (putField r 59 44 (next + 1)).toNat)
              let s2 := if !s.super || v.getLsbD 2 then s1.zeroFrame d kid pa size else s1
              let s3 := pas.foldl (fun (t : State) p => t.putHome 0 p (leBytes 8 e.toNat)) (s2.releaseAt 6)
              .done ((s3.setS o.d.toNat (BitVec.ofNat 64 pa)).setK 1 true))

/-! ## System registers (R42, R370, R381 to R383) -/

/-- %feat (R11): the host port is taken as fitted where the part may have one. -/
def featOf : Part → DWord
  | .q960 => 0x000001E8C400003F
  | .q940 => 0x000002E8C4000018
  | .q920 => 0x000003E262000027

/-- A link or port is paused, retrains, runs at reduced width or has failed (R408). -/
def Link.degraded (l : Link) : Bool := l.state ≠ 0 || l.width ≠ 0

/-- %peerstat (R408). -/
def State.peerstat (s : State) : DWord :=
  let adm := fun (d : Nat) => (s.die d).admitted
  let ucie := s.links.any (fun l => l.port < 16 && adm l.die && (match l.peer with | some p => adm p | none => false) && l.degraded)
  let fab := s.links.any (fun l => 16 ≤ l.port && adm l.die && l.degraded)
  BitVec.ofNat 64 (s.epoch.toNat * 2 ^ 48 + popcOf 64 s.pkgs.toNat % 128 * 2 ^ 41 + (if fab then 2 ^ 9 else 0)
    + (if ucie then 2 ^ 8 else 0) + (List.range 5).foldl (fun m d => m + if adm d then 2 ^ d else 0) 0)

/-- The issuing quire may read the trap registers: a handler folio, or a curator in its vector (R370). -/
def State.inTrap (s : State) : Bool :=
  match s.fol.kind with
  | .handler _ _ => true
  | .curator _ => s.q.inFlag
  | .normal => false

/-- A system register as the issuing quire reads it (R42, R382, R383). %clusterid has 4 bits, which hold no number of a curator's
cluster (log 25). -/
def State.sysReg (s : State) (n : Nat) : DWord :=
  let x := s.fol
  let w := fun (k : Nat) => BitVec.ofNat 64 k
  let fib : Fibre := s.batch.headD { lane := 0, pc := 0, frame := 0 }
  let tr := if s.inTrap then s.q.tregs else {}
  match n with
  | 0x000 => w s.q.quireid
  | 0x001 => w x.folioid
  | 0x002 => x.vol
  | 0x003 => x.shelfid.setWidth 64
  | 0x004 => w x.core
  | 0x005 => w (x.core / 24 % 16)
  | 0x006 => w x.die
  | 0x007 => w s.pkgid
  | 0x008 => (s.die x.die).incarn.setWidth 64
  | 0x010 => fib.fflags.setWidth 64
  | 0x011 => s.q.frm.setWidth 64
  | 0x012 => s.q.ftrap.setWidth 64
  | 0x013 => s.q.mflags.setWidth 64
  | 0x014 => s.q.mprog.setWidth 64
  | 0x015 => s.q.gang.setWidth 64
  | 0x018 => w s.frm.base
  | 0x019 => w fib.depth
  | 0x01A => x.carve.setWidth 64
  | 0x020 => tr.cause
  | 0x021 => tr.epc
  | 0x022 => tr.elanes
  | 0x023 => tr.eaddr
  | 0x024 => tr.etok
  | 0x030 => featOf s.part
  | 0x031 => s.peerstat
  | 0x800 => s.q.tvec
  | _ => s.mgmtRead x.die n

/-- rdsr (R382). -/
def uniRdsr (o : SF) (s : State) : State :=
  let n := o.sysnum.toNat
  ({ usDesc o 0x33 (sysregKnown o.sysnum) [.sreg o.d.toNat] with
     priv := s.super || n < 0x800, a := .none, b := .none, skip := .sreg o.d.toNat 64 }).runU s
    (.done (s.setS o.d.toNat (s.sysReg n)))

/-- wrsr (R382, R383). -/
def uniWrsr (o : SF) (s : State) : State :=
  let n := o.sysnum.toNat
  let v := s.q.sreg o.d.toNat
  let stop := Res.stop 0x021 (laneMask s.batch) 0
  ({ usDesc o 0x33 (sysregKnown o.sysnum) [.sreg o.d.toNat] with
     priv := s.super || (n < 0x800 && !sysRO n), a := .sreg o.d.toNat, b := .none }).runU s (
    match n with
    | 0x010 => .done (s.mapFibres (fun f => if s.inBatch f then { f with fflags := v.setWidth 5 } else f))
    | 0x011 => if 6 ≤ fieldOf v 2 0 then stop else .done { s with q := { s.q with frm := v.setWidth 3 } }
    | 0x012 => .done { s with q := { s.q with ftrap := v.setWidth 5 } }
    | 0x013 => .done { s with q := { s.q with mflags := v.setWidth 3 } }
    | _ =>
      if mgmtBad n v then stop
      else if n = 0x800 then .done { s with q := { s.q with tvec := v } }
      else if n = 0x841 then
        match s.lqctl s.q.uid s.fol.die v with
        | some t => .done t
        | none => .wait s (.launch (launchTarget s.fol.die (fieldOf v 10 9) (v.getLsbD 11)))
      else .done (s.mgmtWrite s.fol.die n v))

/-! ## eret and tlbctl (R384, R385) -/

/-- eret (R384). -/
def uniEret (o : SF) (s : State) : State :=
  ({ usDesc o 0x34 o.allZero [] with a := .none, b := .none }).runU s
    (if s.q.inFlag then .jump s.returnFromTrap else .stop 0x0B0 (laneMask s.batch) 0)

/-- tlbctl (R362, R385): a release at system scope, then INVAL is posted and the batch waits for COMMIT. -/
def uniTlbctl (o : SF) (s : State) : State :=
  let g := o.a.toNat
  let v := s.q.sreg (g + 1)
  let lo := (s.q.sreg g).toNat
  let len := fieldOf v 47 0
  let m : Msg := { dom := true, type := 0, pkg := s.pkgid, die := s.fol.die, incarn := (s.die s.fol.die).incarn.toNat
                   body := .inval s.next (if o.d.getLsbD 1 then none else some (fieldOf v 63 48)) lo len (o.d.getLsbD 0) }
  ({ usDesc o 0x37 (o.d.extractLsb' 2 4 = 0 && o.b = 0) [.sgroup g 2] with b := .none }).runU s (
    if lo % 4096 ≠ 0 ∨ len % 4096 ≠ 0 then .stop 0x060 (laneMask s.batch) (BitVec.ofNat 64 lo)
    else
      s.behindRelease true 6 (fun s1 => .wait { s1 with msgs := s1.msgs ++ [m], next := s1.next + 1 } (.shootdown s.next)))

/-! ## Writes by the RV64 cores of the processor die (R383) -/

/-- The pending LQCTL writes of each die are taken in order as far as the launch queues permit. -/
def State.drainLq (s : State) : State :=
  let r := s.lqWait.foldl (fun (a : State × List (Nat × DWord × Nat)) x =>
    if a.2.any (fun y => y.1 = x.1) then (a.1, a.2 ++ [x])
    else match a.1.lqctl x.2.2 x.1 x.2.1 with
      | some t => (t, a.2)
      | none => (a.1, a.2 ++ [x])) (s, [])
  { r.1 with lqWait := r.2 }

/-- LQCTL: a write through device space; one that breaks the field map is discarded. -/
def lqctlWrite (d : Nat) (v : DWord) (s : State) : State :=
  if s.part.dies ≤ d then s else (s.deviceWrite 0 d 0x841 v).drainLq

/-- REGISTER_WRITE: a write through device space. -/
def registerWrite (d n : Nat) (v : DWord) (s : State) : State :=
  if s.part.dies ≤ d ∨ n < 0x800 ∨ sysregKnown (BitVec.ofNat 12 n) = false ∨ 0xFFF < n then s
  else (s.deviceWrite 0 d n v).drainLq

/-- RHMAP_CLEAR (R410): a die ends its redirection to an evicted die. -/
def rhmapClear (d e : Nat) (s : State) : State := s.setMgmt d 0x814 (putBit (s.mgmt d 0x814) e false)

/-! ## Held faults: recording, handler folios (R369, R373) -/

/-- FAULT_RECORD (R369): a quire or operation that waits for an entry has its fault recorded once one is free. -/
def faultRecord (who : Nat) (s : State) : State :=
  let go := fun (h : Holder) (fid : Nat) (p : Option Trap) =>
    match p with
    | some t => if (s.die (s.folio fid).die).freeEntry.isSome then s.recordFault h fid t else s
    | none => s
  match s.everyQuire.find? (fun q => q.uid = who), s.copies.find? (fun c => c.id = who), s.matops.find? (fun o => o.id = who) with
  | some q, _, _ => go (.quire who) q.fid q.pend
  | none, some c, _ => go (.copy who) c.fid c.pend
  | none, none, some o => go (.matrix who) o.fid o.pend
  | none, none, none => s

/-- The launch record of a handler folio (R373): the faulting shelf's, with the differences named there. DLO and DHI stay, because
its `pmap` checks the faulting shelf's range; its own faults go to the kernel instance by its kind. Bits 1:0 of a pc are 0 (R48), whatever
HANDLER holds there. -/
def handlerRecord (r : BitVec 2048) : BitVec 2048 :=
  let put := fun (r : BitVec 2048) (x : Nat × Nat × Nat) => putField r x.1 x.2.1 x.2.2
  [(63, 0, recField r 511 448 / 4 * 4), (70, 68, 7), (76, 72, 0), (81, 77, 31), (86, 82, 0), (91, 87, 4), (124, 96, 0x41), (191, 184, 0xFF),
   (335, 192, 0), (447, 384, 0)].foldl put r

/-- HANDLER_FOLIO_START (R313, R373): on a core of the die with room, with a bind record of its own (log 94); the record stands in
its scratchpad, its trap registers are set. -/
def handlerFolioStart (fh core qbase : Nat) (s : State) : State :=
  let d := fh / 2 ^ 32
  match (s.die d).handlers.find? (fun h => handleOf h.index h.gen = fh % 2 ^ 32) with
  | none => s
  | some h =>
    if 384 ≤ core ∨ s.coreFits d core qbase 1 0x41 = false then s
    else
      let x := s.folio h.fid
      let r := handlerRecord x.record
      let vid := s.next
      let fid := vid + 1
      let f : Folio := { fid := fid, die := d, core := core, qbase := qbase, qcnt := 1, folioid := 0, vid := vid, coll := x.coll
                         shelf := x.shelf, shelfid := x.shelfid, vol := x.vol, asid := x.asid, sup := false
                         kind := .handler h.index h.gen, record := r, carve := 0x41 }
      let q : Quire := { newQuire (vid + 2) fid 0 qbase (recEntry r) 4 32 s.clock with tregs := h.trap.regs (fh % 2 ^ 32) }
      let s1 : State := { s with
        folios := s.folios ++ [f], volumes := s.volumes ++ [{ vid := vid, members := [(0, fid)] }], rest := s.rest ++ [q]
        next := vid + 3 }
      ((s1.putBytes (scratchLoc fid 0) (h.trap.record (fh % 2 ^ 32))).modDie d (fun z => { z with
        held := z.held.map (fun y => if y.index = h.index then { y with server := some fid } else y)
        handlers := z.handlers.filter (fun y => y.index ≠ h.index)
        slots := z.slots ++ [{ coll := 0, shelf := x.shelf, volIdx := h.index, folioid := 0, qbase := qbase, qcnt := 1, core := core, vgid := 0
                               state := 1, carve := 0x41 }]
        targets := z.targets.filter (fun t => ¬ (t.1 = 0 ∧ t.2.1 = h.index)) })).acquireOn d 5 |>.startView (vid + 2)

/-! ## Curators (R373, R384) -/

/-- The quire of curator `i` of die `d`. -/
def State.curator (s : State) (d i : Nat) : Option Quire :=
  match s.folios.find? (fun x => x.die = d && x.kind = .curator i) with
  | some x => s.quires.find? (fun q => q.fid = x.fid && q.uid ≠ 0)
  | none => none

/-- The asynchronous cause that curator `i` of a die takes next: the lower code first (R384). -/
def Die.asyncCause (z : Die) (i : Nat) : Option Nat :=
  if i = 0 ∧ z.pend130 = true then some 0x130 else if z.pend131.contains i then some 0x131 else none

/-- CURATOR_TRAP_ENTRY (R384): with IN 0 a curator takes its asynchronous cause between two instructions. -/
def curatorTrapEntry (d i : Nat) (s : State) : State :=
  match s.curator d i, (s.die d).asyncCause i with
  | some q, some c =>
    (match q.inFlag, q.readyBatch with
     | false, some (pc, frame) =>
       let s1 := ({ s.focus q.uid with sel := (pc, frame) } : State).modDie d (fun z =>
         if c = 0x130 then { z with pend130 := false } else { z with pend131 := z.pend131.filter (fun k => k ≠ i) })
       s1.takeTrap { code := c, sup := true, epc := pc, elanes := laneMask s1.batch, who := s1.whoOf s1.q, pc := pc, frame := frame }
     | _, _ => s)
  | _, _ => s

/-- CURATOR_TIMER (R366): the timer of a curator raises 0x131. -/
def curatorTimer (d i : Nat) (s : State) : State :=
  s.modDie d (fun z => { z with pend131 := if z.pend131.contains i then z.pend131 else z.pend131 ++ [i] })

/-! ## Pre-emption (R386 to R391) -/

/-- The allocations that a copy writes (R390). -/
def CopyOp.targets (c : CopyOp) : List Nat :=
  match c.mask with
  | some m => (c.members.filter (fun x => m.testBit x.1)).map (fun x => x.2.1)
  | none => match windowSlot c.dst.toNat with
    | some (none, _) => [c.fid]
    | some (some k, _) => (c.members.filter (fun x => x.1 = k)).map (fun x => x.2.1)
    | none => []

/-- Inbound operations issued towards an allocation and not yet arrived (R390). -/
def State.outstanding (s : State) (fid : Nat) : Nat :=
  (s.inbound.filter (fun w => w.fid = fid)).length + (s.copies.filter (fun c => c.started && c.targets.contains fid)).length

/-- Remap entries whose operations have all arrived are free (R390). -/
def State.freeRemaps (s : State) : State :=
  { s with remaps := (s.remaps.map (fun r => { r with outst := s.outstanding r.fid })).filter (fun r => r.outst ≠ 0) }

/-- Where the record of an archived frame of a folio lies, line by line. -/
def State.archiveLines (s : State) (fid : Nat) (fr : Frame) (acc : Acc) : Except (Nat × Nat) (List Target) :=
  match fr.arch with
  | some (k, off) => s.routeLines fid ((s.folio fid).sliceAt k + off) fr.recordBytes acc
  | none => .ok []

/-- The frames of a quire with the registers of those that are archived (R389). A line of the archive that does not translate any
more gives 0 (log 20). -/
def State.wholeFrames (s : State) (q : Quire) : List Frame :=
  q.frames.map (fun fr =>
    match fr.arch, s.archiveLines q.fid fr .read with
    | some _, .ok ts => { fr with regs := fr.fromRecord (s.readLines (s.folio q.fid).die ts fr.recordBytes) }
    | _, _ => fr)

/-- The archived frames of a restored quire stand in the new slices again, at their offsets. -/
def State.replaceArchive (s : State) (uid : Nat) : State :=
  let q := s.quire uid
  let x := s.folio q.fid
  q.frames.foldl (fun (t : State) fr =>
    match fr.arch with
    | none => t
    | some _ =>
      (match t.archiveLines q.fid fr .write with
       | .error _ => t
       | .ok ts => t.writeLines x.die ts (fr.record x.encv)).modQuire uid (fun q => q.modFrame fr.id (fun y => { y with regs := [] }))) s

/-- The bind records of a volume ask for its save (R313, R315). -/
def State.saveAsked (s : State) (x : Folio) : Bool :=
  (s.die x.die).slots.any (fun b => b.state = 2 && b.isOf x)

/-- Matrix operations of a unit stop at a chunk boundary and give up their permits, members in the rendezvous latch leave it (R166), a
`pause` ends (R276), and requests for permits leave the queue (R319): step 1 and 2 of a save. -/
def State.stopUnit (s : State) (mine : Nat → Bool) : State :=
  let s1 := (s.matops.filter (fun o => mine o.fid && o.latch)).foldl (fun (t : State) o =>
    o.members.foldl (fun (t : State) m => t.modQuire m.quire (fun q => q.unblock m.trap.pc m.trap.frame)) (t.leaveLatch o)) s
  let endPause := fun (q : Quire) => if mine q.fid then (q.waits.filter (fun w => w.kind = .pause)).foldl Quire.complete q else q
  { s1 with
    matops := s1.matops.map (fun o => if mine o.fid then { o with permit := false } else o)
    q := endPause s1.q, rest := s1.rest.map endPause
    permits := s1.permits.filter (fun p => match p with
      | .matrix id => !s1.matops.any (fun o => o.id = id && mine o.fid)
      | .copy id => !s1.copies.any (fun c => c.id = id && mine c.fid)
      | .shard id => !s1.shards.any (fun x => x.id = id && mine (s1.quire x.quire).fid)) }

/-- The stores of some quires on a die cannot reach their homes now, nor can its dirty lines or `red` partials, or a record of their
archived frames cannot be read: a save waits (R299, R386). -/
def State.saveBlocked (s : State) (d : Nat) (qs : List Quire) : Bool :=
  qs.any (fun q => s.releaseBlocked q.uid d 6)
    || s.partials.any (fun p => p.die = d && s.reach d p.pa = .waits)
    || qs.any (fun q => q.frames.any (fun fr => match s.archiveLines q.fid fr .read with | .ok ts => (waitsAt ts).isSome | .error _ => false))

/-- Every store of some quires on a die reaches its home (R299). -/
def State.storesHome (s : State) (d : Nat) (qs : List Quire) : State :=
  let s1 := qs.foldl (fun (t : State) q => t.releaseFor q.uid d 6) s
  ((s1.partials.filter (fun p => p.die = d)).map (fun p => p.pa / 64)).foldl (fun (t : State) l => t.recallLine l) s1

/-- Steps 3 to 6 of a save: subscriptions are flushed and leave their tables (R255), every store reaches its home, and the images
are written. -/
def State.saveUnit (s : State) (v : Volume) (coll : Nat) : State :=
  let mine := fun (f : Nat) => v.members.any (fun m => m.2 = f)
  let d := (s.folio ((v.members.head?.map (·.2)).getD 0)).die
  let s1 := (s.subs.filter (fun y => mine y.src)).foldl (fun (t : State) y => t.flushSub y) s
  let s2 := s1.storesHome d (s1.quires.filter (fun q => q.uid ≠ 0 && mine q.fid))
  let qs := (s2.quires.filter (fun q => q.uid ≠ 0 && mine q.fid)).map (fun q => { q with frames := s2.wholeFrames q })
  let fs := s2.folios.filter (fun y => mine y.fid)
  let of := fun (y : Folio) => sortOn (·.quireid) (qs.filter (fun q => q.fid = y.fid))
  let s3 := fs.foldl (fun (t : State) y => t.writeImage v y (of y)) s2
  { s3 with
    saved := s3.saved ++ [{ folios := fs, quires := qs, volume := v, coll := coll, step7 := true, subs := s3.subs.filter (fun y => mine y.src)
                            images := fs.map (fun y => (y.fid, s2.imageBase y, s2.imageKey y))
                            wrote := fs.map (fun y => (y.fid, s2.imageHead s2.subs v y (of y), imageFrames y (of y))) }]
    subs := s3.subs.filter (fun y => !mine y.src)
    folios := s3.folios.filter (fun y => !mine y.fid)
    volumes := s3.volumes.filter (fun w => w.vid ≠ v.vid)
    rest := s3.rest.filter (fun q => !mine q.fid)
    q := if s3.q.uid ≠ 0 ∧ mine s3.q.fid = true then {} else s3.q }

/-- What has been written to a scratchpad while its save waited at step 7, with no remapping, is in the image, too, and its poison
(R390). -/
def State.lateScratch (s : State) (v : Saved) (x : Folio) : State :=
  match v.images.find? (fun i => i.1 = x.fid) with
  | some i =>
    let pa := i.2.1 + x.scratchSection
    (s.putChanged i.2.2 pa (s.imageBytes i.2.2 pa x.scratchBytes) (s.bytesAt (scratchLoc x.fid 0) x.scratchBytes)).movePoison
      (scratchLoc x.fid 0) pa x.scratchBytes
  | none => s

/-- Steps 7 and 8 of a save, once each core has a remap entry (R390): the entries are set and the cores are free. -/
def State.endSave (s : State) (v : Saved) : State :=
  let full := v.folios.any (fun f => 8 ≤ (s.remaps.filter (fun r => r.die = f.die && r.core = f.core)).length)
  if full then s
  else
    let x := v.folios.headD noFolio
    let s0 := v.folios.foldl (fun (t : State) y => t.lateScratch v y) s
    let t : State := { s0 with saved := s0.saved.map (fun w => if w.volume.vid = v.volume.vid then { w with step7 := false } else w) }
    let s1 : State := { t with
      remaps := t.remaps ++ v.folios.map (fun y => { die := y.die, core := y.core, fid := y.fid, len := y.scratchBytes
                                                     base := ((t.imageScratch y.fid).map (·.1)).getD 0, outst := s.outstanding y.fid }) }
    ((v.folios.foldl State.dropBind s1).modColl x.coll
      (fun c => c.modShelf x.shelf (fun y => { y with vols := Sparse.set .waiting (volIndex x.record x.vol) .saved y.vols }))).freeRemaps

/-- PREEMPT_SAVE (R386, R390): the whole volume stops and its images are written; while a core's 8 remap entries are in use the save waits
behind that, at step 7, with its cores still held. -/
def preemptSave (fid : Nat) (s : State) : State :=
  let x := s.folio fid
  let v := s.volume x.vid
  let end7 := fun (t : State) =>
    match t.saved.find? (fun w => w.step7 && w.folios.any (fun y => y.fid = fid)) with
    | some w => t.endSave w
    | none => t
  if s.isSaved fid then end7 s
  else
    let s1 := s.stopUnit (fun f => v.members.any (fun m => m.2 = f))
    if !s.folios.any (fun y => y.fid = fid) || x.kind ≠ .normal || !s.saveAsked x
        || s.saveBlocked x.die (s.quires.filter (fun q => q.uid ≠ 0 && v.members.any (fun m => m.2 = q.fid))) then s
    else end7 (s1.saveUnit (s1.volume x.vid) x.coll)

/-! ## CARVE_APPLY (R275) -/

/-- Writes that reach beyond a limit of a scratchpad are still on their way. -/
def State.writesBeyond (s : State) (fid limit : Nat) : Bool :=
  s.inbound.any (fun w => w.fid = fid && limit < w.off + w.bytes.length)
    || s.copies.any (fun c => c.started && c.held.isNone && c.pend.isNone && c.targets.contains fid &&
        extentOut (c.dst.toNat % 0x80000) c.dpitch c.rowBytes c.rows limit)

/-- A descriptor or ring area of a live queue that the folio owns reaches beyond a limit: every valid descriptor in its
scratchpad. -/
def State.queueBeyond (s : State) (fid limit : Nat) : Bool :=
  s.mem.any (fun c =>
    let off := c.1 - scratchLoc fid 15
    scratchLoc fid 15 ≤ c.1 && off < 0x80000 && off % 32 = 0 && c.2 = 0x51 &&
      (let q := s.qdesc fid off
       s.qValid fid fid off q && (limit < off + 32 || limit < fieldOf q 82 64 + 9 * qSize q)))

/-- The new split takes effect (R275). -/
def State.carveOk (s : State) (x : Folio) (v : DWord) : Bool :=
  let frame := fieldOf v 5 0
  let limit := fieldOf v 11 6 * 16384
  fieldOf v 11 6 ≤ 32
    && s.granules x.die x.core - carveSum x.carve + (frame + fieldOf v 11 6 + fieldOf v 17 12 + fieldOf x.carve 23 18) ≤ 60
    && (s.takenRuns x.fid).all (fun r => r.1 + r.2 ≤ frame * 16)
    && !s.subs.any (fun y => (y.src = x.fid && limit < y.soff + y.len) || (y.dst = x.fid && limit < y.doff + y.len))
    && !s.queueBeyond x.fid limit

/-- A scratchpad has shrunk (R275): its bytes beyond the limit are lost with all that they were, and operations posted before keep
only the rest of the allocation's generation. -/
def State.shrink (s : State) (fid limit : Nat) : State :=
  let lost := fun (a : Nat) => scratchLoc fid limit ≤ a && a < scratchLoc fid 0x80000
  { s with
    mem := s.mem.filter (fun c => !lost c.1), hist := s.hist.filter (fun x => !lost x.1)
    tiles := s.tiles.map (fun t => if t.fid = fid then { t with cut := min t.cut limit } else t)
    copies := s.copies.map (fun c => if c.members.any (fun m => m.2.1 = fid) ∨ c.fid = fid then { c with cuts := (fid, limit) :: c.cuts } else c) }

/-- CARVE_APPLY (R275): the request of a folio barrier whose party has arrived is applied, and the barrier completes. -/
def carveApply (fid : Nat) (s : State) : State :=
  let x := s.folio fid
  let b : BarId := ⟨false, none⟩
  match x.carveRq with
  | none => s
  | some (v, uid) =>
    let limit := fieldOf v 11 6 * 16384
    if !s.folios.any (fun y => y.fid = fid) || !s.allArrived fid b || s.writesBeyond fid limit then s
    else
      let ok := s.carveOk x v
      let s1 := (s.modFolio fid (fun y => { y with
        carveRq := none, carve := if ok then putField y.carve 17 0 (fieldOf v 17 0) else y.carve })).modQuire uid (fun q => q.setK 1 ok)
      (if ok && limit < x.scratchBytes then s1.shrink fid limit else s1).completeBar fid b

/-! ## Restore (R391) -/

/-- The folios of a unit have new names, which are their allocations' generations (R211, R391; log 3): wherever a name stands for one of
them. -/
def State.renameFolios (s : State) (f : Nat → Nat) : State :=
  let loc := fun (a : Nat) => if a < 2 ^ 52 then a else scratchLoc (f ((a - 2 ^ 52) / 2 ^ 19)) (a % 2 ^ 19)
  let held := fun (h : HeldFault) => { h with fid := f h.fid }
  { s with
    copies := s.copies.map (fun c => { c with fid := f c.fid, members := c.members.map (fun m => (m.1, f m.2.1, m.2.2)) })
    tiles := s.tiles.map (fun t => { t with fid := f t.fid })
    matops := s.matops.map (fun o => { o with fid := f o.fid })
    bad := s.bad.map (fun b => match b with | .scratch x o => .scratch (f x) o | b => b)
    rest := s.rest.map (fun q => { q with waits := q.waits.map (fun w => match w.kind with
      | .queue l p r h => { w with kind := .queue (loc l) p r h}
      | _ => w) })
    dies := s.dies.map (fun z => { z with held := z.held.map held, trapQ := z.trapQ.map held, handlers := z.handlers.map held }) }

/-- A barrier under new names. -/
def Barrier.rename (b : Barrier) (f : Nat → Nat) : Barrier := { b with arrived := b.arrived.map f }

/-- Where the folios of a saved unit go: the named folio as asked, the others on the lowest free cores of the cluster. -/
def State.restorePlaces (s : State) (v : Saved) (fid d core qbase : Nat) : Option (List (Nat × Nat × Nat)) :=
  v.folios.foldl (fun acc y =>
    match acc with
    | none => none
    | some ps =>
      if y.fid = fid then (if s.coreFits d core qbase y.qcnt y.carve then some (ps ++ [(fid, core, qbase)]) else none)
      else
        match (List.range 24).findSome? (fun i =>
          let c := core / 24 * 24 + i
          if c = core || ps.any (fun p => p.2.1 = c) then none else (s.fitBase d c y.qcnt y.carve).map (fun b => (c, b))) with
        | some (c, b) => some (ps ++ [(y.fid, c, b)])
        | none => none) (some [])

/-- A saved unit may be restored on a die now: its remap entries are free, and on its collection's die it is the first unit in order
that can bind; on any die no unit before it waits for that cluster (R315, R391). -/
def State.mayRestore (s : State) (v : Saved) (d core : Nat) : Bool :=
  let x := v.folios.headD noFolio
  !v.step7 && !s.remaps.any (fun r => v.folios.any (fun y => y.fid = r.fid)) && (s.die d).admitted && d < s.part.dies && core < 384
    && (match s.colls.find? (fun c => c.uid = v.coll) with
        | some c =>
          let u : UnitId := ⟨v.coll, x.shelf, volIndex x.record x.vol⟩
          !(s.closed d c u).contains (core / 24) && (c.die ≠ d || (s.nextUnit d).map (·.2) = some u)
        | none => true)

/-- The scratchpad of a restored folio takes the bytes of its image, and their poison. -/
def State.readScratch (s : State) (x : Folio) (pa kid : Nat) : State :=
  ((s.putBytes (scratchLoc x.fid 0) (s.imageBytes kid pa x.scratchBytes)).movePoison pa (scratchLoc x.fid 0) x.scratchBytes)

/-- The unit is resident again under new names, with what its images hold (R391). `ps` says where each folio goes. Its
subscription entries keep their numbers (R255; log 120). -/
def State.restoreAt (s : State) (v : Saved) (d : Nat) (ps : List (Nat × Nat × Nat)) : State :=
  let n := s.next
  let f := fun (x : Nat) => match v.folios.findIdx? (fun y => y.fid = x) with | some i => n + i | none => x
  let at_ := fun (x : Nat) => ((ps.find? (fun p => p.1 = x)).map (·.2)).getD (0, 0)
  let img := fun (x : Nat) => ((v.images.find? (fun i => i.1 = x)).map (·.2)).getD (0, 0)
  let fs := v.folios.map (fun y => { y with
    fid := f y.fid, die := d, core := (at_ y.fid).1, qbase := (at_ y.fid).2 })
  let qs := v.folios.flatMap (fun y =>
    (s.readImage y (sortOn (·.quireid) (v.quires.filter (fun q => q.fid = y.fid))) (img y.fid).1 (img y.fid).2).map (fun q =>
      { q with fid := f y.fid, slot := (at_ y.fid).2 + q.quireid, stamp := s.clock }))
  let mine := fun (x : Nat) => v.folios.any (fun y => y.fid = x)
  let asks := (s.matops.filter (fun o => mine o.fid && !o.latch && o.held.isNone && o.pend.isNone)).map (fun o => Heavy.matrix o.id)
    ++ (s.copies.filter (fun c => mine c.fid && !c.permit && c.held.isNone && c.pend.isNone)).map (fun c => Heavy.copy c.id)
    ++ (s.shards.filter (fun x => !x.permit && v.quires.any (fun q => q.uid = x.quire))).map (fun x => Heavy.shard x.id)
  let vol := { v.volume with members := v.volume.members.map (fun m => (m.1, f m.2)), bar := v.volume.bar.rename f
                             splits := v.volume.splits.map (fun b => (b.1, b.2.rename f)), exited := v.volume.exited.map f }
  let s1 : State := { s with
    saved := s.saved.filter (fun w => w.volume.vid ≠ v.volume.vid)
    folios := s.folios ++ fs, volumes := s.volumes ++ [vol], rest := s.rest ++ qs
    subs := s.subs ++ v.subs.map (fun y => { y with src := f y.src, dst := f y.dst })
    tiles := s.tiles.map (fun t => if mine t.fid then { t with die := d } else t)
    permits := s.permits ++ asks, next := n + v.folios.length
    mem := s.mem.filter (fun c => !(2 ^ 52 ≤ c.1 && mine ((c.1 - 2 ^ 52) / 2 ^ 19))) }
  v.folios.foldl (fun (t : State) y =>
    t.readScratch { y with fid := f y.fid } ((img y.fid).1 + y.scratchSection) (img y.fid).2) (s1.renameFolios f)

/-- RESTORE (R391): a saved unit becomes resident again on a core of an admitted die (`core` counts 512 for each die) in its old
place of the bind order; its waits for permits are asked anew, an acquire comes first, and barriers whose parties have arrived
meanwhile complete (R266). -/
def restoreUnit (fid dcore qbase : Nat) (s : State) : State :=
  let d := dcore / 512
  match s.saved.find? (fun v => v.folios.any (fun y => y.fid = fid)) with
  | none => s
  | some v =>
    match if s.mayRestore v d (dcore % 512) then s.restorePlaces v fid d (dcore % 512) qbase else none with
    | none => s
    | some ps =>
      let x := v.folios.headD noFolio
      let idx := volIndex x.record x.vol
      match s.newVgid d x.coll x.shelf with
      | none => s
      | some vg =>
        let s1 := s.restoreAt v d ps
        let fs := s1.folios.filter (fun y => s.next ≤ y.fid)
        let qs := (s1.quires.filter (fun q => fs.any (fun y => y.fid = q.fid) && q.uid ≠ 0)).map (·.uid)
        let recs := fs.map (fun y => ({ coll := y.coll, shelf := y.shelf, volIdx := idx, folioid := y.folioid, qbase := y.qbase
                                        qcnt := y.qcnt, core := y.core, vgid := vg, state := 1, carve := y.carve } : Bind))
        let s2 := (s1.modDie d (fun z => { z with slots := z.slots ++ recs
                                                  targets := z.targets.filter (fun t => ¬ (t.1 = x.coll ∧ t.2.1 = x.shelf ∧ t.2.2.1 = idx)) })).modColl
          x.coll (fun c => c.modShelf x.shelf (fun y => { y with vols := Sparse.set .waiting idx .resident y.vols }))
        let s3 := qs.foldl (fun (t : State) u => (t.replaceArchive u).startView u) (s2.acquireOn d 6)
        (fs.foldl (fun (t : State) y => t.tryComplete y.fid allBars) s3).reap

/-! ## The meanings, one for each instruction -/

/-- SYS_US (R376). -/
def execSysUS (o : SF) (s : State) : Host.Outcome State Fault Refusal := .next (uniSys 0x120 o s)
/-- TRAP_US (R376). -/
def execTrapUS (o : SF) (s : State) : Host.Outcome State Fault Refusal := .next (uniSys 0x0A0 o s)
/-- FRESUME_US (R377). -/
def execFresumeUS (o : SF) (s : State) : Host.Outcome State Fault Refusal := .next (uniFresume o s)
/-- FKILL_US (R378). -/
def execFkillUS (o : SF) (s : State) : Host.Outcome State Fault Refusal := .next (uniFkill o s)
/-- PMAP_US (R380). -/
def execPmapUS (o : SF) (s : State) : Host.Outcome State Fault Refusal := .next (uniPmap o s)
/-- RDSR_US (R382). -/
def execRdsrUS (o : SF) (s : State) : Host.Outcome State Fault Refusal := .next (uniRdsr o s)
/-- WRSR_US (R382). -/
def execWrsrUS (o : SF) (s : State) : Host.Outcome State Fault Refusal := .next (uniWrsr o s)
/-- ERET_US (R384). -/
def execEretUS (o : SF) (s : State) : Host.Outcome State Fault Refusal := .next (uniEret o s)
/-- TLBCTL_US (R385). -/
def execTlbctlUS (o : SF) (s : State) : Host.Outcome State Fault Refusal := .next (uniTlbctl o s)

end Sys2Proof.Machine
end

