-- ==== Sys2Proof/Machine/Recovery.lean ====
section
/-! DEFINITION. The circulation channel, shoot-downs, eviction and re-homing, checkpoints and links (spec 21, R362, R401 to R440),
and the bring-up, power and cooling of the package (R15 to R19). -/

namespace Sys2Proof.Machine

/-! ## The channel (R402, R403) -/

/-- The 16-byte header of a message as a number (R403). -/
def Msg.header (m : Msg) : Nat :=
  m.seq.toNat * 2 ^ 64 + m.incarn % 2 ^ 32 * 2 ^ 32 + m.type % 256 * 2 ^ 24 + (if m.dom then 2 ^ 23 else 0)
    + m.die % 8 * 2 ^ 14 + m.pkg % 64 * 2 ^ 8
/-- The 64 bytes of a message. -/
def Msg.bytes (m : Msg) : List Byte := leBytes 16 m.header ++ (m.payload ++ List.replicate 48 0).take 48

/-- A payload whose layout the spec does not state: free bytes. -/
def State.freePayload (s : State) : List Byte := (List.range 48).map (fun i => (Config.freeWord s.tick i).setWidth 8)

/-- A message of a die of this package. -/
def State.message (s : State) (die : Nat) (dom : Bool) (type : Nat) (payload : List Byte) (body : MsgBody) : Msg :=
  { dom := dom, type := type, pkg := s.pkgid, die := die, incarn := (s.die die).incarn.toNat, payload := payload, body := body }

/-- The lowest-numbered admitted package, whose sequencer die sequences the domain (R402). -/
def State.leadPkg (s : State) : Nat := ctzOf 64 s.pkgs.toNat
/-- The die whose links an instance uses: on a Q940 that of die 4 runs on die 0 (R401). -/
def State.seat (s : State) (d : Nat) : Nat := if s.part = .q940 ∧ d = 4 then 0 else d
/-- A die reaches another over a link that works, or through a third die that runs (R404, R405). -/
def State.reachesDie (s : State) (d e : Nat) : Bool :=
  let ok := fun (x y : Nat) => x = y || !s.linkHolds x y
  ok d e || (List.range 5).any (fun x => (s.die x).admitted && !(s.die x).failed && ok d x && ok x e)
/-- The die of this package that numbers a message: the sequencer; an EVICT of a die, one that runs and is not the one it names (log 96). -/
def State.numbering (s : State) (body : MsgBody) : Option Nat :=
  match body with
  | .evict target _ => (List.range s.part.dies).find? (fun d => s.live d && d ≠ target)
  | _ => s.sequencer.filter s.live
/-- The package whose sequencer die numbers a domain message: the lowest admitted; an EVICT of a package, one that runs and is not the one
it names (log 96). -/
def State.numberingPkg (s : State) (body : MsgBody) : Nat :=
  match body with
  | .evict target _ =>
    ((List.range 64).find? (fun p => s.pkgs.getLsbD p && !s.deadPkgs.getLsbD p && target ≠ 64 + p)).getD s.pkgid
  | _ => s.leadPkg
/-- The sequencer of a scope can be reached from a die (R404). -/
def State.sequencerUp (s : State) (dom : Bool) (d : Nat) (body : MsgBody) : Bool :=
  (match s.numbering body with | some q => s.reachesDie (s.seat d) q | none => false)
    && (!dom || s.numberingPkg body = s.pkgid || (s.fabricUp && !s.deadPkgs.getLsbD (s.numberingPkg body)))

/-- No receive queue of an admitted instance is full (R404). -/
def State.queuesOpen (s : State) : Bool := s.dies.all (fun z => !z.admitted || z.recv.length < 256)

/-- No earlier message of the same sender waits in the same scope (R402). -/
def State.headOfSender (s : State) (idx : Nat) (m : Msg) : Bool :=
  (s.msgs.take idx).all (fun x => x.die ≠ m.die || x.dom ≠ m.dom)
/-- The sequencer drops a message whose sender is evicted or has an earlier incarnation (R402). -/
def State.msgStale (s : State) (m : Msg) : Bool := !(s.die m.die).admitted || m.incarn < (s.die m.die).incarn.toNat

/-- Take the next sequence number of a scope. The state holds the last number given (log 24: the first is 1). -/
def State.number (s : State) (dom : Bool) : DWord × State :=
  if dom then (s.domSeq + 1, { s with domSeq := s.domSeq + 1 }) else (s.pkgSeq + 1, { s with pkgSeq := s.pkgSeq + 1 })
/-- The RV64 cores of the processor die, whose instance has a queue of its own, may take its oldest message at any time (R401, R404;
log 97). -/
def State.rv64Receive (s : State) : State :=
  if s.part ≠ .q940 ∧ (s.die 4).recv ≠ [] ∧ s.live 4 = true ∧ s.choose 7300 2 = 1 then s.modDie 4 (fun z => { z with recv := z.recv.tail }) else s
/-- Every admitted instance receives a message. -/
def State.deliver (s : State) (m : Msg) : State :=
  { s with dies := s.dies.map (fun z => if z.admitted then { z with recv := z.recv ++ [m] } else z) }

/-- The batch that sent a message goes on with its number (R404). -/
def State.sent (s : State) (m : Msg) : State :=
  match m.sender with
  | none => s
  | some (uid, pc, frame, reg) => s.modQuire uid (fun q =>
      match q.waits.find? (fun w => w.pc = pc && w.frame = frame && w.kind = .msend) with
      | some w => (q.setS reg m.seq).complete w
      | none => q)

/-! ## Shoot-downs (R362) -/

/-- The number that stands for the initiator of a shoot-down that has been evicted: its dies still take the steps, and no COMMIT
follows (R362). -/
def noDie : Nat := 65

/-- The batch that waits for a shoot-down goes on, with an acquire at system scope; COMMIT takes a number of the domain. -/
def State.commitShoot (s : State) (x : Shoot) : State :=
  let waits := (s.quires ++ s.saved.flatMap (·.quires)).filter (fun q => q.waits.any (fun w => w.kind = .shootdown x.id))
  let s1 := waits.foldl (fun (t : State) q => t.sync q.uid)
    (({ s with shoots := s.shoots.filter (fun y => y.id ≠ x.id) } : State).acquireOn x.die 6)
  let free := fun (q : Quire) => (q.waits.filter (fun w => w.kind = .shootdown x.id)).foldl Quire.complete q
  let s2 : State := { s1 with q := free s1.q, rest := s1.rest.map free
                              saved := s1.saved.map (fun v => { v with quires := v.quires.map free }) }
  if x.die = noDie then s2 else (s2.number true).2
/-- Every shoot-down whose dies have all acknowledged commits. -/
def State.commitShoots (s : State) : State :=
  (s.shoots.filter (fun x => x.todo = [] && x.acks = [])).foldl (fun (t : State) x => t.commitShoot x) s

/-- INVAL is numbered: every admitted die of the package owes an ACK (R362). -/
def State.startShoot (s : State) (n : DWord) (m : Msg) (id : Nat) (asid : Option Nat) (lo len : Nat) (wb : Bool) : State :=
  ({ s with shoots := s.shoots ++ [{
      id := id, seq := n.toNat, die := m.die, asid := asid, lo := lo, len := len, wb := wb
      todo := (List.range 5).filter (fun d => (s.die d).admitted), acks := [] }] } : State).commitShoots

/-- n bytes at an address of a space lie in the range of a shoot-down; length 0 is the whole space (R385). -/
def Shoot.covers (x : Shoot) (asid va n : Nat) : Bool :=
  (match x.asid with | some a => asid = a | none => true) && (x.len = 0 || (va < x.lo + x.len && x.lo < va + n))

/-- A store that was translated within the range of a shoot-down. -/
def Shoot.hits (x : Shoot) (w : Store) : Bool :=
  match w.dest with | .mem a _ => x.covers a.asid a.va w.bytes.length | .scratch _ _ => false

/-- The copies of a die that a shoot-down with WB writes back and drops: those it holds through an address of the range, and those of the
pages of the entries it drops. -/
def Shoot.copies (x : Shoot) (z : Die) : List Copy :=
  z.copies.filter (fun c => c.vas.any (fun v => x.covers v.1 v.2 64) || z.tlb.any (fun t =>
    let base := pteBase t.entry
    base ≤ c.line * 64 && c.line * 64 < base + t.size && x.covers t.asid (t.va + (c.line * 64 - base)) 64))

/-- A die cannot take the steps of a shoot-down yet: a store under a matching entry, or with WB a line of the range or a partial, has a home
that cannot be reached now. -/
def State.shootBlocked (s : State) (d : Nat) (x : Shoot) : Bool :=
  s.stores.any (fun w => w.die = d && x.hits w && s.storeBlocked w)
    || (x.wb && ((x.copies (s.die d)).any (s.lineBlocked d) || s.partials.any (fun p => p.die = d && s.reach d p.pa = .waits)))

/-- The lines of a range leave a die (R362): its partials, whose virtual addresses are not kept, all go home, and the copies are written
back and dropped. -/
def State.shootLines (s : State) (d : Nat) (x : Shoot) : State :=
  let s1 := (s.partials.filter (fun p => p.die = d)).foldl (fun (t : State) p =>
    (t.evictPartial d p.core (p.pa / 64)).evictPartial d partialDie (p.pa / 64)) s
  ((x.copies (s.die d)).map (·.line)).foldl (fun (t : State) l => t.writeBack d l true) s1

/-- INVAL (R362): a die, in channel order, drops the matching entries, lets what was translated under them complete, writes back
what WB asks for, and its ACK is on its way. The entries go last here, since they name lines of the range. -/
def invalAt (d seq : Nat) (s : State) : State :=
  match s.shoots.find? (fun x => x.seq = seq) with
  | none => s
  | some x =>
    if !x.todo.contains d || (s.die d).failed || s.shoots.any (fun y => y.seq < seq && y.todo.contains d) || s.shootBlocked d x then s
    else
      let s0 := s.performStores (fun w => w.die = d && x.hits w)
      let s1 := if x.wb then s0.shootLines d x else s0
      let s2 := s1.modDie d (fun z => { z with tlb := z.tlb.filter (fun t => !x.covers t.asid t.va t.size) })
      { s2 with shoots := s2.shoots.map (fun y =>
          if y.id = x.id then { y with todo := y.todo.filter (fun k => k ≠ d), acks := y.acks ++ [d] } else y) }

/-- ACK (R362): the initiator receives a die's acknowledgement; with the last one it commits. -/
def ackAt (d seq : Nat) (s : State) : State :=
  ({ s with shoots := s.shoots.map (fun y =>
      if y.seq = seq then { y with acks := y.acks.filter (fun k => k ≠ d) } else y) } : State).commitShoots

/-! ## Work on a lost die (R412, R440) -/

/-- IDEM of a launch record (R307). -/
def recIdem (r : BitVec 2048) : Bool := r.getLsbD 71

/-- A shelf's bitmap was homed on die `d` outside its replicated range (R412). The translation is the one that stands at the
eviction. -/
def State.bitmapLost (s : State) (d : Nat) (c : Coll) (r : BitVec 2048) : Bool :=
  let t := s.modDie d (fun z => { z with failed := false })
  recCbmap r ≠ 0 &&
    match t.translate c.die c.asid true (recCbmap r) .read with
    | .ok x => paPkg x.pa = s.pkgid && paDie x.pa = d && !(paOff x.pa < s.rlen d && (s.die (replicaDie s.part d)).admitted)
    | .error _ => false

/-- The units bound on a die, resident, saved or not yet started (R412); a volume whose folios have all ended is not lost. -/
def State.lostUnits (s : State) (d : Nat) : List UnitId :=
  let fs := s.everyFolio.filter (fun (x : Folio) => x.die = d && x.kind = .normal)
  ((fs.filter (fun x => fs.any (fun y => y.vid = x.vid && !y.ended))).map
      (fun (x : Folio) => (⟨x.coll, x.shelf, volIndex x.record x.vol⟩ : UnitId))
    ++ (((s.die d).slots.filter (fun (b : Bind) => !fs.any (fun x => x.coll = b.coll && x.shelf = b.shelf && volIndex x.record x.vol = b.volIdx))).map
        (fun (b : Bind) => (⟨b.coll, b.shelf, b.volIdx⟩ : UnitId)))).eraseDups

/-- The members of a unit, by %folioid, that have already ended. -/
def State.endedMembers (s : State) (u : UnitId) : List Nat :=
  (s.everyFolio.filter (fun x => x.coll = u.coll && x.shelf = u.shelf && x.kind = .normal && volIndex x.record x.vol = u.vol && x.ended)).map
    (·.folioid)

/-- A position of a shelf of a collection. -/
abbrev ShelfPos := Nat × (Nat × Nat × Nat)

/-- The positions of the members of a unit that have not ended. -/
def State.openPositions (s : State) (c : Coll) (u : UnitId) : List ShelfPos :=
  let r := c.unitRec u
  ((List.range (recFpv r)).filter (fun m => !(s.endedMembers u).contains m)).map (fun m => (u.shelf, folioPos r (volCoord r u.vol) m))

/-- The lowest-numbered admitted compute die. -/
def State.heir (s : State) : Option Nat := s.sequencer

/-- A lost unit is queued again on die `e`, ahead of its collection, or dropped with status unit lost (R412). A volume runs again as
a whole. -/
def State.loseUnit (s : State) (e : Nat) (again : Bool) (u : UnitId) (c : Coll) : Coll :=
  let r := c.unitRec u
  let n := (s.endedMembers u).length
  let c1 := c.modShelf u.shelf (fun x => { x with
    vols := Sparse.set .waiting u.vol (if again then .requeued e else .dropped) x.vols
    done := if again then x.done - n else x.done + (recFpv r - n) })
  if again then c1 else { c1 with status := statusMax c1.status 3 }

/-- Unbound units that depend on bits that will never be set, or whose own bitmap is lost, are dropped, shelf by shelf (R412,
R440). `dead` holds the positions whose folios ended without their bits; die `e` reads the bits. -/
def State.cascade (s : State) (e : Nat) (gone : List Nat) (dead : List ShelfPos) (c : Coll) : Coll :=
  ((List.range c.shelves.length).foldl (fun (acc : Coll × List ShelfPos) j =>
    match acc.1.shelves[j]? with
    | none => acc
    | some x =>
      let r := x.record
      let p := recField r 191 184
      let pr := (acc.1.shelves.getD p { record := 0 }).record
      let n := recDims r
      (List.range (n.1 * n.2.1 * n.2.2)).foldl (fun (a : Coll × List ShelfPos) v =>
        let st := Sparse.get .waiting v x.vols
        let mem := (List.range (recFpv r)).map (fun m => folioPos r (volCoord r v) m)
        let hit := p ≠ 0xFF && mem.any (fun q => (depPositions pr r q).any (fun y =>
          gone.contains p || (a.2.contains (p, y) && !s.bitSet e c.asid (recCbmap pr) (bitIndex pr y))))
        if (st = .waiting ∨ (match st with | .requeued _ => true | _ => false) = true) ∧ (gone.contains j = true ∨ hit = true) then
          ({ a.1.modShelf j (fun y => { y with vols := Sparse.set .waiting v .dropped y.vols, done := y.done + recFpv r }) with
             status := statusMax a.1.status 3 }, a.2 ++ mem.map (fun q => (j, q)))
        else a) acc) (c, dead)).1

/-- Units that wait on a lost die to be bound again wait on another one. -/
def Coll.moveRequeued (c : Coll) (d e : Nat) : Coll :=
  { c with shelves := c.shelves.map (fun x => { x with
      vols := x.vols.map (fun v => (v.1, if v.2 = .requeued d then .requeued e else v.2)) }) }

/-- What becomes of one collection when die `d` is evicted: its lost units, which are queued again on the lowest-numbered surviving
compute die, then what depends on them. `s0` is the state before the eviction, `s` the state in which die `e` reads bits. -/
def State.recoverColl (s0 s : State) (d e : Nat) (c : Coll) : Coll :=
  let gone := (List.range c.shelves.length).filter (fun i => s0.bitmapLost d c (c.shelves.getD i { record := 0 }).record)
  let lost := (s0.lostUnits d).filter (fun u => u.coll = c.uid)
  let again := fun (u : UnitId) => recIdem (c.unitRec u) && !gone.contains u.shelf
  let dead := (lost.filter (fun u => !again u)).flatMap (fun u => s0.openPositions c u)
  let h := s.heir.getD e
  (if gone = [] ∧ lost = [] then c
   else s.cascade e gone dead (lost.foldl (fun c u => s0.loseUnit h (again u) u c) c)).moveRequeued d h

/-- The launch queue of an evicted die moves to the lowest-numbered surviving compute die (R440); with none left its collections are
lost. -/
def State.moveQueue (s : State) (d : Nat) : State :=
  match s.heir with
  | none => (s.queueOf d).foldl (fun (t : State) c =>
      let t1 : State := { t with colls := t.colls.filter (fun y => y.uid ≠ c.uid) }
      match c.token with | some (uid, k) => t1.finishTok uid k 3 none | none => t1) s
  | some e => (s.queueOf d).foldl (fun (t : State) c =>
      let q := ((List.range 64).find? (fun i => !(t.queueOf e).any (fun y => y.qent = i))).getD 0
      t.modColl c.uid (fun y => { y with die := e, qent := q })) s

/-- The agents of a die are gone: its folios and quires, resident and saved, their engine operations, tiles and writes (R401). -/
def State.dropDie (s : State) (d : Nat) : State :=
  let fids := (s.everyFolio.filter (fun x => x.die = d)).map (·.fid)
  let mine := fun (f : Nat) => fids.contains f
  let uids := (s.everyQuire.filter (fun q => mine q.fid)).map (·.uid)
  let copies := s.copies.filter (fun c => !mine c.fid)
  let matops := s.matops.filter (fun o => !mine o.fid)
  let shards := s.shards.filter (fun x => x.die ≠ d)
  { s with
    folios := s.folios.filter (fun x => !mine x.fid)
    volumes := s.volumes.filter (fun v => !v.members.any (fun m => mine m.2))
    saved := s.saved.filter (fun v => !v.folios.any (fun x => mine x.fid))
    remaps := s.remaps.filter (fun r => r.die ≠ d)
    rest := s.rest.filter (fun q => !uids.contains q.uid)
    q := if s.q.uid ≠ 0 ∧ uids.contains s.q.uid = true then {} else s.q
    copies := copies, matops := matops, shards := shards
    permits := s.permits.filter (fun p => match p with
      | .copy id => copies.any (fun c => c.id = id)
      | .matrix id => matops.any (fun o => o.id = id)
      | .shard id => shards.any (fun x => x.id = id))
    tiles := s.tiles.filter (fun t => !mine t.fid)
    stores := s.stores.filter (fun w => w.die ≠ d), views := s.views.filter (fun v => !uids.contains v.1)
    inbound := s.inbound.filter (fun w => !mine w.fid && !uids.contains w.from_)
    subs := s.subs.filter (fun x => !mine x.src && !mine x.dst)
    lqWait := s.lqWait.filter (fun x => x.1 ≠ d)
    colls := s.colls.map (fun c => if c.lq = some d then { c with lq := none } else c) }

/-! ## Checkpoints: failure (R416) -/

/-- The issuer of `ckcommit` on a die gets its result, and the generation is closed there (R415, R416). -/
def State.endCommit (s : State) (d : Nat) (code : Nat) : State :=
  match (s.die d).ckpt with
  | some { commit := some (uid, reg), .. } =>
    (s.modDie d (fun z => { z with ckpt := none })).modQuire uid (fun q =>
      match q.waits.find? (fun w => w.kind = .ckcommit) with
      | some w => ((if code = 0 then q else q.setK 1 false).setS reg (BitVec.ofNat 64 code)).complete w
      | none => q)
  | _ => s

/-- The loss of a die fails every generation that counts on it; issuers that wait get code 1 (R416). -/
def State.failCkpts (s : State) (d : Nat) : State :=
  (List.range 4).foldl (fun (t : State) e =>
    match (t.die e).ckpt with
    | some k =>
      if k.dies.contains d then
        let t1 := t.modDie e (fun z => { z with ckpt := some { k with fail := some 1 } })
        if k.commit.isSome then t1.endCommit e 1 else t1
      else t
    | none => t) s

/-! ## Eviction (R405 to R412) -/

/-- The lines that survivors hold of an evicted die's memory: clean copies and dirty ones outside the replicated range go, dirty
ones in it reach the replica, over whatever path still works; `red` partials follow the redirection or are lost (R409 step 3). -/
def State.rehomeLines (s : State) (d : Nat) (rr : Option (Nat × Nat)) : State :=
  let lost := fun (pa : Nat) => paPkg pa = s.pkgid && paDie pa = d
  let r := replicaDie s.part d
  let s1 := (List.range 5).foldl (fun (t : State) e =>
    let cs := (t.die e).copies.filter (fun c => lost (c.line * 64))
    (cs.foldl (fun (t : State) c =>
      match rr with
      | some (rb, rl) => if paOff (c.line * 64) < rl then t.mergeLine e c (s.replicaAt r rb (paOff (c.line * 64))) else t
      | none => t) t).dropCopies e (fun c => lost (c.line * 64))) s
  { s1 with partials := (s1.partials.filter (fun p => p.die ≠ d)).filterMap (fun p =>
      if lost p.pa then
        match rr with
        | some (rb, rl) =>
          if paOff p.pa < rl then some { p with pa := s.replicaAt (replicaDie s.part d) rb (paOff p.pa) } else none
        | none => none
      else some p) }

/-- A die, of a package whose bits a mask of holder sets keeps, is in no holder set any more (R198, R409 step 3). -/
def State.clearHolder (s : State) (f : BitVec 4 × BitVec 64 → BitVec 4 × BitVec 64) : State :=
  { s with holders := (s.holders.map (fun x => (x.1, f x.2))).filter (fun x => x.2 ≠ (0, 0)) }

/-- The eviction of a die (R409): the six steps. -/
def State.evictDie (s : State) (d : Nat) : State :=
  let r := replicaDie s.part d
  let rr := if d < s.part.dies ∧ (s.die r).admitted = true then some (s.rbase d, s.rlen d) else none
  -- step 1: a lost die has acknowledged every shoot-down
  let s1 : State := { s with shoots := s.shoots.map (fun x =>
    { x with die := if (s.instances d).contains x.die then noDie else x.die, todo := x.todo.filter (fun k => !(s.instances d).contains k), acks := x.acks.filter (fun k => !(s.instances d).contains k) }) }
  -- step 2: DIES, EPOCH and the redirection
  let s2 := { s1.modDie d (fun z => { z with
    admitted := false, rehome := rr, slots := [], held := [], trapQ := [], handlers := [], pend130 := false, pend131 := []
    tlb := [], copies := [], dir := [], filt := [], recv := [], ckpt := none, targets := [] }) with epoch := s1.epoch + 1 }
  let s3 := ((s.instances d).filter (fun i => i ≠ d)).foldl (fun (t : State) i => t.modDie i (fun z => { z with admitted := false, recv := [] })) s2
  let s4 := (List.range s.part.dies).foldl (fun (t : State) e =>
    if (t.die e).admitted then t.setMgmt e 0x814 (putBit (t.mgmt e 0x814) d true) else t) s3
  -- steps 3 to 5
  let s5 := ((s4.dropDie d).rehomeLines d rr).clearHolder (fun h => (putBit h.1 d false, h.2))
  let s6 := (s5.loseCounters (fun pa => paPkg pa = s.pkgid && paDie pa = d) (fun h => holderDie h = d)).loseTiles
  -- step 6
  let s7 := s6.moveQueue d
  let s8 : State := { s7 with colls := s7.colls.map (fun c =>
    match s.colls.find? (fun y => y.uid = c.uid) with
    | some c0 => { s.recoverColl s7 d c.die c0 with die := c.die, qent := c.qent, lq := c.lq }
    | none => c)
                              bits := s7.bits.filterMap (fun b => if b.die = d then s7.heir.map (fun e => { b with die := e }) else some b) }
  let s9 : State := { s8 with links := s8.links.map (fun l => if l.peer = some d then { l with buffer := 0 } else l)
                              misses := s8.misses.filter (fun x => x.1 % 256 ≠ d && x.1 / 256 ≠ d) }
  ((s9.failCkpts d).commitShoots).reapColls

/-- The eviction of a package (R411): every page homed on it is lost. -/
def State.evictPkg (s : State) (p : Nat) : State :=
  let away := fun (pa : Nat) => paPkg pa = p
  let s1 : State := { s with
    pkgs := putBit s.pkgs p false, epoch := s.epoch + 1, pkgGen := Sparse.set 0 p (Sparse.get 0 p s.pkgGen + 1) s.pkgGen
    partials := s.partials.filter (fun x => !away x.pa)
    misses := s.misses.filter (fun x => x.1 % 256 ≠ 64 + p) }
  let s2 := (List.range 5).foldl (fun (t : State) e => t.dropCopies e (fun c => away (c.line * 64))) s1
  let s3 := s2.clearHolder (fun h => (h.1, putBit h.2 p false))
  (({ s3 with holders := s3.holders.filter (fun x => !away (x.1 * 2048)) } : State).loseCounters away (fun _ => false)).loseTiles

/-- A member of a scope by number: a die, or 64 + a package. -/
def State.isMember (s : State) (target : Nat) : Bool :=
  if 64 ≤ target then s.pkgs.getLsbD (target - 64) && target - 64 ≠ s.pkgid else (s.die target).admitted
/-- An EVICT still names the member and incarnation it meant (R405). -/
def State.evictable (s : State) (target incarn : Nat) : Bool :=
  s.isMember target && (64 ≤ target || (s.die target).incarn.toNat = incarn)
/-- The steps of survivors for an evicted die or package. -/
def State.evictTarget (s : State) (target : Nat) : State := if 64 ≤ target then s.evictPkg (target - 64) else s.evictDie target

/-- A curator of a die at the kernel's entry: one quire of one fibre in ASID 0 (log 25). -/
def State.addCurator (s : State) (d i : Nat) (entry : DWord) : State :=
  let n := s.next
  let f : Folio := { fid := n + 1, die := d, core := 384 + i, qbase := 0, qcnt := 1, folioid := 0, vid := n, kind := .curator i }
  { s with
    folios := s.folios ++ [f], volumes := s.volumes ++ [{ vid := n, members := [(0, n + 1)] }]
    rest := s.rest ++ [newQuire (n + 2) (n + 1) 0 0 (entry &&& ~~~3) 28 1 s.clock], next := n + 3 }
/-- The image is loaded into a die's memory (R17 step 4), and its four curators start at its entry; where it lies there is not
stated (log 118). -/
def State.addCurators (s : State) (d : Nat) : State :=
  let bs := (s.images.head?.map (·.bytes)).getD []
  let t := s.putLong 0 (s.pkgid * 2 ^ 46 + d * 2 ^ 38 + Config.loadArea d % 2 ^ 25 * 4096) bs
  (List.range 4).foldl (fun (t : State) i => t.addCurator d i (Config.imageEntry bs)) t

/-- The re-admission of a die (R407): incarnation, empty caches, memory without live data. -/
def State.admitDie (s : State) (d : Nat) : State :=
  let here := fun (pa : Nat) => pa < 2 ^ 52 && paPkg pa = s.pkgid && paDie pa = d && paSpace pa = 0
  let line := fun (l : Nat) => here (l * 64)
  let s1 : State := { s with
    dies := s.dies.mapIdx (fun i z => if (s.instances d).contains i then { admitted := true, incarn := z.incarn + 1, rehome := z.rehome } else z)
    mem := s.mem.filter (fun c => !here c.1), lineKey := s.lineKey.filter (fun x => !line x.1)
    hist := s.hist.filter (fun x => !here x.1 && x.1 / 2 ^ 64 ≠ d + 1), backs := s.backs.filter (fun x => !here x.1)
    holders := s.holders.filter (fun x => !here (x.1 * 2048))
    class_ := s.class_.filter (fun x => !line (x.1 % 2 ^ 46) && x.1 / 2 ^ 46 ≠ d), shadow := s.shadow.filter (fun x => !here x.1)
    poison := s.poison.filter (fun l => !line l), partials := s.partials.filter (fun p => !here p.pa)
    counters := s.counters.filter (fun c => !here c.pa), subGens := s.subGens.filter (fun x => x.1 / (512 * 16) ≠ d)
    links := s.links.map (fun l => if l.die = d then { l with retry := 0, spares := 0, width := 0, state := 0, bad := 0, map := []
                                                              trained := true, buffer := 0, detour := none } else l)
    epoch := s.epoch + 1 }
  if d < s.part.dies then s1.addCurators d else s1
/-- The admission of a package to the domain. -/
def State.admitPkg (s : State) (p : Nat) : State :=
  { s with pkgs := putBit s.pkgs p true, everPkgs := putBit s.everPkgs p true, deadPkgs := putBit s.deadPkgs p false, epoch := s.epoch + 1 }

/-- An evicted package has contact again: its dies learn of the eviction (R407). -/
def State.castOut (s : State) : Bool := s.outcast && s.fabricUp
/-- A die passes the steps of its bring-up (R17): a free choice. -/
def State.passes (s : State) (d : Nat) : Bool := s.choose (700 + d) 2 = 0
/-- A die that ADMIT can name: of the part, and the processor die where it is one of its own. -/
def State.admissible (s : State) (d : Nat) : Bool := d < s.part.dies || (d = 4 && s.part ≠ .q940)
/-- A package that the domain has evicted, and whose dies have reset, is admitted again: those of its dies that pass bring-up anew
are admitted, each as by ADMIT (R407; log 119). -/
def State.rejoin (s : State) : State :=
  if s.outcast && s.dies.all (fun z => !z.admitted) then
    ((List.range 5).filter (fun d => s.admissible d && s.passes d)).foldl State.admitDie { s with outcast := false }
  else s

/-- The effect of a numbered message (R362, R405, R407). INVAL is the hardware's and enters no receive queue (log 26). -/
def State.numbered (s : State) (m : Msg) : State :=
  let s1 := s.sent m
  match m.body with
  | .kernel | .ckcommit _ => s1.deliver m
  | .evict target _ => (s1.evictTarget target).deliver m
  | .admission target => (if 64 ≤ target then s1.admitPkg (target - 64) else s1.admitDie target).deliver m
  | .inval id asid lo len wb => s1.startShoot m.seq m id asid lo len wb

/-- A message that has lost its object: the die or package of an EVICT is evicted already, that of an ADMIT admitted. -/
def State.msgMoot (s : State) (m : Msg) : Bool :=
  match m.body with
  | .evict target inc => !s.evictable target inc
  | .admission target => s.isMember target || target = 64 + s.pkgid
  | _ => false

/-- The packages of the domain other than this one. -/
def State.peers (s : State) : List Nat :=
  (List.range 64).filter (fun p => s.pkgs.getLsbD p && !s.deadPkgs.getLsbD p && p ≠ s.pkgid)

/-- What another package may send in the domain scope, by a free choice (R402): a message of a kernel, the INVAL of a shoot-down (64
stands for a die of another package), or the EVICT of a third package. -/
def State.foreignBody (s : State) (p : Nat) : MsgBody :=
  let c := s.choose 7001
  match c 3 with
  | 0 => .kernel
  | 1 => .inval s.next (if s.choose 7002 2 = 0 then none else some (s.choose 7003 65536)) (s.choose 7004 (2 ^ 44) * 4096)
      (s.choose 7005 (2 ^ 36) * 4096) (s.choose 7006 2 = 1)
  | _ => match s.peers.filter (fun x => x ≠ p) with
    | [] => .kernel
    | x :: xs => .evict (64 + ((x :: xs)[s.choose 7007 (xs.length + 1)]?).getD x) 0
/-- A message of another package of the domain, none where no other can be reached (R402). -/
def State.foreignMsg (s : State) : Option Msg :=
  if !s.fabricUp then none
  else match s.peers[s.choose 7000 s.peers.length]? with
    | none => none
    | some p =>
      let body := s.foreignBody p
      let type := match body with | .kernel => 0x80 + s.choose 7008 128 | .evict _ _ => 1 | _ => 0
      some { dom := true, type := type, pkg := p, die := s.choose 7009 5, incarn := s.choose 7010 (2 ^ 32)
             payload := s.freePayload, body := body }

/-- SEQUENCER_NUMBER (R402): the sequencer drops a stale message or one that has lost its object, or numbers it and delivers it to every
admitted instance. Behind the messages of this package's dies stands what another package of the domain sends. -/
def sequencerNumber (idx : Nat) (s : State) : State :=
  match s.msgs[idx]? with
  | none =>
    (match if idx = s.msgs.length then s.foreignMsg else none with
     | some m =>
       if !s.queuesOpen then s
       else
         let (n, u) := ({ s with next := s.next + 1 } : State).number true
         let m1 := { m with seq := n }
         match m.body with
         | .inval id asid lo len wb => u.startShoot n { m1 with die := 64 } id asid lo len wb
         | .evict target _ => (u.evictTarget target).deliver m1
         | _ => u.deliver m1
     | none => s)
  | some m =>
    let t : State := { s with msgs := s.msgs.eraseIdx idx }
    if !s.headOfSender idx m then s
    else if s.msgStale m || s.msgMoot m then t
    else if s.holdsBack m.die || !s.sequencerUp m.dom m.die m.body || !s.queuesOpen then s
    else
      let (n, u) := t.number m.dom
      u.numbered { m with seq := n }

/-- The domain may evict this package: there is another one, and no port works (R422). -/
def State.cutOff (s : State) : Bool := !s.fabricUp && !s.outcast && s.peers ≠ []

/-- EVICT (R405, R409): the first EVICT of a die or package that can be numbered. That of this package is the domain's, where no
port of it works (R422); it learns of it later (R407). -/
def evictNext (target : Nat) (s : State) : State :=
  if target = 64 + s.pkgid then (if s.cutOff then { s with outcast := true } else s)
  else match (List.range s.msgs.length).find? (fun i => match s.msgs[i]? with
      | some m => s.headOfSender i m && (match m.body with | .evict t _ => t = target | _ => false)
      | none => false) with
  | some i => sequencerNumber i s
  | none => s

/-- ADMIT (R407): the sequencer admits a die that has passed bring-up, or a package; that of this
package is the domain's (log 119). Its message is numbered at once, or takes its place behind the sequencer's earlier messages
(R402). -/
def admitNext (target : Nat) (s : State) : State :=
  let fits := if 64 ≤ target then target < 128 else s.admissible target
  if target = 64 + s.pkgid then s.rejoin
  else match s.sequencer with
  | some d =>
    let m := s.message d (64 ≤ target) 0x02 s.freePayload (.admission target)
    if !fits || s.msgMoot m || s.msgs.any (fun x => x.body = m.body) || !s.live d then s
    else if !s.headOfSender s.msgs.length m || !s.sequencerUp m.dom d m.body || !s.queuesOpen then { s with msgs := s.msgs ++ [m] }
    else
      let (n, t) := s.number m.dom
      t.numbered { m with seq := n }
  | none => s

/-- HEARTBEAT (R405): the observers of a die or package count afresh. -/
def heartbeat (src : Nat) (s : State) : State := { s with misses := s.misses.filter (fun x => x.1 % 256 ≠ src) }

/-- HEARTBEAT_MISS (R405, R406): an observer misses a heartbeat; at the third in a row it sends EVICT, if it still reaches enough
members of the scope. -/
def heartbeatMiss (observer src : Nat) (s : State) : State :=
  let n := min 3 (Sparse.get 0 (observer * 256 + src) s.misses + 1)
  let s1 : State := { s with misses := Sparse.set 0 (observer * 256 + src) n s.misses }
  let dom : Bool := 64 ≤ src
  let told := s.msgs.any (fun m => m.die = observer && (match m.body with | .evict t _ => t = src | _ => false))
  if !(s.die observer).admitted || (s.die observer).failed || !s.isMember src || observer = src then s
  else if n < 3 || told || !majority (s1.scopeMembers dom) (s1.nearTo observer dom) || (dom && s.sequencer ≠ some observer) then s1
  else { s1 with msgs := s1.msgs ++ [s1.message observer dom 0x01 s1.freePayload
      (.evict src (if dom then 0 else (s.die src).incarn.toNat))] }

/-- DIE_FAILURE (R401): a die or package stops its quires, its heartbeats and its service. -/
def dieFailure (target : Nat) (s : State) : State :=
  if 64 ≤ target then
    if target - 64 = s.pkgid then { s with dies := s.dies.map (fun z => { z with failed := true }) }
    else { s with deadPkgs := putBit s.deadPkgs (target - 64) true }
  else (s.instances target).foldl (fun (t : State) i => t.modDie i (fun z => { z with failed := true })) s

/-- EVICTION_DISCOVERED (R407): a die that still ran, itself evicted or with its package, stops its quires and resets. -/
def evictionDiscovered (d : Nat) (s : State) : State :=
  if (s.die d).admitted && !s.castOut then s
  else (s.instances d).foldl (fun (t : State) i => t.modDie i (fun z => { incarn := z.incarn, rehome := z.rehome })) (s.dropDie d)

/-- SEQUENCER_TIMEOUT (R404): `msend` raises 0x142 when no sequencer of its scope can be reached. -/
def sequencerTimeout (uid : Nat) (s : State) : State :=
  match s.msgs.find? (fun m => match m.sender with | some x => x.1 = uid | none => false) with
  | some { sender := some (_, pc, frame, reg), dom := dom, die := die, body := body, .. } =>
    (match (s.quires.find? (fun q => q.uid = uid && !q.faulted)).bind (fun q => q.waits.find? (fun w => w.pc = pc && w.frame = frame && w.kind = .msend)) with
     | some w =>
       if s.sequencerUp dom die body then s
       else ({ s with msgs := s.msgs.filter (fun m => m.sender ≠ some (uid, pc, frame, reg)) } : State).trapIn uid w 0x142 0
     | none => s)
  | _ => s

/-- The address at which a walk finds a home that cannot be reached now (R358, R411). -/
def State.walkWaits (s : State) (d va : Nat) : List (Nat × Nat × Nat) → Nat → Option Nat
  | [], _ => none
  | (_, sh, bits) :: rest, table =>
    let pa := table + 8 * (va / 2 ^ sh % 2 ^ bits)
    match s.reach d pa with
    | .waits => some pa
    | .lost => none
    | .at x =>
      let e := s.phys64 x
      if ptePerm e = 0 ∧ pteSz e = 1 then s.walkWaits d va rest (pteBase e) else none

/-- An access of a folio waits because the package of its home, or of a table of its walk, cannot be reached (R411). -/
def State.farWait (s : State) (fid ea : Nat) (path : Path := .core) : Bool :=
  let x := s.folio fid
  ea < windowBase &&
  match s.translate x.die x.asid x.super ea .read (path.places x.core) with
  | .ok t => paPkg t.pa ≠ s.pkgid && s.reach x.die t.pa = .waits
  | .error c => c = 0x142 &&
    (match if s.spaceBad x.die x.asid = some 0x142 then some (s.spaceAt x.die x.asid)
        else s.walkWaits x.die ea walkLevels (pteBase (BitVec.ofNat 64 (fieldOf (s.spaceRec x.die x.asid).1 37 4 * 16))) with
     | some pa => paPkg pa ≠ s.pkgid
     | none => false)

/-- A batch of a quire waits for an access or a fetch at an address: its wait, with the lanes that make the access. -/
def Quire.reachWait (q : Quire) (ea : Nat) : Option (Wait × Word) :=
  q.waits.findSome? (fun w => match w.kind with
    | .reach a l => if a = ea then some (w, l) else none
    | .fetch a => if a = ea then some (w, 0) else none
    | _ => none)

/-- REACH_TIMEOUT (R411): an access to a package that cannot be reached raises 0x142; for a copy or a matrix operation it is the
inner cause. -/
def reachTimeout (who ea : Nat) (s : State) : State :=
  match s.quires.find? (fun q => q.uid = who && q.uid ≠ 0), s.copies.find? (fun c => c.id = who) with
  | some q, _ =>
    (match if q.faulted then none else q.reachWait ea with
     | some (w, lanes) => if s.farWait q.fid ea then s.trapIn who w 0x142 (BitVec.ofNat 64 ea) lanes else s
     | none => s)
  | none, some c =>
    if c.started && c.permit && c.held.isNone && c.pend.isNone && !s.isSaved c.fid && s.farWait c.fid ea (.copy c.engine)
        && (ea = (Side.at ⟨c.src, c.spitch⟩ c.rowBytes c.pos)
          || (c.mask.isNone && ea = (Side.at ⟨c.dst, c.dpitch⟩ c.rowBytes c.pos))) then
      s.faultCopy c 0x142 ea
    else s
  | none, none =>
    match s.matops.find? (fun o => o.id = who) with
    | none => s
    | some o =>
      if !o.permit || o.latch || o.held.isSome || o.pend.isSome || s.isSaved o.fid || !s.farWait o.fid ea .matrix then s
      else match chunkStop (s.chunkRows o) with
        | some (x, .waits) => if x.ea = ea then s.faultMat o x.mem 0x142 ea x.side else s
        | _ => s

/-! ## msend and mrecv (R404) -/

/-- The instance as which a curator of the issuing die sends and receives: on a Q940 the curators of die 0 run that of die 4, too, by a
free choice (R401; log 97). -/
def State.instance_ (s : State) : Nat :=
  match s.instances s.fol.die with
  | [d] => d
  | ds => (ds[s.choose 7100 ds.length]?).getD s.fol.die

/-- msend (R404): the payload is read, the message is posted, and the batch waits until it is numbered. -/
def uniMsend (o : SF) (s : State) : Host.Outcome State Fault Refusal :=
  let g := o.a.toNat
  let v := s.q.sreg (g + 1)
  let dom := v.getLsbD 8
  let D := { usDesc o 0x35 (o.b = 0) [.sreg o.d.toNat, .sgroup g 2] with b := .none, skip := .sreg o.d.toNat 64 }
  let ea := (s.q.sreg g).toNat
  if fieldOf v 63 9 ≠ 0 ∨ fieldOf v 7 0 < 0x80 then .next (D.runU s (.stop 0x021 (laneMask s.batch) 0))
  else D.access s [(0, ea)] (fun ea => s.memCheck s.q.fid ea 64 .read) 64 true (fun t xs =>
    t.behindRelease true (if dom then 6 else 5) (fun t1 =>
      let r := t1.loads 64 0 xs
      let m : Msg := { s.message s.instance_ dom (fieldOf v 7 0) ((leBytes 64 (r.1.headD (0, 0)).2).drop 16) .kernel with
                       sender := some (s.q.uid, s.sel.1, s.sel.2, o.d.toNat) }
      .wait { r.2 with msgs := r.2.msgs ++ [m] } .msend))

/-- mrecv (R404): the oldest message of the die's receive queue is written to memory. -/
def uniMrecv (o : SF) (s : State) : Host.Outcome State Fault Refusal :=
  let D := { usDesc o 0x35 (o.b.extractLsb' 1 5 = 0) [.sreg o.d.toNat, .sreg o.a.toNat] with b := .none, skip := .sreg o.d.toNat 64 }
  let d := s.instance_
  match (s.die d).recv with
  | [] => .next (D.runU s (if o.b.getLsbD 0 then .done (s.setK 1 false) else .wait s .mrecv))
  | m :: rest =>
    D.access s [(0, (s.q.sreg o.a.toNat).toNat)] (fun ea => s.memCheck s.q.fid ea 64 .write) 64 false (fun t xs =>
      let t1 := (t.acquireAll t.q.uid t.fol.die (if m.dom then 6 else 5)).storeAll 64 0 xs (fun _ => leNat m.bytes)
      .done (((t1.modDie d (fun z => { z with recv := rest })).setS o.d.toNat m.seq).setK 1 true))

/-! ## Checkpoints (R414 to R417) -/

/-- The address of the slot of a generation of a die (R414). -/
def State.ckSlot (s : State) (d : Nat) (gen : DWord) : Nat := (s.mgmt d 0x815).toNat + gen.toNat % 2 * (s.mgmt d 0x816).toNat

/-- Write bytes of a slot through physical addresses under key 0; none where the buddy cannot be reached. -/
def State.ckWrite (s : State) (d pa : Nat) (bs : List Byte) : Option State :=
  bs.zipIdx.foldl (fun (acc : Option State) b =>
    match acc with
    | none => none
    | some t => match t.reach d (pa + b.2) with
      | .at x => some (t.putHome 0 x [b.1])
      | _ => none) (some s)

/-- The checkpoint engine is present (R10, R12). -/
def Part.ckpt (p : Part) : Bool := p ≠ .q920

/-- ckbegin (R415). Where the buddy cannot be reached the generation is opened failed. -/
def uniCkbegin (o : SF) (s : State) : State :=
  let g := o.a.toNat
  let d := s.fol.die
  let gen := s.q.sreg g
  let v := s.q.sreg (g + 1)
  let D := { usDesc o 0x36 (o.d = 0 && o.b = 0) [.sgroup g 2] with unit := s.part.ckpt, b := .none }
  D.runU s (
    if fieldOf v 63 16 ≠ 0 then .stop 0x021 (laneMask s.batch) 0
    else if (s.die d).ckpt.isSome ∨ gen ≠ s.mgmt d 0x817 + 1 then .done (s.setK 1 false)
    else
      let k : Ckpt := { gen := gen, asid := fieldOf v 15 0, dies := (List.range s.part.dies).filter (fun e => (s.die e).admitted) }
      let open_ := fun (t : State) (k : Ckpt) => (t.modDie d (fun z => { z with ckpt := some k })).setK 1 true
      .done (match s.ckWrite d (s.ckSlot d gen) [0] with
        | some t => open_ t k
        | none => open_ s { k with fail := some 2 }))

/-- ckshard (R415): the batch waits for a power permit. -/
def uniCkshard (o : LF) (s : State) : State :=
  let g := o.a.toNat
  let lo := (s.q.sreg g).toNat
  let len := (s.q.sreg (g + 1)).toNat
  let tok := o.low3.toNat
  let d := s.fol.die
  let D : Desc := { uni := true, op := 0x36, len := 8, pr := o.pr, neg := o.neg, unit := s.part.ckpt
                    legal := o.tokOnly && o.d = 0 && o.b = 0 && o.c = 0, uses := [.sgroup g 2], a := .sreg g, wa := 64 }
  D.runU s (
    if lo % 4096 ≠ 0 ∨ len % 4096 ≠ 0 then .stop 0x060 (laneMask s.batch) (BitVec.ofNat 64 lo)
    else match (s.die d).ckpt with
      | none => .stop 0x0E2 (laneMask s.batch) 0
      | some k =>
        if (s.q.tok tok).count = 63 then .wait s (.tokenFull tok)
        else
          let x : ShardOp := { id := s.next, die := d, quire := s.q.uid, asid := k.asid, start := lo, len := len, tok := tok }
          .wait { s with next := s.next + 1, shards := s.shards ++ [x], permits := s.permits ++ [.shard s.next] } (.permit s.next))

/-- The pages of a range that are present, of the shard, and homed on the die (R415), ascending: each with its leaf. -/
def State.shardPages (s : State) (x : ShardOp) : List Leaf :=
  (List.range (x.len / 4096)).filterMap (fun i =>
    let va := x.start + 4096 * i
    match s.walk x.die x.asid va with
    | .ok l =>
      if l.va = va ∧ pteShard l.entry = true ∧ paPkg (pteBase l.entry) = s.pkgid ∧ paDie (pteBase l.entry) = x.die then some l else none
    | .error _ => none)

/-- A page header (R417). -/
def pageHeader (l : Leaf) : Nat :=
  l.va * 2 ^ 448 + szcOf l.size * 2 ^ 440 + pteHome l.entry * 2 ^ 438 + pteKey l.entry * 2 ^ 432
    + (if pteRepl l.entry then 2 ^ 431 else 0) + ptePerm l.entry * 2 ^ 429
where
  /-- The page size index of a size (R379). -/
  szcOf (n : Nat) : Nat := ((List.range 12).find? (fun c => szcBytes c = n)).getD 0

/-- One page is appended to a die's stream (R415, R417): the status it leaves. -/
def State.appendPage (s : State) (x : ShardOp) (l : Leaf) : State × BitVec 2 :=
  match (s.die x.die).ckpt with
  | none => (s, 3)
  | some k =>
    let bs := (List.range l.size).map (fun i => s.homeByte (pteKey l.entry) (pteBase l.entry + i))
    let set := fun (t : State) (k : Ckpt) => t.modDie x.die (fun z => { z with ckpt := some k })
    if (s.mgmt x.die 0x816).toNat < k.pos + 64 + l.size then (set s { k with fail := some (k.fail.getD 3) }, 1)
    else match s.ckWrite x.die (s.ckSlot x.die k.gen + k.pos) (leBytes 64 (pageHeader l) ++ bs) with
      | none => (set s { k with fail := some (k.fail.getD 2) }, 3)
      | some t => (set t { k with pos := k.pos + 64 + l.size, digest := k.digest.absorb (leBytes 8 l.va ++ bs) }, 0)

/-- CKSHARD_COMPLETION (R415): the range has been streamed, up to a page that does not fit or cannot be written, and the token
completes. -/
def ckshardCompletion (id : Nat) (s : State) : State :=
  match s.shards.find? (fun x => x.id = id) with
  | none => s
  | some x =>
    if !x.permit then s
    else
      let r := (s.shardPages x).foldl (fun (a : State × BitVec 2) l => if a.2 ≠ 0 then a else a.1.appendPage x l) (s, 0)
      ({ r.1 with shards := r.1.shards.filter (fun y => y.id ≠ id) } : State).finishTok x.quire x.tok r.2 none

/-- The end header of a die's stream (R417). -/
def endHeader (digest : Nat) : Nat := 0xFF * 2 ^ 440 + digest % 2 ^ 256
/-- The commit record of a generation (R414). -/
def commitRecord (sealV : Nat) (k : Ckpt) : Nat :=
  sealV % 2 ^ 256 * 2 ^ 256 + k.gen.toNat * 2 ^ 192 + k.asid * 2 ^ 176 + (k.dies.foldl (fun m d => m + 2 ^ d) 0) % 16 * 2 ^ 172 + 0xCA

/-- Every die of a generation writes its end header, then its commit record (R415). -/
def State.writeCommits (s : State) (ks : List (Nat × Ckpt)) : Option State :=
  match ks with
  | [] => some s
  | (_, k0) :: _ =>
    let sealV := leNat (shake256 (leBytes 8 k0.gen.toNat ++ leBytes 2 k0.asid ++ [BitVec.ofNat 8 (k0.dies.foldl (fun m d => m + 2 ^ d) 0)]
      ++ ks.flatMap (fun x => x.2.digest.output 32)) 32)
    let ends := ks.foldl (fun (acc : Option State) x => acc.bind (fun t =>
      t.ckWrite x.1 (t.ckSlot x.1 x.2.gen + x.2.pos) (leBytes 64 (endHeader (leNat (x.2.digest.output 32)))))) (some s)
    ks.foldl (fun (acc : Option State) x => acc.bind (fun t =>
      t.ckWrite x.1 (t.ckSlot x.1 x.2.gen) (leBytes 64 (commitRecord sealV x.2)))) ends

/-- The generation ends once every die of it has issued `ckcommit` with its shards complete (R415, R416). -/
def State.tryCommit (s : State) (d : Nat) : State :=
  match (s.die d).ckpt with
  | none => s
  | some k =>
    let ks := k.dies.filterMap (fun e => ((s.die e).ckpt).bind (fun y => if y.gen = k.gen then some (e, y) else none))
    let ready := ks.length = k.dies.length
      && ks.all (fun x => x.2.commit.isSome && !s.shards.any (fun y => y.die = x.1))
    let all := fun (t : State) (code : Nat) => ks.foldl (fun (t : State) x => t.endCommit x.1 code) t
    if !ready then s
    else match ks.findSome? (fun x => x.2.fail) with
      | some code => all s code
      | none => match s.writeCommits ks with
        | none => all s 2
        | some t =>
          let t1 := ks.foldl (fun (u : State) x => u.setMgmt x.1 0x817 k.gen) t
          let t2 : State := { t1 with msgs := t1.msgs ++ [t1.message d false 0x03 t1.freePayload (.ckcommit k.gen)] }
          all t2 0

/-- The same of every die. -/
def State.tryCommits (s : State) : State := (List.range 5).foldl State.tryCommit s

/-- ckcommit (R415, R416). A generation that is not open on the die has no result that the spec states: sD takes a free value and
k1 is 0 (log 27). -/
def uniCkcommit (o : SF) (s : State) : State :=
  let d := s.fol.die
  let gen := s.q.sreg o.a.toNat
  let reg := o.d.toNat
  let D := { usDesc o 0x36 (o.b = 0) [.sreg reg, .sreg o.a.toNat] with unit := s.part.ckpt, b := .none, skip := .sreg reg 64 }
  let none_ := D.runU s (.done ((s.setS reg (Config.freeWord s.tick 27)).setK 1 false))
  match (s.die d).ckpt with
  | none => none_
  | some k =>
    if k.gen ≠ gen ∨ k.commit.isSome = true then none_
    else if (D.cause s).isSome || !s.kActive o.pr o.neg then D.runU s (.done s)
    else if k.fail = some 1 then
      D.runU s (.done (((s.modDie d (fun z => { z with ckpt := none })).setS reg 1).setK 1 false))
    else
      (D.run s (.wait (s.modDie d (fun z => { z with ckpt := some { k with commit := some (s.q.uid, reg) } })) .ckcommit)).tryCommit d

/-! ## Links (R419 to R422) -/

/-- The status word of a link (R421). -/
def Link.status (l : Link) : DWord :=
  BitVec.ofNat 64 (min l.retry 0xFFFFFFFF * 2 ^ 32 + l.spares.toNat * 2 ^ 20 + l.width % 4 * 2 ^ 18 + l.state % 4 * 2 ^ 16
    + min l.bad 255 * 2 ^ 8)

/-- Change a link. -/
def State.modLink (s : State) (die port : Nat) (f : Link → Link) : State :=
  { s with links := s.links.map (fun l => if l.die = die ∧ l.port = port then f l else l) }

/-- Scale-up ports of the part (R10). -/
def Part.ports : Part → Nat | .q920 => 2 | _ => 8
/-- The die of a scale-up port (R420). -/
def Part.portDie (p : Part) (port : Nat) : Nat := match p with | .q920 => port | _ => port / 2

/-- The width at which a training succeeds, from the one asked for: full width only where every bad lane is repaired; otherwise a
free choice, since the state of the lanes is not the machine's; none when the narrowest fails. -/
def State.trainedWidth (s : State) (l : Link) (wid : Nat) : Option Nat :=
  let ws := ((List.range 3).filter (fun w => wid ≤ w && (w ≠ 0 || l.bad ≤ popcOf 4 l.spares.toNat)))
  ws[s.choose (2000 + l.die * 32 + l.port) (ws.length + 1)]?

/-- An operation on a link: its new state and whether its requirement holds; a failed retrain is marked by state 3. -/
def State.linkOp (s : State) (l : Link) (op spare lane wid : Nat) : Link × Bool :=
  match op with
  | 0 => (l, true)
  | 1 => ({ l with state := 1 }, true)
  | 2 =>
    if l.state = 1 ∧ l.spares.getLsbD spare = false then
      ({ l with spares := putBit l.spares spare true, map := l.map ++ [(spare, lane)], trained := false }, true)
    else (l, false)
  | 3 =>
    if l.state ≠ 1 then (l, false)
    else match s.trainedWidth l wid with
      | some w => ({ l with width := w, retry := 0, trained := true }, true)
      | none => ({ l with state := 3, width := 3, retry := 0, trained := false, detour := none }, true)
  | _ => if l.state = 1 ∧ l.trained = true then ({ l with state := 0, buffer := 0 }, true) else (l, false)

/-- A value of sA that raises 0x021 (R420): a bit that must be 0, a reserved WID or OP, a UCIe port that the part does not have. -/
def State.linkValueBad (s : State) (v : DWord) : Bool :=
  fieldOf v 63 26 ≠ 0 || v.getLsbD 23 || v.getLsbD 15 || v.getLsbD 11 || fieldOf v 7 5 ≠ 0 || 2 < fieldOf v 14 12 || 4 < fieldOf v 10 8
    || (!v.getLsbD 4 && (3 < fieldOf v 3 0 || (fieldOf v 3 0 = 3 && s.part = .q940)))

/-- linkctl (R420): one word, whose operation stands in sA. A refused operation only clears k1. That a scale-up port is absent is a decode
check (R12; log 84). -/
def uniLinkctl (o : SF) (s : State) : State :=
  let v := s.q.sreg o.a.toNat
  let su := v.getLsbD 4
  let port := fieldOf v 3 0
  let op := fieldOf v 10 8
  let lane := fieldOf v 22 16
  let d := s.fol.die
  let D := { usDesc o 0x37 (o.b = 0) [.sreg o.d.toNat, .sreg o.a.toNat] with
    unit := !(su && s.part.ports ≤ port), b := .none, skip := .sreg o.d.toNat 64 }
  let key := if su then 16 + port else port
  let refused := Res.done (s.setK 1 false)
  D.runU s (
    if s.linkValueBad v then .stop 0x021 (laneMask s.batch) 0
    else match s.linkAt d key with
    | none => refused
    | some l =>
      if (su ∧ (op = 2 ∨ s.part.portDie port ≠ d)) ∨ 63 < lane then refused
      else
        let (l', ok) := s.linkOp l op (fieldOf v 25 24) lane (fieldOf v 14 12)
        let t := (s.modLink d key (fun _ => l')).setS o.d.toNat l'.status
        if op = 3 && ok && l'.state = 3 then .jump (t.unblocked.takeTrap (D.trap t 0x162 (laneMask s.batch)))
        else .done (t.setK 1 ok))

/-- FLIT_RETRY (R419): a flit is sent again; RETRY rises and saturates, and a lane may be marked bad, by a free choice. -/
def flitRetry (link : Nat) (s : State) : State :=
  { s with links := s.links.mapIdx (fun i l => if i = link then
      { l with retry := min (l.retry + 1) 0xFFFFFFFF, buffer := max l.buffer 1
               bad := min (l.bad + s.choose (3000 + link) 2) 255 } else l) }
/-- FLIT_ACKNOWLEDGED (R419): a flit leaves the retry buffer. -/
def flitAcknowledged (link : Nat) (s : State) : State :=
  { s with links := s.links.mapIdx (fun i l => if i = link then { l with buffer := l.buffer - 1 } else l) }

/-- The compute dies over which a failed link between two compute dies can be routed (R422). -/
def State.detours (s : State) (l : Link) : List Nat :=
  match l.peer with
  | some p =>
    if l.state = 3 ∧ l.port < 16 ∧ p ≠ 4 then
      (List.range s.part.dies).filter (fun e => e ≠ l.die && e ≠ p && (s.die e).admitted && !(s.die e).failed
        && !s.linkHolds l.die e && !s.linkHolds e p)
    else []
  | none => []
/-- A detour carries traffic no longer once its die has failed or gone, or one of its links holds (R422). -/
def State.dropDetours (s : State) : State :=
  { s with links := s.links.map (fun l => match l.detour with
      | some e => if (s.detours l).contains e then l else { l with detour := none }
      | none => l) }
/-- LINK_DETOUR (R422): the retry buffer is replayed over a third compute die, and traffic goes on there. -/
def linkDetour (link : Nat) (s : State) : State :=
  { s with links := s.links.mapIdx (fun i l => if i = link then
      match s.detours l with
      | [] => l
      | es => { l with detour := es[s.choose (4000 + link) es.length]?, buffer := 0 }
    else l) }

/-! ## Power permits and cooling (R18, R19, R319) -/

/-- The folio whose operation asks for a permit. -/
def State.heavyFolio (s : State) (h : Heavy) : Nat :=
  match h with
  | .copy id => (match s.copies.find? (fun c => c.id = id) with | some c => c.fid | none => 0)
  | .matrix id => (match s.matops.find? (fun o => o.id = id) with | some o => o.fid | none => 0)
  | .shard id => (match s.shards.find? (fun x => x.id = id) with | some x => (s.quire x.quire).fid | none => 0)
/-- The core whose governor grants a permit. -/
def State.heavyCore (s : State) (h : Heavy) : Nat × Nat := ((s.folio (s.heavyFolio h)).die, (s.folio (s.heavyFolio h)).core)
/-- The name of an operation that waits for a permit. -/
def Heavy.id : Heavy → Nat | .copy id | .matrix id | .shard id => id

/-- The operation begins on its token, and the batch that waits for the permit goes on. -/
def State.beginOn (s : State) (uid tok id : Nat) : State :=
  s.modQuire uid (fun q =>
    let q1 := q.setTok tok (q.tok tok).start
    match q1.waits.find? (fun w => w.kind = .permit id) with | some w => q1.complete w | none => q1)
/-- The token of an operation to begin is full. -/
def State.tokFull (s : State) (uid tok : Nat) : Bool := ((s.quire uid).tok tok).count = 63

/-- PERMIT_GRANT (R18): first in, first out at each core, none while the package is hot. -/
def permitGrant (id : Nat) (s : State) : State :=
  match s.permits.find? (fun h => h.id = id) with
  | none => s
  | some h =>
    let first := s.permits.find? (fun x => s.heavyCore x = s.heavyCore h)
    let t : State := { s with permits := s.permits.filter (fun x => x ≠ h) }
    if s.hot || first ≠ some h || !s.live (s.heavyCore h).1 || s.isSaved (s.heavyFolio h) then s
    else match h with
      | .copy id => (match s.copies.find? (fun c => c.id = id) with
        | some c =>
          if c.started then t.modCopy id (fun c => { c with permit := true })
          else if s.tokFull c.quire c.tok then s
          else ((t.modCopy id (fun c => { c with permit := true, started := true })).beginOn c.quire c.tok id).tryEndCopy id
        | none => t)
      | .matrix id => (match s.matops.find? (fun o => o.id = id) with | some o => t.grantMat o | none => t)
      | .shard id => (match s.shards.find? (fun x => x.id = id) with
        | some x =>
          if !(s.quire x.quire).waits.any (fun w => w.kind = .permit id) then { t with shards := t.shards.filter (fun y => y.id ≠ id) }
          else if s.tokFull x.quire x.tok then s
          else ({ t with shards := t.shards.map (fun y => if y.id = id then { y with permit := true } else y) } : State).beginOn
            x.quire x.tok id
        | none => t)

/-! ## Bring-up (R15 to R17) -/

/-- An image passes the ROM's checks (R15): its ML-DSA-65 signature under the ROM's key, and the security version that it carries
(log 117). -/
def State.imageGood (s : State) (x : Image) : Bool := dsaVerify s.romKey x.bytes x.sig && s.minVer ≤ Config.imageVersion x.bytes
/-- The measurement takes an image (R15): SHAKE256 of what it held, 64 bytes, and the image (log 98). -/
def State.measured (s : State) (x : Image) : State := { s with measure := leNat (shake256 (leBytes 64 s.measure ++ x.bytes) 64) }

/-- The links of the package at bring-up (R420). -/
def Part.links (p : Part) : List Link :=
  let dies := List.range p.dies
  dies.flatMap (fun d => (dies.filter (fun e => e ≠ d)).map (fun e => ({ die := d, port := portTo d e, peer := some e } : Link)))
    ++ (if p = .q940 then [] else dies.map (fun d => ({ die := d, port := 3, peer := some 4 } : Link)))
    ++ (List.range p.ports).map (fun i => ({ die := p.portDie i, port := 16 + i, peer := none } : Link))

/-- Bring-up (R17): every die of the part that passes its steps is admitted with incarnation 1; which do is a free choice. On a
Q940 the instance of die 4 runs on die 0. A die that is not admitted has incarnation 0, so that its admission gives 1. Every link comes up
at full width, with no lane bad or repaired (log 99). -/
def State.bringUp (s : State) : State :=
  let up := fun (d : Nat) =>
    if d = 4 then (if s.part = .q940 then s.passes 0 else s.passes 4) else d < s.part.dies && s.passes d
  let s1 : State := { s with
    dies := s.dies.mapIdx (fun d z => { z with admitted := up d, incarn := if up d then 1 else 0 })
    links := s.part.links, pkgs := 1#64 <<< s.pkgid, everPkgs := 1#64 <<< s.pkgid, epoch := 1, boot := .running }
  ((List.range s.part.dies).filter up).foldl (fun (t : State) d => t.addCurators d) s1

/-- POWER_ON (R15): the ROM reads the image from flash and measures it; a good one is brought up. -/
def powerOn (s : State) : State :=
  if s.boot ≠ .off then s
  else match s.images.head? with
    | some x => if s.imageGood x then (s.measured x).bringUp else { s.measured x with boot := .refetch 0 }
    | none => { s with boot := .refetch 0 }

/-- The place in `images` that a fetch reads (R16): the host port and then a peer package, in turn; a Q940 has no host port. -/
def State.fetchSource (s : State) (tries : Nat) : Nat := if s.part = .q940 then 2 else 1 + tries % 2

/-- IMAGE_REFETCH (R16): the next source; an image that verifies is written to flash and brought up. -/
def imageRefetch (s : State) : State :=
  match s.boot with
  | .refetch n =>
    (match s.images[s.fetchSource n]? with
     | some x =>
       if s.imageGood x then ({ s.measured x with images := x :: s.images.drop 1 } : State).bringUp
       else { s.measured x with boot := .refetch (n + 1) }
     | none => { s with boot := .refetch (n + 1) })
  | _ => s

/-! ## The meanings, one for each instruction -/

/-- MSEND_US (R404). -/
def execMsendUS (o : SF) (s : State) : Host.Outcome State Fault Refusal := uniMsend o s
/-- MRECV_US (R404). -/
def execMrecvUS (o : SF) (s : State) : Host.Outcome State Fault Refusal := uniMrecv o s
/-- CKBEGIN_US (R415). -/
def execCkbeginUS (o : SF) (s : State) : Host.Outcome State Fault Refusal := .next (uniCkbegin o s)
/-- CKSHARD_UL (R415). -/
def execCkshardUL (o : LF) (s : State) : Host.Outcome State Fault Refusal := .next (uniCkshard o s)
/-- CKCOMMIT_US (R415). -/
def execCkcommitUS (o : SF) (s : State) : Host.Outcome State Fault Refusal := .next (uniCkcommit o s)
/-- LINKCTL_STATUS (R420). -/
def execLinkctlStatus (o : SF) (s : State) : Host.Outcome State Fault Refusal := .next (uniLinkctl o s)
/-- LINKCTL_PAUSE (R420). -/
def execLinkctlPause (o : SF) (s : State) : Host.Outcome State Fault Refusal := .next (uniLinkctl o s)
/-- LINKCTL_REPAIR (R420). -/
def execLinkctlRepair (o : SF) (s : State) : Host.Outcome State Fault Refusal := .next (uniLinkctl o s)
/-- LINKCTL_RETRAIN (R420). -/
def execLinkctlRetrain (o : SF) (s : State) : Host.Outcome State Fault Refusal := .next (uniLinkctl o s)
/-- LINKCTL_RESUME (R420). -/
def execLinkctlResume (o : SF) (s : State) : Host.Outcome State Fault Refusal := .next (uniLinkctl o s)

end Sys2Proof.Machine
end

