-- ==== Sys2Proof/Machine/Events.lean ====
section
/-! DEFINITION. The events of the table: what the parts of the device other than an issuing quire do, the memory side's own
events, and the meaning of each. An event whose condition does not hold changes nothing. -/

namespace Sys2Proof.Machine

/-! ## The memory side -/

/-- PAUSE_END (R276): a paused batch becomes ready again behind its instruction. -/
def pauseEnd (uid : Nat) (pc : DWord) (frame : Nat) (s : State) : State :=
  s.modQuire uid (fun q =>
    (q.waits.filter (fun w => w.kind = .pause && w.pc = pc && w.frame = frame)).foldl Quire.complete q)

/-- RED_PARTIAL_EVICTION (R237): the partial line that holds the partial at a place is sent onwards, where its home can be reached. -/
def redPartialEviction (idx : Nat) (s : State) : State :=
  match s.partials[idx]? with
  | some p => if s.reach p.die p.pa = .waits then s else s.evictPartial p.die p.core (p.pa / 64)
  | none => s

/-- The cached leaf through which a die may hold a line away from its home (R195). -/
def State.fillLeaf (s : State) (d line : Nat) : Option TlbEntry :=
  (s.die d).tlb.find? (fun t =>
    !pteDevice t.entry && pteHome t.entry ≠ 1 && pteHome t.entry ≠ 3
      && pteBase t.entry ≤ line * 64 && line * 64 < pteBase t.entry + t.size)

/-- LINE_FILL (R194): the line comes to the die, and to one of its clusters, as a clean copy of its home. -/
def lineFill (d line : Nat) (s : State) : State :=
  match s.fillLeaf d line with
  | none => s
  | some t =>
    if s.isHome d (line * 64) || s.liveLine line || ((s.die d).copyOf line).isSome || s.reach d (line * 64) ≠ .at (line * 64) then s
    else
      let x : Attr := { home := pteHome t.entry, kid := pteKey t.entry, repl := pteRepl t.entry, asid := t.asid
                        va := t.va + (line * 64 - pteBase t.entry) }
      ((s.recallLine line).addCopy d x line).direct d (24 * s.choose (5700 + line) 16) .cluster false line

/-- The class of a line in a die's caches and the clock of its last use, as a victim choice compares them (R196): a line without a class is
normal. -/
def State.victimKey (s : State) (d line : Nat) : Nat × Nat :=
  let c := Sparse.get (0, 0) (lineKeyOf d line) s.class_
  (if c.1 = 0 then 2 else c.1, c.2)
/-- The lines that a die's caches hold: those of its copies, and those homed on it that have been used. -/
def State.cachedLines (s : State) (d : Nat) : List Nat :=
  (s.die d).copies.map (·.line) ++ (s.class_.filter (fun x => x.1 / 2 ^ 46 = d)).map (·.1 % 2 ^ 46)
/-- A line that a set may evict: the least recently used of the lowest class present, and never one in a pinned way (R195, R196). -/
def State.isVictim (s : State) (d line : Nat) : Bool :=
  let k := s.victimKey d line
  let pinned := fun (l : Nat) => (s.die d).pins.contains l
  !pinned line && (s.cachedLines d).all (fun l => l = line || pinned l || Config.cacheSet d l ≠ Config.cacheSet d line ||
    (let x := s.victimKey d l; k.1 < x.1 || (k.1 = x.1 && k.2 ≤ x.2)))
/-- A line homed on a die leaves its caches, and with it its class (R196). -/
def State.dropHomeLine (s : State) (d line : Nat) : State :=
  { s.modDie d (fun z => { z with clines := z.clines.filter (fun x => x.1 % 2 ^ 46 ≠ line) }) with
    class_ := s.class_.filter (fun x => x.1 ≠ lineKeyOf d line) }
/-- LINE_WRITE_BACK (R295): the dirty bytes reach the home; a line that its set may evict is dropped, or kept clean, by a free choice. -/
def lineWriteBack (d line : Nat) (s : State) : State :=
  let drop := s.isVictim d line && s.choose (5000 + line) 2 = 0
  if s.isHome d (line * 64) then (if drop then s.dropHomeLine d line else s) else s.writeBack d line drop

/-- PEER_PROBE (R192): a cluster that misses a line probes one peer of the die, chosen freely; where that holds it clean and shared,
the line comes from there, and the die directory records both as holders. Otherwise the probe changes nothing. -/
def peerProbe (d cluster line : Nat) (s : State) : State :=
  let p := s.choose (5500 + line) 16
  let held := fun (c : Nat) => Sparse.get 0 (lineKeyOf c line) (s.die d).clines
  if 16 ≤ cluster ∨ p = cluster ∨ held cluster ≠ 0 ∨ held p ≠ 1 then s
  else s.modDie d (fun z =>
    { z with dir := Sparse.set 0 (line / 8) (putBit (putBit (Sparse.get 0 (line / 8) z.dir) cluster true) p true) z.dir
             clines := Sparse.set 0 (lineKeyOf cluster line) 1 z.clines })

/-- SOFT_ERROR_CORRECTION (R366): corrected and counted. -/
def softErrorCorrection (d : Nat) (s : State) : State := s.modDie d (fun z => { z with soft := z.soft + 1 })

/-- UNCORRECTABLE_ERROR (R375): memory marks a line poisoned, or an array cell goes bad. -/
def uncorrectableError (a : BadCell) (s : State) : State :=
  match a with
  | .line l => if s.poison.contains l then s else { s with poison := s.poison ++ [l] }
  | _ => if s.bad.contains a then s else { s with bad := s.bad ++ [a] }

/-- The size of an RV64 access. -/
def rv64Size (n : Nat) : Bool := n = 1 || n = 2 || n = 4 || n = 8

/-- RV64_MEMORY_ACCESS (R199, R383): a load recalls what the line's home needs; a store reaches the home at once, under the default
key. An 8-byte access to SPACE 1 is one to a management register of a compute die; of any other to device space the machine keeps nothing
(log 75). A live descriptor is not written (R241). -/
def rv64MemoryAccess (a : Rv64Access) (s : State) : Host.Outcome State Fault Refusal :=
  match a with
  | .load pa n =>
    if !rv64Size n || pa % n ≠ 0 then .next s
    else if paSpace pa ≠ 0 then .next s
    else (match s.reach 4 pa with
      | .at p => .next (s.recallLine (p / 64))
      | _ => .next s)
  | .store pa n v =>
    if !rv64Size n || pa % n ≠ 0 then .next s
    else if paSpace pa = 1 && n = 8 && paPkg pa = s.pkgid then .next (registerWrite (paDie pa) (paOff pa / 8) v s)
    else if paSpace pa ≠ 0 then .next s
    else if !s.backed pa then .next s
    else (match s.reach 4 pa with
      | .at p => .next (if s.liveLine (p / 64) then s
          else (s.storeBytes 4 { home := 3 } p (leBytes n v.toNat)).direct (paDie p) 384 .l2 true (p / 64))
      | _ => .next s)

/-! ## The meanings, one for each event -/

/-- LQCTL (R383). -/
def execLqctl (die : Nat) (v : DWord) (s : State) : Host.Outcome State Fault Refusal := .next (lqctlWrite die v s)
/-- KEYCMD_PROGRAM (R383). -/
def execKeycmdProgram (die : Nat) (s : State) : Host.Outcome State Fault Refusal :=
  .next (if die < s.part.dies then s.keyCommand die false else s)
/-- KEYCMD_ERASE (R383). -/
def execKeycmdErase (die : Nat) (s : State) : Host.Outcome State Fault Refusal :=
  .next (if die < s.part.dies then s.keyCommand die true else s)
/-- LATECNT_CLEAR (R383). -/
def execLatecntClear (die : Nat) (s : State) : Host.Outcome State Fault Refusal :=
  .next (if die < s.part.dies then s.clearLate die else s)
/-- RHMAP_CLEAR (R410). -/
def execRhmapClear (die d : Nat) (s : State) : Host.Outcome State Fault Refusal := .next (rhmapClear die d s)
/-- REGISTER_WRITE (R383). -/
def execRegisterWrite (die num : Nat) (v : DWord) (s : State) : Host.Outcome State Fault Refusal := .next (registerWrite die num v s)
/-- POWER_ON (R15). -/
def execPowerOn (s : State) : Host.Outcome State Fault Refusal := .next (powerOn s)
/-- IMAGE_REFETCH (R16). -/
def execImageRefetch (s : State) : Host.Outcome State Fault Refusal := .next (imageRefetch s)
/-- PERMIT_GRANT (R18). -/
def execPermitGrant (op : Nat) (s : State) : Host.Outcome State Fault Refusal := .next (permitGrant op s)
/-- THERMAL_HOLD (R19). -/
def execThermalHold (s : State) : Host.Outcome State Fault Refusal := .next { s with hot := true }
/-- TEMPERATURE_FALLS (R19). -/
def execTemperatureFalls (s : State) : Host.Outcome State Fault Refusal := .next { s with hot := false }
/-- THERMAL_TRIP (R19): the package removes its power; every later step is a stop. -/
def execThermalTrip (s : State) : Host.Outcome State Fault Refusal := .next { s with boot := .tripped }
/-- REGISTRAR_BIND (R315). -/
def execRegistrarBind (a : BindAct) (s : State) : Host.Outcome State Fault Refusal := .next (registrarAct a s)
/-- VOLUME_START (R314). -/
def execVolumeStart (die vgid : Nat) (s : State) : Host.Outcome State Fault Refusal := .next (startVolume die vgid s)
/-- PREEMPT_SAVE (R386). -/
def execPreemptSave (fid : Nat) (s : State) : Host.Outcome State Fault Refusal := .next (preemptSave fid s)
/-- RESTORE (R391). -/
def execRestore (fid core qbase : Nat) (s : State) : Host.Outcome State Fault Refusal := .next (restoreUnit fid core qbase s)
/-- GATHER_RELEASE (R328). -/
def execGatherRelease (quire : Nat) (pc : DWord) (frame : Nat) (s : State) : Host.Outcome State Fault Refusal :=
  .next (releaseGather quire pc frame s)
/-- FRAME_ARCHIVE (R337). -/
def execFrameArchive (quire frame : Nat) (s : State) : Host.Outcome State Fault Refusal := .next (archiveFrame quire frame s)
/-- FRAME_REFILL (R341). -/
def execFrameRefill (quire frame : Nat) (s : State) : Host.Outcome State Fault Refusal := .next (refillFrame quire frame s)
/-- CARVE_APPLY (R275). -/
def execCarveApply (fid : Nat) (s : State) : Host.Outcome State Fault Refusal := .next (carveApply fid s)
/-- MATRIX_CHUNK (R171). -/
def execMatrixChunk (op : Nat) (s : State) : Host.Outcome State Fault Refusal := matrixChunk op s
/-- COPY_SEGMENT (R217). -/
def execCopySegment (op : Nat) (s : State) : Host.Outcome State Fault Refusal := copySegment op s
/-- TILE_DELIVERY (R222). -/
def execTileDelivery (snd rcv : Nat) (s : State) : Host.Outcome State Fault Refusal := .next (tileDelivery snd rcv s)
/-- INBOUND_WRITE (R211). -/
def execInboundWrite (idx : Nat) (s : State) : Host.Outcome State Fault Refusal := .next (inboundWrite idx s)
/-- COUNTER_HOME_REQUEST (R244). -/
def execCounterHomeRequest (pa : Nat) (s : State) : Host.Outcome State Fault Refusal := .next (counterHomeRequest pa s)
/-- RED_PARTIAL_EVICTION (R237). -/
def execRedPartialEviction (idx : Nat) (s : State) : Host.Outcome State Fault Refusal := .next (redPartialEviction idx s)
/-- RED_RECALL (R238). -/
def execRedRecall (line : Nat) (s : State) : Host.Outcome State Fault Refusal := .next (s.recallLine line)
/-- PEER_PROBE (R192). -/
def execPeerProbe (die cluster line : Nat) (s : State) : Host.Outcome State Fault Refusal := .next (peerProbe die cluster line s)
/-- L2_BYPASS_READ (R193): it adds no outcome and changes no value that an access returns (R191). -/
def execL2BypassRead (_die _line : Nat) (s : State) : Host.Outcome State Fault Refusal := .next s
/-- LINE_FILL (R194). -/
def execLineFill (die line : Nat) (s : State) : Host.Outcome State Fault Refusal := .next (lineFill die line s)
/-- LINE_WRITE_BACK (R295). -/
def execLineWriteBack (die line : Nat) (s : State) : Host.Outcome State Fault Refusal := .next (lineWriteBack die line s)
/-- FAULT_RECORD (R369). -/
def execFaultRecord (who : Nat) (s : State) : Host.Outcome State Fault Refusal := .next (faultRecord who s)
/-- HANDLER_FOLIO_START (R373). -/
def execHandlerFolioStart (fh core qbase : Nat) (s : State) : Host.Outcome State Fault Refusal :=
  .next (handlerFolioStart fh core qbase s)
/-- CURATOR_TRAP_ENTRY (R384). -/
def execCuratorTrapEntry (die idx : Nat) (s : State) : Host.Outcome State Fault Refusal := .next (curatorTrapEntry die idx s)
/-- CURATOR_TIMER (R366). -/
def execCuratorTimer (die idx : Nat) (s : State) : Host.Outcome State Fault Refusal := .next (curatorTimer die idx s)
/-- FLIT_RETRY (R419). -/
def execFlitRetry (link : Nat) (s : State) : Host.Outcome State Fault Refusal := .next (flitRetry link s)
/-- FLIT_ACKNOWLEDGED (R419). -/
def execFlitAcknowledged (link : Nat) (s : State) : Host.Outcome State Fault Refusal := .next (flitAcknowledged link s)
/-- LINK_DETOUR (R422). -/
def execLinkDetour (link : Nat) (s : State) : Host.Outcome State Fault Refusal := .next (linkDetour link s)
/-- PAUSE_END (R276). -/
def execPauseEnd (quire : Nat) (pc : DWord) (frame : Nat) (s : State) : Host.Outcome State Fault Refusal :=
  .next (pauseEnd quire pc frame s)
/-- REACH_TIMEOUT (R411). -/
def execReachTimeout (quire pa : Nat) (s : State) : Host.Outcome State Fault Refusal := .next (reachTimeout quire pa s)
/-- SEQUENCER_TIMEOUT (R404). -/
def execSequencerTimeout (quire : Nat) (s : State) : Host.Outcome State Fault Refusal := .next (sequencerTimeout quire s)
/-- SEQUENCER_NUMBER (R402). -/
def execSequencerNumber (idx : Nat) (s : State) : Host.Outcome State Fault Refusal := .next (sequencerNumber idx s)
/-- HEARTBEAT (R405). -/
def execHeartbeat (src : Nat) (s : State) : Host.Outcome State Fault Refusal := .next (heartbeat src s)
/-- HEARTBEAT_MISS (R405). -/
def execHeartbeatMiss (observer src : Nat) (s : State) : Host.Outcome State Fault Refusal := .next (heartbeatMiss observer src s)
/-- EVICT (R409). -/
def execEvict (target : Nat) (s : State) : Host.Outcome State Fault Refusal := .next (evictNext target s)
/-- EVICTION_DISCOVERED (R407). -/
def execEvictionDiscovered (die : Nat) (s : State) : Host.Outcome State Fault Refusal := .next (evictionDiscovered die s)
/-- ADMIT (R407). -/
def execAdmission (target : Nat) (s : State) : Host.Outcome State Fault Refusal := .next (admitNext target s)
/-- INVAL (R362). -/
def execInval (die seq : Nat) (s : State) : Host.Outcome State Fault Refusal := .next (invalAt die seq s)
/-- ACK (R362). -/
def execAck (die seq : Nat) (s : State) : Host.Outcome State Fault Refusal := .next (ackAt die seq s)
/-- CKSHARD_COMPLETION (R415). -/
def execCkshardCompletion (op : Nat) (s : State) : Host.Outcome State Fault Refusal := .next (ckshardCompletion op s)
/-- SOFT_ERROR_CORRECTION (R366). -/
def execSoftErrorCorrection (die : Nat) (s : State) : Host.Outcome State Fault Refusal := .next (softErrorCorrection die s)
/-- DIE_FAILURE (R401). -/
def execDieFailure (target : Nat) (s : State) : Host.Outcome State Fault Refusal := .next (dieFailure target s)
/-- RV64_MEMORY_ACCESS (R199). -/
def execRv64MemoryAccess (a : Rv64Access) (s : State) : Host.Outcome State Fault Refusal := rv64MemoryAccess a s
/-- UNCORRECTABLE_ERROR (R375). -/
def execUncorrectableError (a : BadCell) (s : State) : Host.Outcome State Fault Refusal := .next (uncorrectableError a s)

end Sys2Proof.Machine
end

