-- ==== Sys2Proof/Machine/Dispatch.lean ====
section
/-! DEFINITION. The meaning of every instruction and event: one arm for each constructor. -/

namespace Sys2Proof.Machine

/-- One instruction or event, run on a state. -/
def exec (i : Instr) (s : State) : Host.Outcome State Fault Refusal :=
  match i with
  | .addLS o => Sys2Proof.Machine.execAddLS o s
  | .addLL o => Sys2Proof.Machine.execAddLL o s
  | .addLI o => Sys2Proof.Machine.execAddLI o s
  | .subLS o => Sys2Proof.Machine.execSubLS o s
  | .subLL o => Sys2Proof.Machine.execSubLL o s
  | .subLI o => Sys2Proof.Machine.execSubLI o s
  | .mulLS o => Sys2Proof.Machine.execMulLS o s
  | .mulLL o => Sys2Proof.Machine.execMulLL o s
  | .mulLI o => Sys2Proof.Machine.execMulLI o s
  | .madLL o => Sys2Proof.Machine.execMadLL o s
  | .divLS o => Sys2Proof.Machine.execDivLS o s
  | .divLL o => Sys2Proof.Machine.execDivLL o s
  | .divLI o => Sys2Proof.Machine.execDivLI o s
  | .remLS o => Sys2Proof.Machine.execRemLS o s
  | .remLL o => Sys2Proof.Machine.execRemLL o s
  | .remLI o => Sys2Proof.Machine.execRemLI o s
  | .minLS o => Sys2Proof.Machine.execMinLS o s
  | .minLL o => Sys2Proof.Machine.execMinLL o s
  | .minLI o => Sys2Proof.Machine.execMinLI o s
  | .maxLS o => Sys2Proof.Machine.execMaxLS o s
  | .maxLL o => Sys2Proof.Machine.execMaxLL o s
  | .maxLI o => Sys2Proof.Machine.execMaxLI o s
  | .andLS o => Sys2Proof.Machine.execAndLS o s
  | .andLL o => Sys2Proof.Machine.execAndLL o s
  | .andLI o => Sys2Proof.Machine.execAndLI o s
  | .orLS o => Sys2Proof.Machine.execOrLS o s
  | .orLL o => Sys2Proof.Machine.execOrLL o s
  | .orLI o => Sys2Proof.Machine.execOrLI o s
  | .xorLS o => Sys2Proof.Machine.execXorLS o s
  | .xorLL o => Sys2Proof.Machine.execXorLL o s
  | .xorLI o => Sys2Proof.Machine.execXorLI o s
  | .andnLS o => Sys2Proof.Machine.execAndnLS o s
  | .andnLL o => Sys2Proof.Machine.execAndnLL o s
  | .andnLI o => Sys2Proof.Machine.execAndnLI o s
  | .notLS o => Sys2Proof.Machine.execNotLS o s
  | .notLL o => Sys2Proof.Machine.execNotLL o s
  | .negLS o => Sys2Proof.Machine.execNegLS o s
  | .negLL o => Sys2Proof.Machine.execNegLL o s
  | .absLS o => Sys2Proof.Machine.execAbsLS o s
  | .absLL o => Sys2Proof.Machine.execAbsLL o s
  | .shlLS o => Sys2Proof.Machine.execShlLS o s
  | .shlLL o => Sys2Proof.Machine.execShlLL o s
  | .shlLI o => Sys2Proof.Machine.execShlLI o s
  | .shrLS o => Sys2Proof.Machine.execShrLS o s
  | .shrLL o => Sys2Proof.Machine.execShrLL o s
  | .shrLI o => Sys2Proof.Machine.execShrLI o s
  | .sarLS o => Sys2Proof.Machine.execSarLS o s
  | .sarLL o => Sys2Proof.Machine.execSarLL o s
  | .sarLI o => Sys2Proof.Machine.execSarLI o s
  | .rotLS o => Sys2Proof.Machine.execRotLS o s
  | .rotLL o => Sys2Proof.Machine.execRotLL o s
  | .rotLI o => Sys2Proof.Machine.execRotLI o s
  | .clzLS o => Sys2Proof.Machine.execClzLS o s
  | .clzLL o => Sys2Proof.Machine.execClzLL o s
  | .ctzLS o => Sys2Proof.Machine.execCtzLS o s
  | .ctzLL o => Sys2Proof.Machine.execCtzLL o s
  | .popcLS o => Sys2Proof.Machine.execPopcLS o s
  | .popcLL o => Sys2Proof.Machine.execPopcLL o s
  | .brevLS o => Sys2Proof.Machine.execBrevLS o s
  | .brevLL o => Sys2Proof.Machine.execBrevLL o s
  | .bfxLS o => Sys2Proof.Machine.execBfxLS o s
  | .bfxLL o => Sys2Proof.Machine.execBfxLL o s
  | .bfxLI o => Sys2Proof.Machine.execBfxLI o s
  | .bfiLL o => Sys2Proof.Machine.execBfiLL o s
  | .cmpLS o => Sys2Proof.Machine.execCmpLS o s
  | .cmpLL o => Sys2Proof.Machine.execCmpLL o s
  | .cmpLI o => Sys2Proof.Machine.execCmpLI o s
  | .selLL o => Sys2Proof.Machine.execSelLL o s
  | .movLS o => Sys2Proof.Machine.execMovLS o s
  | .movLL o => Sys2Proof.Machine.execMovLL o s
  | .moviLI o => Sys2Proof.Machine.execMoviLI o s
  | .faddLS o => Sys2Proof.Machine.execFaddLS o s
  | .faddLL o => Sys2Proof.Machine.execFaddLL o s
  | .faddLI o => Sys2Proof.Machine.execFaddLI o s
  | .fsubLS o => Sys2Proof.Machine.execFsubLS o s
  | .fsubLL o => Sys2Proof.Machine.execFsubLL o s
  | .fsubLI o => Sys2Proof.Machine.execFsubLI o s
  | .fmulLS o => Sys2Proof.Machine.execFmulLS o s
  | .fmulLL o => Sys2Proof.Machine.execFmulLL o s
  | .fmulLI o => Sys2Proof.Machine.execFmulLI o s
  | .fmaLL o => Sys2Proof.Machine.execFmaLL o s
  | .fdivLS o => Sys2Proof.Machine.execFdivLS o s
  | .fdivLL o => Sys2Proof.Machine.execFdivLL o s
  | .fsqrtLS o => Sys2Proof.Machine.execFsqrtLS o s
  | .fsqrtLL o => Sys2Proof.Machine.execFsqrtLL o s
  | .fminLS o => Sys2Proof.Machine.execFminLS o s
  | .fminLL o => Sys2Proof.Machine.execFminLL o s
  | .fminLI o => Sys2Proof.Machine.execFminLI o s
  | .fmaxLS o => Sys2Proof.Machine.execFmaxLS o s
  | .fmaxLL o => Sys2Proof.Machine.execFmaxLL o s
  | .fmaxLI o => Sys2Proof.Machine.execFmaxLI o s
  | .fminnLS o => Sys2Proof.Machine.execFminnLS o s
  | .fminnLL o => Sys2Proof.Machine.execFminnLL o s
  | .fminnLI o => Sys2Proof.Machine.execFminnLI o s
  | .fmaxnLS o => Sys2Proof.Machine.execFmaxnLS o s
  | .fmaxnLL o => Sys2Proof.Machine.execFmaxnLL o s
  | .fmaxnLI o => Sys2Proof.Machine.execFmaxnLI o s
  | .fminmLL o => Sys2Proof.Machine.execFminmLL o s
  | .fminmLI o => Sys2Proof.Machine.execFminmLI o s
  | .fmaxmLL o => Sys2Proof.Machine.execFmaxmLL o s
  | .fmaxmLI o => Sys2Proof.Machine.execFmaxmLI o s
  | .fabsLS o => Sys2Proof.Machine.execFabsLS o s
  | .fabsLL o => Sys2Proof.Machine.execFabsLL o s
  | .fnegLS o => Sys2Proof.Machine.execFnegLS o s
  | .fnegLL o => Sys2Proof.Machine.execFnegLL o s
  | .fcpysLS o => Sys2Proof.Machine.execFcpysLS o s
  | .fcpysLL o => Sys2Proof.Machine.execFcpysLL o s
  | .fcmpLS o => Sys2Proof.Machine.execFcmpLS o s
  | .fcmpLL o => Sys2Proof.Machine.execFcmpLL o s
  | .fcmpLI o => Sys2Proof.Machine.execFcmpLI o s
  | .fclassLS o => Sys2Proof.Machine.execFclassLS o s
  | .fclassLL o => Sys2Proof.Machine.execFclassLL o s
  | .fcvtLL o => Sys2Proof.Machine.execFcvtLL o s
  | .fcvtiLS o => Sys2Proof.Machine.execFcvtiLS o s
  | .fcvtiLL o => Sys2Proof.Machine.execFcvtiLL o s
  | .icvtfLS o => Sys2Proof.Machine.execIcvtfLS o s
  | .icvtfLL o => Sys2Proof.Machine.execIcvtfLL o s
  | .frintLS o => Sys2Proof.Machine.execFrintLS o s
  | .frintLL o => Sys2Proof.Machine.execFrintLL o s
  | .fexpiLS o => Sys2Proof.Machine.execFexpiLS o s
  | .fexpiLL o => Sys2Proof.Machine.execFexpiLL o s
  | .fexpiLI o => Sys2Proof.Machine.execFexpiLI o s
  | .fexpxLS o => Sys2Proof.Machine.execFexpxLS o s
  | .fexpxLL o => Sys2Proof.Machine.execFexpxLL o s
  | .fexp2fLS o => Sys2Proof.Machine.execFexp2fLS o s
  | .fexp2fLL o => Sys2Proof.Machine.execFexp2fLL o s
  | .flog2fLS o => Sys2Proof.Machine.execFlog2fLS o s
  | .flog2fLL o => Sys2Proof.Machine.execFlog2fLL o s
  | .fsinpifLS o => Sys2Proof.Machine.execFsinpifLS o s
  | .fsinpifLL o => Sys2Proof.Machine.execFsinpifLL o s
  | .fcospifLS o => Sys2Proof.Machine.execFcospifLS o s
  | .fcospifLL o => Sys2Proof.Machine.execFcospifLL o s
  | .fseedrLS o => Sys2Proof.Machine.execFseedrLS o s
  | .fseedrLL o => Sys2Proof.Machine.execFseedrLL o s
  | .fseedqLS o => Sys2Proof.Machine.execFseedqLS o s
  | .fseedqLL o => Sys2Proof.Machine.execFseedqLL o s
  | .ldLS o m2 => Sys2Proof.Machine.execLdLS o m2 s
  | .ldLL o => Sys2Proof.Machine.execLdLL o s
  | .ldLI o => Sys2Proof.Machine.execLdLI o s
  | .stLS o m2 => Sys2Proof.Machine.execStLS o m2 s
  | .stLL o => Sys2Proof.Machine.execStLL o s
  | .stLI o => Sys2Proof.Machine.execStLI o s
  | .ldsLS o m2 => Sys2Proof.Machine.execLdsLS o m2 s
  | .ldsLL o => Sys2Proof.Machine.execLdsLL o s
  | .ldsLI o => Sys2Proof.Machine.execLdsLI o s
  | .stsLS o m2 => Sys2Proof.Machine.execStsLS o m2 s
  | .stsLL o => Sys2Proof.Machine.execStsLL o s
  | .stsLI o => Sys2Proof.Machine.execStsLI o s
  | .prefLS o => Sys2Proof.Machine.execPrefLS o s
  | .prefLL o => Sys2Proof.Machine.execPrefLL o s
  | .dscLS o => Sys2Proof.Machine.execDscLS o s
  | .dscLL o => Sys2Proof.Machine.execDscLL o s
  | .cwbLS o => Sys2Proof.Machine.execCwbLS o s
  | .cwbLL o => Sys2Proof.Machine.execCwbLL o s
  | .atomLL o => Sys2Proof.Machine.execAtomLL o s
  | .casLL o => Sys2Proof.Machine.execCasLL o s
  | .redLL o => Sys2Proof.Machine.execRedLL o s
  | .shflLS o m2 => Sys2Proof.Machine.execShflLS o m2 s
  | .shflLL o => Sys2Proof.Machine.execShflLL o s
  | .shflLI o => Sys2Proof.Machine.execShflLI o s
  | .voteLL o => Sys2Proof.Machine.execVoteLL o s
  | .bcastLS o => Sys2Proof.Machine.execBcastLS o s
  | .bcastLL o => Sys2Proof.Machine.execBcastLL o s
  | .lidLS o => Sys2Proof.Machine.execLidLS o s
  | .lidLL o => Sys2Proof.Machine.execLidLL o s
  | .vtagLS o => Sys2Proof.Machine.execVtagLS o s
  | .vtagLL o => Sys2Proof.Machine.execVtagLL o s
  | .addrLS o m2 => Sys2Proof.Machine.execAddrLS o m2 s
  | .addrLL o => Sys2Proof.Machine.execAddrLL o s
  | .addrLI o => Sys2Proof.Machine.execAddrLI o s
  | .braLI o => Sys2Proof.Machine.execBraLI o s
  | .gatherLI o => Sys2Proof.Machine.execGatherLI o s
  | .fspawnLI o => Sys2Proof.Machine.execFspawnLI o s
  | .fexitLS o => Sys2Proof.Machine.execFexitLS o s
  | .callLI o => Sys2Proof.Machine.execCallLI o s
  | .retLS o => Sys2Proof.Machine.execRetLS o s
  | .fmarkLI o => Sys2Proof.Machine.execFmarkLI o s
  | .unwindLS o => Sys2Proof.Machine.execUnwindLS o s
  | .brxLS o => Sys2Proof.Machine.execBrxLS o s
  | .brxLL o => Sys2Proof.Machine.execBrxLL o s
  | .icvtLL o => Sys2Proof.Machine.execIcvtLL o s
  | .icvtLI o => Sys2Proof.Machine.execIcvtLI o s
  | .mreadLL o => Sys2Proof.Machine.execMreadLL o s
  | .mwriteLL o => Sys2Proof.Machine.execMwriteLL o s
  | .mtkreadLL o => Sys2Proof.Machine.execMtkreadLL o s
  | .saddUS o => Sys2Proof.Machine.execSaddUS o s
  | .saddUL o => Sys2Proof.Machine.execSaddUL o s
  | .saddUI o => Sys2Proof.Machine.execSaddUI o s
  | .ssubUS o => Sys2Proof.Machine.execSsubUS o s
  | .ssubUL o => Sys2Proof.Machine.execSsubUL o s
  | .ssubUI o => Sys2Proof.Machine.execSsubUI o s
  | .smulUS o => Sys2Proof.Machine.execSmulUS o s
  | .smulUL o => Sys2Proof.Machine.execSmulUL o s
  | .smulUI o => Sys2Proof.Machine.execSmulUI o s
  | .sdivUS o => Sys2Proof.Machine.execSdivUS o s
  | .sdivUL o => Sys2Proof.Machine.execSdivUL o s
  | .sdivUI o => Sys2Proof.Machine.execSdivUI o s
  | .sremUS o => Sys2Proof.Machine.execSremUS o s
  | .sremUL o => Sys2Proof.Machine.execSremUL o s
  | .sremUI o => Sys2Proof.Machine.execSremUI o s
  | .sminUS o => Sys2Proof.Machine.execSminUS o s
  | .sminUL o => Sys2Proof.Machine.execSminUL o s
  | .sminUI o => Sys2Proof.Machine.execSminUI o s
  | .smaxUS o => Sys2Proof.Machine.execSmaxUS o s
  | .smaxUL o => Sys2Proof.Machine.execSmaxUL o s
  | .smaxUI o => Sys2Proof.Machine.execSmaxUI o s
  | .sandUS o => Sys2Proof.Machine.execSandUS o s
  | .sandUL o => Sys2Proof.Machine.execSandUL o s
  | .sandUI o => Sys2Proof.Machine.execSandUI o s
  | .sorUS o => Sys2Proof.Machine.execSorUS o s
  | .sorUL o => Sys2Proof.Machine.execSorUL o s
  | .sorUI o => Sys2Proof.Machine.execSorUI o s
  | .sxorUS o => Sys2Proof.Machine.execSxorUS o s
  | .sxorUL o => Sys2Proof.Machine.execSxorUL o s
  | .sxorUI o => Sys2Proof.Machine.execSxorUI o s
  | .sandnUS o => Sys2Proof.Machine.execSandnUS o s
  | .sandnUL o => Sys2Proof.Machine.execSandnUL o s
  | .sandnUI o => Sys2Proof.Machine.execSandnUI o s
  | .sshlUS o => Sys2Proof.Machine.execSshlUS o s
  | .sshlUL o => Sys2Proof.Machine.execSshlUL o s
  | .sshlUI o => Sys2Proof.Machine.execSshlUI o s
  | .sshrUS o => Sys2Proof.Machine.execSshrUS o s
  | .sshrUL o => Sys2Proof.Machine.execSshrUL o s
  | .sshrUI o => Sys2Proof.Machine.execSshrUI o s
  | .ssarUS o => Sys2Proof.Machine.execSsarUS o s
  | .ssarUL o => Sys2Proof.Machine.execSsarUL o s
  | .ssarUI o => Sys2Proof.Machine.execSsarUI o s
  | .srotUS o => Sys2Proof.Machine.execSrotUS o s
  | .srotUL o => Sys2Proof.Machine.execSrotUL o s
  | .srotUI o => Sys2Proof.Machine.execSrotUI o s
  | .sclzUS o => Sys2Proof.Machine.execSclzUS o s
  | .sclzUL o => Sys2Proof.Machine.execSclzUL o s
  | .sctzUS o => Sys2Proof.Machine.execSctzUS o s
  | .sctzUL o => Sys2Proof.Machine.execSctzUL o s
  | .spopcUS o => Sys2Proof.Machine.execSpopcUS o s
  | .spopcUL o => Sys2Proof.Machine.execSpopcUL o s
  | .scmpUS o => Sys2Proof.Machine.execScmpUS o s
  | .scmpUL o => Sys2Proof.Machine.execScmpUL o s
  | .scmpUI o => Sys2Proof.Machine.execScmpUI o s
  | .sselUL o => Sys2Proof.Machine.execSselUL o s
  | .smovUS o => Sys2Proof.Machine.execSmovUS o s
  | .smovUL o => Sys2Proof.Machine.execSmovUL o s
  | .smoviUI o => Sys2Proof.Machine.execSmoviUI o s
  | .sgetUS o => Sys2Proof.Machine.execSgetUS o s
  | .sgetUL o => Sys2Proof.Machine.execSgetUL o s
  | .sbfxUS o => Sys2Proof.Machine.execSbfxUS o s
  | .sbfxUL o => Sys2Proof.Machine.execSbfxUL o s
  | .sbfxUI o => Sys2Proof.Machine.execSbfxUI o s
  | .sfaddUS o => Sys2Proof.Machine.execSfaddUS o s
  | .sfaddUL o => Sys2Proof.Machine.execSfaddUL o s
  | .sfaddUI o => Sys2Proof.Machine.execSfaddUI o s
  | .sfsubUS o => Sys2Proof.Machine.execSfsubUS o s
  | .sfsubUL o => Sys2Proof.Machine.execSfsubUL o s
  | .sfsubUI o => Sys2Proof.Machine.execSfsubUI o s
  | .sfmulUS o => Sys2Proof.Machine.execSfmulUS o s
  | .sfmulUL o => Sys2Proof.Machine.execSfmulUL o s
  | .sfmulUI o => Sys2Proof.Machine.execSfmulUI o s
  | .sfmaUL o => Sys2Proof.Machine.execSfmaUL o s
  | .sfcmpUS o => Sys2Proof.Machine.execSfcmpUS o s
  | .sfcmpUL o => Sys2Proof.Machine.execSfcmpUL o s
  | .sfcmpUI o => Sys2Proof.Machine.execSfcmpUI o s
  | .sfcvtUL o => Sys2Proof.Machine.execSfcvtUL o s
  | .sfdivUS o => Sys2Proof.Machine.execSfdivUS o s
  | .sfdivUL o => Sys2Proof.Machine.execSfdivUL o s
  | .sfsqrtUS o => Sys2Proof.Machine.execSfsqrtUS o s
  | .sfsqrtUL o => Sys2Proof.Machine.execSfsqrtUL o s
  | .sldUS o m2 => Sys2Proof.Machine.execSldUS o m2 s
  | .sldUL o => Sys2Proof.Machine.execSldUL o s
  | .sldUI o => Sys2Proof.Machine.execSldUI o s
  | .sstUS o m2 => Sys2Proof.Machine.execSstUS o m2 s
  | .sstUL o => Sys2Proof.Machine.execSstUL o s
  | .sstUI o => Sys2Proof.Machine.execSstUI o s
  | .satomUL o => Sys2Proof.Machine.execSatomUL o s
  | .scasUL o => Sys2Proof.Machine.execScasUL o s
  | .cpUL o => Sys2Proof.Machine.execCpUL o s
  | .cpmUL o => Sys2Proof.Machine.execCpmUL o s
  | .twaitUS o => Sys2Proof.Machine.execTwaitUS o s
  | .twaitUI o => Sys2Proof.Machine.execTwaitUI o s
  | .ttestUS o => Sys2Proof.Machine.execTtestUS o s
  | .ttestUI o => Sys2Proof.Machine.execTtestUI o s
  | .cconnUS o => Sys2Proof.Machine.execCconnUS o s
  | .tsendUL o => Sys2Proof.Machine.execTsendUL o s
  | .trecvUL o => Sys2Proof.Machine.execTrecvUL o s
  | .fenceUS o => Sys2Proof.Machine.execFenceUS o s
  | .xfenceUS o => Sys2Proof.Machine.execXfenceUS o s
  | .sgangUS o => Sys2Proof.Machine.execSgangUS o s
  | .mmaUL o => Sys2Proof.Machine.execMmaUL o s
  | .mdistUL o => Sys2Proof.Machine.execMdistUL o s
  | .mtopkUL o => Sys2Proof.Machine.execMtopkUL o s
  | .mzeroUS o => Sys2Proof.Machine.execMzeroUS o s
  | .mflagUS o m2 => Sys2Proof.Machine.execMflagUS o m2 s
  | .barUS o m2 => Sys2Proof.Machine.execBarUS o m2 s
  | .barriveUS o => Sys2Proof.Machine.execBarriveUS o s
  | .bwaitUS o => Sys2Proof.Machine.execBwaitUS o s
  | .qinitUS o => Sys2Proof.Machine.execQinitUS o s
  | .qallowUS o => Sys2Proof.Machine.execQallowUS o s
  | .qpushUS o m2 => Sys2Proof.Machine.execQpushUS o m2 s
  | .qpopUS o m2 => Sys2Proof.Machine.execQpopUS o m2 s
  | .cinitUL o => Sys2Proof.Machine.execCinitUL o s
  | .cdropUS o => Sys2Proof.Machine.execCdropUS o s
  | .ctakeUS o => Sys2Proof.Machine.execCtakeUS o s
  | .ctakeUL o => Sys2Proof.Machine.execCtakeUL o s
  | .ctakeUI o => Sys2Proof.Machine.execCtakeUI o s
  | .cgiveUS o => Sys2Proof.Machine.execCgiveUS o s
  | .cgiveUL o => Sys2Proof.Machine.execCgiveUL o s
  | .cgiveUI o => Sys2Proof.Machine.execCgiveUI o s
  | .cexactUS o => Sys2Proof.Machine.execCexactUS o s
  | .subscribeUS o => Sys2Proof.Machine.execSubscribeUS o s
  | .subscribeUL o => Sys2Proof.Machine.execSubscribeUL o s
  | .unsubUS o => Sys2Proof.Machine.execUnsubUS o s
  | .sflushUS o => Sys2Proof.Machine.execSflushUS o s
  | .carveUS o => Sys2Proof.Machine.execCarveUS o s
  | .sbrUI o => Sys2Proof.Machine.execSbrUI o s
  | .sjmpUS o => Sys2Proof.Machine.execSjmpUS o s
  | .sbrxUS o => Sys2Proof.Machine.execSbrxUS o s
  | .slaunchUL o => Sys2Proof.Machine.execSlaunchUL o s
  | .ssignalUS o => Sys2Proof.Machine.execSsignalUS o s
  | .nopUS o => Sys2Proof.Machine.execNopUS o s
  | .pauseUS o => Sys2Proof.Machine.execPauseUS o s
  | .yieldUS o => Sys2Proof.Machine.execYieldUS o s
  | .haltUS o => Sys2Proof.Machine.execHaltUS o s
  | .sysUS o => Sys2Proof.Machine.execSysUS o s
  | .trapUS o => Sys2Proof.Machine.execTrapUS o s
  | .fresumeUS o => Sys2Proof.Machine.execFresumeUS o s
  | .fkillUS o => Sys2Proof.Machine.execFkillUS o s
  | .pmapUS o => Sys2Proof.Machine.execPmapUS o s
  | .rdsrUS o => Sys2Proof.Machine.execRdsrUS o s
  | .wrsrUS o => Sys2Proof.Machine.execWrsrUS o s
  | .eretUS o => Sys2Proof.Machine.execEretUS o s
  | .msendUS o => Sys2Proof.Machine.execMsendUS o s
  | .mrecvUS o => Sys2Proof.Machine.execMrecvUS o s
  | .ckbeginUS o => Sys2Proof.Machine.execCkbeginUS o s
  | .ckshardUL o => Sys2Proof.Machine.execCkshardUL o s
  | .ckcommitUS o => Sys2Proof.Machine.execCkcommitUS o s
  | .linkctlStatus o => Sys2Proof.Machine.execLinkctlStatus o s
  | .linkctlPause o => Sys2Proof.Machine.execLinkctlPause o s
  | .linkctlRepair o => Sys2Proof.Machine.execLinkctlRepair o s
  | .linkctlRetrain o => Sys2Proof.Machine.execLinkctlRetrain o s
  | .linkctlResume o => Sys2Proof.Machine.execLinkctlResume o s
  | .tlbctlUS o => Sys2Proof.Machine.execTlbctlUS o s
  | .reservedWord w0 w1 => Sys2Proof.Machine.execReservedWord w0 w1 s
  | .lqctl die v => Sys2Proof.Machine.execLqctl die v s
  | .keycmdProgram die => Sys2Proof.Machine.execKeycmdProgram die s
  | .keycmdErase die => Sys2Proof.Machine.execKeycmdErase die s
  | .latecntClear die => Sys2Proof.Machine.execLatecntClear die s
  | .rhmapClear die d => Sys2Proof.Machine.execRhmapClear die d s
  | .registerWrite die num v => Sys2Proof.Machine.execRegisterWrite die num v s
  | .powerOn => Sys2Proof.Machine.execPowerOn s
  | .imageRefetch => Sys2Proof.Machine.execImageRefetch s
  | .permitGrant op => Sys2Proof.Machine.execPermitGrant op s
  | .thermalHold => Sys2Proof.Machine.execThermalHold s
  | .thermalTrip => Sys2Proof.Machine.execThermalTrip s
  | .registrarBind a => Sys2Proof.Machine.execRegistrarBind a s
  | .volumeStart die vgid => Sys2Proof.Machine.execVolumeStart die vgid s
  | .preemptSave fid => Sys2Proof.Machine.execPreemptSave fid s
  | .restore fid core qbase => Sys2Proof.Machine.execRestore fid core qbase s
  | .gatherRelease quire pc frame => Sys2Proof.Machine.execGatherRelease quire pc frame s
  | .frameArchive quire frame => Sys2Proof.Machine.execFrameArchive quire frame s
  | .frameRefill quire frame => Sys2Proof.Machine.execFrameRefill quire frame s
  | .carveApply fid => Sys2Proof.Machine.execCarveApply fid s
  | .matrixChunk op => Sys2Proof.Machine.execMatrixChunk op s
  | .copySegment op => Sys2Proof.Machine.execCopySegment op s
  | .tileDelivery snd rcv => Sys2Proof.Machine.execTileDelivery snd rcv s
  | .inboundWrite idx => Sys2Proof.Machine.execInboundWrite idx s
  | .counterHomeRequest pa => Sys2Proof.Machine.execCounterHomeRequest pa s
  | .redPartialEviction idx => Sys2Proof.Machine.execRedPartialEviction idx s
  | .redRecall line => Sys2Proof.Machine.execRedRecall line s
  | .peerProbe die cluster line => Sys2Proof.Machine.execPeerProbe die cluster line s
  | .l2BypassRead die line => Sys2Proof.Machine.execL2BypassRead die line s
  | .lineFill die line => Sys2Proof.Machine.execLineFill die line s
  | .lineWriteBack die line => Sys2Proof.Machine.execLineWriteBack die line s
  | .faultRecord who => Sys2Proof.Machine.execFaultRecord who s
  | .handlerFolioStart fh core qbase => Sys2Proof.Machine.execHandlerFolioStart fh core qbase s
  | .curatorTrapEntry die idx => Sys2Proof.Machine.execCuratorTrapEntry die idx s
  | .curatorTimer die idx => Sys2Proof.Machine.execCuratorTimer die idx s
  | .flitRetry link => Sys2Proof.Machine.execFlitRetry link s
  | .linkDetour link => Sys2Proof.Machine.execLinkDetour link s
  | .pauseEnd quire pc frame => Sys2Proof.Machine.execPauseEnd quire pc frame s
  | .reachTimeout quire pa => Sys2Proof.Machine.execReachTimeout quire pa s
  | .sequencerTimeout quire => Sys2Proof.Machine.execSequencerTimeout quire s
  | .sequencerNumber idx => Sys2Proof.Machine.execSequencerNumber idx s
  | .heartbeat src => Sys2Proof.Machine.execHeartbeat src s
  | .heartbeatMiss observer src => Sys2Proof.Machine.execHeartbeatMiss observer src s
  | .evict target => Sys2Proof.Machine.execEvict target s
  | .evictionDiscovered die => Sys2Proof.Machine.execEvictionDiscovered die s
  | .admission target => Sys2Proof.Machine.execAdmission target s
  | .inval die seq => Sys2Proof.Machine.execInval die seq s
  | .ack die seq => Sys2Proof.Machine.execAck die seq s
  | .ckshardCompletion op => Sys2Proof.Machine.execCkshardCompletion op s
  | .softErrorCorrection die => Sys2Proof.Machine.execSoftErrorCorrection die s
  | .temperatureFalls => Sys2Proof.Machine.execTemperatureFalls s
  | .dieFailure target => Sys2Proof.Machine.execDieFailure target s
  | .rv64MemoryAccess a => Sys2Proof.Machine.execRv64MemoryAccess a s
  | .uncorrectableError a => Sys2Proof.Machine.execUncorrectableError a s
  | .flitAcknowledged link => Sys2Proof.Machine.execFlitAcknowledged link s

end Sys2Proof.Machine
end

