-- ==== Sys2Proof/Machine/Issue.lean ====
section
/-! DEFINITION. What may happen next: the batch that each sub-scheduler may issue (R22, R316, R319), the events of the device
that are enabled, and what follows every step. Machine/Step.lean picks one of them. -/

namespace Sys2Proof.Machine

/-! ## Batches that may issue (R22, R316, R319) -/

/-- A fibre's batch may issue: no access holds its quire, its wait, if any, is over, and its frame is not archived. A `call` that
waits for a run goes on with its own frame archived (R337 step 2). -/
def State.mayIssue (s : State) (q : Quire) (f : Fibre) : Bool :=
  !f.parked &&
  match q.waits.find? (fun w => w.pc = f.pc && w.frame = f.frame) with
  | none => !q.waits.any Wait.mayTrap && (q.frame f.frame).arch = none
  | some w => (w.mayTrap || !q.waits.any Wait.mayTrap) && s.waitReady q w && (w.forRun || (q.frame f.frame).arch = none)

/-- The order of R22: greatest depth, then lowest pc, then lowest window base. -/
def Quire.issueKey (q : Quire) (f : Fibre) : Nat :=
  ((65535 - f.depth) * 2 ^ 64 + f.pc.toNat) * 2 ^ 16 + (q.frame f.frame).base

/-- The batch of a quire that would issue next (R22): its pc and frame. -/
def State.nextBatch (s : State) (q : Quire) : Option (DWord × Nat) :=
  if q.uid = 0 || q.held.isSome || q.pend.isSome || !s.live (s.folio q.fid).die then none
  else ((sortOn q.issueKey (q.fibres.filter (s.mayIssue q))).head?).map (fun f => (f.pc, f.frame))

/-- The engine port of its core that a word needs (R35, R317): 0 load/store, 1 special function, 2 matrix engine, 3 copy queue. -/
def wordPort (w : Word) : Option Nat :=
  let op := opOf w
  if isUniform w then
    if op = 0x10 ∨ op = 0x11 ∨ op = 0x12 then some 0
    else if op = 0x13 ∨ op = 0x14 then some 3
    else if 0x19 ≤ op ∧ op ≤ 0x1D then some 2
    else none
  else if 0x20 ≤ op ∧ op ≤ 0x27 then some 0
  else if 0x1D ≤ op ∧ op ≤ 0x1F then some 1
  else if op = 0x35 ∨ op = 0x37 then some 0
  else if op = 0x36 then some 2
  else none

/-- The units that a word asks for as a `call` (R336). -/
noncomputable def callUnits (w : Word × Word) : Option Nat :=
  match parse w.1 w.2 with | some (.callLI o) => some (fieldOf o.d 4 0) | _ => none

/-- The words with which a blocked batch goes on in its instruction: those that it was fetched with (R66). -/
def Quire.kept (q : Quire) (pc : DWord) (frame : Nat) : Option (Word × Word) :=
  (q.waits.find? (fun w => w.pc = pc && w.frame = frame && w.inside)).map (·.word)
/-- The next words of a batch of a quire, none where they cannot be read. -/
def State.wordsOf (s : State) (q : Quire) (pc : DWord) (frame : Nat) : Option (Word × Word) :=
  match q.kept pc frame with
  | some w => some w
  | none => match s.fetch q.fid pc.toNat with | .words w0 w1 _ => some (w0, w1) | _ => none

/-- A quire that asks its sub-scheduler for an issue: what the rules of R316, R317 and R345 look at. `words` are the next words,
none where they cannot be read, `base` the base of the window. -/
structure Cand where
  uid    : Nat
  fid    : Nat
  pc     : DWord
  frame  : Nat
  base   : Nat
  sched  : Nat
  slot   : Nat
  stamp  : Nat
  passed : Bool
  words  : Option (Word × Word)
  deriving DecidableEq, Repr

/-- The candidates of every sub-scheduler. -/
def State.cands (s : State) : List Cand :=
  s.quires.filterMap (fun q => (s.nextBatch q).map (fun b =>
    { uid := q.uid, fid := q.fid, pc := b.1, frame := b.2, base := (q.frame b.2).base
      sched := ((s.folio q.fid).die * 512 + (s.folio q.fid).core) * 4 + q.slot / 8
      slot := q.slot, stamp := q.stamp, passed := q.passed, words := s.wordsOf q b.1 b.2 }))

/-- The candidate has a word of a kind, uniform or lane; where no word can be read it stands for both. -/
def Cand.has (c : Cand) (uni : Bool) : Bool := match c.words with | some w => isUniform w.1 == uni | none => true
/-- The engine port that it needs. -/
def Cand.port (c : Cand) : Option Nat := c.words.bind (fun w => wordPort w.1)
/-- Two candidates need the same port of a register bank (log 109). -/
noncomputable def Cand.clash (x c : Cand) : Bool :=
  match x.words, c.words with
  | some v, some w => Config.bankClash (v.1, x.base) (w.1, c.base) || Config.bankClash (w.1, c.base) (v.1, x.base)
  | _, _ => false
/-- The older of two candidates: of equal stamps, the lower quire slot (R321). -/
def Cand.older (x c : Cand) : Bool := x.stamp < c.stamp || (x.stamp = c.stamp && x.slot < c.slot)
/-- Two candidates of different sub-schedulers of one core need the same port (R317). -/
noncomputable def Cand.rivals (x c : Cand) : Bool :=
  x.sched ≠ c.sched && x.sched / 4 = c.sched / 4 && ((x.port.isSome && x.port = c.port) || x.clash c)
/-- Two candidates of a folio are calls, and the run that the first takes leaves none for the second (R345). -/
noncomputable def State.lastRun (s : State) (x c : Cand) : Bool :=
  x.uid ≠ c.uid && x.fid = c.fid &&
  match x.words.bind callUnits, c.words.bind callUnits with
  | some u, some v =>
    (match s.frameRun x.fid u with
     | some b => (s.frameRun x.fid v).isSome && (freeRun (s.takenRuns x.fid [] ++ [(b, u)]) (s.folio x.fid).frameUnits v).isNone
     | none => false)
  | _, _ => false

/-- The candidates that R316 allows: for some kind, no other quire of the sub-scheduler with a word of that kind is older. -/
def State.oldest (s : State) : List Cand :=
  let cs := s.cands
  cs.filter (fun c => [false, true].any (fun k => c.has k && cs.all (fun x => x.sched ≠ c.sched || !x.has k || !x.older c)))

/-- Of them those that R317 and R345 allow: at its port none goes before, which is one that was passed over there, else the older;
and no older call takes the last run. -/
noncomputable def State.issues (s : State) : List Cand :=
  let cs := s.oldest
  cs.filter (fun c => cs.all (fun x =>
    (!x.rivals c || (if x.passed = c.passed then !x.older c else c.passed)) && !(s.lastRun x c && x.older c)))

/-- When a batch takes a port, those that it passes over are first there next (R317); a quire of its core that asks for nothing now
is not. -/
noncomputable def State.passOver (s : State) (uid : Nat) : State :=
  let cs := s.oldest
  match cs.find? (fun c => c.uid = uid) with
  | none => s
  | some c =>
    let mark := fun (q : Quire) =>
      match cs.find? (fun x => x.uid = q.uid) with
      | some x => if x.rivals c then { q with passed := true } else q
      | none => if q.uid ≠ 0 ∧ (s.folio q.fid).die * 512 + (s.folio q.fid).core = c.sched / 4 then { q with passed := false } else q
    { s with q := mark s.q, rest := s.rest.map mark }

/-- The batch goes in front as the issuing one, with a new stamp (R316). -/
noncomputable def State.prepare (s : State) (uid : Nat) (pc : DWord) (frame : Nat) : State :=
  let t := (s.passOver uid).focus uid
  { t with sel := (pc, frame), q := { t.q with stamp := t.clock, yielded := false, passed := false } }

/-- The issuing batch runs its words (R48, R63). The first word of a long form that does not lie at a multiple of 8 is no
instruction (R49). -/
noncomputable def runWords (w0 w1 : Word) (s : State) : Host.Outcome State Fault Refusal :=
  let s1 : State := { s with word := (w0, w1) }
  match if s.pc.toNat % 8 = 4 && isLong w0 then none else parse w0 w1 with
  | some i => exec i s1
  | none => exec (.reservedWord w0 w1) s1
/-- The issuing batch goes on with the words that it has, or fetches its words, and runs them (R66). -/
noncomputable def runBatch (s : State) : Host.Outcome State Fault Refusal :=
  match s.q.kept s.sel.1 s.sel.2 with
  | some w => runWords w.1 w.2 s
  | none => match s.fetch s.q.fid s.pc.toNat with
    | .stop c ea => .next (s.fetchTrap c ea)
    | .waits ea => .next (s.block (.fetch ea) 4 (s.fetchRecord 0x142 ea))
    | .words w0 w1 t => runWords w0 w1 ((s.cacheTarget s.q.fid .core t).touchCore .l1 false t)

/-! ## Events that may happen -/

/-- The firmware's placements for a unit: in each open cluster, by first fit. -/
noncomputable def State.bindEvents (s : State) (d : Nat) : List Instr :=
  (match s.nextUnit d with
   | some (c, u) => (s.placesOf d c u).map (fun ps => .registrarBind (.bind d u.coll u.shelf u.vol (ps.map (·.1)) (ps.map (·.2))))
   | none => [])
  ++ (s.folios.filter (fun x => x.die = d && x.kind = .normal && (s.die d).slots.any (fun b => b.core = x.core && b.state = 1))).map (fun x => .registrarBind (.preempt x.fid))

/-- The events of one die's firmware and fault delivery. -/
noncomputable def State.dieEvents (s : State) (d : Nat) : List Instr :=
  if s.castOut && (s.die d).admitted then [.evictionDiscovered d]
  else if !s.live d then
    let z := s.die d
    if z.admitted || (z == ({ incarn := z.incarn, rehome := z.rehome } : Die) && s.everyFolio.all (fun x => x.die ≠ d)) then []
    else [.evictionDiscovered d]
  else
    [s.bindEvents d,
     (s.die d).slots.map (fun b => .volumeStart d b.index),
     (s.die d).handlers.flatMap (fun h =>
        (s.handlerSpots d).map (fun p => .handlerFolioStart (d * 2 ^ 32 + handleOf h.index h.gen) p.1 p.2)),
     (List.range 4).filterMap (fun i => if ((s.die d).asyncCause i).isSome then some (.curatorTrapEntry d i) else none),
     (s.saved.filter (fun v => !v.step7)).flatMap (fun v => match v.folios with
        | x :: _ => (List.range 16).filterMap (fun cl =>
            ((s.fitCluster d cl (v.folios.map (fun y => (y.qcnt, y.carve)))).bind List.head?).map (fun p => .restore x.fid (d * 512 + p.1) p.2))
        | [] => []),
     (s.saved.filter (fun v => v.step7 && (v.folios.headD noFolio).die = d)).flatMap (fun v => (v.folios.take 1).map (fun x => .preemptSave x.fid)),
     (s.die d).copies.map (fun c => .lineWriteBack d c.line),
     (s.class_.filter (fun x => x.1 / 2 ^ 46 = d && s.isHome d (x.1 % 2 ^ 46 * 64))).map (fun x => .lineWriteBack d (x.1 % 2 ^ 46)),
     ((s.die d).clines.filter (fun x => x.2 = 1)).flatMap (fun x => (List.range 16).map (fun cl => .peerProbe d cl (x.1 % 2 ^ 46)))].flatten

/-- The events of a quire: its gather points, its archived frames, its pauses, its faults and its accesses without a home. -/
noncomputable def State.quireEvents (s : State) (q : Quire) : List Instr :=
  [(q.fibres.filter (·.parked)).map (fun f => .gatherRelease q.uid f.pc f.frame),
   (s.needsRefill q).map (fun p => .frameRefill q.uid p.2),
   if q.pend.isSome then [.faultRecord q.uid] else [],
   q.waits.filterMap (fun w => match w.kind with
      | .pause => some (.pauseEnd q.uid w.pc w.frame)
      | .reach ea _ | .fetch ea => some (.reachTimeout q.uid ea)
      | .msend => some (.sequencerTimeout q.uid)
      | _ => none)].flatten

/-- The events of a folio: its frame pool, its split, its save. -/
noncomputable def State.folioEvents (s : State) (x : Folio) : List Instr :=
  [match s.archiveFor x.fid with | some (_, u, i) => [.frameArchive u i] | none => [],
   if x.carveRq.isSome then [.carveApply x.fid] else [],
   if s.saveAsked x then [.preemptSave x.fid] else []].flatten

/-- The events of the engines: permits, chunks, segments, tiles and writes on their way. A die that holds its traffic has none (R406). -/
noncomputable def State.engineEvents (s : State) : List Instr :=
  [s.permits.map (fun h => .permitGrant h.id),
   (s.matops.filter (fun o => s.live (s.folio o.fid).die)).flatMap (fun o =>
      .matrixChunk o.id :: ((match chunkStop (s.chunkRows o) with | some (x, .waits) => [.reachTimeout o.id x.ea] | _ => [])
        ++ (if o.pend.isSome then [.faultRecord o.id] else []))),
   (s.copies.filter (fun c => s.live (s.folio c.fid).die)).flatMap (fun c =>
      .copySegment c.id :: .reachTimeout c.id (Side.at ⟨c.src, c.spitch⟩ c.rowBytes c.pos)
        :: .reachTimeout c.id (Side.at ⟨c.dst, c.dpitch⟩ c.rowBytes c.pos) :: (if c.pend.isSome then [.faultRecord c.id] else [])),
   (s.tiles.filter (fun a => a.send && s.live a.die)).flatMap (fun a =>
      .tileDelivery a.id 0 :: (s.tiles.filter (fun b => s.tilesMatch a b && s.live b.die)).map (fun b => .tileDelivery a.id b.id)),
   (s.tiles.filter (fun b => !b.send && s.live b.die)).map (fun b => .tileDelivery 0 b.id),
   (s.inbound.zipIdx.filter (fun w => s.live w.1.die)).map (fun w => .inboundWrite w.2),
   (s.shards.filter (fun x => s.live x.die)).map (fun x => .ckshardCompletion x.id)].flatten

/-- The events of the memory side, the channel and the links. -/
noncomputable def State.fabricEvents (s : State) : List Instr :=
  [(s.counters.filter (fun c => !c.gone && s.live (paDie c.pa) && (c.reqs ≠ [] || c.waiters.any (fun r => !s.asking c.pa r)))).map (fun c => .counterHomeRequest c.pa),
   (s.partials.zipIdx.filter (fun p => s.live p.1.die)).map (fun p => .redPartialEviction p.2),
   (List.range (s.msgs.length + 1)).map (fun i => .sequencerNumber i),
   s.shoots.flatMap (fun x => ((x.todo.filter s.live).map (fun d => Instr.inval d x.seq)) ++ (x.acks.filter s.live).map (fun d => Instr.ack d x.seq)),
   (s.links.zipIdx.filter (fun l => l.1.state = 3 && l.1.detour.isNone)).map (fun l => .linkDetour l.2),
   (s.links.zipIdx.filter (fun l => l.1.buffer ≠ 0)).map (fun l => .flitAcknowledged l.2),
   if s.cutOff then [.evict (64 + s.pkgid)] else [],
   if s.outcast then [.admission (64 + s.pkgid)] else []].flatten

/-- Everything the device may do of its own. Timers, failures, temperature, the RV64 cores, errors in memory and arrays, and the
other external events arrive through `inputs`. -/
noncomputable def State.events (s : State) : List Instr :=
  (match s.boot with | .off => [.powerOn] | .refetch _ => [.imageRefetch] | _ => [])
  ++ (List.range s.dies.length).flatMap s.dieEvents
  ++ s.quires.flatMap s.quireEvents
  ++ s.folios.flatMap s.folioEvents
  ++ s.engineEvents
  ++ s.fabricEvents

/-- An event is enabled where it has an effect. -/
def State.enabled (s : State) (i : Instr) : Bool :=
  match exec i s with
  | .next t => decide (t ≠ s)
  | _ => true

/-! ## Choosing -/

/-- What a step does: an input arrives, an event of the device happens, a store that only its fibre has seen is performed (R286), or a batch
issues. -/
inductive Pick where
  | input (i : Instr)
  | event (i : Instr)
  | land (i : Nat)
  | issue (uid : Nat) (pc : DWord) (frame : Nat)

/-- Everything that may happen next. -/
noncomputable def State.options (s : State) : List Pick :=
  (match s.inputs with | [] => [] | i :: _ => [.input i])
  ++ (s.events.filter s.enabled).map .event
  ++ ((List.range s.stores.length).filter (fun i => (s.performAt i).isSome && (s.stores[i]?).all (fun w => s.live w.die))).map .land
  ++ s.issues.map (fun c => .issue c.uid c.pc c.frame)

/-- One of them, by a free choice; no choice is needed where there is only one. -/
noncomputable def State.pick (s : State) : Option Pick :=
  match s.options with
  | [] => none
  | [p] => some p
  | ps => ps[s.choose (2 ^ 62) ps.length]?

/-- What is picked happens. -/
noncomputable def State.run (s : State) (p : Pick) : Host.Outcome State Fault Refusal :=
  match p with
  | .input i => exec i { s with inputs := s.inputs.tail }
  | .event i => exec i s
  | .land i => .next ((s.performAt i).getD s)
  | .issue uid pc frame => runBatch (s.prepare uid pc frame)

/-- What follows at once: time goes on; waiting LQCTL writes, which come before blocked `slaunch` batches (log 105), waiting
completion bits, queue batches and drains that can complete do; latches whose quires have ended are resolved, remap entries without
operations are free, permits that no batch waits for are dropped; folios whose last token has completed are freed (R332), traps that
had to wait are taken, generations whose last shard has completed are committed (R415), the RV64 cores take messages, detours that
carry no traffic end (R422), and images follow their quires. -/
def State.after (s : State) : State :=
  ({ s with tick := s.tick + 1, clock := s.clock + 1 } : State).drainLq.drainBits.serveQueues.endDrains.latchEnds.freeRemaps.dropOrphans.reap.takeDue.tryCommits.rv64Receive.dropDetours.syncImages

end Sys2Proof.Machine
end

