-- ==== Sys2Proof/Machine/Setup.lean ====
section
/-! DEFINITION. A machine that is about to run one given instruction: what a loader and a kernel would have set up (log 29). -/

namespace Sys2Proof.Machine

/-- The launch record of the loaded folio: encoding version 3, one quire of one fibre, a split with 12 granules of frames, 4 of
scratchpad, 16 of bands and 16 bands. -/
def loadedCarve : BitVec 29 := BitVec.ofNat 29 (12 + 4 * 2 ^ 6 + 16 * 2 ^ 18 + 16 * 2 ^ 24)
/-- The record. -/
def loadedRecord : BitVec 2048 := BitVec.ofNat 2048 (3 * 2 ^ 64 + 28 * 2 ^ 87 + loadedCarve.toNat * 2 ^ 96)

/-- The physical base of the tables of the loaded program, on die 0. -/
def State.loadBase (s : State) : Nat := s.pkgid % 64 * 2 ^ 46
/-- A page-table entry as bytes: PPN of an offset on die 0, and the low four bits. -/
def State.loadPte (s : State) (off low : Nat) : List Byte := leBytes 8 ((s.pkgid % 64 * 2 ^ 28 + off / 4096) * 16 + low)

/-- Part of the memory that the program needs: an address-space record for ASID 0, three tables of one entry each, and a 64 MiB
read-execute page at virtual address 0, whose first bytes are the instruction and zeros. -/
def State.loadMem (s : State) (ws : Word × Word) : State :=
  let p := s.loadBase
  ((((s.putBytes p (s.loadPte 0x4000 1 ++ [1])).putBytes (p + 0x4000) (s.loadPte 0x8000 4)).putBytes (p + 0x8000)
    (s.loadPte 0xC000 4)).putBytes (p + 0xC000) (s.loadPte 0x4000000 3)).putBytes (p + 0x4000000) (wordBytes ws.1 ++ wordBytes ws.2)

/-- The state in which the next step fetches and runs the given words: power is on, die 0 runs one supervisor folio of one quire
with one fibre at address 0, and nothing else can happen. What memory holds elsewhere stays, and so do the registers of the package
and of die 0 that the fetch does not use; the other dies are not admitted. -/
def State.loaded (s : State) (ws : Word × Word) : State :=
  let line := fun (l : Nat) => ([0, 0x4000, 0x8000, 0xC000, 0x4000000].map (fun o => (s.loadBase + o) / 64)).contains l
  let f : Folio := { fid := 2, die := 0, core := 0, qbase := 0, qcnt := 1, folioid := 0, vid := 1, sup := true
                     record := loadedRecord, carve := loadedCarve }
  let t : State := { s with
    boot := .running, pkgid := s.pkgid % 64, everPkgs := putBit s.everPkgs (s.pkgid % 64) true, inputs := []
    q := newQuire 3 2 0 0 0 28 1 s.clock, rest := [], sel := (0, 0), word := (0, 0)
    folios := [f], volumes := [{ vid := 1, members := [(0, 2)] }], colls := [], saved := [], remaps := []
    copies := [], tiles := [], inbound := [], matops := [], permits := [], shards := [], shoots := [], msgs := []
    counters := [], subs := [], partials := [], bad := [], links := [], lqWait := [], next := max s.next 4
    stores := [], hist := [], views := [], backs := [], holders := [], bits := [], misses := [], class_ := [], outcast := false
    poison := s.poison.filter (fun l => !line l), lineKey := s.lineKey.filter (fun x => !line x.1)
    dies := s.dies.mapIdx (fun d z =>
      if d = 0 then { z with admitted := true, failed := false, slots := [], held := [], trapQ := [], handlers := [], pend130 := false
                             pend131 := [], tlb := [], copies := [], dir := [], filt := [], clines := [], pins := [], rehome := none
                             mgmt := Sparse.set 0 0x811 0 (Sparse.set 0 0x814 0 (Sparse.set 0 0x801 (BitVec.ofNat 64 (s.pkgid % 64 * 2 ^ 46)) z.mgmt)) }
      else { incarn := z.incarn, admitted := false }) }
  t.loadMem ws

end Sys2Proof.Machine
end

