-- ==== Sys2Proof/Machine/Step.lean ====
section
/-! DEFINITION. One step of the machine. -/

namespace Sys2Proof.Machine

/-- One step: what is picked happens, and what follows from it at once. A package without power stops (R19). -/
noncomputable def step (s : State) : Host.Outcome State Fault Refusal :=
  if s.boot = .tripped then .fault .powerRemoved
  else match s.pick with
    | none => .next s.after
    | some p =>
      match s.run p with
      | .next t => .next t.after
      | r => r

/-- The state in which the next step fetches and runs the given word; see Machine/Setup.lean. -/
def State.withFetchWord (s : State) (nbits w : Nat) : State := s.loaded (tableWords nbits w)

end Sys2Proof.Machine
end

