-- ==== Sys2Proof/Certificates/Slice0/Obligations.lean ====
section
/-! DEFINITION. The statements for the provers. Each takes the rules of the spec that its docstring names. -/

namespace Sys2Proof.Claims

open Sys2Proof.Machine

/-! ## How a statement says that an instruction completes -/

/-- The word is well formed and nothing stops it before its effect: the version, privilege, the unit, the names it uses (R64), bad
cells among its sources (R375), a rounding mode that %frm may not give (R89). Of `D` only what the checks look at matters. -/
abbrev Passes (i : Instr) (D : Desc) (s : State) : Prop := i.wf = true ∧ D.clear s

/-- The batch's instruction is complete with effect `t`, and every member continues behind it (R48). -/
def Done (i : Instr) (len : Nat) (s t : State) : Prop := exec i s = .next (t.unblocked.advance s.batch len)

/-- The effect of a uniform word under its quire predicate; with the predicate false it only advances (R54). -/
def DoneU (i : Instr) (pr : BitVec 3) (neg : Bool) (len : Nat) (s t : State) : Prop :=
  Done i len s (if s.kActive pr neg then t else s)

/-- The batch blocks at its instruction with what has happened before in `t`, and keeps the record of the trap that the wait may still end
in (R22, R319). -/
def Blocks (i : Instr) (k : WaitKind) (len : Nat) (s t : State) : Prop :=
  ∃ r : Trap, r.epc = s.pc ∧ r.len = len ∧ exec i s = .next (t.block k len r)

/-- What follows a release at a scope, where the word has one: it blocks while the release cannot complete, and otherwise its effect comes
in the state behind the release (R207). -/
def Behind (i : Instr) (len : Nat) (rel : Bool) (scope : Nat) (s t : State) (P : State → Prop) : Prop :=
  ((rel && t.releaseBlocked t.q.uid t.fol.die scope) = true → Blocks i (.flush scope) len s t)
  ∧ ((rel && t.releaseBlocked t.q.uid t.fol.die scope) = false → P (if rel then t.releaseAt scope else t))

/-- What the checks look at in a lane word. -/
abbrev laneWord (op : Nat) (x : LArgs) (uses : List Use) : Desc :=
  { uni := false, op := op, len := x.len, pr := x.pr, neg := x.neg, uses := uses }
/-- What the checks look at in a uniform word. -/
abbrev uniWord (op : Nat) (x : UArgs) (uses : List Use) : Desc :=
  { uni := true, op := op, len := x.len, pr := x.pr, neg := x.neg, uses := uses }

/-- Every active lane writes its value to the destination and the latch (R35, R36). -/
def lanesWritten (s : State) (x : LArgs) (w : Nat) (l : Latch) (g : Fibre → Nat) : State :=
  s.writeLanes x.d w (some l) ((s.active x.pr x.neg).map (fun f => (f.lane, g f)))

/-- The immediate of the forms whose second source is an amount, a control word or a lane: imm32 as it stands. -/
def rawImm (x : LArgs) (o : IF) : LArgs := { x with b := .imm (o.imm.setWidth 64) }
/-- The same for a uniform word. -/
def rawImmU (x : UArgs) (o : IF) : UArgs := { x with b := .imm (o.imm.setWidth 64) }

/-! ## Integer lane words (05) -/

/-- An arithmetic lane word: Ext(Fit(f(Val a, Val b, Val c))) in every active lane, and lint (R98, R102, R104). -/
def Arith (i : Instr) (op : Nat) (f : Int → Int → Int → Int) (third : Bool) (x : LArgs) (s : State) : Prop :=
  let t := laneTy x.ty
  let w := wrOf t
  Passes i (laneWord op x ([.dst x.d w, .src x.a w] ++ x.b.use w ++ (if third then [.src x.c w] else []))) s →
    Done i x.len s (lanesWritten s x w .int (fun g =>
      extTo (fit (f (patVal t (s.rd g x.a w)) (patVal t (s.arg g x.b w)) (patVal t (s.rd g x.c w))) t x.sat) t w))

/-- The product of `mul`: with HI the high part, ⌊xy / 2^W⌋ (R102). -/
def product (x : LArgs) (a b _c : Int) : Int := if x.hi then a * b / 2 ^ (laneTy x.ty).w else a * b

/-- A bitwise lane word on W-bit patterns (R104). -/
def Bitwise (i : Instr) (g : (w : Nat) → BitVec w → BitVec w → BitVec w) (x : LArgs) (s : State) : Prop :=
  let t := laneTy x.ty
  let w := wrOf t
  Passes i (laneWord 0x08 x ([.dst x.d w, .src x.a w] ++ x.b.use w)) s →
    Done i x.len s (lanesWritten s x w .int (fun f =>
      extTo (g t.w (BitVec.ofNat t.w (s.rd f x.a w)) (BitVec.ofNat t.w (s.arg f x.b w))).toNat t w))

/-- `not`, `neg` and `abs`: one source (R104). -/
def Unary (i : Instr) (g : (t : ITy) → Nat → Nat) (x : LArgs) (s : State) : Prop :=
  let t := laneTy x.ty
  let w := wrOf t
  Passes i (laneWord 0x09 x [.dst x.d w, .src x.a w]) s →
    Done i x.len s (lanesWritten s x w .int (fun f => extTo (g t (s.rd f x.a w)) t w))

/-- A shift: the amount is one register or imm32 (R105). -/
def Shift (i : Instr) (g : (w : Nat) → BitVec w → Nat → BitVec w) (x : LArgs) (s : State) : Prop :=
  let t := laneTy x.ty
  let w := wrOf t
  Passes i (laneWord 0x0A x ([.dst x.d w, .src x.a w] ++ x.b.use 32)) s →
    Done i x.len s (lanesWritten s x w .int (fun f =>
      extTo (g t.w (BitVec.ofNat t.w (s.rd f x.a w)) (s.arg f x.b 32)).toNat t w))

/-- A count of bits: a 32-bit result of the W-bit pattern (R106). -/
def Count (i : Instr) (g : (w : Nat) → BitVec w → Nat) (x : LArgs) (s : State) : Prop :=
  let t := laneTy x.ty
  Passes i (laneWord 0x0B x [.dst x.d 32, .src x.a (wrOf t)]) s →
    Done i x.len s (lanesWritten s x 32 .int (fun f => g t.w (BitVec.ofNat t.w (s.rd f x.a (wrOf t)))))

/-- The number of trailing zero bits, from the lowest bit that is set (R106). -/
def trailing (w : Nat) (v : BitVec w) : Nat := ((List.range w).find? (fun k => v.getLsbD k)).getD w
/-- The number of leading zero bits (R106). -/
def leading (w : Nat) (v : BitVec w) : Nat := ((List.range w).find? (fun k => v.getMsbD k)).getD w
/-- The number of bits that are set (R106). -/
def ones (w : Nat) (v : BitVec w) : Nat := ((List.range w).filter (fun k => v.getLsbD k)).length

/-- pos and len of a control word (R107). -/
def ctlPos (q : Nat) : Nat := q % 64
/-- len, at most W. -/
def ctlLen (q w : Nat) : Nat := min (q / 256 % 128) w

/-- A lane word that copies a value of `w` bits chosen for each lane. -/
def Moves (i : Instr) (op : Nat) (w : Nat) (uses : List Use) (x : LArgs) (g : Fibre → Nat) (s : State) : Prop :=
  Passes i (laneWord op x uses) s → Done i x.len s (lanesWritten s x w .int g)

/-- The lane a `shfl` reads (R112): idx, up, sub-group, xor. -/
def shflFrom (mode l y : Nat) : Nat :=
  match mode with
  | 0 => y % 32
  | 1 => (l + y) % 32
  | 2 => l / 2 ^ min (y % 8) 5 * 2 ^ min (y % 8) 5 + y / 8 % 32 % 2 ^ min (y % 8) 5
  | _ => l ^^^ (y % 32)

/-- A `shfl`: the value of the source lane where that fibre is active, else the lane's own (R112). -/
def Shuffles (i : Instr) (mode w : Nat) (x : LArgs) (s : State) : Prop :=
  Moves i 0x28 w ([.dst x.d w, .src x.a w] ++ x.b.use 32) x (fun f =>
    match (s.active x.pr x.neg).find? (fun g => g.lane = shflFrom mode f.lane (s.arg f x.b 32)) with
    | some g => s.rd g x.a w
    | none => s.rd f x.a w) s

/-- `cmp`: the predicate pd takes COND combined with its old value; no latch is written (R99, R108). -/
def Compares (i : Instr) (comb : Nat) (x : LArgs) (s : State) : Prop :=
  let t := laneTy x.ty
  let w := wrOf t
  let pd := x.dn % 8
  Passes i (laneWord 0x0D x ([.below x.dn 64, .src x.a w] ++ x.b.use w)) s →
    Done i x.len s (s.writePreds pd ((s.active x.pr x.neg).map (fun f =>
      let a := patVal t (s.rd f x.a w)
      let b := patVal t (s.arg f x.b w)
      let c : Bool := match x.dn / 8 % 8 with
        | 0 => a == b | 1 => a != b | 2 => decide (a < b) | 3 => decide (a ≤ b) | 4 => decide (a > b) | 5 => decide (a ≥ b)
        | _ => (BitVec.ofNat t.w (s.rd f x.a w) &&& BitVec.ofNat t.w (s.arg f x.b w)) != 0
      (f.lane, match comb with | 1 => f.pred pd && c | 2 => f.pred pd || c | _ => c))))

/-- A division whose divisors are not zero in any active lane: the quotient truncated towards zero, or what remains (R103). -/
def Divides (i : Instr) (op : Nat) (f : Int → Int → Int) (x : LArgs) (s : State) : Prop :=
  let t := laneTy x.ty
  let w := wrOf t
  Passes i (laneWord op x ([.dst x.d w, .src x.a w] ++ x.b.use w)) s →
    (∀ g ∈ s.active x.pr x.neg, patVal t (s.arg g x.b w) ≠ 0) →
    Done i x.len s (lanesWritten s x w .int (fun g =>
      extTo (fit (f (patVal t (s.rd g x.a w)) (patVal t (s.arg g x.b w))) t x.sat) t w))

/-- A zero divisor in some active lane: the word traps with 0x008, %elanes names the lanes with a zero divisor, and no lane is
written (R103, R370): the quire is held, with what the trap registers and the record's head say. -/
def DivTraps (i : Instr) (op : Nat) (x : LArgs) (s : State) : Prop :=
  let t := laneTy x.ty
  let w := wrOf t
  let zeros := (s.active x.pr x.neg).filter (fun f => patVal t (s.arg f x.b w) = 0)
  Passes i (laneWord op x ([.dst x.d w, .src x.a w] ++ x.b.use w)) s → zeros ≠ [] →
    ∃ r : Trap, r.code = 0x008 ∧ r.epc = s.pc ∧ r.elanes = laneMask zeros ∧ r.eaddr = 0
      ∧ exec i s = .next (s.unblocked.takeTrap r)

end Sys2Proof.Claims

open Sys2Proof Sys2Proof.Machine Sys2Proof.Claims

/-- R102, R104: `add`, `sub`, `mul`, `mad`, `min`, `max` give Ext(Fit(·)) of the exact integer result in every active lane. -/
def Sys2Proof.Claims.LaneArithmetic : Prop :=
  ∀ s : State,
    (∀ o : SF,
      Arith (.addLS o) 0x00 (fun a b _ => a + b) false (lsArgs o) s ∧ Arith (.subLS o) 0x01 (fun a b _ => a - b) false (lsArgs o) s
      ∧ Arith (.mulLS o) 0x02 (product (lsArgs o)) false (lsArgs o) s
      ∧ Arith (.minLS o) 0x06 (fun a b _ => min a b) false (lsArgs o) s ∧ Arith (.maxLS o) 0x07 (fun a b _ => max a b) false (lsArgs o) s)
    ∧ (∀ o : LF,
      Arith (.addLL o) 0x00 (fun a b _ => a + b) false (llArgs o) s ∧ Arith (.subLL o) 0x01 (fun a b _ => a - b) false (llArgs o) s
      ∧ Arith (.mulLL o) 0x02 (product (llArgs o)) false (llArgs o) s
      ∧ Arith (.madLL o) 0x03 (fun a b c => a * b + c) true (llArgs o) s
      ∧ Arith (.minLL o) 0x06 (fun a b _ => min a b) false (llArgs o) s ∧ Arith (.maxLL o) 0x07 (fun a b _ => max a b) false (llArgs o) s)
    ∧ (∀ o : IF,
      Arith (.addLI o) 0x00 (fun a b _ => a + b) false (liArgs o) s ∧ Arith (.subLI o) 0x01 (fun a b _ => a - b) false (liArgs o) s
      ∧ Arith (.mulLI o) 0x02 (product (liArgs o)) false (liArgs o) s
      ∧ Arith (.minLI o) 0x06 (fun a b _ => min a b) false (liArgs o) s ∧ Arith (.maxLI o) 0x07 (fun a b _ => max a b) false (liArgs o) s)

/-- R104: `and`, `or`, `xor`, `andn` and `not` act on the W bits of the patterns; `neg` and `abs` on their values. -/
def Sys2Proof.Claims.LaneLogic : Prop :=
  ∀ s : State,
    (∀ o : SF,
      Bitwise (.andLS o) (fun _ a b => a &&& b) (lsArgs o) s ∧ Bitwise (.orLS o) (fun _ a b => a ||| b) (lsArgs o) s
      ∧ Bitwise (.xorLS o) (fun _ a b => a ^^^ b) (lsArgs o) s ∧ Bitwise (.andnLS o) (fun _ a b => a &&& ~~~b) (lsArgs o) s
      ∧ Unary (.notLS o) (fun t p => (~~~(BitVec.ofNat t.w p)).toNat) (lsArgs o) s
      ∧ Unary (.negLS o) (fun t p => fit (-(patVal t p)) t false) (lsArgs o) s
      ∧ Unary (.absLS o) (fun t p => fit ((patVal t p).natAbs : Int) t false) (lsArgs o) s)
    ∧ (∀ o : LF,
      Bitwise (.andLL o) (fun _ a b => a &&& b) (llArgs o) s ∧ Bitwise (.orLL o) (fun _ a b => a ||| b) (llArgs o) s
      ∧ Bitwise (.xorLL o) (fun _ a b => a ^^^ b) (llArgs o) s ∧ Bitwise (.andnLL o) (fun _ a b => a &&& ~~~b) (llArgs o) s
      ∧ Unary (.notLL o) (fun t p => (~~~(BitVec.ofNat t.w p)).toNat) (llArgs o) s
      ∧ Unary (.negLL o) (fun t p => fit (-(patVal t p)) t o.sat) (llArgs o) s
      ∧ Unary (.absLL o) (fun t p => fit ((patVal t p).natAbs : Int) t o.sat) (llArgs o) s)
    ∧ (∀ o : IF,
      Bitwise (.andLI o) (fun _ a b => a &&& b) (liArgs o) s ∧ Bitwise (.orLI o) (fun _ a b => a ||| b) (liArgs o) s
      ∧ Bitwise (.xorLI o) (fun _ a b => a ^^^ b) (liArgs o) s ∧ Bitwise (.andnLI o) (fun _ a b => a &&& ~~~b) (liArgs o) s)

/-- R103: `div` and `rem` with no zero divisor among the active lanes. -/
def Sys2Proof.Claims.LaneDivision : Prop :=
  ∀ s : State,
    (∀ o : SF, Divides (.divLS o) 0x04 (fun a b => a.tdiv b) (lsArgs o) s ∧ Divides (.remLS o) 0x05 (fun a b => a.tmod b) (lsArgs o) s)
    ∧ (∀ o : LF, Divides (.divLL o) 0x04 (fun a b => a.tdiv b) (llArgs o) s
        ∧ Divides (.remLL o) 0x05 (fun a b => a.tmod b) (llArgs o) s)
    ∧ (∀ o : IF, Divides (.divLI o) 0x04 (fun a b => a.tdiv b) (liArgs o) s
        ∧ Divides (.remLI o) 0x05 (fun a b => a.tmod b) (liArgs o) s)

/-- R103: a zero divisor in any active lane traps the whole word with 0x008, before any lane is written. -/
def Sys2Proof.Claims.DivisionByZeroTraps : Prop :=
  ∀ s : State,
    (∀ o : SF, DivTraps (.divLS o) 0x04 (lsArgs o) s ∧ DivTraps (.remLS o) 0x05 (lsArgs o) s)
    ∧ (∀ o : LF, DivTraps (.divLL o) 0x04 (llArgs o) s ∧ DivTraps (.remLL o) 0x05 (llArgs o) s)
    ∧ (∀ o : IF, DivTraps (.divLI o) 0x04 (liArgs o) s ∧ DivTraps (.remLI o) 0x05 (liArgs o) s)

/-- R105: shifts by the width or more give 0 or copies of the sign, and rotations turn by the amount modulo W. -/
def Sys2Proof.Claims.LaneShifts : Prop :=
  ∀ s : State,
    (∀ o : SF,
      Shift (.shlLS o) (fun _ v n => v <<< n) (lsArgs o) s ∧ Shift (.shrLS o) (fun _ v n => v >>> n) (lsArgs o) s
      ∧ Shift (.sarLS o) (fun _ v n => v.sshiftRight n) (lsArgs o) s ∧ Shift (.rotLS o) (fun _ v n => v.rotateLeft n) (lsArgs o) s)
    ∧ (∀ o : LF,
      Shift (.shlLL o) (fun _ v n => v <<< n) (llArgs o) s ∧ Shift (.shrLL o) (fun _ v n => v >>> n) (llArgs o) s
      ∧ Shift (.sarLL o) (fun _ v n => v.sshiftRight n) (llArgs o) s ∧ Shift (.rotLL o) (fun _ v n => v.rotateLeft n) (llArgs o) s)
    ∧ (∀ o : IF,
      Shift (.shlLI o) (fun _ v n => v <<< n) (rawImm (liArgs o) o) s ∧ Shift (.shrLI o) (fun _ v n => v >>> n) (rawImm (liArgs o) o) s
      ∧ Shift (.sarLI o) (fun _ v n => v.sshiftRight n) (rawImm (liArgs o) o) s
      ∧ Shift (.rotLI o) (fun _ v n => v.rotateLeft n) (rawImm (liArgs o) o) s)

/-- R98 to R106: the results of the integer, logic and shift words of the lanes. -/
def Obligations.LaneIntegers : Prop :=
  Sys2Proof.Claims.LaneArithmetic ∧ Sys2Proof.Claims.LaneLogic ∧ Sys2Proof.Claims.LaneShifts

namespace Sys2Proof.Claims

/-- What `bfx` gives (R107): len bits of the value from pos up, extended by their sign where the type is signed. -/
def bitField (t : ITy) (p q : Nat) : Int :=
  let len := ctlLen q t.w
  let g := patVal t p / 2 ^ ctlPos q % 2 ^ len
  if t.signed ∧ 0 < len ∧ 2 ^ (len - 1) ≤ g then g - 2 ^ len else g

/-- What `bfi` gives (R107): bit k comes from bit k − pos of a where pos ≤ k < pos + len, else from c. -/
def bitInsert (w : Nat) (a c : BitVec w) (q : Nat) : BitVec w :=
  BitVec.ofNat w ((List.range w).foldl (fun m k =>
    m + (if (if ctlPos q ≤ k ∧ k < ctlPos q + ctlLen q w then a.getLsbD (k - ctlPos q) else c.getLsbD k) then 2 ^ k else 0)) 0)

/-- A field extraction; the control word is one register or imm32 (R107). -/
def Extracts (i : Instr) (x : LArgs) (s : State) : Prop :=
  let t := laneTy x.ty
  let w := wrOf t
  Passes i (laneWord 0x0C x ([.dst x.d w, .src x.a w] ++ x.b.use 32)) s →
    Done i x.len s (lanesWritten s x w .int (fun f => extTo (fit (bitField t (s.rd f x.a w) (s.arg f x.b 32)) t false) t w))

/-- `icvt` (R116): the value divided by 2^n and rounded once, then Fit. -/
def Converts (i : Instr) (srcty : BitVec 3) (rnd : Nat) (x : LArgs) (s : State) : Prop :=
  let a := laneTy srcty
  let b := laneTy x.ty
  Passes i (laneWord 0x34 x ([.dst x.d (wrOf b), .src x.a (wrOf a)] ++ x.b.use 32)) s →
    Done i x.len s (lanesWritten s x (wrOf b) .int (fun f =>
      let v := patVal a (s.rd f x.a (wrOf a))
      extTo (fit (roundInt rnd (v < 0) v.natAbs (2 ^ s.arg f x.b 32)) b x.sat) b (wrOf b)))

end Sys2Proof.Claims

/-- R106, R107: the counts of `clz`, `ctz` and `popc`, the reversal of `brev`, and the bit fields of `bfx` and `bfi`. -/
def Sys2Proof.Claims.LaneBitFields : Prop :=
  ∀ s : State,
    (∀ o : SF,
      Count (.clzLS o) leading (lsArgs o) s ∧ Count (.ctzLS o) trailing (lsArgs o) s ∧ Count (.popcLS o) ones (lsArgs o) s
      ∧ Moves (.brevLS o) 0x0B 32 [.dst (shortName o.d) 32, .src (shortName o.a) 32] (lsArgs o)
          (fun f => (BitVec.ofNat 32 (s.rd f (shortName o.a) 32)).reverse.toNat) s
      ∧ Extracts (.bfxLS o) (lsArgs o) s)
    ∧ (∀ o : LF,
      Count (.clzLL o) leading (llArgs o) s ∧ Count (.ctzLL o) trailing (llArgs o) s ∧ Count (.popcLL o) ones (llArgs o) s
      ∧ Moves (.brevLL o) 0x0B (wrOf (laneTy o.ty)) [.dst (longName o.d) (wrOf (laneTy o.ty)), .src (longName o.a) (wrOf (laneTy o.ty))]
          (llArgs o) (fun f => extTo (BitVec.ofNat (laneTy o.ty).w (s.rd f (longName o.a) (wrOf (laneTy o.ty)))).reverse.toNat
            (laneTy o.ty) (wrOf (laneTy o.ty))) s
      ∧ Extracts (.bfxLL o) (llArgs o) s
      ∧ Moves (.bfiLL o) 0x0C (wrOf (laneTy o.ty)) [.dst (longName o.d) (wrOf (laneTy o.ty)), .src (longName o.a) (wrOf (laneTy o.ty)),
            .src (longName o.b) 32, .src (longName o.c) (wrOf (laneTy o.ty))] (llArgs o)
          (fun f => extTo (bitInsert (laneTy o.ty).w (BitVec.ofNat _ (s.rd f (longName o.a) (wrOf (laneTy o.ty))))
              (BitVec.ofNat _ (s.rd f (longName o.c) (wrOf (laneTy o.ty)))) (s.rd f (longName o.b) 32)).toNat
            (laneTy o.ty) (wrOf (laneTy o.ty))) s)
    ∧ (∀ o : IF, Extracts (.bfxLI o) (rawImm (liArgs o) o) s)

/-- R108: `cmp` writes its predicate in the active lanes, by COND and COMB. -/
def Sys2Proof.Claims.LaneCompare : Prop :=
  ∀ s : State,
    (∀ o : SF, Compares (.cmpLS o) 0 (lsArgs o) s) ∧ (∀ o : LF, Compares (.cmpLL o) o.comb.toNat (llArgs o) s)
    ∧ (∀ o : IF, Compares (.cmpLI o) 0 (liArgs o) s)

/-- R107, R108: bit fields and compares. -/
def Obligations.LaneFieldsAndCompares : Prop :=
  Sys2Proof.Claims.LaneBitFields ∧ Sys2Proof.Claims.LaneCompare

/-- R109 to R111, R116: `sel` picks a source by a predicate, `mov` and `movi` copy, `lid` gives the lane index, `vtag` the code of
a register's tag (0 U, 1 A, 2 G, and 2 for every name under version 1), `icvt` converts. -/
def Sys2Proof.Claims.LaneMoves : Prop :=
  ∀ s : State,
    (∀ o : SF,
      Moves (.movLS o) 0x0F 32 [.dst (shortName o.d) 32, .src (shortName o.a) 32] (lsArgs o) (fun f => s.rd f (shortName o.a) 32) s
      ∧ Moves (.lidLS o) 0x2A 32 [.dst (shortName o.d) 32] (lsArgs o) (fun f => f.lane) s
      ∧ Moves (.vtagLS o) 0x2A 32 [.dst (shortName o.d) 32, .src (shortName o.a) 32] (lsArgs o)
          (fun _ => tagCode s.encv s.frm (shortName o.a)) s)
    ∧ (∀ o : LF,
      let w := wrOf (laneTy o.ty)
      Moves (.movLL o) 0x0F w [.dst (longName o.d) w, .src (longName o.a) w] (llArgs o) (fun f => s.rd f (longName o.a) w) s
      ∧ Moves (.selLL o) 0x0E w [.dst (longName o.d) w, .src (longName o.a) w, .src (longName o.b) w, .below o.c.toNat 16] (llArgs o)
          (fun f => if f.pred (o.c.toNat % 8) != o.c.getLsbD 3 then s.rd f (longName o.a) w else s.rd f (longName o.b) w) s
      ∧ Moves (.lidLL o) 0x2A 32 [.dst (longName o.d) 32] (llArgs o) (fun f => f.lane) s
      ∧ Moves (.vtagLL o) 0x2A 32 [.dst (longName o.d) 32, .src (longName o.a) 32] (llArgs o)
          (fun _ => tagCode s.encv s.frm (longName o.a)) s
      ∧ Converts (.icvtLL o) o.low3 o.icvtRnd.toNat (llArgs o) s)
    ∧ (∀ o : IF,
      Moves (.moviLI o) 0x0F (wrOf (laneTy o.ty)) [.dst (shortName o.d) (wrOf (laneTy o.ty))] (liArgs o)
        (fun _ => (immOf (laneTy o.ty) o.imm).toNat % 2 ^ wrOf (laneTy o.ty)) s
      ∧ Converts (.icvtLI o) o.srcty o.icvtRnd.toNat { liArgs o with b := .imm (o.imm.setWidth 64 &&& 63) } s)

/-- R112, R113: `shfl` reads another active fibre's value or the lane's own, `vote` gives every active lane one word about all of
them, `bcast` the value of the lowest active fibre. -/
def Sys2Proof.Claims.LaneExchange : Prop :=
  ∀ s : State,
    (∀ (o : SF) (m2 : BitVec 2), Shuffles (.shflLS o m2) m2.toNat 32 (lsArgs o) s)
    ∧ (∀ o : SF, Moves (.bcastLS o) 0x29 32 [.dst (shortName o.d) 32, .src (shortName o.a) 32] (lsArgs o)
        (fun _ => ((s.active o.pr o.neg).head?.map (fun f => s.rd f (shortName o.a) 32)).getD 0) s)
    ∧ (∀ o : LF,
      let w := wrOf (laneTy o.ty)
      let vs := (s.active o.pr o.neg).map (fun f => (f.lane, s.rd f (longName o.a) w))
      Shuffles (.shflLL o) o.mode.toNat w (llArgs o) s
      ∧ Moves (.bcastLL o) 0x29 w [.dst (longName o.d) w, .src (longName o.a) w] (llArgs o)
          (fun _ => ((s.active o.pr o.neg).head?.map (fun f => s.rd f (longName o.a) w)).getD 0) s
      ∧ Moves (.voteLL o) 0x29 32 [.dst (longName o.d) 32, .src (longName o.a) w] (llArgs o)
          (fun _ => match o.mode.toNat with
            | 0 => ((vs.filter (fun x => x.2 ≠ 0)).map (fun x => 2 ^ x.1)).sum
            | 1 => if ∃ x ∈ vs, x.2 ≠ 0 then 1 else 0
            | 2 => if ∀ x ∈ vs, x.2 ≠ 0 then 1 else 0
            | _ => if ∀ x ∈ vs, ∀ y ∈ vs, x.2 = y.2 then 1 else 0) s)
    ∧ (∀ o : IF, Shuffles (.shflLI o) (o.modi.toNat % 4) (if o.modi.getLsbD 2 then 64 else 32) (rawImm (liArgs o) o) s)

/-- R109 to R115: moves, selections and the exchanges between the lanes. -/
def Obligations.LaneMovement : Prop :=
  Sys2Proof.Claims.LaneMoves ∧ Sys2Proof.Claims.LaneExchange

namespace Sys2Proof.Claims

/-- A uniform word that writes one s register (R117). -/
def Scalar (i : Instr) (op : Nat) (x : UArgs) (uses : List Use) (v : Nat) (s : State) : Prop :=
  Passes i (uniWord op x uses) s → DoneU i x.pr x.neg x.len s (s.setS x.d (BitVec.ofNat 64 v))

/-- Uniform arithmetic: Ext(Fit(f(Val a, Val b))) over 64 bits. -/
def ArithU (i : Instr) (op : Nat) (f : Int → Int → Int) (x : UArgs) (s : State) : Prop :=
  let t := uniTy x.ty
  Scalar i op x ([.sreg x.d, .sreg x.a] ++ x.b.use 64)
    (extTo (fit (f (patVal t (s.q.sreg x.a).toNat) (patVal t (s.uarg x.b 64))) t x.sat) t 64) s

/-- The product of `smul`. -/
def productU (x : UArgs) (a b : Int) : Int := if x.hi then a * b / 2 ^ (uniTy x.ty).w else a * b

/-- A uniform bitwise word. -/
def BitwiseU (i : Instr) (g : (w : Nat) → BitVec w → BitVec w → BitVec w) (x : UArgs) (s : State) : Prop :=
  let t := uniTy x.ty
  Scalar i 0x05 x ([.sreg x.d, .sreg x.a] ++ x.b.use 64)
    (extTo (g t.w (BitVec.ofNat t.w (s.q.sreg x.a).toNat) (BitVec.ofNat t.w (s.uarg x.b 64))).toNat t 64) s

/-- A uniform shift; the amount is the low 32 bits of the second source. -/
def ShiftU (i : Instr) (g : (w : Nat) → BitVec w → Nat → BitVec w) (x : UArgs) (s : State) : Prop :=
  let t := uniTy x.ty
  Scalar i 0x06 x ([.sreg x.d, .sreg x.a] ++ x.b.use 32)
    (extTo (g t.w (BitVec.ofNat t.w (s.q.sreg x.a).toNat) (s.uarg x.b 32)).toNat t 64) s

/-- A uniform count. -/
def CountU (i : Instr) (g : (w : Nat) → BitVec w → Nat) (x : UArgs) (s : State) : Prop :=
  Scalar i 0x07 x [.sreg x.d, .sreg x.a] (g (uniTy x.ty).w (BitVec.ofNat _ (s.q.sreg x.a).toNat)) s

/-- A uniform division whose divisor is not zero. -/
def DividesU (i : Instr) (f : Int → Int → Int) (x : UArgs) (s : State) : Prop :=
  let t := uniTy x.ty
  (s.kActive x.pr x.neg = true → patVal t (s.uarg x.b 64) ≠ 0) → ArithU i 0x03 f x s

/-- A uniform division by zero under a true predicate traps with 0x008, the members of the batch in %elanes (R117). -/
def DivTrapsU (i : Instr) (x : UArgs) (s : State) : Prop :=
  Passes i (uniWord 0x03 x ([.sreg x.d, .sreg x.a] ++ x.b.use 64)) s → s.kActive x.pr x.neg = true →
    patVal (uniTy x.ty) (s.uarg x.b 64) = 0 →
    ∃ r : Trap, r.code = 0x008 ∧ r.epc = s.pc ∧ r.elanes = laneMask s.batch ∧ r.eaddr = 0
      ∧ exec i s = .next (s.unblocked.takeTrap r)

/-- A uniform field extraction. -/
def ExtractsU (i : Instr) (x : UArgs) (s : State) : Prop :=
  let t := uniTy x.ty
  Scalar i 0x0B x ([.sreg x.d, .sreg x.a] ++ x.b.use 32)
    (extTo (fit (bitField t (s.q.sreg x.a).toNat (s.uarg x.b 32)) t false) t 64) s

/-- `scmp`: kd takes COND combined with its old value (R108). -/
def ComparesU (i : Instr) (comb : Nat) (x : UArgs) (s : State) : Prop :=
  let t := uniTy x.ty
  let kd := x.d % 8
  let a := patVal t (s.q.sreg x.a).toNat
  let b := patVal t (s.uarg x.b 64)
  let c : Bool := match x.d / 8 % 8 with
    | 0 => a == b | 1 => a != b | 2 => decide (a < b) | 3 => decide (a ≤ b) | 4 => decide (a > b) | 5 => decide (a ≥ b)
    | _ => (BitVec.ofNat t.w (s.q.sreg x.a).toNat &&& BitVec.ofNat t.w (s.uarg x.b 64)) != 0
  Passes i (uniWord 0x08 x ([.below x.d 64, .sreg x.a] ++ x.b.use 64)) s →
    DoneU i x.pr x.neg x.len s (s.setK kd (match comb with | 1 => s.q.kpred kd && c | 2 => s.q.kpred kd || c | _ => c))

/-- `sget` of a lane value that the batch agrees on, under versions 2 and 3 (R114). -/
def Gets (i : Instr) (ty : BitVec 3) (n : Name) (x : UArgs) (s : State) : Prop :=
  let t := laneTy ty
  let w := wrOf t
  Passes i (uniWord 0x0B x [.sreg x.d, .src n w]) s →
    (∀ r v u, n = .v r → s.encv ≠ 1 → s.frm.tag r = .u v → (w = 64 → s.frm.tag (r + 1) = .u u) →
      DoneU i x.pr x.neg x.len s (s.setS x.d (BitVec.ofNat 64 (extTo
        ((if w = 64 then v.toNat + 2 ^ 32 * u.toNat else v.toNat) % 2 ^ t.w) t 64))))
    ∧ (∀ r, n = .v r → s.encv ≠ 1 → (∀ v, s.frm.tag r ≠ .u v) → s.kActive x.pr x.neg = true →
        ∃ r' : Trap, r'.code = 0x043 ∧ r'.elanes = laneMask s.batch ∧ exec i s = .next (s.unblocked.takeTrap r'))
    ∧ (∀ f, n = .lane → s.encv ≠ 1 → s.batch = [f] →
        DoneU i x.pr x.neg x.len s (s.setS x.d (BitVec.ofNat 64 (extTo (f.lane % 2 ^ t.w) t 64))))

end Sys2Proof.Claims

/-- R117: the uniform arithmetic and logic words. -/
def Sys2Proof.Claims.UniformArithmetic : Prop :=
  ∀ s : State,
    (∀ o : SF, let x := usArgs o
      ArithU (.saddUS o) 0x00 (fun a b => a + b) x s ∧ ArithU (.ssubUS o) 0x01 (fun a b => a - b) x s
      ∧ ArithU (.smulUS o) 0x02 (productU x) x s ∧ ArithU (.sminUS o) 0x04 min x s ∧ ArithU (.smaxUS o) 0x04 max x s
      ∧ BitwiseU (.sandUS o) (fun _ a b => a &&& b) x s ∧ BitwiseU (.sorUS o) (fun _ a b => a ||| b) x s
      ∧ BitwiseU (.sxorUS o) (fun _ a b => a ^^^ b) x s ∧ BitwiseU (.sandnUS o) (fun _ a b => a &&& ~~~b) x s)
    ∧ (∀ o : LF, let x := ulArgs o
      ArithU (.saddUL o) 0x00 (fun a b => a + b) x s ∧ ArithU (.ssubUL o) 0x01 (fun a b => a - b) x s
      ∧ ArithU (.smulUL o) 0x02 (productU x) x s ∧ ArithU (.sminUL o) 0x04 min x s ∧ ArithU (.smaxUL o) 0x04 max x s
      ∧ BitwiseU (.sandUL o) (fun _ a b => a &&& b) x s ∧ BitwiseU (.sorUL o) (fun _ a b => a ||| b) x s
      ∧ BitwiseU (.sxorUL o) (fun _ a b => a ^^^ b) x s ∧ BitwiseU (.sandnUL o) (fun _ a b => a &&& ~~~b) x s)
    ∧ (∀ o : IF, let x := uiArgs o
      ArithU (.saddUI o) 0x00 (fun a b => a + b) x s ∧ ArithU (.ssubUI o) 0x01 (fun a b => a - b) x s
      ∧ ArithU (.smulUI o) 0x02 (productU x) x s ∧ ArithU (.sminUI o) 0x04 min x s ∧ ArithU (.smaxUI o) 0x04 max x s
      ∧ BitwiseU (.sandUI o) (fun _ a b => a &&& b) x s ∧ BitwiseU (.sorUI o) (fun _ a b => a ||| b) x s
      ∧ BitwiseU (.sxorUI o) (fun _ a b => a ^^^ b) x s ∧ BitwiseU (.sandnUI o) (fun _ a b => a &&& ~~~b) x s)

/-- R117: the uniform shifts, counts and field extraction. -/
def Sys2Proof.Claims.UniformShifts : Prop :=
  ∀ s : State,
    (∀ o : SF, let x := usArgs o
      ShiftU (.sshlUS o) (fun _ v n => v <<< n) x s ∧ ShiftU (.sshrUS o) (fun _ v n => v >>> n) x s
      ∧ ShiftU (.ssarUS o) (fun _ v n => v.sshiftRight n) x s ∧ ShiftU (.srotUS o) (fun _ v n => v.rotateLeft n) x s
      ∧ CountU (.sclzUS o) leading x s ∧ CountU (.sctzUS o) trailing x s ∧ CountU (.spopcUS o) ones x s ∧ ExtractsU (.sbfxUS o) x s)
    ∧ (∀ o : LF, let x := ulArgs o
      ShiftU (.sshlUL o) (fun _ v n => v <<< n) x s ∧ ShiftU (.sshrUL o) (fun _ v n => v >>> n) x s
      ∧ ShiftU (.ssarUL o) (fun _ v n => v.sshiftRight n) x s ∧ ShiftU (.srotUL o) (fun _ v n => v.rotateLeft n) x s
      ∧ CountU (.sclzUL o) leading x s ∧ CountU (.sctzUL o) trailing x s ∧ CountU (.spopcUL o) ones x s ∧ ExtractsU (.sbfxUL o) x s)
    ∧ (∀ o : IF, let x := rawImmU (uiArgs o) o
      ShiftU (.sshlUI o) (fun _ v n => v <<< n) x s ∧ ShiftU (.sshrUI o) (fun _ v n => v >>> n) x s
      ∧ ShiftU (.ssarUI o) (fun _ v n => v.sshiftRight n) x s ∧ ShiftU (.srotUI o) (fun _ v n => v.rotateLeft n) x s
      ∧ ExtractsU (.sbfxUI o) x s)

/-- R103, R117: `sdiv` and `srem`, with a divisor that is not zero and with a zero divisor. -/
def Sys2Proof.Claims.UniformDivision : Prop :=
  ∀ s : State,
    (∀ o : SF, DividesU (.sdivUS o) (fun a b => a.tdiv b) (usArgs o) s ∧ DividesU (.sremUS o) (fun a b => a.tmod b) (usArgs o) s
      ∧ DivTrapsU (.sdivUS o) (usArgs o) s ∧ DivTrapsU (.sremUS o) (usArgs o) s)
    ∧ (∀ o : LF, DividesU (.sdivUL o) (fun a b => a.tdiv b) (ulArgs o) s ∧ DividesU (.sremUL o) (fun a b => a.tmod b) (ulArgs o) s
      ∧ DivTrapsU (.sdivUL o) (ulArgs o) s ∧ DivTrapsU (.sremUL o) (ulArgs o) s)
    ∧ (∀ o : IF, DividesU (.sdivUI o) (fun a b => a.tdiv b) (uiArgs o) s ∧ DividesU (.sremUI o) (fun a b => a.tmod b) (uiArgs o) s
      ∧ DivTrapsU (.sdivUI o) (uiArgs o) s ∧ DivTrapsU (.sremUI o) (uiArgs o) s)

/-- R103, R372: the divisions and remainders, of the lanes and of the uniform words, and the trap of a zero divisor. -/
def Obligations.Divisions : Prop :=
  Sys2Proof.Claims.LaneDivision ∧ Sys2Proof.Claims.DivisionByZeroTraps ∧ Sys2Proof.Claims.UniformDivision

/-- R108 to R110, R114: `scmp`, `ssel`, `smov`, `smovi` (with .hi only bits 63:32 change) and `sget`. -/
def Sys2Proof.Claims.UniformMoves : Prop :=
  ∀ s : State,
    (∀ o : SF, ComparesU (.scmpUS o) 0 (usArgs o) s ∧ Gets (.sgetUS o) 0 (shortName o.a) (usArgs o) s
      ∧ Scalar (.smovUS o) 0x0A (usArgs o) [.sreg o.d.toNat, .sreg o.a.toNat] (s.q.sreg o.a.toNat).toNat s)
    ∧ (∀ o : LF, ComparesU (.scmpUL o) o.comb.toNat (ulArgs o) s ∧ Gets (.sgetUL o) o.ty (longName o.a) (ulArgs o) s
      ∧ Scalar (.smovUL o) 0x0A (ulArgs o) [.sreg o.d.toNat, .sreg o.a.toNat] (s.q.sreg o.a.toNat).toNat s
      ∧ Scalar (.sselUL o) 0x09 (ulArgs o) [.sreg o.d.toNat, .sreg o.a.toNat, .sreg o.b.toNat, .below o.c.toNat 16]
          (if s.q.kpred (o.c.toNat % 8) != o.c.getLsbD 3 then (s.q.sreg o.a.toNat).toNat else (s.q.sreg o.b.toNat).toNat) s)
    ∧ (∀ o : IF, ComparesU (.scmpUI o) 0 (uiArgs o) s
      ∧ Scalar (.smoviUI o) 0x0A (uiArgs o) [.sreg o.d.toNat]
          (if o.top then (o.imm ++ (s.q.sreg o.d.toNat).setWidth 32).toNat else (immOf (uniTy o.ty) o.imm).toNat) s)

/-- R117: the integer words of the s registers. It rests on a choice of the model: log 101 (`sget` of a register tagged U). -/
def Obligations.UniformIntegers : Prop :=
  Sys2Proof.Claims.UniformArithmetic ∧ Sys2Proof.Claims.UniformShifts ∧ Sys2Proof.Claims.UniformMoves

namespace Sys2Proof.Claims

/-! ## Floating point (04, 06) -/

/-- What one active fibre computes: the default result and the exceptions (R93, R129 to R140). -/
def floatRes (k : FloatOp) (rnd : Nat) (x : LArgs) (s : State) (f : Fibre) : Nat × Exc :=
  let t := laneFt x.ty
  let w := regBits t
  k.apply t (s.mode rnd) s.ufTrap (s.rd f x.a w)
    (if k.binary then s.arg f x.b (match k with | .expi => 32 | _ => w) else 0)
    (match k with | .fma _ _ => s.rd f x.c w | _ => 0)

/-- Each active fibre ORs its exceptions into its flags (R92, R93). -/
def flagged (act : List Fibre) (e : Fibre → Exc) (s t : State) : State :=
  t.mapFibres (fun f => match act.find? (fun g => g.lane = f.lane && s.inBatch f) with
    | some g => { f with fflags := f.fflags ||| e g }
    | none => f)

/-- R93 over the results of the active fibres: with no enabled exception the word completes with `t`; otherwise it traps with the
lowest one and the lanes that signal it, and nothing is written. -/
def Signals (i : Instr) (len : Nat) (act : List Fibre) (e : Fibre → Exc) (s t : State) : Prop :=
  ((∀ f ∈ act, e f &&& s.q.ftrap = 0) → Done i len s (flagged act e s t))
  ∧ (∀ c : Nat, (∃ f ∈ act, (e f &&& s.q.ftrap).getLsbD c = true) →
      (∀ j < c, ∀ f ∈ act, (e f &&& s.q.ftrap).getLsbD j = false) →
      ∃ r : Trap, r.code = c + 1 ∧ r.epc = s.pc ∧ r.elanes = laneMask (act.filter (fun f => (e f).getLsbD c))
        ∧ exec i s = .next (s.unblocked.takeTrap r))

/-- A lane word of one format. -/
def FloatWord (i : Instr) (op : Nat) (k : FloatOp) (rnd : Nat) (x : LArgs) (s : State) : Prop :=
  let t := laneFt x.ty
  let w := regBits t
  let wb := match k with | .expi => 32 | _ => w
  Passes i { laneWord op x ([.dst x.d (k.width t), .src x.a w] ++ (if k.binary then x.b.use wb else [])
      ++ (match k with | .fma _ _ => [.src x.c w] | _ => [])) with dyn := s.dynOk rnd } s →
    Signals i x.len (s.active x.pr x.neg) (fun f => (floatRes k rnd x s f).2) s
      (lanesWritten s x (k.width t) k.latch (fun f => (floatRes k rnd x s f).1))

/-- A conversion (R134 to R136). -/
def FloatConv (i : Instr) (op : Nat) (unit : Bool) (ws wd : Nat) (g : Nat → Nat × Exc) (x : LArgs) (s : State) : Prop :=
  Passes i { laneWord op x [.dst x.d wd, .src x.a ws] with unit := unit } s →
    Signals i x.len (s.active x.pr x.neg) (fun f => (g (s.rd f x.a ws)).2) s
      (lanesWritten s x wd .fp (fun f => (g (s.rd f x.a ws)).1))

/-- `fcmp`: the relation into a predicate under COMB, with its exceptions (R132). -/
def FloatCompare (i : Instr) (comb : Nat) (quiet : Bool) (x : LArgs) (s : State) : Prop :=
  let p := fpar (laneFt x.ty)
  let w := regBits (laneFt x.ty)
  let pd := x.dn % 8
  let act := s.active x.pr x.neg
  let r := fun (f : Fibre) => fCmp (x.dn / 8 % 8) quiet (p.read (s.rd f x.a w)) (p.read (s.arg f x.b w))
  Passes i (laneWord 0x18 x ([.below x.dn 64, .src x.a w] ++ x.b.use w)) s →
    Signals i x.len act (fun f => (r f).2) s (s.mapFibres (fun f =>
      match act.find? (fun g => g.lane = f.lane && s.inBatch f) with
      | some g => f.setPred pd (combine comb (f.pred pd) (r g).1)
      | none => f))

/-- R94 for a uniform word: the exceptions go to every member of the batch, and a trap names them all. -/
def SignalsU (i : Instr) (pr : BitVec 3) (neg : Bool) (len : Nat) (e : Exc) (s t : State) : Prop :=
  (s.kActive pr neg = false → Done i len s s)
  ∧ (s.kActive pr neg = true → e &&& s.q.ftrap = 0 → Done i len s (t.mapFibres (fun f =>
      if s.inBatch f then { f with fflags := f.fflags ||| e } else f)))
  ∧ (s.kActive pr neg = true → ∀ c : Nat, (e &&& s.q.ftrap).getLsbD c = true → (∀ j < c, (e &&& s.q.ftrap).getLsbD j = false) →
      ∃ r : Trap, r.code = c + 1 ∧ r.epc = s.pc ∧ r.elanes = laneMask s.batch ∧ exec i s = .next (s.unblocked.takeTrap r))

/-- A uniform word of one format (R141). -/
def FloatWordU (i : Instr) (op : Nat) (k : FloatOp) (rnd : Nat) (x : UArgs) (s : State) : Prop :=
  let t := uniFt x.ty
  let r := k.apply t (s.mode rnd) s.ufTrap (s.q.sreg x.a).toNat (if k.binary then s.uarg x.b 64 else 0)
    (match k with | .fma _ _ => (s.q.sreg x.c).toNat | _ => 0)
  Passes i { uniWord op x ([.sreg x.d, .sreg x.a] ++ (if k.binary then x.b.use 64 else [])
      ++ (match k with | .fma _ _ => [.sreg x.c] | _ => [])) with dyn := s.dynOk rnd } s →
    SignalsU i x.pr x.neg x.len r.2 s (s.setS x.d (BitVec.ofNat 64 r.1))

/-- `sfcmp`. -/
def FloatCompareU (i : Instr) (comb : Nat) (quiet : Bool) (x : UArgs) (s : State) : Prop :=
  let p := fpar (uniFt x.ty)
  let kd := x.d % 8
  let r := fCmp (x.d / 8 % 8) quiet (p.read (s.q.sreg x.a).toNat) (p.read (s.uarg x.b 64))
  Passes i (uniWord 0x0E x ([.below x.d 64, .sreg x.a] ++ x.b.use 64)) s →
    SignalsU i x.pr x.neg x.len r.2 s (s.setK kd (combine comb (s.q.kpred kd) r.1))

end Sys2Proof.Claims

/-- R93, R129: the six basic operations, in every form: results, flags and traps. -/
def Sys2Proof.Claims.FloatBasic : Prop :=
  ∀ s : State,
    (∀ o : SF, let x := lsArgs o
      FloatWord (.faddLS o) 0x10 .add 0 x s ∧ FloatWord (.fsubLS o) 0x11 .sub 0 x s ∧ FloatWord (.fmulLS o) 0x12 .mul 0 x s
      ∧ FloatWord (.fdivLS o) 0x14 .div 0 x s ∧ FloatWord (.fsqrtLS o) 0x15 .sqrt 0 x s)
    ∧ (∀ o : LF, let x := llArgs o; let m := o.rnd.toNat
      FloatWord (.faddLL o) 0x10 .add m x s ∧ FloatWord (.fsubLL o) 0x11 .sub m x s ∧ FloatWord (.fmulLL o) 0x12 .mul m x s
      ∧ FloatWord (.fmaLL o) 0x13 (.fma o.np o.nc) m x s
      ∧ FloatWord (.fdivLL o) 0x14 .div m x s ∧ FloatWord (.fsqrtLL o) 0x15 .sqrt m x s)
    ∧ (∀ o : IF, let m := dynRnd o.top
      FloatWord (.faddLI o) 0x10 .add m (lfArgs .add o) s ∧ FloatWord (.fsubLI o) 0x11 .sub m (lfArgs .sub o) s
      ∧ FloatWord (.fmulLI o) 0x12 .mul m (lfArgs .mul o) s)

/-- R130, R131, R133: the selections, sign operations and classification. -/
def Sys2Proof.Claims.FloatSelect : Prop :=
  ∀ s : State,
    (∀ o : SF, let x := lsArgs o
      FloatWord (.fminLS o) 0x16 (.minmax .min) 0 x s ∧ FloatWord (.fmaxLS o) 0x16 (.minmax .max) 0 x s
      ∧ FloatWord (.fminnLS o) 0x16 (.minmax .minn) 0 x s ∧ FloatWord (.fmaxnLS o) 0x16 (.minmax .maxn) 0 x s
      ∧ FloatWord (.fabsLS o) 0x17 .abs 0 x s ∧ FloatWord (.fnegLS o) 0x17 .neg 0 x s ∧ FloatWord (.fcpysLS o) 0x17 .cpys 0 x s
      ∧ FloatWord (.fclassLS o) 0x19 .fclass 0 x s)
    ∧ (∀ o : LF, let x := llArgs o; let m := o.rnd.toNat
      FloatWord (.fminLL o) 0x16 (.minmax .min) m x s ∧ FloatWord (.fmaxLL o) 0x16 (.minmax .max) m x s
      ∧ FloatWord (.fminnLL o) 0x16 (.minmax .minn) m x s ∧ FloatWord (.fmaxnLL o) 0x16 (.minmax .maxn) m x s
      ∧ FloatWord (.fminmLL o) 0x16 (.minmax .minm) m x s ∧ FloatWord (.fmaxmLL o) 0x16 (.minmax .maxm) m x s
      ∧ FloatWord (.fabsLL o) 0x17 .abs m x s ∧ FloatWord (.fnegLL o) 0x17 .neg m x s ∧ FloatWord (.fcpysLL o) 0x17 .cpys m x s
      ∧ FloatWord (.fclassLL o) 0x19 .fclass m x s)
    ∧ (∀ o : IF, let m := dynRnd o.top
      FloatWord (.fminLI o) 0x16 (.minmax .min) m (lfArgs (.minmax .min) o) s
      ∧ FloatWord (.fmaxLI o) 0x16 (.minmax .max) m (lfArgs (.minmax .max) o) s
      ∧ FloatWord (.fminnLI o) 0x16 (.minmax .minn) m (lfArgs (.minmax .minn) o) s
      ∧ FloatWord (.fmaxnLI o) 0x16 (.minmax .maxn) m (lfArgs (.minmax .maxn) o) s
      ∧ FloatWord (.fminmLI o) 0x16 (.minmax .minm) m (lfArgs (.minmax .minm) o) s
      ∧ FloatWord (.fmaxmLI o) 0x16 (.minmax .maxm) m (lfArgs (.minmax .maxm) o) s)

/-- R137 to R140: rounding to an integer, exponents, the fraction functions and the seeds. -/
def Sys2Proof.Claims.FloatFunctions : Prop :=
  ∀ s : State,
    (∀ o : SF, let x := lsArgs o
      FloatWord (.frintLS o) 0x1C (.rint false) 0 x s ∧ FloatWord (.fexpiLS o) 0x1D .expi 0 x s ∧ FloatWord (.fexpxLS o) 0x1D .expx 0 x s
      ∧ FloatWord (.fexp2fLS o) 0x1E (.frac .exp2) 0 x s ∧ FloatWord (.flog2fLS o) 0x1E (.frac .log2) 0 x s
      ∧ FloatWord (.fsinpifLS o) 0x1E (.frac .sinpi) 0 x s ∧ FloatWord (.fcospifLS o) 0x1E (.frac .cospi) 0 x s
      ∧ FloatWord (.fseedrLS o) 0x1F .seedr 0 x s ∧ FloatWord (.fseedqLS o) 0x1F .seedq 0 x s)
    ∧ (∀ o : LF, let x := llArgs o; let m := o.rnd.toNat
      FloatWord (.frintLL o) 0x1C (.rint o.xflag) m x s ∧ FloatWord (.fexpiLL o) 0x1D .expi m x s ∧ FloatWord (.fexpxLL o) 0x1D .expx m x s
      ∧ FloatWord (.fexp2fLL o) 0x1E (.frac .exp2) m x s ∧ FloatWord (.flog2fLL o) 0x1E (.frac .log2) m x s
      ∧ FloatWord (.fsinpifLL o) 0x1E (.frac .sinpi) m x s ∧ FloatWord (.fcospifLL o) 0x1E (.frac .cospi) m x s
      ∧ FloatWord (.fseedrLL o) 0x1F .seedr m x s ∧ FloatWord (.fseedqLL o) 0x1F .seedq m x s)
    ∧ (∀ o : IF, FloatWord (.fexpiLI o) 0x1D .expi (dynRnd o.top) (lfArgs .expi o) s)

/-- R119 to R133: the floating-point words of the lanes. -/
def Obligations.FloatWords : Prop :=
  Sys2Proof.Claims.FloatBasic ∧ Sys2Proof.Claims.FloatSelect ∧ Sys2Proof.Claims.FloatFunctions

/-- R132, R134 to R136: comparison and the conversions between formats and with integers. -/
def Obligations.FloatConversions : Prop :=
  ∀ s : State,
    (∀ o : SF,
      FloatCompare (.fcmpLS o) 0 false (lsArgs o) s
      ∧ FloatConv (.fcvtiLS o) 0x1B true 32 32 (fun a => let r := fToInt ⟨32, true⟩ 0 ((fpar .f32).read a); (extTo r.1 ⟨32, true⟩ 32, r.2))
          (lsArgs o) s
      ∧ FloatConv (.icvtfLS o) 0x1B true 32 32 (fun a => fFromInt (fpar .f32) 0 s.ufTrap (patVal ⟨32, true⟩ a)) (lsArgs o) s)
    ∧ (∀ o : LF, let x := llArgs o; let m := o.rnd.toNat; let t := laneTy o.low3; let p := fpar (laneFt o.ty)
      FloatCompare (.fcmpLL o) o.comb.toNat o.quiet x s
      ∧ FloatConv (.fcvtLL o) 0x1A (s.fmtUnit (fmtOf o.sfmt) && s.fmtUnit (fmtOf o.dfmt)) (regBits (fmtOf o.sfmt)) (regBits (fmtOf o.dfmt))
          (fConvert (fmtOf o.sfmt) (fmtOf o.dfmt) m s.ufTrap) x s
      ∧ FloatConv (.fcvtiLL o) 0x1B true (regBits (laneFt o.ty)) (wrOf t) (fun a => let r := fToInt t m (p.read a); (extTo r.1 t (wrOf t), r.2)) x s
      ∧ FloatConv (.icvtfLL o) 0x1B true (wrOf t) (regBits (laneFt o.ty)) (fun a => fFromInt p m s.ufTrap (patVal t a)) x s)
    ∧ (∀ o : IF, FloatCompare (.fcmpLI o) 0 false (lfArgs .add o) s)

/-- R94, R141: the uniform floating-point words. -/
def Obligations.UniformFloat : Prop :=
  ∀ s : State,
    (∀ o : SF, let x := usArgs o
      FloatWordU (.sfaddUS o) 0x0C .add 0 x s ∧ FloatWordU (.sfsubUS o) 0x0C .sub 0 x s ∧ FloatWordU (.sfmulUS o) 0x0D .mul 0 x s
      ∧ FloatWordU (.sfdivUS o) 0x0F .div 0 x s ∧ FloatWordU (.sfsqrtUS o) 0x0F .sqrt 0 x s ∧ FloatCompareU (.sfcmpUS o) 0 false x s)
    ∧ (∀ o : LF, let x := ulArgs o; let m := o.rnd.toNat
      FloatWordU (.sfaddUL o) 0x0C .add m x s ∧ FloatWordU (.sfsubUL o) 0x0C .sub m x s ∧ FloatWordU (.sfmulUL o) 0x0D .mul m x s
      ∧ FloatWordU (.sfmaUL o) 0x0D (.fma o.np o.nc) m x s ∧ FloatWordU (.sfdivUL o) 0x0F .div m x s
      ∧ FloatWordU (.sfsqrtUL o) 0x0F .sqrt m x s ∧ FloatCompareU (.sfcmpUL o) o.comb.toNat o.quiet x s
      ∧ (let r := fConvert (fmtOf o.sfmt) (fmtOf o.dfmt) m s.ufTrap (s.q.sreg x.a).toNat
         Passes (.sfcvtUL o) { uniWord 0x0E x [.sreg x.d, .sreg x.a] with unit := s.fmtUnit (fmtOf o.sfmt) && s.fmtUnit (fmtOf o.dfmt) } s →
           SignalsU (.sfcvtUL o) x.pr x.neg x.len r.2 s (s.setS x.d (BitVec.ofNat 64 r.1))))
    ∧ (∀ o : IF, let m := dynRnd o.top
      FloatWordU (.sfaddUI o) 0x0C .add m (ufArgs o) s ∧ FloatWordU (.sfsubUI o) 0x0C .sub m (ufArgs o) s
      ∧ FloatWordU (.sfmulUI o) 0x0D .mul m (ufArgs o) s ∧ FloatCompareU (.sfcmpUI o) 0 false (ufArgs o) s)

/-- R75, R129: an operation of the six with a NaN operand returns the canonical NaN, and signals NV exactly for a signalling NaN; for
`fma`, when neither product operand is an infinity. -/
def Obligations.NanOperands : Prop :=
  ∀ (p : FPar) (mode : Nat) (uf : Bool) (x y z : FV),
    ((x.isNan || y.isNan) = true →
      fAdd p mode uf x y = (p.nan, x.sig ||| y.sig) ∧ fMul p mode uf x y = (p.nan, x.sig ||| y.sig)
      ∧ fDiv p mode uf x y = (p.nan, x.sig ||| y.sig))
    ∧ (x.isNan = true → fSqrt p mode uf x = (p.nan, x.sig))
    ∧ ((x.isNan || y.isNan) = true → fFma p mode uf x y z = (p.nan, x.sig ||| y.sig ||| z.sig))
    ∧ (z.isNan = true → (∀ a, x ≠ .inf a) → (∀ a, y ≠ .inf a) → fFma p mode uf x y z = (p.nan, x.sig ||| y.sig ||| z.sig))

/-- R88: rounding n / d to an integer: exact quotients stand, every mode gives one of the two neighbours, RTZ the lower, RUP and RDN
by the sign, RNE the nearer and the even one of two equally near, RTO the odd one. -/
def Obligations.RoundingModes : Prop :=
  ∀ (mode : Nat) (neg : Bool) (n d : Nat), 0 < d →
    (n % d = 0 → roundMag mode neg n d = n / d)
    ∧ (n % d ≠ 0 →
        (roundMag mode neg n d = n / d ∨ roundMag mode neg n d = n / d + 1)
        ∧ roundMag 2 neg n d = n / d
        ∧ roundMag 3 neg n d = (if neg then n / d else n / d + 1)
        ∧ roundMag 4 neg n d = (if neg then n / d + 1 else n / d)
        ∧ roundMag 5 neg n d % 2 = 1
        ∧ (2 * (n % d) < d → roundMag 0 neg n d = n / d ∧ roundMag 1 neg n d = n / d)
        ∧ (d < 2 * (n % d) → roundMag 0 neg n d = n / d + 1 ∧ roundMag 1 neg n d = n / d + 1)
        ∧ (2 * (n % d) = d → roundMag 0 neg n d % 2 = 0 ∧ roundMag 1 neg n d = n / d + 1))

/-- R74, R88: a number that a format holds rounds to its own pattern, in every mode and without an exception where the underflow
trap is not enabled. -/
def Obligations.RepresentableIsExact : Prop :=
  ∀ (t : Fmt) (mode : Nat) (a m : Nat) (neg : Bool) (e : Int),
    t ∈ [Fmt.f64, .f32, .f16, .b16, .f8a, .f8b] → a < 2 * (fpar t).signBit → (fpar t).read a = .fin neg m e → m ≠ 0 →
      (fpar t).roundTo mode false neg m e = (a, 0)

namespace Sys2Proof.Claims

/-! ## Memory (10, 11) -/

/-- The accesses of a word have passed their checks (R204), and nothing keeps them waiting or poisons them. -/
abbrev Reaches (s : State) (eas : List (Nat × Nat)) (check : Nat → Except Nat Target) (n : Nat) (reads : Bool) (xs : List Access) : Prop :=
  checkAll eas check = .ok xs ∧ (s.hindrance xs n reads).isNone = true

/-- The element that a lane brings (R232). -/
def laneElem (s : State) (l : Nat) (d : Name) (w : Nat) : Nat :=
  ((s.batch.find? (fun f => f.lane = l)).map (fun f => s.rd f d w)).getD 0

/-- What the checks look at in a lane memory word. -/
abbrev memWord (op : Nat) (x : MArgs) (uses : List Use) : Desc :=
  { uni := false, op := op, len := x.len, pr := x.pr, neg := x.neg, uses := uses }

/-- The effective addresses of the active lanes (R203): base + index × scale + displacement modulo 2^`w`. -/
def laneEas (x : MArgs) (s : State) (w : Nat) : List (Nat × Nat) :=
  (s.active x.pr x.neg).map (fun f =>
    (f.lane, ((((s.rd f x.base w : Nat) : Int)
      + (match x.index with | some i => (BitVec.ofNat 32 (s.rd f i 32)).toInt | none => 0) * 2 ^ x.scale + x.disp) % 2 ^ w).toNat))

/-- `ld` (R208, R209): every active lane's bytes, read in ascending lane order and extended by its type, to the destination and lmem; with
ORD an acquire follows. -/
def Loads (i : Instr) (x : MArgs) (s : State) : Prop :=
  let n := mtBytes x.mt
  let w := mtWidth x.mt
  Passes i (memWord 0x20 x (.dst x.d w :: x.uses 64)) s →
    ∀ xs, Reaches s (laneEas x s 64) (fun ea => s.memCheck s.q.fid ea n .read) n true xs →
      let r := (s.cacheAll xs).loads n x.hint xs
      let u := r.2.writeLanes x.d w (some .mem) (r.1.map (fun y => (y.1, mtExtend x.mt y.2)))
      Done i x.len s (if x.ord then u.acquire x.scope else u)

/-- `st` (R208, R209): the low bytes of every active lane's source, in ascending lane order; with ORD a release comes first. -/
def Stores (i : Instr) (x : MArgs) (s : State) : Prop :=
  let n := mtBytes x.mt
  let w := mtWidth x.mt
  Passes i (memWord 0x21 x (.src x.d w :: x.uses 64)) s →
    ∀ xs, Reaches s (laneEas x s 64) (fun ea => s.memCheck s.q.fid ea n .write) n false xs →
      Behind i x.len x.ord x.scope s (s.cacheAll xs) (fun t =>
        Done i x.len s (t.storeAll n x.hint xs (fun l => laneElem s l x.d w) (if x.ord then some x.scope else none)))

/-- `lds` (R210): 32-bit offsets into the folio's own scratchpad, or with REM another member's. -/
def LoadsScratch (i : Instr) (x : MArgs) (s : State) : Prop :=
  let n := mtBytes x.mt
  let w := mtWidth x.mt
  Passes i (memWord 0x22 x (.dst x.d w :: x.uses 32)) s →
    ∀ xs, Reaches s (laneEas x s 32) (s.offsetCheck x.rem n) n true xs →
      let r := (s.cacheAll xs).loads n 0 xs
      Done i x.len s (r.2.writeLanes x.d w (some .mem) (r.1.map (fun y => (y.1, mtExtend x.mt y.2))))

/-- `sts` (R210). -/
def StoresScratch (i : Instr) (x : MArgs) (s : State) : Prop :=
  let n := mtBytes x.mt
  let w := mtWidth x.mt
  Passes i (memWord 0x23 x (.src x.d w :: x.uses 32)) s →
    ∀ xs, Reaches s (laneEas x s 32) (s.offsetCheck x.rem n) n false xs →
      Done i x.len s ((s.cacheAll xs).storeAll n 0 xs (fun l => laneElem s l x.d w))

/-- What the checks look at in a uniform memory word. -/
abbrev memWordU (op : Nat) (x : UMArgs) (uses : List Use) : Desc :=
  { uni := true, op := op, len := x.len, pr := x.pr, neg := x.neg, uses := uses }

/-- The effective address of a uniform word (R203). -/
def uniEa (x : UMArgs) (s : State) : Nat :=
  ((((s.q.sreg x.base).toNat : Int) + (match x.index with | some n => sext32 (s.q.sreg n) | none => 0) * 2 ^ x.scale + x.disp)
    % 2 ^ 64).toNat

/-- `sld` (R208, R209), and its word under a false predicate. -/
def LoadsU (i : Instr) (x : UMArgs) (s : State) : Prop :=
  let n := umtBytes x.mt
  Passes i (memWordU 0x10 x (x.data :: x.uses)) s →
    (s.kActive x.pr x.neg = false → Done i x.len s s)
    ∧ (s.kActive x.pr x.neg = true →
        ∀ y, Reaches s [(0, uniEa x s)] (fun ea => s.memCheck s.q.fid ea n .read) n true [y] →
          let r := ((s.cacheAll [y]).startReads s.q.uid).loadOne n x.hint y
          let u := r.2.setData x.d (x.mt = 6) (umtExtend x.mt r.1)
          Done i x.len s (if x.ord then u.acquire x.scope else u))

/-- `sst` (R208, R209). -/
def StoresU (i : Instr) (x : UMArgs) (s : State) : Prop :=
  let n := umtBytes x.mt
  Passes i (memWordU 0x11 x (x.data :: x.uses)) s →
    (s.kActive x.pr x.neg = false → Done i x.len s s)
    ∧ (s.kActive x.pr x.neg = true →
        ∀ y, Reaches s [(0, uniEa x s)] (fun ea => s.memCheck s.q.fid ea n .write) n false [y] →
          Behind i x.len x.ord x.scope s (s.cacheAll [y]) (fun t =>
            Done i x.len s (t.storeOne n x.hint y ((s.q.sreg x.d).toNat + if x.mt = 6 then 2 ^ 64 * (s.q.sreg (x.d + 1)).toNat else 0)
              (if x.ord then some x.scope else none))))

/-- `dsc` and `cwb` (R213, R214): every line of every active lane's range, once all of them have passed. -/
def Ranges (i : Instr) (acc : Acc) (line : State → Target → State) (x : MArgs) (len : Name) (s : State) : Prop :=
  let y := { x with index := none }
  Passes i (memWord 0x24 x ([.base x.base 64, .src len 32])) s →
    ∀ ts : Fibre → List Target,
      (∀ f ∈ s.active x.pr x.neg, s.rangeCheck (y.ea s 64 f) (s.rd f len 32) acc = .ok (ts f)) →
      let xs := (s.active x.pr x.neg).flatMap (fun f => (ts f).map (fun t => ({ lane := f.lane, ea := 0, t := t } : Access)))
      (s.hindrance xs 64 false).isNone = true →
      Done i x.len s (xs.foldl (fun (z : State) a => line z a.t) (s.cacheAll xs))

/-- The level that a `pref` names (R206): 1 is the cluster cache, 2 the L2 slice. -/
def levelOf (lvl : Nat) : Level := if lvl = 1 then .cluster else if lvl = 2 then .l2 else .l1

/-- `pref` (R213): a line that can be reached comes to its level with its class, may be filled, and its leaf is cached; an address
that would fault does nothing. -/
def Prefetches (i : Instr) (x : MArgs) (s : State) : Prop :=
  Passes i (memWord 0x24 x (x.uses 64)) s →
    Done i x.len s ((laneEas x s 64).foldl (fun (z : State) a =>
      match s.route s.q.fid a.2 .read with
      | .ok (.mem t pa) => ((z.cacheTarget s.q.fid .core (.mem t pa)).touchCore (levelOf (x.scope % 4)) false
          (.mem { t with attr := { t.attr with hint := x.hint } } pa)).recallFor s.fol.die (.mem { t with attr := { t.attr with hint := x.hint } } pa)
      | _ => z) s)

/-- `addr` (R212): the effective address to a register pair and lint, with no access. -/
def Addresses (i : Instr) (x : MArgs) (s : State) : Prop :=
  Passes i (memWord 0x2B x (.dst x.d 64 :: x.uses 64)) s →
    Done i x.len s (s.writeLanes x.d 64 (some .int) (laneEas x s 64))

end Sys2Proof.Claims

/-- R208 to R210: `ld`, `lds` and `sld`. It rests on choices of the model: log 7 (the choice among agents), 8 (the axioms of
memory as steps), 71 (cached leaves), 108 (where the model is stricter than the axioms). -/
def Obligations.LoadResults : Prop :=
  ∀ s : State,
    (∀ (o : SF) (m2 : BitVec 2), Loads (.ldLS o m2) (lsMem o m2) s ∧ LoadsScratch (.ldsLS o m2) (lsMem o m2) s
      ∧ LoadsU (.sldUS o m2) (usMem o m2) s)
    ∧ (∀ o : LF, Loads (.ldLL o) (llMem o) s ∧ LoadsScratch (.ldsLL o) (llMem o) s ∧ LoadsU (.sldUL o) (ulMem o) s)
    ∧ (∀ o : IF, Loads (.ldLI o) (liMem o) s ∧ LoadsScratch (.ldsLI o) (liMem o) s ∧ LoadsU (.sldUI o) (uiMem o) s)

/-- R208 to R210: `st`, `sts` and `sst`. It rests on choices of the model: log 7 (the choice among agents), 8 (the axioms of
memory as steps), 71 (cached leaves), 89 (when a store is performed). -/
def Obligations.StoreResults : Prop :=
  ∀ s : State,
    (∀ (o : SF) (m2 : BitVec 2), Stores (.stLS o m2) (lsMem o m2) s ∧ StoresScratch (.stsLS o m2) (lsMem o m2) s
      ∧ StoresU (.sstUS o m2) (usMem o m2) s)
    ∧ (∀ o : LF, Stores (.stLL o) (llMem o) s ∧ StoresScratch (.stsLL o) (llMem o) s ∧ StoresU (.sstUL o) (ulMem o) s)
    ∧ (∀ o : IF, Stores (.stLI o) (liMem o) s ∧ StoresScratch (.stsLI o) (liMem o) s ∧ StoresU (.sstUI o) (uiMem o) s)

/-- R212 to R214: `addr`, `pref`, `dsc` and `cwb`. It rests on a choice of the model: log 72 (what `dsc` leaves). -/
def Obligations.AddressInstructions : Prop :=
  ∀ s : State,
    (∀ (o : SF) (m2 : BitVec 2), Addresses (.addrLS o m2) (lsMem o m2) s)
    ∧ (∀ o : SF, Prefetches (.prefLS o) (lsMem o 0) s
      ∧ Ranges (.dscLS o) .write State.discardLine (lsMem o 0) (shortName o.b) s
      ∧ Ranges (.cwbLS o) .read State.cleanLine (lsMem o 0) (shortName o.b) s)
    ∧ (∀ o : LF, Addresses (.addrLL o) (llMem o) s ∧ Prefetches (.prefLL o) (llMem o) s
      ∧ Ranges (.dscLL o) .write State.discardLine (llMem o) (longName o.b) s
      ∧ Ranges (.cwbLL o) .read State.cleanLine (llMem o) (longName o.b) s)
    ∧ (∀ o : IF, Addresses (.addrLI o) (liMem o) s)

/-- R233 to R236: `atom`, `cas` and `red` carry out every lane's operation at its home, in ascending lane order; `atom` and `cas`
return the old values, `cas` sets its predicate where the element stood as expected. -/
def Sys2Proof.Claims.LaneAtomics : Prop :=
  ∀ (s : State) (o : LF) (xs : List Access),
    let x := atomMem o
    let t := laneAt o.ty
    let n := t.bytes
    let w := 8 * n
    let rel := o.hnt.getLsbD 1
    let tag := if rel then some o.low3.toNat else none
    let finish := fun (u : State) => if o.hnt.getLsbD 0 then u.acquire o.low3.toNat else u
    (Passes (.atomLL o) (memWord 0x25 x (.group x.d w :: x.uses 64)) s →
      Reaches s (laneEas x s 64) (fun ea => s.memCheck s.q.fid ea n .write) n true xs →
      Behind (.atomLL o) 8 rel o.low3.toNat s (s.cacheAll xs) (fun start =>
        let r := start.rmwAll n xs (fun l old =>
          (some (atomOp o.dfmt.toNat t old (laneElem s l x.d w)).1, (atomOp o.dfmt.toNat t old (laneElem s l x.d w)).2, true)) tag
        Done (.atomLL o) 8 s (finish ((r.2.writeLanes x.d w (some .mem) (r.1.map (fun y => (y.lane, y.old)))).mapFibres (fun f =>
          match r.1.find? (fun y => y.lane = f.lane) with
          | some y => { f with fflags := f.fflags ||| y.exc }
          | none => f)))))
    ∧ (Passes (.casLL o) (memWord 0x26 x (.group x.d (2 * w) :: x.uses 64)) s →
      Reaches s (laneEas x s 64) (fun ea => s.memCheck s.q.fid ea n .write) n true xs →
      Behind (.casLL o) 8 rel o.low3.toNat s (s.cacheAll xs) (fun start =>
        let r := start.rmwAll n xs (fun l old =>
          if old = laneElem s l x.d (2 * w) % 2 ^ w then (some (laneElem s l x.d (2 * w) / 2 ^ w), 0, true) else (none, 0, false)) tag
        Done (.casLL o) 8 s (finish ((r.2.writeLanes x.d w (some .mem) (r.1.map (fun y => (y.lane, y.old)))).writePreds o.ps.toNat
          (r.1.map (fun y => (y.lane, y.ok)))))))
    ∧ (Passes (.redLL o) (memWord 0x27 x (.src x.d w :: x.uses 64)) s →
      Reaches s (laneEas x s 64) (fun ea => s.memCheck s.q.fid ea n .write) n false xs →
      Behind (.redLL o) 8 rel o.low3.toNat s (s.cacheAll xs) (fun start =>
        Done (.redLL o) 8 s (xs.foldl (fun (z : State) y => z.redAt y.t o.dfmt.toNat o.ty (laneElem s y.lane x.d w) tag) start)))

/-- R232 to R234: `satom` and `scas` on one element. -/
def Sys2Proof.Claims.UniformAtomics : Prop :=
  ∀ (s : State) (o : LF) (y : Access),
    let x := satomMem o
    let t := uniAt o.ty
    let n := t.bytes
    let k := satomRegs t
    let rel := o.hnt.getLsbD 1
    let tag := if rel then some o.low3.toNat else none
    let finish := fun (u : State) => if o.hnt.getLsbD 0 then u.acquire o.low3.toNat else u
    let first := fun (m : Nat) => if m = 1 then Use.sreg x.d else .sgroup x.d m
    let reach := Reaches s [(0, uniEa x s)] (fun ea => s.memCheck s.q.fid ea n .write) n true [y]
    (Passes (.satomUL o) (memWordU 0x12 x (first k :: x.uses)) s →
      (s.kActive o.pr o.neg = false → Done (.satomUL o) 8 s s)
      ∧ (s.kActive o.pr o.neg = true → reach →
          Behind (.satomUL o) 8 rel o.low3.toNat s (s.cacheAll [y]) (fun start =>
            let r := (start.startReads start.q.uid).rmw y.t n (fun old => some (atomOp o.dfmt.toNat t old (s.q.sgroup x.d k % 2 ^ (8 * n))).1) tag
            let e := (atomOp o.dfmt.toNat t r.1 (s.q.sgroup x.d k % 2 ^ (8 * n))).2
            Done (.satomUL o) 8 s (finish ((r.2.setSgroup x.d k (t.ext r.1)).mapFibres (fun f =>
              if s.inBatch f then { f with fflags := f.fflags ||| e } else f))))))
    ∧ (Passes (.scasUL o) (memWordU 0x12 x (first (2 * k) :: x.uses)) s →
      (s.kActive o.pr o.neg = false → Done (.scasUL o) 8 s s)
      ∧ (s.kActive o.pr o.neg = true → reach →
          let e := s.q.sgroup x.d k % 2 ^ (8 * n)
          Behind (.scasUL o) 8 rel o.low3.toNat s (s.cacheAll [y]) (fun start =>
            let r := (start.startReads start.q.uid).rmw y.t n (fun old => if old = e then some (s.q.sgroup (x.d + k) k % 2 ^ (8 * n)) else none) tag
            Done (.scasUL o) 8 s (finish ((r.2.setSgroup x.d k (t.ext r.1)).setK o.ps.toNat (r.1 = e))))))

/-- R229 to R235: the atomic operations. It rests on choices of the model: log 8 (the axioms of memory as steps), 45 (the old
value of a signed 32-bit type), 108 (where the model is stricter than the axioms). -/
def Obligations.Atomics : Prop :=
  Sys2Proof.Claims.LaneAtomics ∧ Sys2Proof.Claims.UniformAtomics

namespace Sys2Proof.Claims

/-! ## Uniform words of the later chapters -/

/-- What the checks look at in a short uniform word. -/
abbrev usWord (op : Nat) (o : SF) (uses : List Use) : Desc :=
  { uni := true, op := op, len := 4, pr := o.pr, neg := o.neg, uses := uses }
/-- In a long uniform word. -/
abbrev ulWord (op : Nat) (o : LF) (uses : List Use) : Desc :=
  { uni := true, op := op, len := 8, pr := o.pr, neg := o.neg, uses := uses }
/-- In a uniform word with an immediate. -/
abbrev uiWord (op : Nat) (o : IF) (uses : List Use) : Desc :=
  { uni := true, op := op, len := 8, pr := o.pr, neg := o.neg, uses := uses }

/-- A uniform word: without its quire predicate it only advances (R54); with it, `P` says what happens. -/
def Under (i : Instr) (D : Desc) (s : State) (P : Prop) : Prop :=
  Passes i D s → (s.kActive D.pr D.neg = false → Done i D.len s s) ∧ (s.kActive D.pr D.neg = true → P)

/-- The word raises a trap, and nothing of it is written. -/
def Traps (i : Instr) (code : Nat) (elanes : Word) (eaddr : DWord) (s : State) : Prop :=
  ∃ r : Trap, r.code = code ∧ r.epc = s.pc ∧ r.elanes = elanes ∧ r.eaddr = eaddr ∧ exec i s = .next (s.unblocked.takeTrap r)

/-! ## Copies, tokens, connections, tiles, fences (10) -/

/-- The operation that `cp` or `cpm` captures at issue (R215, R216). -/
def Captures (c : CopyOp) (multi : Bool) (o : LF) (s : State) : Prop :=
  let g := o.a.toNat
  let size := s.q.sreg o.b.toNat
  c.id = s.next ∧ c.quire = s.q.uid ∧ c.fid = s.q.fid ∧ c.members = s.allocations
    ∧ c.src = s.q.sreg g ∧ c.dst = s.q.sreg (g + 1) ∧ c.spitch = s.q.sreg (g + 2) ∧ c.dpitch = s.q.sreg (g + 3)
    ∧ c.rowBytes = fieldOf size 31 0 ∧ c.rows = fieldOf size 63 32
    ∧ c.mask = (if multi then some (s.q.sreg o.c.toNat).toNat else none)
    ∧ c.sws = decide (fieldOf o.modh 4 3 % 2 = 1) ∧ c.swd = decide (2 ≤ fieldOf o.modh 4 3) ∧ c.hint = o.hnt.toNat
    ∧ c.tok = o.low3.toNat ∧ c.epc = s.pc ∧ c.pos = 0 ∧ c.held = none ∧ c.pend = none ∧ c.permit = !multi ∧ c.started = !multi
    ∧ c.engine < 2 ∧ c.rels = (s.view s.q.uid).pub

/-- `cp` starts its token and is in flight; `cpm` waits for a power permit, and its token starts with the grant (R216, R319). -/
def CopyIssues (i : Instr) (op : Nat) (multi : Bool) (o : LF) (s : State) : Prop :=
  let g := o.a.toNat
  let src : Side := ⟨s.q.sreg g, s.q.sreg (g + 2)⟩
  let dst : Side := ⟨s.q.sreg (g + 1), s.q.sreg (g + 3)⟩
  let size := s.q.sreg o.b.toNat
  let flags := fieldOf o.modh 4 3
  Under i { ulWord op o ([.sgroup g 4, .sreg o.b.toNat] ++ (if multi then [.sreg o.c.toNat] else [])) with
      legal := decide (flags = 0) || decide (s.slot (fieldOf o.modh 7 5) ≠ 0) } s
    ((if multi then s.cpmCheck src dst (fieldOf size 31 0) (fieldOf size 63 32) (s.q.sreg o.c.toNat).toNat
        else s.cpCheck src dst (fieldOf size 31 0) (fieldOf size 63 32)) = none →
      (s.q.tok o.low3.toNat).count ≠ 63 → s.clusterBusy = false →
      ∃ c : CopyOp, Captures c multi o s ∧
        (let t : State := { s with next := s.next + 1, copies := s.copies ++ [c] }
         if multi then Blocks i (.permit s.next) 8 s { t with permits := t.permits ++ [.copy s.next] }
         else Done i 8 s ((t.startTok o.low3.toNat).tryEndCopy s.next)))

/-- `twait` (R219): it completes when every token of the mask has count 0, and blocks until then. -/
def TokenWaits (i : Instr) (D : Desc) (mask : Nat) (s : State) : Prop :=
  Under i D s
    ((s.q.tokensDone mask = false → Blocks i (.tokens mask) D.len s s)
      ∧ (s.q.tokensDone mask = true → s.q.lostToken mask = none → Done i D.len s (s.tokensSeen mask))
      ∧ (∀ n, s.q.tokensDone mask = true → s.q.lostToken mask = some n → Traps i 0x141 (laneMask s.batch) 0 s))

/-- `ttest` (R220): DONE and STATUS of the tokens of the mask, and whether all of them are done, in k1. -/
def TokenTests (i : Instr) (D : Desc) (d mask : Nat) (s : State) : Prop :=
  Under i D s (∃ v : DWord,
    (∀ n, n < 8 → (v.getLsbD n = (mask.testBit n && decide ((s.q.tok n).count = 0)))
      ∧ v.extractLsb' (8 + 2 * n) 2 = (if mask.testBit n then (s.q.tok n).status else 0)) ∧ v.toNat < 2 ^ 24
    ∧ Done i D.len s (((if s.q.tokensDone mask then s.tokensSeen mask else s).setS d v).setK 1 (s.q.tokensDone mask)))

/-- A tile operation is posted on a connection, and its token starts (R222). -/
def TilePosts (i : Instr) (send : Bool) (o : LF) (s : State) : Prop :=
  let n := o.d.toNat
  let v := s.q.sreg o.a.toNat
  let off := fieldOf v 31 0
  let len := fieldOf v 63 32
  Under i (ulWord 0x16 o [.below n 16, .sreg o.a.toNat]) s
    (∀ c : Conn, off % 8 = 0 → len % 8 = 0 → len ≤ 65536 → off + len ≤ s.fol.scratchBytes → s.fol.conn n = some c → s.connGone c = false →
      (s.q.tok o.low3.toNat).count ≠ 63 →
      let c' : Conn := if send then { c with sends := c.sends + 1 } else { c with recvs := c.recvs + 1 }
      let x : TileOp := { id := s.next, send := send, quire := s.q.uid, fid := s.q.fid, die := s.fol.die, conn := c
                          index := if send then c.sends else c.recvs, off := off, len := len, tok := o.low3.toNat
                          rels := (s.view s.q.uid).pub }
      let t : State := { s with next := s.next + 1, tiles := s.tiles ++ [x] }
      Done i 8 s ((t.modFolio s.q.fid (fun y => { y with conns := Sparse.set none n (some c') y.conns })).startTok o.low3.toNat))

end Sys2Proof.Claims

/-- R215, R216: what `cp` and `cpm` capture, and how they begin. It rests on choices of the model: log 23 (the order of segments),
31 (operands that wait for a permit), 32 (%eaddr of an issue trap), 100 (the swizzle slot of a copy). -/
def Obligations.CopyIssue : Prop :=
  ∀ (s : State) (o : LF), CopyIssues (.cpUL o) 0x13 false o s ∧ CopyIssues (.cpmUL o) 0x14 true o s

/-- R219, R220, R413: `twait` and `ttest`. -/
def Sys2Proof.Claims.Tokens : Prop :=
  ∀ s : State,
    (∀ o : SF,
      TokenWaits (.twaitUS o) (usWord 0x15 o [.sreg o.a.toNat]) (fieldOf (s.q.sreg o.a.toNat) 7 0) s
      ∧ TokenTests (.ttestUS o) (usWord 0x15 o [.sreg o.d.toNat, .sreg o.a.toNat]) o.d.toNat (fieldOf (s.q.sreg o.a.toNat) 7 0) s)
    ∧ (∀ o : IF,
      TokenWaits (.twaitUI o) (uiWord 0x15 o [.sreg o.a.toNat]) (fieldOf o.imm 7 0) s
      ∧ TokenTests (.ttestUI o) (uiWord 0x15 o [.sreg o.d.toNat]) o.d.toNat (fieldOf o.imm 7 0) s)

/-- R221, R222: `cconn` opens a connection; `tsend` and `trecv` post a tile. -/
def Obligations.ConnectionsAndTiles : Prop :=
  ∀ s : State,
    (∀ o : SF,
      let v := s.q.sreg o.a.toNat
      Under (.cconnUS o) (usWord 0x16 o [.below o.d.toNat 16, .sreg o.a.toNat]) s
        ((fieldOf v 63 24 ≠ 0 ∨ s.endpointHeld s.fol.asid (fieldOf v 23 8) = true → Traps (.cconnUS o) 0x0E0 (laneMask s.batch) 0 s)
          ∧ (fieldOf v 63 24 = 0 → s.endpointHeld s.fol.asid (fieldOf v 23 8) = false →
              ∃ c : Conn, c.asid = s.fol.asid ∧ c.chan = fieldOf v 23 8 ∧ c.die = fieldOf v 7 6 ∧ c.pkg = fieldOf v 5 0
                ∧ c.incarn = s.peerGen (fieldOf v 5 0) (fieldOf v 7 6) ∧ c.sends = 0 ∧ c.recvs = 0
                ∧ Done (.cconnUS o) 4 s (s.modFolio s.q.fid (fun x => { x with conns := Sparse.set none (o.d.toNat % 16) (some c) x.conns })))))
    ∧ (∀ o : LF, TilePosts (.tsendUL o) true o s ∧ TilePosts (.trecvUL o) false o s)

/-- R223, R207, R287: a release fence is a release, an acquire fence an acquire, a full fence both in this order, and a release that
cannot complete blocks. `xfence` performs the quire's stores where FROM has the core path, and its updates of subscriptions where it
has that path; what follows on the TO paths is behind what came before on the FROM paths. -/
def Sys2Proof.Claims.Fences : Prop :=
  ∀ (s : State) (o : SF),
    (let scope := fieldOf o.d 2 0
     Under (.fenceUS o) (usWord 0x17 o []) s
       ((fieldOf o.d 4 3 = 0 → Behind (.fenceUS o) 4 true scope s s (fun t =>
            Done (.fenceUS o) 4 s ((t.publish s.q.uid scope).acquireFence true scope)))
         ∧ (fieldOf o.d 4 3 = 1 → Done (.fenceUS o) 4 s (s.acquireFence false scope))
         ∧ (fieldOf o.d 4 3 = 2 → Behind (.fenceUS o) 4 true scope s s (fun t => Done (.fenceUS o) 4 s (t.publish s.q.uid scope)))))
    ∧ Under (.xfenceUS o) (usWord 0x17 o []) s
        (((o.d.getLsbD 0 && s.pendingBlocked s.q.uid) = true → Blocks (.xfenceUS o) (.flush 4) 4 s s)
          ∧ ((o.d.getLsbD 0 && s.pendingBlocked s.q.uid) = false →
              let ahead := [0, 1, 2, 3].filter (fun p => o.d.getLsbD p)
              let behind := [0, 1, 2, 3].filter (fun p => o.a.getLsbD p)
              let t := if o.d.getLsbD 0 then (s.settleOwed s.q.uid).settleFrom s.q.uid else s
              let u := if o.d.getLsbD 4 then (t.settle (fun w => w.from_ = s.q.uid && w.sub.isSome)).seeUpdates s.q.uid behind else t
              Done (.xfenceUS o) 4 s (u.crossPaths s.q.uid ahead behind)))

/-- R216 to R219, R226: tokens and their waits, and the fences. It rests on choices of the model: log 8 (the axioms of memory as
steps), 108 (where the model is stricter than the axioms). -/
def Obligations.TokensAndFences : Prop :=
  Sys2Proof.Claims.Tokens ∧ Sys2Proof.Claims.Fences

namespace Sys2Proof.Claims

/-! ## The matrix engine (07) -/

/-- What the checks look at in a long lane word. -/
abbrev llWord (op : Nat) (o : LF) (uses : List Use) : Desc :=
  { uni := false, op := op, len := 8, pr := o.pr, neg := o.neg, uses := uses }

/-- The shared fields and the one member that `mma` or `mdist` captures at issue (R152, R170). -/
def MatCaptures (op : MatOp) (dist : Bool) (o : LF) (s : State) : Prop :=
  let g := o.a.toNat
  let so := s.q.sreg o.b.toNat
  op.id = s.next ∧ op.fid = s.q.fid ∧ op.mask = s.q.gang ∧ op.dist = dist ∧ op.clr = o.modh.getLsbD 3
    ∧ op.aslot = fieldOf o.modl 2 0 ∧ op.bslot = fieldOf o.modl 5 3
    ∧ op.k = (if o.modl.getLsbD 6 then (s.q.sreg o.c.toNat).toNat else o.c.toNat)
    ∧ op.bbase = s.q.sreg (g + 2) ∧ op.bstride = s.q.sreg (g + 3) ∧ op.rowB = fieldOf so 47 24 ∧ op.kblk = fieldOf so 63 48
    ∧ op.chunk = 0 ∧ op.permit = false ∧ op.held = none ∧ op.pend = none
    ∧ ∃ m : MatMember, op.members = [m] ∧ m.quire = s.q.uid ∧ m.quireid = s.q.quireid ∧ m.band = o.d.toNat
        ∧ m.abase = s.q.sreg g ∧ m.astride = s.q.sreg (g + 1) ∧ m.rowA = fieldOf so 23 0 ∧ m.tok = o.low3.toNat
        ∧ m.saved = s.q.tok o.low3.toNat ∧ m.flags = 0

/-- `mma` and `mdist` without a gang: the operation is captured, its token starts, and the batch waits for the power permit (R152,
R319). With a gang the part enters the rendezvous (R169). -/
def MatIssues (i : Instr) (opc : Nat) (dist : Bool) (o : LF) (s : State) : Prop :=
  let g := o.a.toNat
  let ra := s.slot (fieldOf o.modl 2 0)
  let rb := s.slot (fieldOf o.modl 5 3)
  let ks := o.modl.getLsbD 6
  let D := { ulWord opc o ([.band o.d.toNat, .sgroup g 4, .sreg o.b.toNat] ++ (if ks then [.sreg o.c.toNat] else [])) with
    unit := s.slotUnits (fieldOf o.modl 2 0) (fieldOf o.modl 5 3)
    legal := ra ≠ 0 && rb ≠ 0 && (slotFmt ra).isFloat = (slotFmt rb).isFloat }
  Under i D s (s.engineBusy s.q.uid = false →
    matCheck (slotFmt ra) (slotFmt rb) (s.q.sreg g) (s.q.sreg (g + 1)) (s.q.sreg (g + 2)) (s.q.sreg (g + 3))
      (if ks then (s.q.sreg o.c.toNat).toNat else o.c.toNat) = none →
    (s.q.tok o.low3.toNat).count ≠ 63 →
    ∃ (op : MatOp) (r : Trap), MatCaptures op dist o s ∧ r.epc = s.pc ∧ r.len = 8 ∧
      (let t := ((({ s with next := s.next + 1, matops := s.matops ++ [op] } : State)).startTok o.low3.toNat).block .rendezvous 8 r
       if s.q.gang = 0 ∨ s.q.gang = (1 : Word) <<< s.q.quireid then op.latch = false ∧ exec i s = .next (t.askPermit op)
       else op.latch = true ∧ exec i s = .next (t.rendezvous op)))

end Sys2Proof.Claims

/-- R152, R168 to R172: `sgang` sets the gang mask or traps; what `mma` and `mdist` capture. It rests on choices of the model: log
32 (%eaddr of an issue trap), 48 (when an operation is in flight). -/
def Obligations.MatrixIssue : Prop :=
  ∀ s : State,
    (∀ o : SF,
      let m : Word := (s.q.sreg o.a.toNat).setWidth 32
      let fine := m = 0 ∨ m = (1 : Word) <<< s.q.quireid
        ∨ (m.getLsbD s.q.quireid = true ∧ popcOf 32 m.toNat ≤ 6 ∧ m.toNat < 2 ^ s.fol.qcnt)
      Under (.sgangUS o) (usWord 0x18 o [.sreg o.a.toNat]) s
        ((fine → Done (.sgangUS o) 4 s { s with q := { s.q with gang := m } })
          ∧ (¬ fine → Traps (.sgangUS o) 0x0C2 (laneMask s.batch) 0 s)))
    ∧ (∀ o : LF, MatIssues (.mmaUL o) 0x19 false o s ∧ MatIssues (.mdistUL o) 0x1A true o s)

/-- R173 to R175: `mtopk`, `mzero` and `mflag` when the engine does not hold their bands. -/
def Sys2Proof.Claims.BandInstructions : Prop :=
  ∀ s : State,
    (∀ o : LF,
      Under (.mtopkUL o) (ulWord 0x1B o [.band o.d.toNat, .band o.a.toNat, .sreg o.b.toNat]) s
        (s.engineBusy s.q.uid = false →
          s.badBand s.q.uid (fun k => k / 512 = o.a.toNat || (k / 512 = o.d.toNat && k % 32 < 8)) = false →
          Done (.mtopkUL o) 8 s { s with q := (List.range 16).foldl (fun (q : Quire) i =>
            q.topkRow o.d.toNat o.a.toNat (fieldOf o.modl 2 0 + 1) (fieldOf (s.q.sreg o.b.toNat) 31 0)
              (o.modl.getLsbD 3) (o.modl.getLsbD 4) i) s.q }))
    ∧ (∀ o : SF,
      Under (.mzeroUS o) (usWord 0x1C o [.band o.d.toNat]) s
        (s.bandBusy s.q.uid o.d.toNat = false →
          Done (.mzeroUS o) 4 s { s.goodCells s.q.uid (fun k => k / 512 = o.d.toNat) with q := s.q.zeroBand o.d.toNat }))
    ∧ (∀ (o : SF) (m2 : BitVec 2),
      Under (.mflagUS o m2) (usWord 0x1D o [.sreg o.d.toNat]) s
        (Done (.mflagUS o m2) 4 s
          (let t := s.setS o.d.toNat (s.q.mflags.setWidth 64)
           if m2.getLsbD 0 then { t with q := { t.q with mflags := 0 } } else t)))

/-- R176 to R178: `mread`, `mwrite` and `mtkread` on a band that no operation holds, with no bad cell among those read. -/
def Sys2Proof.Claims.BandTransfers : Prop :=
  ∀ (s : State) (o : LF),
    let t := fmtOf o.dfmt
    let w := regBits t
    let row := o.sfmt.toNat
    let act := s.active o.pr o.neg
    (Passes (.mreadLL o) { llWord 0x35 o [.dst (longName o.d) w, .band o.a.toNat] with
        unit := s.matUnit t, dyn := s.dynOk o.rnd.toNat } s →
      s.bandBusy s.q.uid o.a.toNat = false → s.badCells act (fun f => cellKey o.a.toNat row f.lane) = 0 →
      let out := fun (f : Fibre) => readOut t (s.mode o.rnd.toNat) (o.modl.getLsbD 6) (s.q.cell o.a.toNat row f.lane)
      let u := s.writeLanes (longName o.d) w (some .mem) (act.map (fun f => (f.lane, (out f).1)))
      Done (.mreadLL o) 8 s { u with q := { u.q with mflags := act.foldl (fun m f => m ||| (out f).2) u.q.mflags } })
    ∧ (Passes (.mwriteLL o) { llWord 0x36 o [.band o.d.toNat, .src (longName o.a) w] with unit := s.matUnit t } s →
      s.bandBusy s.q.uid o.d.toNat = false →
      Done (.mwriteLL o) 8 s
        { s.goodCells s.q.uid (fun k => act.any (fun f => k = cellKey o.d.toNat row f.lane)) with
          q := act.foldl (fun (q : Quire) f =>
            { q.setCell o.d.toNat row f.lane (writeIn t (s.rd f (longName o.a) w)).1 with
              mflags := q.mflags ||| (writeIn t (s.rd f (longName o.a) w)).2 }) s.q })
    ∧ (let val := o.modl.getLsbD 3
       let e := fieldOf o.modl 2 0
       let v := if val then 64 else 32
       Passes (.mtkreadLL o) (llWord 0x37 o [.dst (longName o.d) v, .band o.a.toNat]) s →
       s.bandBusy s.q.uid o.a.toNat = false → s.badCells act (fun f => cellKey o.a.toNat (f.lane % 16) e) = 0 →
       Done (.mtkreadLL o) 8 s (s.writeLanes (longName o.d) v (some .mem) (act.map (fun f =>
         let c := s.q.cell o.a.toNat (f.lane % 16) e
         (f.lane, if c.getLsbD 96 then (if val then fieldOf c 63 0 else fieldOf c 95 64)
                  else if val then 0x7FF8000000000000 else 0xFFFFFFFF)))))

/-- R173 to R178: the transfers between lanes, memory and bands. It rests on choices of the model: log 21 (when a bad cell is good
again), 80 (cells that were written another way). -/
def Obligations.Bands : Prop :=
  Sys2Proof.Claims.BandInstructions ∧ Sys2Proof.Claims.BandTransfers

namespace Sys2Proof.Claims

/-! ## Barriers, queues, `carve`, `pause` (12) -/

/-- The descriptor that a queue instruction names has passed the checks of R269, and it and its ring can be read (R375): the owning
folio and its offset. The quire's own stores to the queue have been performed (R290, R291). -/
abbrev QueueAt (s : State) (addr : DWord) (owner off : Nat) : Prop :=
  s.qAddr s.q.fid addr = .ok (owner, off)
    ∧ (s.ownQueue owner off).queueHurt owner off = none
    ∧ (s.ownQueue owner off).qValid s.q.fid owner off ((s.ownQueue owner off).qdesc owner off) = true

/-- The ring has room and the producer's slot permits an entry (R272). -/
abbrev Accepts (s : State) (folio quire owner off : Nat) : Prop :=
  qCount (s.qdesc owner off) ≠ qSize (s.qdesc owner off) ∧ qPermits (s.qdesc owner off) folio quire = true

end Sys2Proof.Claims

/-- R207, R261, R262, R264: `bar` is an arrival, which carries the quire's release; the last arrival completes the generation, and
until then the batch is blocked. -/
def Sys2Proof.Claims.FullBarrier : Prop :=
  ∀ (s : State) (o : SF) (m2 : BitVec 2),
    let vol := m2.getLsbD 0
    let b : BarId := ⟨vol, none⟩
    Under (.barUS o m2) (usWord 0x20 o []) s
      ((s.barrier s.q.fid b).arrived.contains s.q.uid = false →
        ∃ r : Trap, r.epc = s.pc ∧ r.len = 4 ∧
          (let t := (s.arriveBar s.q.fid s.q.uid b).block (.barrier vol) 4 r
           exec (.barUS o m2) s =
             .next (if t.allArrived s.q.fid b = true ∧ ¬ (vol = false ∧ (t.folio s.q.fid).carveRq.isSome = true) then
                      (if vol then (t.completeBar s.q.fid b).returnShares ((t.completeBar s.q.fid b).folio s.q.fid).vid
                       else t.completeBar s.q.fid b)
                    else t)))

/-- R263, R264: `barrive` takes the generation, sets P and arrives, `bwait` needs P when it begins, waits until that generation has
completed, departs behind the releases of its arrivals and clears P; each traps with 0x0E1 in the other state of P. -/
def Sys2Proof.Claims.SplitBarrier : Prop :=
  ∀ (s : State) (o : SF),
    let i := fieldOf o.d 2 0
    let b := splitOf o.d
    Under (.barriveUS o) (usWord 0x21 o []) s
      ((s.q.splitP.getLsbD i = true → Traps (.barriveUS o) 0x0E1 (laneMask s.batch) 0 s)
        ∧ (s.q.splitP.getLsbD i = false →
            let u : State := { s with q := { s.q with
              splitP := putBit s.q.splitP i true, splitG := Sparse.set 0 i (s.barrier s.q.fid b).gen s.q.splitG } }
            Done (.barriveUS o) 4 s ((u.arriveBar s.q.fid s.q.uid b).tryComplete s.q.fid [b])))
    ∧ Under (.bwaitUS o) (usWord 0x21 o []) s
      ((s.splitWait = none → s.q.splitP.getLsbD i = false → Traps (.bwaitUS o) 0x0E1 (laneMask s.batch) 0 s)
        ∧ ((s.splitWait.isSome || s.q.splitP.getLsbD i) = true →
            let g := s.splitWait.getD (Sparse.get 0 i s.q.splitG)
            if g < (s.barrier s.q.fid b).gen then
              let t := s.departs s.q.uid b.vol (s.barrier s.q.fid b).past
              Done (.bwaitUS o) 4 s { t with q := { t.q with splitP := putBit t.q.splitP i false } }
            else Blocks (.bwaitUS o) (.split i g) 4 s s))

/-- R259 to R268: the barriers. It rests on choices of the model: log 107 (what an arrival and an end release), 108 (where the
model is stricter than the axioms). -/
def Obligations.Barriers : Prop :=
  Sys2Proof.Claims.FullBarrier ∧ Sys2Proof.Claims.SplitBarrier

/-- R270, R271: `qinit` writes a descriptor, `qallow` a producer's slot. -/
def Sys2Proof.Claims.QueueSetup : Prop :=
  ∀ (s : State) (o : SF) (owner off : Nat),
    (let v := s.q.sreg (o.a.toNat + 1)
     let ring := fieldOf v 18 0
     let nm1 := fieldOf v 39 32
     let sc := fieldOf v 42 40
     Under (.qinitUS o) (usWord 0x22 o [.sgroup o.a.toNat 2]) s
       (s.qAddr s.q.fid (s.q.sreg o.a.toNat) = .ok (owner, off) →
         fieldOf v 31 19 = 0 → fieldOf v 63 43 = 0 → nm1 ≠ 0 → (sc = 2 ∨ sc = 3) → (sc = 2 → owner = s.q.fid) → ring % 8 = 0 →
         ring + 9 * (nm1 + 1) ≤ (s.folio owner).scratchBytes → ringOverlaps ring (nm1 + 1) off = false →
         (s.ownQueue owner off).qWaiters (scratchLoc owner off) = [] →
         Done (.qinitUS o) 4 s ((s.ownQueue owner off).putQdesc owner off (BitVec.ofNat 256 (ring * 2 ^ 64 + nm1 * 2 ^ 96 + sc * 2 ^ 104 + 0x51 * 2 ^ 120)))))
    ∧ (let v := s.q.sreg o.b.toNat
       let t := s.ownQueue owner off
     let q := t.qdesc owner off
       let put := fun (i : Nat) (x : BitVec 32) =>
         (t.putQdesc owner off (qSetSlot q i (if fieldOf x 7 0 = 0 ∧ fieldOf x 15 8 = 0 then 0 else x))).qServeAll owner off
       Under (.qallowUS o) (usWord 0x22 o [.sreg o.a.toNat, .sreg o.b.toNat]) s
         (QueueAt s (s.q.sreg o.a.toNat) owner off → fieldOf v 63 18 = 0 →
           (∀ i, qFind q (fieldOf v 17 13) (fieldOf v 12 8) = some i →
              Done (.qallowUS o) 4 s (put i (putField (qSlot q i) 7 0 (fieldOf v 7 0))))
           ∧ (qFind q (fieldOf v 17 13) (fieldOf v 12 8) = none → fieldOf v 7 0 = 0 → Done (.qallowUS o) 4 s t)
           ∧ (∀ i, qFind q (fieldOf v 17 13) (fieldOf v 12 8) = none → fieldOf v 7 0 ≠ 0 →
              (List.range 4).find? (fun i => !(qSlot q i).getLsbD 26) = some i →
              Done (.qallowUS o) 4 s (put i (BitVec.ofNat 32
                (2 ^ 26 + fieldOf v 17 13 * 2 ^ 21 + fieldOf v 12 8 * 2 ^ 16 + fieldOf v 7 0))))))

/-- R268, R272, R273: `qpush` and `qpop` on a descriptor on which nobody is blocked: they move one handle, report in k1, or with NB
report 0, or block; an entry carries the release of its push. A batch that is blocked on a descriptor that has broken traps with 0x0E0. -/
def Sys2Proof.Claims.QueueTransfer : Prop :=
  ∀ (s : State) (o : SF) (m2 : BitVec 2) (owner off : Nat),
    let addr := s.q.sreg o.a.toNat
    let t := s.ownQueue owner off
    let q := t.qdesc owner off
    let me := t.unblocked
    (QueueAt s addr owner off → me.qWaiters (scratchLoc owner off) = [] →
      Under (.qpushUS o m2) (usWord 0x23 o [.sreg o.a.toNat, .sreg o.b.toNat]) s
        ((¬ Accepts t s.fol.folioid s.q.quireid owner off →
            if m2.getLsbD 0 then Done (.qpushUS o m2) 4 s (t.setK 1 false)
            else Blocks (.qpushUS o m2) (.queue (scratchLoc owner off) true 0 (s.q.sreg o.b.toNat)) 4 s t)
          ∧ (Accepts t s.fol.folioid s.q.quireid owner off →
            Done (.qpushUS o m2) 4 s (((me.qPush owner off s.fol.folioid s.q.quireid (s.q.sreg o.b.toNat)
              (me.carried s.q.uid (some (fieldOf q 106 104)))).setK 1 true).qServeAll owner off)))
      ∧ Under (.qpopUS o m2) (usWord 0x24 o [.sreg o.d.toNat, .sreg o.a.toNat]) s
        ((qCount q = 0 →
            if m2.getLsbD 0 then Done (.qpopUS o m2) 4 s (t.setK 1 false)
            else Blocks (.qpopUS o m2) (.queue (scratchLoc owner off) false o.d.toNat 0) 4 s t)
          ∧ (qCount q ≠ 0 →
            let r := me.qPop owner off s.q.uid
            Done (.qpopUS o m2) 4 s (((r.2.setS o.d.toNat r.1).setK 1 true).qServeAll owner off))))
    ∧ (∀ (w : Wait) (loc reg : Nat) (push : Bool) (h : DWord), s.rest = [] → s.q.held = none → s.q.pend = none → s.q.waits = [w] →
        w.kind = .queue loc push reg h → loc ≠ 0 → s.queueBroken s.q.fid loc = true →
        ∃ (u : State) (x : Wait), x.pc = w.pc ∧ x.frame = w.frame ∧ x.trap = w.trap
          ∧ u = { s with q := { s.q with waits := [x] } } ∧ s.serveQueues = u.trapIn s.q.uid x 0x0E0 (w.trap.laneRec 0).a)

/-- R269 to R274: queues. It rests on a choice of the model: log 108 (where the model is stricter than the axioms). -/
def Obligations.Queues : Prop :=
  Sys2Proof.Claims.QueueSetup ∧ Sys2Proof.Claims.QueueTransfer

/-- R274, R276: `carve` arrives at the folio's full barrier with its request, or traps with 0x0E1; `pause` takes the batch out of
issue, and its end puts it behind the instruction. It rests on a choice of the model: log 9 (the length of a pause). -/
def Obligations.CarveAndPause : Prop :=
  ∀ (s : State) (o : SF),
    (let v := s.q.sreg o.a.toNat
     let b : BarId := ⟨false, none⟩
     Under (.carveUS o) (usWord 0x2A o [.sreg o.a.toNat]) s
       ((2 ^ 18 ≤ v.toNat ∨ s.fol.carveRq.isSome = true ∨ (s.barrier s.q.fid b).arrived.contains s.q.uid = true →
           Traps (.carveUS o) 0x0E1 (laneMask s.batch) 0 s)
         ∧ (v.toNat < 2 ^ 18 → s.fol.carveRq.isSome = false → (s.barrier s.q.fid b).arrived.contains s.q.uid = false →
           ∃ r : Trap, r.epc = s.pc ∧ r.len = 4 ∧
             (let t := (s.modFolio s.q.fid (fun x => { x with carveRq := some (v, s.q.uid) })).arriveBar s.q.fid s.q.uid b
              exec (.carveUS o) s = .next ((t.block (.barrier false) 4 r).tryComplete s.q.fid [b])))))
    ∧ Under (.pauseUS o) (usWord 0x2F o []) s (Blocks (.pauseUS o) .pause 4 s s)
    ∧ (∀ (w : Wait), s.q.waits = [w] → w.kind = .pause → (∀ x ∈ s.rest, x.uid ≠ s.q.uid) →
        (∀ v ∈ s.saved, ∀ x ∈ v.quires, x.uid ≠ s.q.uid) →
        exec (.pauseEnd s.q.uid w.pc w.frame) s = .next { s with q := s.q.complete w })

namespace Sys2Proof.Claims

/-! ## Counters and subscriptions (11) -/

/-- The descriptor that a counter instruction names has passed its address checks (R242, R249): its translation and its place. -/
abbrev CounterAt (s : State) (addr : DWord) (acc : Acc) (x : Trans) (pa : Nat) : Prop := s.counterAt addr.toNat acc = .ok (some (x, pa))
/-- The state in which the leaf of the descriptor's page is cached (R360). -/
abbrev Leafed (s : State) (x : Trans) (pa : Nat) : State := s.cacheTarget s.q.fid .core (.mem x pa)

/-- The counter at an address takes a new value on the issuing cluster; the home is not asked (R244, R246). -/
def cached (t : State) (pa : Nat) (c : Counter) : State :=
  { t with counters := t.counters.map (fun x => if x.pa = pa && !x.gone then c else x) }
/-- A request joins those at the counter's home. -/
def asked (t : State) (pa : Nat) (r : CReq) : State :=
  { t with counters := t.counters.map (fun x => if x.pa = pa && !x.gone then { x with reqs := x.reqs ++ [r] } else x) }

/-- `ctake` (R244): an amount of 0 succeeds; the cluster's allowance covers it; or the home is asked. -/
def Takes (i : Instr) (D : Desc) (a : Nat) (b : Arg) (waits : Bool) (s : State) : Prop :=
  let n := s.uarg b 64
  Under i D s (∀ (x : Trans) (pa : Nat) (c : Counter), CounterAt s (s.q.sreg a) .read x pa →
    (Leafed s x pa).counter pa = some c → n < 2 ^ c.width →
      (n = 0 → Done i D.len s ((Leafed s x pa).setK 1 true))
      ∧ (n ≠ 0 → c.cmask.getLsbD s.holderBit = true → n ≤ c.allowance s.holderBit →
          Done i D.len s ((cached (Leafed s x pa) pa (c.setAllow s.holderBit (c.allowance s.holderBit - n))).setK 1 true))
      ∧ (n ≠ 0 → ¬ (c.cmask.getLsbD s.holderBit = true ∧ n ≤ c.allowance s.holderBit) →
          Blocks i (.counter c.pa) D.len s (asked (Leafed s x pa) c.pa
            { quire := s.q.uid, pc := s.pc, frame := s.sel.2, ask := .take waits, holder := s.holderBit, amount := n })))

/-- `cgive` (R246, R353): into the cluster's own allowance, which then counts in OUTST, and whose excess over CAP moves home down to
SHARE; or the home is asked. -/
def Gives (i : Instr) (D : Desc) (a : Nat) (b : Arg) (s : State) : Prop :=
  let n := s.uarg b 64
  Under i D s (∀ (x : Trans) (pa : Nat) (c : Counter), CounterAt s (s.q.sreg a) .read x pa →
    (Leafed s x pa).counter pa = some c → n < 2 ^ c.width →
      let near := c.cmask.getLsbD s.holderBit = true ∧ n ≤ c.cap ∧ c.waiters = []
      let v := c.allowance s.holderBit + n
      (near → v ≤ c.cap → Done i D.len s ((Leafed s x pa).putCounter { c.setAllow s.holderBit v with
          known := Sparse.set 0 s.holderBit (Sparse.get 0 s.holderBit c.known + n) c.known }))
      ∧ (near → c.cap < v →
          Done i D.len s ((Leafed s x pa).settleCounter ((c.setAllow s.holderBit v).recall s.holderBit (v - c.share))))
      ∧ (¬ near → Blocks i (.counter c.pa) D.len s (asked (Leafed s x pa) c.pa
            { quire := s.q.uid, pc := s.pc, frame := s.sel.2, ask := .give, holder := s.holderBit, amount := n })))

/-- `cexact` and `cdrop` (R247): a release at device scope, then the home is asked. -/
def Exacts (i : Instr) (op : Nat) (drop : Bool) (o : SF) (s : State) : Prop :=
  Under i (usWord op o [.sreg o.d.toNat, .sreg o.a.toNat]) s (∀ (x : Trans) (pa : Nat) (c : Counter),
    CounterAt s (s.q.sreg o.a.toNat) (if drop then .write else .read) x pa → (Leafed s x pa).counter pa = some c →
      Behind i 4 true 5 s (Leafed s x pa) (fun t => Blocks i (.counter c.pa) 4 s (asked t c.pa
        { quire := s.q.uid, pc := s.pc, frame := s.sel.2, ask := if drop then .drop o.d.toNat else .exact o.d.toNat
          holder := t.holderBit, amount := 0 })))

/-- The fields of `subscribe` satisfy R250: the granule, alignments, limits, and another member as the source. -/
def Subscribable (s : State) (g m : Nat) : Prop :=
  let v := s.q.sreg g
  let u := s.q.sreg (g + 1)
  let n := 2 ^ fieldOf u 27 24
  2 ≤ fieldOf u 27 24 ∧ fieldOf u 27 24 ≤ 6 ∧ fieldOf v 63 32 ≠ 0 ∧ fieldOf v 63 32 ≤ 65536
    ∧ fieldOf v 31 0 % n = 0 ∧ fieldOf u 18 0 % n = 0 ∧ fieldOf v 63 32 % n = 0
    ∧ fieldOf v 31 0 + fieldOf v 63 32 ≤ s.fol.scratchBytes
    ∧ s.member s.q.fid (fieldOf u 23 19) = some m ∧ fieldOf u 18 0 + fieldOf v 63 32 ≤ (s.folio m).scratchBytes ∧ m ≠ s.q.fid

/-- `subscribe` (R250): the lowest free entry, its generation, every granule of the source sent once; the batch waits for them. -/
def Subscribes (i : Instr) (D : Desc) (d g : Nat) (s : State) : Prop :=
  let v := s.q.sreg g
  let u := s.q.sreg (g + 1)
  let n := 2 ^ fieldOf u 27 24
  Under i D s (∀ m e : Nat, Subscribable s g m →
    (List.range 16).find? (fun e => !(s.subEntries (s.folio m).die (s.folio m).core).contains e) = some e →
    let key := ((s.folio m).die * 512 + (s.folio m).core) * 16 + e
    let gen := (Sparse.get 0 key s.subGens + 1) % 65536
    let y : Sub := { id := s.next, src := m, entry := e, gen := gen, dst := s.q.fid, soff := fieldOf u 18 0, doff := fieldOf v 31 0
                     len := fieldOf v 63 32, glog := fieldOf u 27 24 }
    let t : State := { s with next := s.next + 1, subGens := Sparse.set 0 key gen s.subGens
                              subs := if (s.folio m).ended then s.subs else s.subs ++ [y] }
    let r := (List.range (y.len / n)).foldl (fun (t : State) k =>
      (t.send 0 s.q.fid (y.doff + k * n) (s.bytesAt (scratchLoc m (y.soff + k * n)) n) (some s.next)).sendBad
        (s.scratchPoison m (y.soff + k * n) n)) t
    Blocks i (.drain (r.updatesOf (fun z => z = s.next)) (.primed d (subHandle gen (fieldOf u 23 19) e))) D.len s r)

end Sys2Proof.Claims

/-- R243: `cinit` deals SHARE to every holder, keeps the rest in RESERVE, and writes the descriptor at the home. -/
def Sys2Proof.Claims.CounterInit : Prop :=
  ∀ (s : State) (o : LF),
    let g := o.a.toNat
    let total := (s.q.sreg (g + 1)).toNat
    let cmask : BitVec 64 := s.q.sreg (g + 2)
    let cap := (s.q.sreg (g + 3)).toNat
    let n := popcOf 64 cmask.toNat
    let share := if n = 0 then 0 else total / n
    Under (.cinitUL o) (ulWord 0x25 o [.sgroup g 4]) s (∀ (x : Trans) (pa : Nat), CounterAt s (s.q.sreg g) .write x pa →
      (Leafed s x pa).cinitBad pa total cmask cap (if o.modl.getLsbD 0 then 64 else 32) = false →
      ∃ c : Counter, c.pa = pa ∧ c.kid = x.attr.kid ∧ c.w64 = o.modl.getLsbD 0 ∧ c.init = total ∧ c.cmask = cmask ∧ c.share = share
        ∧ c.cap = cap ∧ c.reserve = total - n * share ∧ c.lost = 0 ∧ c.loss = false ∧ c.sat = false ∧ c.reqs = [] ∧ c.rels = [] ∧ c.waiters = []
        ∧ c.allow = ((List.range 64).filter (fun h => cmask.getLsbD h)).foldl (fun m h => Sparse.set 0 h share m) []
        ∧ c.known = c.allow
        ∧ (let t := (List.range (Leafed s x pa).dies.length).foldl (fun (u : State) d => u.dropCopies d (fun y => y.line = pa / 64))
             ((Leafed s x pa).ownStores (.mem x pa) 64)
           Done (.cinitUL o) 8 s (({ t with counters := t.counters.filter (fun y => y.pa ≠ pa) ++ [c] } : State).putCounter c)))

/-- R244, R246: `ctake` and `cgive` at the cluster's allowance or at the home. -/
def Sys2Proof.Claims.CounterTakeGive : Prop :=
  ∀ s : State,
    (∀ o : SF,
      Takes (.ctakeUS o) (usWord 0x26 o [.sreg o.a.toNat, .sreg o.b.toNat]) o.a.toNat (.sreg o.b.toNat) false s
      ∧ Gives (.cgiveUS o) (usWord 0x26 o [.sreg o.a.toNat, .sreg o.b.toNat]) o.a.toNat (.sreg o.b.toNat) s)
    ∧ (∀ o : LF,
      Takes (.ctakeUL o) (ulWord 0x26 o [.sreg o.a.toNat, .sreg o.b.toNat]) o.a.toNat (.sreg o.b.toNat) (o.modl.getLsbD 0) s
      ∧ Gives (.cgiveUL o) (ulWord 0x26 o [.sreg o.a.toNat, .sreg o.b.toNat]) o.a.toNat (.sreg o.b.toNat) s)
    ∧ (∀ o : IF,
      Takes (.ctakeUI o) (uiWord 0x26 o [.sreg o.a.toNat]) o.a.toNat (.imm (o.imm.setWidth 64)) (o.modi.getLsbD 0) s
      ∧ Gives (.cgiveUI o) (uiWord 0x26 o [.sreg o.a.toNat]) o.a.toNat (.imm (o.imm.setWidth 64)) s)

/-- R241 to R247: counters. It rests on choices of the model: log 41 (what OUTST counts), 42 (when a request reaches the home), 43
(plain writes onto a counter), 44 (which slice a descriptor falls into). -/
def Obligations.Counters : Prop :=
  Sys2Proof.Claims.CounterInit ∧ Sys2Proof.Claims.CounterTakeGive

/-- R244 to R247: the home serves its oldest request: a take against RESERVE with recalls, a give, `cexact`, `cdrop`. It rests on
choices of the model: log 41 (what OUTST counts), 42 (when a request reaches the home), 108 (where the model is stricter than
the axioms). -/
def Obligations.CounterHome : Prop :=
  ∀ (s : State),
    (∀ o : SF, Exacts (.cexactUS o) 0x27 false o s ∧ Exacts (.cdropUS o) 0x25 true o s)
    ∧ (∀ (pa : Nat) (c : Counter) (r : CReq) (rest : List CReq), s.counter pa = some c →
        c.reqs.filter (s.asking pa) = r :: rest → c.waiters = [] →
        let c0 := { c with reqs := rest }
        let served := exec (.counterHomeRequest pa) s
        let value := c0.recallAll
        let synced := s.acquireOver r.quire (s.folio (s.quire r.quire).fid).die 5 { rels := c.rels }
        let final := { value with rels := [synced.relOf r.quire 5] }
        let told := (synced.modQuire r.quire (fun q => q.setS (match r.ask with | .exact n => n | .drop n => n | _ => 0)
          (BitVec.ofNat 64 value.reserve))).answer c.pa r none
        (∀ waits, r.ask = .take waits → (c0.takeHome r.holder r.amount).2 = true →
            served = .next ((s.answer c.pa r (some true)).settleCounter (c0.takeHome r.holder r.amount).1))
        ∧ (r.ask = .take false → (c0.takeHome r.holder r.amount).2 = false →
            served = .next ((s.answer c.pa r (some false)).settleCounter (c0.takeHome r.holder r.amount).1))
        ∧ (r.ask = .take true → (c0.takeHome r.holder r.amount).2 = false →
            served = .next (s.putCounter { (c0.takeHome r.holder r.amount).1 with waiters := [r] }))
        ∧ (r.ask = .give → served = .next ((s.answer c.pa r none).settleCounter (c0.add r.amount)))
        ∧ (∀ n, r.ask = .exact n → value.waiters = [] → served = .next (told.putCounter (final.holders.foldl (fun x h => x.deal h) final)))
        ∧ (∀ n, r.ask = .drop n → value.waiters = [] →
            let gone := value.reqs.foldl (fun (t : State) w => t.giveBack c.pa w) told
            served = .next ((({ gone with counters := gone.counters.filter (fun x => x.pa ≠ c.pa || x.gone) } : State).putHome c.kid c.pa
              (leBytes 64 (value.image 0))).forget c.pa 64)))

/-- R250, R253, R254: `subscribe`, `unsub` and `sflush`. It rests on choices of the model: log 49 (granules of a subscription), 50
(when an entry is free). -/
def Obligations.Subscriptions : Prop :=
  ∀ s : State,
    (∀ o : SF,
      Subscribes (.subscribeUS o) (usWord 0x28 o [.sreg o.d.toNat, .sgroup o.a.toNat 2]) o.d.toNat o.a.toNat s
      ∧ Under (.unsubUS o) (usWord 0x28 o [.sreg o.a.toNat]) s
        ((s.subOf (s.q.sreg o.a.toNat) = none → Done (.unsubUS o) 4 s (s.setK 1 false))
          ∧ (∀ x, s.subOf (s.q.sreg o.a.toNat) = some x → x.dst ≠ s.q.fid → Done (.unsubUS o) 4 s (s.setK 1 false))
          ∧ (∀ x, s.subOf (s.q.sreg o.a.toNat) = some x → x.dst = s.q.fid →
              let t := (s.flushSub x).modSub x.id (fun y => { y with closing := true })
              Blocks (.unsubUS o) (.drain (t.updatesOf (fun z => z = x.id)) (.unsubbed x.id)) 4 s t))
      ∧ Under (.sflushUS o) (usWord 0x29 o [.sreg o.a.toNat]) s
        (let flushed := fun (ids : List Nat) =>
           ((s.ownScratch s.q.uid).subs.filter (fun x => ids.contains x.id)).foldl (fun (t : State) x => t.flushSub x) (s.ownScratch s.q.uid)
         let waits := fun (ids : List Nat) =>
           Blocks (.sflushUS o) (.drain ((flushed ids).updatesOf (fun z => ids.contains z)) .flushed) 4 s (flushed ids)
         (o.a = 0 → waits ((s.subs.filter (fun x => x.src = s.q.fid || x.dst = s.q.fid)).map Sub.id))
          ∧ (o.a ≠ 0 → s.subOf (s.q.sreg o.a.toNat) = none → Done (.sflushUS o) 4 s (s.setK 1 false))
          ∧ (∀ x, o.a ≠ 0 → s.subOf (s.q.sreg o.a.toNat) = some x → ¬ (x.src = s.q.fid ∨ x.dst = s.q.fid) →
              Done (.sflushUS o) 4 s (s.setK 1 false))
          ∧ (∀ x, o.a ≠ 0 → s.subOf (s.q.sreg o.a.toNat) = some x → x.src = s.q.fid ∨ x.dst = s.q.fid → waits [x.id])))
    ∧ (∀ o : LF, Subscribes (.subscribeUL o) (ulWord 0x28 o [.sreg o.d.toNat, .sgroup o.a.toNat 2]) o.d.toNat o.a.toNat s)

namespace Sys2Proof.Claims

/-! ## Control flow, fibres and frames (16) -/

/-- What the checks look at in a short lane word. -/
abbrev lsWord (op : Nat) (o : SF) (uses : List Use) : Desc :=
  { uni := false, op := op, len := 4, pr := o.pr, neg := o.neg, uses := uses }
/-- In a lane word with an immediate. -/
abbrev liWord (op : Nat) (o : IF) (uses : List Use) : Desc :=
  { uni := false, op := op, len := 8, pr := o.pr, neg := o.neg, uses := uses }

/-- The batch is not blocked any more, and each fibre of it goes where `to_` says (R48). -/
def Goes (i : Instr) (s : State) (to_ : Fibre → DWord) : Prop :=
  exec i s = .next (s.unblocked.move (s.batch.map (fun f => (f.lane, to_ f))))

/-- Fibres end: where with them their folio ends, the word blocks while the release of every access of the folio cannot complete
(R312), and else has its effect. -/
def Ends (i : Instr) (len : Nat) (s : State) (fs : List Fibre) (P : Prop) : Prop :=
  ((fs ≠ [] ∧ s.endScope fs = 5 ∧ s.folioBlocked s.q.fid = true) → Blocks i (.flush 7) len s s)
  ∧ (¬ (fs ≠ [] ∧ s.endScope fs = 5 ∧ s.folioBlocked s.q.fid = true) → P)

/-- The active fibres go into frame `id`; `t` is the state behind the word. Where that frame is archived, the word waits for a run of units
and the frame comes back with it (R341); a record that leaves its slice traps with 0x101 (R337). -/
def Enters (i : Instr) (s : State) (id : Nat) (lanes : Word) (t : State) : Prop :=
  let fr := s.q.frame id
  (fr.arch = none → exec i s = .next t.unblocked)
  ∧ (∀ k off ts, fr.arch = some (k, off) → s.routeLines s.q.fid (s.fol.sliceAt k + off) fr.recordBytes .read = .ok ts →
      waitsAt ts = none →
      let run := s.runFor s.q s.sel.2 fr.size8 (s.q.freedBy s.sel.2 id lanes)
      (∀ b, run = .run b → exec i s = .next (t.refill s.q.uid id b ts).unblocked)
      ∧ (run = .waits → Blocks i (.refill id lanes) 4 s s)
      ∧ (∀ a, run = .overflow a → Traps i 0x101 lanes (BitVec.ofNat 64 a) s))

/-- `imm32` as a branch target (R323). -/
def target (s : State) (o : IF) : DWord := s.pc + o.imm.signExtend 64

/-- A member of the batch is one of some fibres, by its lane. -/
def among (fs : List Fibre) (f : Fibre) : Bool := fs.any (fun g => g.lane = f.lane)

/-- `brx` (R323, R324): each active fibre to its own target; a target that is no multiple of 4 traps the word. -/
def BranchesIndirect (i : Instr) (D : Desc) (a : Name) (s : State) : Prop :=
  let act := s.active D.pr D.neg
  let odd := act.filter (fun f => (BitVec.ofNat 64 (s.rd f a 64)).extractLsb' 0 2 ≠ 0)
  Passes i D s →
    (odd = [] → Goes i s (fun f => match act.find? (fun g => g.lane = f.lane) with
      | some g => BitVec.ofNat 64 (s.rd g a 64)
      | none => f.pc + BitVec.ofNat 64 D.len))
    ∧ (∀ f rest, odd = f :: rest → Traps i 0x060 (laneMask odd) (BitVec.ofNat 64 (s.rd f a 64)) s)

/-- An indirect uniform branch (R323, R325). -/
def JumpsIndirect (i : Instr) (D : Desc) (t : DWord) (s : State) : Prop :=
  Under i D s
    ((t.extractLsb' 0 2 = 0 → Goes i s (fun _ => t)) ∧ (t.extractLsb' 0 2 ≠ 0 → Traps i 0x060 (laneMask s.batch) t s))

end Sys2Proof.Claims

/-- R323 to R325: `bra`, `brx`, `sbr`, `sjmp` and `sbrx`. -/
def Obligations.Branches : Prop :=
  ∀ s : State,
    (∀ o : IF,
      (Passes (.braLI o) (liWord 0x2C o []) s →
        Goes (.braLI o) s (fun f => if among (s.active o.pr o.neg) f then target s o else f.pc + 8))
      ∧ Under (.sbrUI o) (uiWord 0x2C o []) s (Goes (.sbrUI o) s (fun _ => target s o)))
    ∧ (∀ o : SF,
      BranchesIndirect (.brxLS o) (lsWord 0x33 o [.src (shortName o.a) 64]) (shortName o.a) s
      ∧ JumpsIndirect (.sjmpUS o) (usWord 0x2D o [.sreg o.a.toNat]) (s.q.sreg o.a.toNat) s
      ∧ JumpsIndirect (.sbrxUS o) (usWord 0x2D o [.sreg o.a.toNat, .sreg o.b.toNat])
          (s.q.sreg o.a.toNat + BitVec.ofInt 64 (((s.q.sreg o.b.toNat).setWidth 32).toInt * 8)) s)
    ∧ (∀ o : LF, BranchesIndirect (.brxLL o) (llWord 0x33 o [.src (longName o.a) 64]) (longName o.a) s)

/-- R327, R331 to R333: `gather` arms an entry, `fspawn` makes children, `fexit` ends the active fibres, `halt` every fibre, whose
waits for permits are withdrawn. It rests on choices of the model: log 95 (a halt while a permit is awaited), 107 (what an
arrival and an end release). -/
def Obligations.Fibres : Prop :=
  ∀ s : State,
    (∀ o : IF,
      (Passes (.gatherLI o) (liWord 0x2D o []) s →
        Done (.gatherLI o) 8 s (s.mapFibres (fun f =>
          if among (s.active o.pr o.neg) f then
            { f with gather := if f.gather.head? = some (target s o, f.frame) then f.gather
                               else (target s o, f.frame) :: f.gather.take 3 }
          else f)))
      ∧ (Passes (.fspawnLI o) (liWord 0x2E o []) s →
        let q := ((s.active o.pr o.neg).map (·.lane)).foldl (spawnOne (target s o)) s.q
        let kids := q.fibres.filter (fun f => !among s.q.fibres f)
        Done (.fspawnLI o) 8 s { s with q := q.move (kids.map (fun f => (f.lane, target s o))) }))
    ∧ (∀ o : SF,
      (Passes (.fexitLS o) (lsWord 0x2F o []) s →
        Ends (.fexitLS o) 4 s (s.active o.pr o.neg)
          (Done (.fexitLS o) 4 s ((s.endFibres (s.active o.pr o.neg)).afterEnd s.q.uid 0 true)))
      ∧ Under (.haltUS o) (usWord 0x2F o []) s (Ends (.haltUS o) 4 s s.q.fibres
          (Done (.haltUS o) 4 s (((s.dropPermits [s.q.uid]).endFibres s.q.fibres).afterEnd s.q.uid 0 true))))

/-- R336, R337: `call` traps where the frame is too large or the depth or the number of frames at its limit; otherwise the active fibres
enter a new frame with the return address behind the call, and the batch waits where no run of units is free. -/
def Sys2Proof.Claims.Call : Prop :=
  ∀ (s : State) (o : IF),
    let act := s.active o.pr o.neg
    let u := fieldOf o.d 4 0
    Passes (.callLI o) (liWord 0x30 o []) s →
      ((28 < u ∨ (s.encv = 1 ∧ 5 < u) ∨ s.fol.frameUnits < u) → Traps (.callLI o) 0x100 (laneMask act) 0 s)
      ∧ (u ≤ 28 → (s.encv = 1 → u ≤ 5) → u ≤ s.fol.frameUnits →
          (act = [] → Goes (.callLI o) s (fun f => f.pc + 8))
          ∧ ((∃ f ∈ act, f.depth = 65535) → Traps (.callLI o) 0x100 (laneMask act) 0 s)
          ∧ (∀ f0 rest b, act = f0 :: rest → (∀ f ∈ act, f.depth ≠ 65535) → s.q.frames.length < 65535 →
              s.runFor s.q s.sel.2 u = .run b →
              ∃ n : Frame, n.id = s.q.newId ∧ n.caller = s.sel.2 ∧ n.retpc = s.pc + 8 ∧ n.depth = f0.depth + 1 ∧ n.size8 = u
                ∧ n.refs = laneMask act ∧ n.owned = laneMask act ∧ n.base = b ∧ n.handler = 0 ∧ n.regs = [] ∧ n.tags = []
                ∧ (let t := s.mapFibres (fun f => if among act f then { f with frame := n.id, depth := f.depth + 1 } else f)
                   let v : State := { t with q := { t.q with frames := t.q.frames ++ [n] } }
                   exec (.callLI o) s = .next (State.unblocked
                     (v.move (s.batch.map (fun f => (f.lane, if among act f then target s o else f.pc + 8)))))))
          ∧ (act ≠ [] → (∀ f ∈ act, f.depth ≠ 65535) → s.q.frames.length < 65535 →
              (s.runFor s.q s.sel.2 u = .waits → Blocks (.callLI o) (.frameRun u) 8 s s)
              ∧ (∀ a, s.runFor s.q s.sel.2 u = .overflow a → Traps (.callLI o) 0x101 (laneMask act) (BitVec.ofNat 64 a) s)))

/-- R340, R341, R343: `ret` pops the frame or ends a fibre of depth 0; `fmark` sets the frame's handler; `unwind` leaves the frames above
the first marked one, or traps with 0x102. -/
def Sys2Proof.Claims.Returns : Prop :=
  ∀ s : State,
    (∀ o : SF,
      let act := s.active o.pr o.neg
      (Passes (.retLS o) (lsWord 0x31 o []) s →
        let ends := act.filter (fun f => f.depth = 0)
        let rets := act.filter (fun f => f.depth ≠ 0)
        let t : State := { s with q := rets.foldl (fun (q : Quire) f => q.popTo f.lane [s.frm.id] s.frm.caller (f.depth - 1)) s.q }
        let u := ((t.move (s.batch.map (fun f => (f.lane, if among rets f then s.frm.retpc else f.pc + 4)))).endFibres ends).afterEnd
          s.q.uid 0 true
        (rets = [] → Ends (.retLS o) 4 s ends (exec (.retLS o) s = .next u.unblocked))
        ∧ (rets ≠ [] → Enters (.retLS o) s s.frm.caller (laneMask rets) u))
      ∧ (Passes (.unwindLS o) (lsWord 0x32 o []) s →
        ((∃ f ∈ act, unwindTarget s.q f = none) →
            Traps (.unwindLS o) 0x102 (laneMask (act.filter (fun f => unwindTarget s.q f = none))) 0 s)
        ∧ (∀ above marked, (∀ f ∈ act, unwindTarget s.q f = some (above, marked)) →
            let q := act.foldl (fun (q : Quire) f =>
              let p := q.popTo f.lane above marked (s.q.frame marked).depth
              { p with fibres := p.fibres.map (fun g =>
                if g.lane = f.lane then { g with gather := g.gather.filter (fun e => !above.contains e.2) } else g) }) s.q
            let u := ({ s with q := q } : State).move
              (s.batch.map (fun f => (f.lane, if among act f then (s.q.frame marked).handler else f.pc + 4)))
            (act = [] → exec (.unwindLS o) s = .next u.unblocked) ∧ (act ≠ [] → Enters (.unwindLS o) s marked (laneMask act) u))))
    ∧ (∀ o : IF,
      Passes (.fmarkLI o) (liWord 0x32 o []) s →
        Done (.fmarkLI o) 8 s (if s.active o.pr o.neg = [] then s
          else { s with q := s.q.modFrame s.sel.2 (fun fr => { fr with handler := if o.modi.getLsbD 0 then 0 else target s o }) }))

/-- R333 to R342: calls and returns. It rests on choices of the model: log 12 (the least free FRAMEID), 13 (where an archive
record goes). -/
def Obligations.CallsAndReturns : Prop :=
  Sys2Proof.Claims.Call ∧ Sys2Proof.Claims.Returns

namespace Sys2Proof.Claims

/-! ## Launch (15) and system (19, 21) -/

/-- The reads of a `slaunch` reach: 64-byte aligned records, every line of them routed, nothing to wait for. -/
abbrev RecordsAt (s : State) (addr n : Nat) (ts : List Target) : Prop :=
  addr % 64 = 0 ∧ s.routeLines s.q.fid addr (256 * n) .read = .ok ts
    ∧ (s.hindrance (ts.map (fun t => ({ lane := 0, ea := addr, t := t } : Access))) 64 true).isNone = true

/-- A supervisor word in the mode that may run it needs no statement here: `Passes` asks for it (R63, R382). This abbreviation names
the checks of `rdsr` and `wrsr`, whose privilege depends on the register. -/
abbrev srWord (o : SF) (allowed : Bool) : Desc := { usWord 0x33 o [.sreg o.d.toNat] with priv := allowed }

/-- The trap that `sys` or `trap` takes (R376): its cause, %epc behind the word, the members in %elanes, the number in INFO. A
number of 16 or more raises 0x021. -/
def CallsOut (i : Instr) (base : Nat) (o : SF) (s : State) : Prop :=
  (16 ≤ o.d.toNat → Traps i 0x021 (laneMask s.batch) 0 s)
  ∧ (o.d.toNat < 16 → o.a = 0 → o.b = 0 → s.kActive o.pr o.neg = false → Done i 4 s s)
  ∧ (o.d.toNat < 16 → o.a = 0 → o.b = 0 → s.kActive o.pr o.neg = true →
      ∃ r : Trap, r.code = base + o.d.toNat ∧ r.epc = s.pc + 4 ∧ r.elanes = laneMask s.batch ∧ r.eaddr = 0
        ∧ r.inner = 0 ∧ r.eng = false ∧ r.tok = none ∧ r.info = BitVec.ofNat 64 o.d.toNat
        ∧ r.skip = .sys ∧ r.pc = s.pc ∧ r.frame = s.sel.2 ∧ exec i s = .next (s.unblocked.takeTrap r))

end Sys2Proof.Claims

/-- R310 to R312, R320, R334: `slaunch` with records that pass enqueues the collection and returns 0 with k1 1; a record or count
that does not pass gives its code with k1 0; `ssignal` releases every access of its folio's quires and sets the folio's bit;
`nop` and `yield`. It rests on choices of the model: log 18 (the lowest free queue entry), 91 (a bitmap byte that does not
translate). -/
def Obligations.Launching : Prop :=
  ∀ s : State,
    (∀ o : LF,
      let n := (s.q.sreg o.b.toNat).toNat
      let v := s.q.sreg o.c.toNat
      let addr := (s.q.sreg o.a.toNat).toNat
      let to_ := launchTarget s.fol.die (fieldOf v 1 0) (v.getLsbD 3)
      let result := fun (t : State) (code : Nat) (ok : Bool) => (t.setS o.d.toNat (BitVec.ofNat 64 code)).setK 1 ok
      Under (.slaunchUL o) (ulWord 0x2E o [.sreg o.d.toNat, .sreg o.a.toNat, .sreg o.b.toNat, .sreg o.c.toNat]) s
        ((∀ c, s.launchCode n (fieldOf v 63 4 * 2 + fieldOf v 2 2) to_ = some c → Done (.slaunchUL o) 8 s (result s (c * 256) false))
          ∧ (∀ ts, s.launchCode n (fieldOf v 63 4 * 2 + fieldOf v 2 2) to_ = none → RecordsAt s addr n ts →
              (s.q.tok o.low3.toNat).count ≠ 63 → (s.queueOf to_).length < 64 →
              let rs := s.readRecords s.fol.die ts n
              (∀ k c, s.checkShelves (fun ea => s.route s.q.fid ea .write) to_ rs = some (k, .code c) →
                Done (.slaunchUL o) 8 s (result s (c * 256 + k) false))
              ∧ (s.checkShelves (fun ea => s.route s.q.fid ea .write) to_ rs = none →
                Behind (.slaunchUL o) 8 true 5 s s (fun t =>
                  Done (.slaunchUL o) 8 s (result ((t.startLaunch o.low3.toNat).enqueue s.fol.die s.fol.asid s.super false to_ rs
                    (some (s.q.uid, o.low3.toNat)) none) 0 true))))))
    ∧ (∀ o : SF,
      Under (.ssignalUS o) (usWord 0x2E o []) s
        ((s.folioBlocked s.q.fid = true → Blocks (.ssignalUS o) (.flush 7) 4 s s)
          ∧ (s.folioBlocked s.q.fid = false →
              let t := s.releaseFolio s.q.fid
              Done (.ssignalUS o) 4 s (t.setBit s.fol (t.folioRels s.q.fid))))
      ∧ Under (.nopUS o) (usWord 0x2F o []) s (Done (.nopUS o) 4 s s)
      ∧ Under (.yieldUS o) (usWord 0x2F o []) s 
        (Done (.yieldUS o) 4 s { s with q := { s.q with stamp := s.clock, yielded := true } }))

/-- R376: `sys` raises 0x120 + n and `trap` 0x0A0 + n, in every mode and under every version, with the address of the next instruction in
%epc; and what resumes the quire continues there. -/
def Obligations.SystemCalls : Prop :=
  (∀ (s : State) (o : SF), CallsOut (.sysUS o) 0x120 o s ∧ CallsOut (.trapUS o) 0x0A0 o s)
  ∧ (∀ (q : Quire) (r : Trap) (skip : Bool) (len : Nat), r.skip = .sys →
      ∀ f ∈ (q.resume r skip len).fibres, f.lane ∈ (q.at r.pc r.frame).map (·.lane) → f.pc = r.epc)
  ∧ parse 0xE000C000 0 = some (.sysUS { pr := 0, neg := false, d := 3, a := 0, b := 0 })
  ∧ parse 0xE0004001 0 = some (.trapUS { pr := 0, neg := false, d := 1, a := 0, b := 0 })

/-- R377, R378, R397: `fresume`, of an engine operation behind a release at device scope, and `fkill` of a fault that the issuing
folio may name, and 0x0B0 for any other handle. It rests on choices of the model: log 22 (the length after a failed fetch), 51
(an unknown handle), 52 (the die of a handle). -/
def Obligations.HeldFaults : Prop :=
  ∀ (s : State) (o : SF),
    let handle := (s.q.sreg o.a.toNat).toNat / 2 ^ 32
    let v := s.q.sreg o.a.toNat
    Under (.fresumeUS o) (usWord 0x31 o [.sreg o.a.toNat]) s
      ((s.entryFor handle = none → Traps (.fresumeUS o) 0x0B0 (laneMask s.batch) 0 s)
        ∧ (∀ x, s.entryFor handle = some x → x.trap.eng = true → o.d.getLsbD 0 = true → Traps (.fresumeUS o) 0x0B0 (laneMask s.batch) 0 s)
        ∧ (∀ x, s.entryFor handle = some x → (x.trap.eng = false ∨ o.d.getLsbD 0 = false) →
            Behind (.fresumeUS o) 4 x.trap.eng 5 s s (fun t => Done (.fresumeUS o) 4 s (t.resumeFault x (o.d.getLsbD 0)))))
    ∧ Under (.fkillUS o) (usWord 0x31 o [.sreg o.a.toNat]) s
      ((s.entryFor handle = none → ¬ (s.super = true ∧ fieldOf o.d 1 0 = 2 ∧ handle = 0) →
            Traps (.fkillUS o) 0x0B0 (laneMask s.batch) 0 s)
        ∧ (∀ x, s.entryFor handle = some x → fieldOf o.d 1 0 = 0 →
            if x.trap.eng then Done (.fkillUS o) 4 s (s.abandon x.holder) else Traps (.fkillUS o) 0x0B0 (laneMask s.batch) 0 s)
        ∧ (∀ x, s.entryFor handle = some x → fieldOf o.d 1 0 = 1 → Done (.fkillUS o) 4 s (s.killFolio x.fid 1))
        ∧ (∀ x, s.entryFor handle = some x → fieldOf o.d 1 0 = 2 → ¬ (s.super = true ∧ handle = 0) → (s.folio x.fid).kind = .normal →
            Done (.fkillUS o) 4 s (s.killShelf (s.folio x.fid).coll (s.folio x.fid).shelf))
        ∧ (∀ c, s.super = true → fieldOf o.d 1 0 = 2 → handle = 0 →
            (s.queueOf s.fol.die).find? (fun c => c.qent = fieldOf v 15 0 && fieldOf v 23 16 < c.shelves.length) = some c →
            Done (.fkillUS o) 4 s (s.killShelf c.uid (fieldOf v 23 16))))

/-- R379, R380: `pmap` takes the next page of the pool, zeroes it where asked or in user mode, makes a release at system scope,
writes the leaf, and returns the physical address with k1 1; an empty or invalid pool gives code 1 with k1 0. It rests on
choices of the model: log 53 (a malformed table), 54 (copies of a zeroed frame). -/
def Obligations.PageMap : Prop :=
  ∀ (s : State) (o : SF) (pool : Nat),
    let va := (s.q.sreg o.a.toNat).toNat
    let v := s.q.sreg (o.a.toNat + 1)
    let d := s.fol.die
    let perm := fieldOf v 1 0
    let asid := if s.super then fieldOf v 47 32 else s.fol.asid
    let r : PoolRec := BitVec.ofNat 256 (leNat ((List.range 32).map (fun i => s.homeByte 0 (pool + i))))
    let size := szcBytes (fieldOf r 43 40)
    let next := fieldOf r 59 44
    let pa := fieldOf r 127 76 + next * size
    Under (.pmapUS o) (usWord 0x32 o [.sreg o.d.toNat, .sgroup o.a.toNat 2]) s
      (fieldOf v 31 3 = 0 → fieldOf v 63 48 = 0 → (s.super = false → fieldOf v 47 32 = 0) →
        s.reach d ((s.mgmt d 0x802).toNat + 32 * asid) = .at pool → va % size = 0 →
        ((poolBad r = true ∨ fieldOf r 75 60 ≤ next) → Done (.pmapUS o) 4 s ((s.setS o.d.toNat 1).setK 1 false))
        ∧ (∀ pas, poolBad r = false → next < fieldOf r 75 60 → s.pageGroup d asid va (fieldOf r 43 40) = .at pas →
            (s.super = false → recField s.fol.record 575 512 ≤ va ∧ va + size ≤ recField s.fol.record 639 576) →
            perm ≠ 0 → (s.super = false → perm ≠ 3) → s.releaseBlocked s.q.uid d 6 = false →
            let t := s.putHome 0 pool (leBytes 32 (putField r 59 44 (next + 1)).toNat)
            let z := if !s.super || v.getLsbD 2 then t.zeroFrame d (fieldOf r 39 34) pa size else t
            let e := leafOf (fieldOf r 33 32) (fieldOf r 39 34) asid pa (fieldOf r 43 40) perm
            Done (.pmapUS o) 4 s (((pas.foldl (fun (u : State) p => u.putHome 0 p (leBytes 8 e.toNat)) (z.releaseAt 6)).setS o.d.toNat
              (BitVec.ofNat 64 pa)).setK 1 true)))

/-- R42, R382, R383: `rdsr` returns the register; `wrsr` writes %fflags of every member, %frm, %ftrap, %mflags, TVEC and the
management registers, and traps with 0x021 on a value that a rule forbids. It rests on choices of the model: log 25 (where a
curator runs), 58 (bits kept of a management register). -/
def Obligations.SystemRegisters : Prop :=
  ∀ (s : State) (o : SF),
    let n := o.sysnum.toNat
    let v := s.q.sreg o.d.toNat
    Under (.rdsrUS o) (srWord o (s.super || decide (n < 0x800))) s (Done (.rdsrUS o) 4 s (s.setS o.d.toNat (s.sysReg n)))
    ∧ Under (.wrsrUS o) (srWord o (s.super || (decide (n < 0x800) && !sysRO n))) s
      ((n = 0x010 → Done (.wrsrUS o) 4 s (s.mapFibres (fun f => if s.inBatch f then { f with fflags := v.setWidth 5 } else f)))
        ∧ (n = 0x011 → fieldOf v 2 0 < 6 → Done (.wrsrUS o) 4 s { s with q := { s.q with frm := v.setWidth 3 } })
        ∧ (n = 0x011 → 6 ≤ fieldOf v 2 0 → Traps (.wrsrUS o) 0x021 (laneMask s.batch) 0 s)
        ∧ (n = 0x012 → Done (.wrsrUS o) 4 s { s with q := { s.q with ftrap := v.setWidth 5 } })
        ∧ (n = 0x013 → Done (.wrsrUS o) 4 s { s with q := { s.q with mflags := v.setWidth 3 } })
        ∧ (n = 0x800 → v.toNat % 8 = 0 → Done (.wrsrUS o) 4 s { s with q := { s.q with tvec := v } })
        ∧ (0x800 ≤ n → mgmtBad n v = true → Traps (.wrsrUS o) 0x021 (laneMask s.batch) 0 s)
        ∧ (0x800 < n → n ≠ 0x841 → mgmtBad n v = false → Done (.wrsrUS o) 4 s (s.mgmtWrite s.fol.die n v))
        ∧ (∀ t, n = 0x841 → mgmtBad n v = false → s.lqctl s.q.uid s.fol.die v = some t → Done (.wrsrUS o) 4 s t)
        ∧ (n = 0x841 → mgmtBad n v = false → s.lqctl s.q.uid s.fol.die v = none →
            Blocks (.wrsrUS o) (.launch (launchTarget s.fol.die (fieldOf v 10 9) (v.getLsbD 11))) 4 s s))

/-- R385: `tlbctl` posts INVAL after a release at system scope and waits for COMMIT, or traps with 0x060 on an unaligned range. -/
def Sys2Proof.Claims.ShootDowns : Prop :=
  ∀ (s : State) (o : SF),
    let lo := (s.q.sreg o.a.toNat).toNat
    let v := s.q.sreg (o.a.toNat + 1)
    let len := fieldOf v 47 0
    Under (.tlbctlUS o) (usWord 0x37 o [.sgroup o.a.toNat 2]) s
      ((lo % 4096 ≠ 0 ∨ len % 4096 ≠ 0 → Traps (.tlbctlUS o) 0x060 (laneMask s.batch) (s.q.sreg o.a.toNat) s)
        ∧ (lo % 4096 = 0 → len % 4096 = 0 →
          ∃ m : Msg, m.dom = true ∧ m.type = 0 ∧ m.pkg = s.pkgid ∧ m.die = s.fol.die ∧ m.incarn = (s.die s.fol.die).incarn.toNat
            ∧ m.sender = none ∧ m.body = .inval s.next (if o.d.getLsbD 1 then none else some (fieldOf v 63 48)) lo len (o.d.getLsbD 0)
            ∧ Behind (.tlbctlUS o) 4 true 6 s s (fun t =>
                Blocks (.tlbctlUS o) (.shootdown s.next) 4 s { t with msgs := t.msgs ++ [m], next := t.next + 1 })))

namespace Sys2Proof.Claims

/-! ## The channel, checkpoints, links (21) -/

/-- One 64-byte access of a uniform word has passed its checks and nothing hinders it. -/
abbrev LineAt (s : State) (ea : Nat) (acc : Acc) (reads : Bool) (y : Access) : Prop :=
  Reaches s [(0, ea)] (fun ea => s.memCheck s.q.fid ea 64 acc) 64 reads [y]

/-- The checks of a checkpoint instruction: the engine must be present (R10). -/
abbrev ckWord (o : SF) (s : State) (uses : List Use) : Desc := { usWord 0x36 o uses with unit := s.part.ckpt }

/-- What `linkctl` says of a link after an operation: R420's requirement of each operation and its effect. -/
def linkctl (i : Instr) (o : SF) (op : Nat) (s : State) : Prop :=
  let v := s.q.sreg o.a.toNat
  let su := v.getLsbD 4
  let port := fieldOf v 3 0
  let lane := fieldOf v 22 16
  let key := if su then 16 + port else port
  let bad := fieldOf v 63 26 ≠ 0 ∨ v.getLsbD 23 = true ∨ v.getLsbD 15 = true ∨ v.getLsbD 11 = true ∨ fieldOf v 7 5 ≠ 0
    ∨ 2 < fieldOf v 14 12 ∨ 4 < fieldOf v 10 8 ∨ (su = false ∧ (3 < port ∨ (port = 3 ∧ s.part = .q940)))
  let absent := su = true ∧ s.part.ports ≤ port
  (i.wf = true → (∀ c, { usWord 0x37 o [.sreg o.d.toNat, .sreg o.a.toNat] with unit := decide ¬ absent }.cause s = some c →
      Traps i c (laneMask s.batch) 0 s))
  ∧ Under i { usWord 0x37 o [.sreg o.d.toNat, .sreg o.a.toNat] with unit := decide ¬ absent } s
    ((¬ absent → bad → Traps i 0x021 (laneMask s.batch) 0 s)
      ∧ (¬ absent → ¬ bad → fieldOf v 10 8 = op → s.linkAt s.fol.die key = none ∨ (su = true ∧ (op = 2 ∨ s.part.portDie port ≠ s.fol.die)) ∨ 63 < lane →
        Done i 4 s (s.setK 1 false))
      ∧ (∀ l, ¬ absent → ¬ bad → fieldOf v 10 8 = op → s.linkAt s.fol.die key = some l → ¬ (su = true ∧ (op = 2 ∨ s.part.portDie port ≠ s.fol.die)) → lane ≤ 63 →
          let r := s.linkOp l op (fieldOf v 25 24) lane (fieldOf v 14 12)
          let t := (s.modLink s.fol.die key (fun _ => r.1)).setS o.d.toNat r.1.status
          if op = 3 ∧ r.2 = true ∧ r.1.state = 3 then
            ∃ x : Trap, x.code = 0x162 ∧ x.epc = s.pc ∧ x.elanes = laneMask s.batch ∧ x.eaddr = 0
              ∧ exec i s = .next ((t.unblocked.takeTrap x).unblocked)
          else Done i 4 s (t.setK 1 r.2)))

end Sys2Proof.Claims

/-- R401, R404: `msend` posts the 48 bytes of the payload after a release and waits for its number; `mrecv` writes the oldest message of
the queue of its instance after an acquire, or reports 0 with NB, or waits. -/
def Sys2Proof.Claims.Messages : Prop :=
  ∀ (s : State) (o : SF),
    (let g := o.a.toNat
     let v := s.q.sreg (g + 1)
     Under (.msendUS o) (usWord 0x35 o [.sreg o.d.toNat, .sgroup g 2]) s
       ((fieldOf v 63 9 ≠ 0 ∨ fieldOf v 7 0 < 0x80 → Traps (.msendUS o) 0x021 (laneMask s.batch) 0 s)
       ∧ ∀ y, fieldOf v 63 9 = 0 → 0x80 ≤ fieldOf v 7 0 → LineAt s (s.q.sreg g).toNat .read true y →
         Behind (.msendUS o) 4 true (if v.getLsbD 8 then 6 else 5) s (s.cacheAll [y]) (fun t =>
           let r := (t.startReads t.q.uid).loadOne 64 0 y
           ∃ m : Msg, m.dom = v.getLsbD 8 ∧ m.type = fieldOf v 7 0 ∧ m.pkg = s.pkgid ∧ m.die = s.instance_
             ∧ m.incarn = (s.die s.instance_).incarn.toNat ∧ m.body = .kernel ∧ m.sender = some (s.q.uid, s.sel.1, s.sel.2, o.d.toNat)
             ∧ m.payload = (leBytes 64 r.1).drop 16
             ∧ Blocks (.msendUS o) .msend 4 s { r.2 with msgs := r.2.msgs ++ [m] })))
    ∧ Under (.mrecvUS o) (usWord 0x35 o [.sreg o.d.toNat, .sreg o.a.toNat]) s
       (((s.die s.instance_).recv = [] →
           if o.b.getLsbD 0 then Done (.mrecvUS o) 4 s (s.setK 1 false) else Blocks (.mrecvUS o) .mrecv 4 s s)
         ∧ (∀ m rest y, (s.die s.instance_).recv = m :: rest → LineAt s (s.q.sreg o.a.toNat).toNat .write false y →
             let t := ((s.cacheAll [y]).acquireAll s.q.uid s.fol.die (if m.dom then 6 else 5)).storeOne 64 0 y (leNat m.bytes)
             Done (.mrecvUS o) 4 s (((t.modDie s.instance_ (fun z => { z with recv := rest })).setS o.d.toNat m.seq).setK 1 true)))

/-- R385, R404: `msend` and `mrecv`, and `tlbctl`. It rests on choices of the model: log 26 (INVAL in no receive queue), 34 (free
payloads), 84 (values in registers that raise 0x021), 97 (the instance of die 4 on a Q940). -/
def Obligations.MessagesAndShootDowns : Prop :=
  Sys2Proof.Claims.ShootDowns ∧ Sys2Proof.Claims.Messages

/-- R415, R416: `ckbegin` opens the next generation and invalidates its slot; `ckshard` asks for a permit; `ckcommit` of the open
generation marks it and ends it when every die has committed. -/
def Sys2Proof.Claims.Checkpoints : Prop :=
  ∀ s : State,
    (∀ o : SF,
      let d := s.fol.die
      let gen := s.q.sreg o.a.toNat
      let v := s.q.sreg (o.a.toNat + 1)
      Under (.ckbeginUS o) (ckWord o s [.sgroup o.a.toNat 2]) s
        ((fieldOf v 63 16 ≠ 0 → Traps (.ckbeginUS o) 0x021 (laneMask s.batch) 0 s)
          ∧ (fieldOf v 63 16 = 0 → (s.die d).ckpt.isSome = true ∨ gen ≠ s.mgmt d 0x817 + 1 → Done (.ckbeginUS o) 4 s (s.setK 1 false))
          ∧ (∀ t, fieldOf v 63 16 = 0 → (s.die d).ckpt = none → gen = s.mgmt d 0x817 + 1 → s.ckWrite d (s.ckSlot d gen) [0] = some t →
              ∃ k : Ckpt, k.gen = gen ∧ k.asid = fieldOf v 15 0 ∧ k.dies = (List.range s.part.dies).filter (fun e => (s.die e).admitted)
                ∧ k.pos = 64 ∧ k.fail = none ∧ k.commit = none
                ∧ Done (.ckbeginUS o) 4 s ((t.modDie d (fun z => { z with ckpt := some k })).setK 1 true)))
      ∧ Under (.ckcommitUS o) (ckWord o s [.sreg o.d.toNat, .sreg o.a.toNat]) s
        (∀ k, (s.die d).ckpt = some k → k.gen = gen → k.commit = none →
          (k.fail = some 1 → Done (.ckcommitUS o) 4 s (((s.modDie d (fun z => { z with ckpt := none })).setS o.d.toNat 1).setK 1 false))
          ∧ (k.fail ≠ some 1 → ∃ r : Trap, r.epc = s.pc ∧ r.len = 4 ∧ exec (.ckcommitUS o) s = .next
              (((s.modDie d (fun z => { z with ckpt := some { k with commit := some (s.q.uid, o.d.toNat) } })).block .ckcommit 4 r).tryCommit d))))
    ∧ (∀ o : LF,
      let lo := (s.q.sreg o.a.toNat).toNat
      let len := (s.q.sreg (o.a.toNat + 1)).toNat
      Under (.ckshardUL o) { ulWord 0x36 o [.sgroup o.a.toNat 2] with unit := s.part.ckpt } s
        ((lo % 4096 ≠ 0 ∨ len % 4096 ≠ 0 → Traps (.ckshardUL o) 0x060 (laneMask s.batch) (s.q.sreg o.a.toNat) s)
          ∧ (lo % 4096 = 0 → len % 4096 = 0 → (s.die s.fol.die).ckpt = none → Traps (.ckshardUL o) 0x0E2 (laneMask s.batch) 0 s)
          ∧ (∀ k, lo % 4096 = 0 → len % 4096 = 0 → (s.die s.fol.die).ckpt = some k → (s.q.tok o.low3.toNat).count ≠ 63 →
              ∃ x : ShardOp, x.id = s.next ∧ x.die = s.fol.die ∧ x.quire = s.q.uid ∧ x.asid = k.asid ∧ x.start = lo ∧ x.len = len
                ∧ x.tok = o.low3.toNat ∧ x.permit = false
                ∧ Blocks (.ckshardUL o) (.permit s.next) 8 s
                    { s with next := s.next + 1, shards := s.shards ++ [x], permits := s.permits ++ [.shard s.next] })))

/-- R420, R421: the five operations of `linkctl`. The operation stands in sA, so each constructor of the one word does what sA asks. -/
def Sys2Proof.Claims.LinkControl : Prop :=
  ∀ (s : State) (o : SF),
    linkctl (.linkctlStatus o) o 0 s ∧ linkctl (.linkctlPause o) o 1 s ∧ linkctl (.linkctlRepair o) o 2 s
    ∧ linkctl (.linkctlRetrain o) o 3 s ∧ linkctl (.linkctlResume o) o 4 s

/-- R415, R416, R420, R421: the checkpoint instructions, and `linkctl`. It rests on choices of the model: log 27 (`ckcommit` of a
generation that is not open), 84 (values in registers that raise 0x021), 61 (k1 of a `ckcommit` that succeeds), 62 (sD of a
refused `linkctl`), 63 (the width after retraining), 66 (the pages of a shard), 67 (where the commit record goes). -/
def Obligations.RecoveryInstructions : Prop :=
  Sys2Proof.Claims.Checkpoints ∧ Sys2Proof.Claims.LinkControl

/-- R13, R48, R62 to R65: a word that no row of the table holds raises 0x020 where its position or opcode is reserved, 0x024 for a
supervisor opcode in user mode, 0x022 where it names a unit that the part does not have (`State.wordUnit`: the checkpoint engine, or
a format of the converter or of the matrix engine, whatever else the word holds), else 0x021, in the members it is about. -/
def Obligations.ReservedWords : Prop :=
  ∀ (s : State) (w0 w1 : Word),
    let uni := isUniform w0
    let op := opOf w0
    let late := (s.pc.toNat % 8 = 4 ∧ isLong w0 = true) ∨ opListed uni op = false ∨ opInVersion s.encv uni op = false
    let above := (opSupervisor uni op = true ∨ wordPriv w0 = false) ∧ s.super = false
    let absent := s.wordUnit w0 w1 = false
    ∃ r : Trap, r.code = (if late then 0x020 else if above then 0x024 else if absent then 0x022 else 0x021) ∧ r.epc = s.pc ∧ r.eaddr = 0
      ∧ r.elanes = laneMask (if uni then s.batch else s.active (w0.extractLsb' 21 3) (w0.getLsbD 20))
      ∧ exec (.reservedWord w0 w1) s = .next (s.unblocked.takeTrap r)

namespace Sys2Proof.Claims

/-! ## Events -/

/-- An operation that waits for a permit is first in its core's queue, the package is not hot, the die runs, and
the unit is not saved (R18, R19, R319). -/
abbrev Grantable (s : State) (h : Heavy) : Prop :=
  s.hot = false ∧ s.permits.find? (fun x => x.id = h.id) = some h
    ∧ s.permits.find? (fun x => s.heavyCore x = s.heavyCore h) = some h ∧ s.live (s.heavyCore h).1 = true ∧ s.isSaved (s.heavyFolio h) = false

/-- The state with a permit taken out of the queue. -/
def granted (s : State) (h : Heavy) : State := { s with permits := s.permits.filter (fun x => x ≠ h) }

/-- The state behind the fetches of a chunk: their leaves are cached, their partials combined (R164, R238, R360). -/
def chunkCached (s : State) (op : MatOp) : State :=
  (chunkFetches (s.chunkRows op)).foldl (fun (t : State) x => t.fetched s op.fid x) s

/-- Every quire's name is its own, and no saved quire bears the name of a resident one. -/
abbrev OwnName (s : State) (uid : Nat) : Prop :=
  (∀ x ∈ s.rest, x.uid ≠ uid) ∧ (∀ v ∈ s.saved, ∀ x ∈ v.quires, x.uid ≠ uid)

end Sys2Proof.Claims

/-- R15 to R17, R19: power-on and refetch measure an image and bring up only one that verifies: it is loaded into the memory of
every die that passes, whose curators start at its entry; the thermal hold and its end; the trip, after which every step
stops. It rests on choices of the model: log 64 (bring-up as a free choice), 65 (what is measured), 68 (the check of an
image), 76 (the stop without power), 98 (what the measurement hashes), 117 (what an image carries), 118 (where an image is
loaded). -/
def Obligations.BootAndPower : Prop :=
  ∀ s : State,
    (∀ x, s.boot = .off → s.images.head? = some x →
      (s.imageGood x = true → ∃ t, exec .powerOn s = .next t ∧ t.boot = .running
        ∧ t.measure = leNat (shake256 (leBytes 64 s.measure ++ x.bytes) 64) ∧ t.epoch = 1 ∧ t.images = s.images
        ∧ ∃ u : State, u.mem = s.mem ∧ u.images = s.images ∧ t = ((List.range s.part.dies).filter s.passes).foldl State.addCurators u)
      ∧ (s.imageGood x = false → exec .powerOn s = .next { s.measured x with boot := .refetch 0 }))
    ∧ (s.boot = .off → s.images.head? = none → exec .powerOn s = .next { s with boot := .refetch 0 })
    ∧ (∀ n x, s.boot = .refetch n → s.images[s.fetchSource n]? = some x →
      (s.imageGood x = true → ∃ t, exec .imageRefetch s = .next t ∧ t.boot = .running ∧ t.images = x :: s.images.drop 1
        ∧ t.measure = leNat (shake256 (leBytes 64 s.measure ++ x.bytes) 64))
      ∧ (s.imageGood x = false →
          exec .imageRefetch s = .next { s.measured x with boot := .refetch (n + 1) }))
    ∧ (∀ d x, s.images.head? = some x → ∃ fs qs, let t := s.addCurators d
        t.mem = (s.putLong 0 (s.pkgid * 2 ^ 46 + d * 2 ^ 38 + Config.loadArea d % 2 ^ 25 * 4096) x.bytes).mem
        ∧ t.folios = s.folios ++ fs ∧ t.rest = s.rest ++ qs
        ∧ fs.map (fun f => (f.die, f.core, f.asid, f.kind)) = (List.range 4).map (fun i => (d, 384 + i, 0, .curator i))
        ∧ ∀ q ∈ qs, q.fibres.map (fun f => (f.lane, f.pc)) = [(0, Config.imageEntry x.bytes &&& ~~~3)])
    ∧ exec .thermalHold s = .next { s with hot := true }
    ∧ exec .temperatureFalls s = .next { s with hot := false }
    ∧ (∀ id, s.hot = true → exec (.permitGrant id) s = .next s)
    ∧ ∃ t, exec .thermalTrip s = .next t ∧ t = { s with boot := .tripped } ∧ step t = .fault .powerRemoved

/-- R18, R152, R216, R319, R415: a granted `cpm` starts on its token and its batch goes on; a matrix operation and a shard likewise. -/
def Sys2Proof.Claims.Permits : Prop :=
  ∀ (s : State),
    (∀ (c : CopyOp), Grantable s (.copy c.id) → s.copies.find? (fun x => x.id = c.id) = some c →
      (c.started = true → exec (.permitGrant c.id) s = .next ((granted s (.copy c.id)).modCopy c.id (fun y => { y with permit := true })))
      ∧ (c.started = false → ((s.quire c.quire).tok c.tok).count ≠ 63 → exec (.permitGrant c.id) s = .next
          ((((granted s (.copy c.id)).modCopy c.id (fun y => { y with permit := true, started := true })).beginOn c.quire c.tok c.id).tryEndCopy c.id)))
    ∧ (∀ (o : MatOp), Grantable s (.matrix o.id) → s.matops.find? (fun x => x.id = o.id) = some o →
      exec (.permitGrant o.id) s = .next ((granted s (.matrix o.id)).grantMat o))
    ∧ (∀ (x : ShardOp), Grantable s (.shard x.id) → s.shards.find? (fun y => y.id = x.id) = some x →
      (s.quire x.quire).waits.any (fun w => w.kind = .permit x.id) = true → ((s.quire x.quire).tok x.tok).count ≠ 63 →
      exec (.permitGrant x.id) s = .next (({ granted s (.shard x.id) with
        shards := s.shards.map (fun y => if y.id = x.id then { y with permit := true } else y) } : State).beginOn x.quire x.tok x.id))

/-- R211, R383, R410: writes to management registers by the processor die, the key commands, and the two clears. -/
def Sys2Proof.Claims.RegisterEvents : Prop :=
  ∀ (s : State) (d : Nat),
    (∀ v t, d < s.part.dies → mgmtBad 0x841 v = false → s.lqWait = [] →
      ({ s with lqWait := [(d, v, 0)] } : State).lqctl 0 d v = some t → exec (.lqctl d v) s = .next { t with lqWait := [] })
    ∧ (∀ kid, kid = (s.mgmt d 0x820).toNat % 64 → d < s.part.dies → kid ≠ 0 →
      exec (.keycmdProgram d) s = .next (({ s with keys := Sparse.set none kid (some (s.stagedKey d)) s.keys } : State).clearStaged d)
      ∧ exec (.keycmdErase d) s = .next (({ s with keys := Sparse.set none kid none s.keys } : State).clearStaged d))
    ∧ (d < s.part.dies → (s.mgmt d 0x820).toNat % 64 = 0 →
      exec (.keycmdProgram d) s = .next s ∧ exec (.keycmdErase d) s = .next s)
    ∧ (d < s.part.dies →
      exec (.latecntClear d) s = .next (s.modDie d (fun z => { z with late := Sparse.set 0 (s.mgmt d 0x830).toNat 0 z.late })))
    ∧ (∀ e, exec (.rhmapClear d e) s =
        .next (s.modDie d (fun z => { z with mgmt := Sparse.set 0 0x814 (putBit (s.mgmt d 0x814) e false) z.mgmt })))
    ∧ (∀ n v, d < s.part.dies → 0x800 ≤ n → n ≤ 0xFFF → sysregKnown (BitVec.ofNat 12 n) = true → n ≠ 0x841 → s.lqWait = [] →
      (n = 0x800 ∨ mgmtBad n v = true → exec (.registerWrite d n v) s = .next s)
      ∧ (n ≠ 0x800 → mgmtBad n v = false → exec (.registerWrite d n v) s = .next (s.mgmtWrite d n v)))

/-- R313 to R315, R328, R337, R341, R275, R386, R391: binding, volume starts, gather points, frames, splits, saves and restores.
It rests on choices of the model: log 17 (the placement), 59 (save and restore in detail). -/
def Obligations.SchedulingEvents : Prop :=
  ∀ (s : State),
    (∀ (d vol : Nat) (cores qbases : List Nat) (c : Coll) (u : UnitId), s.nextUnit d = some (c, u) → u.vol = vol →
      s.placeOk d c u cores qbases = true → s.savedUnit u = none →
      let t := s.assignTargets d u
      (t.placeOk d c u cores qbases = false → exec (.registrarBind (.bind d u.coll u.shelf vol cores qbases)) s = .next t)
      ∧ (∀ vg, t.placeOk d c u cores qbases = true → s.newVgid d u.coll u.shelf = some vg →
        vg < 512 ∧ (∀ b ∈ (s.die d).slots, b.group ≠ (u.coll, u.shelf, vg)) ∧ ∃ recs : List Bind, recs.map (fun b => (b.core, b.qbase)) = cores.zip qbases
        ∧ (∀ b ∈ recs, b.coll = u.coll ∧ b.shelf = u.shelf ∧ b.volIdx = vol ∧ b.vgid = vg ∧ b.state = 1
          ∧ b.carve = recCarve (c.unitRec u))
        ∧ exec (.registrarBind (.bind d u.coll u.shelf vol cores qbases)) s = .next
          ((t.modDie d (fun z => { z with
              slots := z.slots ++ recs
              targets := z.targets.filter (fun t => ¬ (t.1 = u.coll ∧ t.2.1 = u.shelf ∧ t.2.2.1 = vol)) })).modColl u.coll
            (fun y => y.modShelf u.shelf (fun x => { x with vols := Sparse.set .waiting vol (.bound vg) x.vols })))))
    ∧ (∀ (d index : Nat) (b : Bind) (rest : List Bind) (c : Coll), s.groupAt d index = b :: rest →
      s.colls.find? (fun c => c.uid = b.coll) = some c →
      Sparse.get .waiting b.volIdx (c.shelves.getD b.shelf { record := 0 }).vols = .bound b.vgid →
      s.groupOk d c (b :: rest) = true → s.depsReady c b.shelf b.volIdx = true →
      let r := (c.shelves.getD b.shelf { record := 0 }).record
      ∃ t fs qs, exec (.volumeStart d index) s = .next t ∧ t.folios = s.folios ++ fs ∧ t.rest = s.rest ++ qs
        ∧ fs.map (fun x => (x.core, x.qbase, x.qcnt, x.carve)) = (b :: rest).map (fun x => (x.core, x.qbase, x.qcnt, x.carve))
        ∧ (∀ x ∈ fs, x.die = d ∧ x.asid = c.asid ∧ x.sup = c.sup ∧ x.record = r ∧ x.kind = .normal ∧ x.ended = false)
        ∧ (∀ q ∈ qs, (∀ f ∈ q.fibres, f.pc = recEntry r ∧ f.depth = 0) ∧ q.fibres.map (·.lane) = List.range (recField r 81 77 + 1)
            ∧ q.s = [] ∧ q.k = 0 ∧ q.toks = [])
        ∧ t.mem = s.mem)
    ∧ (∀ (fid : Nat), s.isSaved fid = false → s.folios.any (fun y => y.fid = fid) = true → (s.folio fid).kind = .normal →
      s.saveAsked (s.folio fid) = true →
      let mine := fun (f : Nat) => (s.volume (s.folio fid).vid).members.any (fun m => m.2 = f)
      mine fid = true → s.saveBlocked (s.folio fid).die (s.quires.filter (fun q => q.uid ≠ 0 && mine q.fid)) = false →
      ∃ t, exec (.preemptSave fid) s = .next t
        ∧ (∀ x ∈ t.folios, mine x.fid = false) ∧ (∀ q ∈ t.rest, mine q.fid = false)
        ∧ ∃ v ∈ t.saved, (∃ x ∈ v.folios, x.fid = fid) ∧ (∀ x ∈ v.folios, mine x.fid = true ∧ ∃ base key, (x.fid, base, key) ∈ v.images)
          ∧ ((∀ y ∈ s.folios, mine y.fid = true → (s.remaps.filter (fun r => r.die = y.die && r.core = y.core)).length < 8) → v.step7 = false))
    ∧ (∀ (fid dcore qbase : Nat), s.saved = [] → exec (.restore fid dcore qbase) s = .next s)
    ∧ (∀ (fid d core qbase vg : Nat) (v : Saved) (ps : List (Nat × Nat × Nat)),
      s.saved.find? (fun v => v.folios.any (fun y => y.fid = fid)) = some v → core < 512 → s.mayRestore v d core = true →
      s.restorePlaces v fid d core qbase = some ps →
      s.newVgid d (v.folios.headD noFolio).coll (v.folios.headD noFolio).shelf = some vg →
      (v.folios.map (·.fid)).Nodup → (∀ x ∈ s.folios, x.fid < s.next) →
      ∃ t u : State, exec (.restore fid (512 * d + core) qbase) s = .next t ∧ t = u.reap
        ∧ (∀ w ∈ u.saved, w.volume.vid ≠ v.volume.vid)
        ∧ ∀ (i : Nat) (y : Folio), v.folios[i]? = some y → y.ended = false →
          ∃ f ∈ u.folios, f.fid = s.next + i ∧ f.die = d ∧ f.carve = y.carve ∧ f.record = y.record
            ∧ (y.fid = fid → f.core = core ∧ f.qbase = qbase))
    ∧ (∀ (pc : DWord) (frame : Nat), s.q.released pc frame = true → OwnName s s.q.uid →
      exec (.gatherRelease s.q.uid pc frame) s = .next { s with q := { s.q with fibres := s.q.fibres.map (fun f =>
        if f.parked = true ∧ f.pc = pc ∧ f.frame = frame then
          { f with parked := false, gather := f.gather.filter (fun e => e ≠ (pc, frame)) } else f) } })
    ∧ (∀ (uid id : Nat) (n : RunNeed) (ts : List Target), s.archiveFor (s.quire uid).fid = some (n, uid, id) →
      s.fits (s.quire n.uid) uid id = true →
      s.routeLines (s.quire uid).fid (s.archiveAddr (s.quire n.uid)) ((s.quire uid).frame id).recordBytes .write = .ok ts →
      waitsAt ts = none → exec (.frameArchive uid id) s = .next (s.archive (s.quire n.uid) uid id ts))
    ∧ (∀ (uid id k off b : Nat) (p : DWord × Nat) (ts : List Target), ((s.quire uid).frame id).arch = some (k, off) →
      s.frameRun (s.quire uid).fid ((s.quire uid).frame id).size8 = some b →
      (s.needsRefill (s.quire uid)).find? (fun p => p.2 = id) = some p →
      s.routeLines (s.quire uid).fid ((s.folio (s.quire uid).fid).sliceAt k + off) ((s.quire uid).frame id).recordBytes .read = .ok ts →
      waitsAt ts = none → exec (.frameRefill uid id) s = .next (s.refill uid id b ts))
    ∧ (∀ (fid uid : Nat) (v : DWord), (s.folio fid).carveRq = some (v, uid) → s.folios.any (fun y => y.fid = fid) = true →
      s.allArrived fid ⟨false, none⟩ = true → s.writesBeyond fid (fieldOf v 11 6 * 16384) = false →
      let ok := s.carveOk (s.folio fid) v
      let t := (s.modFolio fid (fun y => { y with
        carveRq := none, carve := if ok then putField y.carve 17 0 (fieldOf v 17 0) else y.carve })).modQuire uid (fun q => q.setK 1 ok)
      exec (.carveApply fid) s = .next (State.completeBar (if ok && fieldOf v 11 6 * 16384 < (s.folio fid).scratchBytes then
        t.shrink fid (fieldOf v 11 6 * 16384) else t) fid ⟨false, none⟩))

/-- R171, R192, R193, R211, R217, R222, R237, R238, R194, R295: chunks, segments, tiles, writes on their way, partials and lines. -/
def Sys2Proof.Claims.EngineEvents : Prop :=
  ∀ (s : State),
    (∀ id, s.matops.find? (fun o => o.id = id) = none → exec (.matrixChunk id) s = .next s)
    ∧ (∀ (op : MatOp), s.matops.find? (fun o => o.id = op.id) = some op → op.permit = true → op.latch = false → op.held = none →
      op.pend = none → s.isSaved op.fid = false → op.members ≠ [] →
      (∀ x c, chunkStop (s.chunkRows op) = some (x, .fault c) → exec (.matrixChunk op.id) s = .next (s.faultMat op x.mem c x.ea x.side))
      ∧ (∀ x, chunkStop (s.chunkRows op) = some (x, .waits) → exec (.matrixChunk op.id) s = .next s)
      ∧ ((∀ r ∈ (s.chunkRows op).1 ++ (s.chunkRows op).2, ∀ e ∈ r.es ++ r.sc, ∃ v, e.2 = .bytes v) →
          (∀ m ∈ op.members, s.badBand m.quire (fun k => k / 512 = m.band) = false) →
          exec (.matrixChunk op.id) s = .next ((((op.members.foldl (fun (t : State) m => t.bandChunk op m
            (((s.chunkRows op).1.filter (fun r => r.mem.quire = m.quire)).map (fun r => r.elems (s.asLog op) (s.chunkKs op)))
            ((s.chunkRows op).2.map (fun r => r.elems (s.asLog op) (s.chunkKs op))))
            (chunkCached s op)).setMprog op 1 (op.chunk + 1)).modMat op.id (fun o => { o with chunk := o.chunk + 1 })).tryEndMat op.id)))
    ∧ (∀ (c : CopyOp) (n : Nat) (src : Leg) (tos : List Leg), s.copies.find? (fun x => x.id = c.id) = some c →
      c.permit = true → c.started = true → c.held = none → c.pend = none → c.resumed = false → s.segment c = (n, src, tos) →
      (∀ k, src = .fault k → exec (.copySegment c.id) s = .next (s.faultCopy c k (Side.at ⟨c.src, c.spitch⟩ c.rowBytes c.pos)))
      ∧ (src ≠ .waits → (∀ k, src ≠ .fault k) → (∀ y ∈ tos, y ≠ .waits ∧ ∀ k, y ≠ .fault k) → s.badSource c src n = false →
          let r := s.legBytes c src n
          let written := tos.foldl (fun (t : State) y => t.legWrite c y r.1) r.2
          exec (.copySegment c.id) s = .next
            (((written.spreadPoison c src tos n).modCopy c.id (fun y => { y with pos := y.pos + n })).tryEndCopy c.id)))
    ∧ (∀ (c : CopyOp), s.copies.find? (fun x => x.id = c.id) = some c →
      c.permit = true → c.started = true → c.held = none → c.pend = none → c.resumed = true →
      exec (.copySegment c.id) s = exec (.copySegment c.id) (((s.acquireOn (s.folio c.fid).die 5).orderPaths c.quire [1]).modCopy c.id
        (fun y => { y with resumed := false })))
    ∧ (∀ (a b : TileOp), s.tiles.find? (fun t => t.id = a.id) = some a → s.tiles.find? (fun t => t.id = b.id) = some b →
      s.tilesMatch a b = true → s.isSaved a.fid = false → s.isSaved b.fid = false →
      let go : State := { s with tiles := s.tiles.filter (fun t => t.id ≠ a.id ∧ t.id ≠ b.id) }
      let n := min a.len b.len
      let out : BitVec 2 × Option Trap := if a.len = b.len then (0, none) else (1, some (tileRecord n))
      (s.takesWrites b.fid = true → exec (.tileDelivery a.id b.id) s = .next
          (((go.tileBytes a n).2.tileWrite b (go.tileBytes a n).1 out).finishTok a.quire a.tok out.1 out.2))
      ∧ (s.takesWrites b.fid = false → exec (.tileDelivery a.id b.id) s = .next
          (((go.countLate b.die (s.folio b.fid).core).finishTok a.quire a.tok 2 none).finishTok b.quire b.tok 2 none)))
    ∧ (∀ (k : Nat) (w : Inbound), s.inbound[k]? = some w → mayLand (s.inbound.take k) w = true →
      let t : State := { s with inbound := s.inbound.eraseIdx k }
      (s.takesWrites w.fid = true → w.off + w.bytes.length ≤ (s.folio w.fid).scratchBytes →
        let arrive := fun (u : State) (bs : List Byte) =>
          let v := (u.scratchWrite w.fid w.off bs w.rels (w.sub.map (fun _ => 10))).markPoison w.bad (u.scratchHome w.fid w.off) bs.length
          if w.sub.isSome then v else v.wroteStore w.from_ w.id w.die (.scratch w.fid w.off) bs.length
        exec (.inboundWrite k) s = .next (if s.inPart k w then arrive { s with inbound := s.inbound.set k w.tail } (w.bytes.take 4)
          else arrive t w.bytes))
      ∧ (s.takesWrites w.fid = false ∨ (s.folio w.fid).scratchBytes < w.off + w.bytes.length → exec (.inboundWrite k) s = .next (t.countLate w.die w.core)))
    ∧ (∀ (k : Nat) (p : Partial), s.partials[k]? = some p →
      exec (.redPartialEviction k) s = .next (if s.reach p.die p.pa = .waits then s else s.evictPartial p.die p.core (p.pa / 64)))
    ∧ (∀ line, exec (.redRecall line) s = .next (s.recallLine line))
    ∧ (∀ line, (∀ p ∈ s.partials, p.pa / 64 ≠ line) → exec (.redRecall line) s = .next s)
    ∧ (∀ d line, exec (.l2BypassRead d line) s = .next s)
    ∧ (∀ d cl line, (Sparse.get 0 (lineKeyOf cl line) (s.die d).clines ≠ 0 ∨
        (∀ p < 16, p ≠ cl → Sparse.get 0 (lineKeyOf p line) (s.die d).clines ≠ 1)) → exec (.peerProbe d cl line) s = .next s)
    ∧ (∀ d cl line, cl < 16 → exec (.peerProbe d cl line) s = .next s
      ∨ ∃ p < 16, p ≠ cl ∧ Sparse.get 0 (lineKeyOf p line) (s.die d).clines = 1 ∧ exec (.peerProbe d cl line) s = .next (s.modDie d (fun z =>
        { z with dir := Sparse.set 0 (line / 8) (putBit (putBit (Sparse.get 0 (line / 8) z.dir) cl true) p true) z.dir
                 clines := Sparse.set 0 (lineKeyOf cl line) 1 z.clines })))
    ∧ (∀ (d line : Nat) (x : TlbEntry), s.fillLeaf d line = some x → s.isHome d (line * 64) = false → s.liveLine line = false →
      (s.die d).copyOf line = none → s.reach d (line * 64) = .at (line * 64) →
      ∃ cl < 16, exec (.lineFill d line) s = .next (((s.recallLine line).addCopy d
        { home := pteHome x.entry, kid := pteKey x.entry, repl := pteRepl x.entry, asid := x.asid
          va := x.va + (line * 64 - pteBase x.entry) } line).direct d (24 * cl) .cluster false line))
    ∧ (∀ (d line : Nat), ∃ drop : Bool, (drop = true → s.isVictim d line = true) ∧
        exec (.lineWriteBack d line) s = .next (if s.isHome d (line * 64) then (if drop then s.dropHomeLine d line else s)
          else s.writeBack d line drop))

/-- R18, R171, R217: the permits, and the events of the engines. It rests on choices of the model: log 7 (the choice among
agents), 23 (the order of segments), 49 (granules of a subscription), 70 (caches as state), 89 (when a store is performed), 90
(the merge of two write-backs), 92 (a segment of which both sides fault), 112 (a side that runs into a window), 114 (what a
cluster holds of a line). -/
def Obligations.PermitsAndEngines : Prop :=
  Sys2Proof.Claims.Permits ∧ Sys2Proof.Claims.EngineEvents

/-- R199, R366, R369, R373, R375, R384: faults that wait, handler folios, curators' asynchronous traps, errors, RV64 accesses. -/
def Sys2Proof.Claims.FaultEvents : Prop :=
  ∀ (s : State),
    (∀ (x : Quire) (t : Trap), s.everyQuire.find? (fun q => q.uid = x.uid) = some x → x.pend = some t →
      (s.die (s.folio x.fid).die).freeEntry.isSome = true →
      exec (.faultRecord x.uid) s = .next (s.recordFault (.quire x.uid) x.fid t))
    ∧ (∀ (d core qbase : Nat) (h : HeldFault), (s.die d).handlers.find? (fun y => handleOf y.index y.gen = handleOf h.index h.gen) = some h →
      handleOf h.index h.gen < 2 ^ 32 → core < 384 → s.coreFits d core qbase 1 0x41 = true →
      ∃ t f q, exec (.handlerFolioStart (d * 2 ^ 32 + handleOf h.index h.gen) core qbase) s = .next t
        ∧ t.folios = s.folios ++ [f] ∧ t.rest = s.rest ++ [q]
        ∧ f.die = d ∧ f.core = core ∧ f.qbase = qbase ∧ f.kind = .handler h.index h.gen ∧ f.asid = (s.folio h.fid).asid ∧ f.sup = false
        ∧ q.fid = f.fid ∧ q.tregs = h.trap.regs (handleOf h.index h.gen))
    ∧ (∀ (d i : Nat) (q : Quire) (c : Nat) (b : DWord × Nat), s.curator d i = some q → (s.die d).asyncCause i = some c → q.inFlag = false →
      q.readyBatch = some b →
      ∃ (r : Trap) (t : State), r.code = c ∧ r.epc = b.1 ∧ r.elanes = laneMask t.batch
        ∧ t = ({ s.focus q.uid with sel := b } : State).modDie d (fun z =>
            if c = 0x130 then { z with pend130 := false } else { z with pend131 := z.pend131.filter (fun k => k ≠ i) })
        ∧ exec (.curatorTrapEntry d i) s = .next (t.takeTrap r))
    ∧ (∀ d i, exec (.curatorTimer d i) s = .next (s.modDie d (fun z =>
        { z with pend131 := if z.pend131.contains i then z.pend131 else z.pend131 ++ [i] })))
    ∧ (∀ d, exec (.softErrorCorrection d) s = .next (s.modDie d (fun z => { z with soft := z.soft + 1 })))
    ∧ (∀ l, ¬ l ∈ s.poison → exec (.uncorrectableError (.line l)) s = .next { s with poison := s.poison ++ [l] })
    ∧ (∀ q r l, ¬ BadCell.reg q r l ∈ s.bad →
        exec (.uncorrectableError (.reg q r l)) s = .next { s with bad := s.bad ++ [.reg q r l] })
    ∧ (∀ pa n p, rv64Size n = true → pa % n = 0 → paSpace pa = 0 → s.reach 4 pa = .at p →
        exec (.rv64MemoryAccess (.load pa n)) s = .next (s.recallLine (p / 64)))
    ∧ (∀ pa n p v, rv64Size n = true → pa % n = 0 → paSpace pa = 0 → s.backed pa = true → s.reach 4 pa = .at p → s.liveLine (p / 64) = false →
        exec (.rv64MemoryAccess (.store pa n v)) s =
          .next ((s.storeBytes 4 { home := 3 } p (leBytes n v.toNat)).direct (paDie p) 384 .l2 true (p / 64)))
    ∧ (∀ pa n v, rv64Size n = true → pa % n = 0 → paSpace pa ≠ 0 → ¬ (paSpace pa = 1 ∧ n = 8 ∧ paPkg pa = s.pkgid) →
        exec (.rv64MemoryAccess (.load pa n)) s = .next s ∧ exec (.rv64MemoryAccess (.store pa n v)) s = .next s)

/-- R199, R211, R366, R369, R373, R375, R383, R384, R410: the events of the management registers, of held faults and of errors. It
rests on choices of the model: log 35 (the RV64 cores), 36 (what a handler folio is), 55 (where a curator trap enters), 73
(the queue of external events), 75 (device space that is no register). -/
def Obligations.RegisterAndFaultEvents : Prop :=
  Sys2Proof.Claims.RegisterEvents ∧ Sys2Proof.Claims.FaultEvents

/-- R362, R401 to R411, R415, R419, R422: links, the channel, heartbeats, eviction, admission, shoot-downs, shards and failures.
It rests on choices of the model: log 24 (the first number), 26 (INVAL in no receive queue), 30 (RBASE above the memory), 60
(an eviction in one step), 63 (the width after retraining), 119 (a package that comes back). -/
def Obligations.PackageEvents : Prop :=
  ∀ (s : State),
    (∀ k, exec (.flitAcknowledged k) s = .next { s with links := s.links.mapIdx (fun i l =>
        if i = k then { l with buffer := l.buffer - 1 } else l) })
    ∧ (∀ k, ∃ bad : Nat → Nat, (∀ n, bad n = n ∨ bad n = n + 1) ∧
        exec (.flitRetry k) s = .next { s with links := s.links.mapIdx (fun i l => if i = k then
          { l with retry := min (l.retry + 1) 0xFFFFFFFF, buffer := max l.buffer 1, bad := min (bad l.bad) 255 } else l) })
    ∧ (∀ k, (∀ l ∈ s.links, s.detours l = []) → exec (.linkDetour k) s = .next s)
    ∧ (∀ (k : Nat) (l : Link), s.links = [l] → k = 0 → s.detours l ≠ [] → ∃ e ∈ s.detours l,
        exec (.linkDetour k) s = .next { s with links := [{ l with detour := some e, buffer := 0 }] })
    ∧ (∀ (uid ea : Nat) (q : Quire) (w : Wait) (lanes : Word), s.quires.find? (fun q => q.uid = uid && q.uid ≠ 0) = some q →
        q.faulted = false → q.reachWait ea = some (w, lanes) → s.farWait q.fid ea = true →
        exec (.reachTimeout uid ea) s = .next (s.trapIn uid w 0x142 (BitVec.ofNat 64 ea) lanes))
    ∧ (∀ (uid frame reg : Nat) (pc : DWord) (m : Msg) (q : Quire) (w : Wait),
        s.msgs.find? (fun m => match m.sender with | some x => x.1 = uid | none => false) = some m →
        m.sender = some (uid, pc, frame, reg) → s.quires.find? (fun q => q.uid = uid && !q.faulted) = some q →
        q.waits.find? (fun w => w.pc = pc && w.frame = frame && w.kind = .msend) = some w →
        (s.sequencerUp m.dom m.die m.body = false → exec (.sequencerTimeout uid) s = .next
          (({ s with msgs := s.msgs.filter (fun m => m.sender ≠ some (uid, pc, frame, reg)) } : State).trapIn uid w 0x142 0))
        ∧ (s.sequencerUp m.dom m.die m.body = true → exec (.sequencerTimeout uid) s = .next s))
    ∧ (∀ (k : Nat) (m : Msg), s.msgs[k]? = some m → s.headOfSender k m = true →
        let t : State := { s with msgs := s.msgs.eraseIdx k }
        (s.msgStale m = true ∨ s.msgMoot m = true → exec (.sequencerNumber k) s = .next t)
        ∧ (s.msgStale m = false → s.msgMoot m = false → s.holdsBack m.die = false → s.sequencerUp m.dom m.die m.body = true →
            s.queuesOpen = true →
            (m.dom = false → exec (.sequencerNumber k) s = .next
              (({ t with pkgSeq := t.pkgSeq + 1 } : State).numbered { m with seq := s.pkgSeq + 1 }))
            ∧ (m.dom = true → exec (.sequencerNumber k) s = .next
              (({ t with domSeq := t.domSeq + 1 } : State).numbered { m with seq := s.domSeq + 1 }))))
    ∧ (∀ src, exec (.heartbeat src) s = .next { s with misses := s.misses.filter (fun x => x.1 % 256 ≠ src) })
    ∧ (∀ observer src, (s.die observer).admitted = true → (s.die observer).failed = false → s.isMember src = true → observer ≠ src →
        Sparse.get 0 (observer * 256 + src) s.misses < 2 →
        exec (.heartbeatMiss observer src) s = .next { s with
          misses := Sparse.set 0 (observer * 256 + src) (Sparse.get 0 (observer * 256 + src) s.misses + 1) s.misses })
    ∧ (∀ target, s.msgs = [] → target ≠ 64 + s.pkgid → exec (.evict target) s = .next s)
    ∧ exec (.evict (64 + s.pkgid)) s = .next (if s.cutOff then { s with outcast := true } else s)
    ∧ (s.outcast = true → (∀ z ∈ s.dies, z.admitted = false) → exec (.admission (64 + s.pkgid)) s = .next
        (((List.range 5).filter (fun d => s.admissible d && s.passes d)).foldl State.admitDie { s with outcast := false }))
    ∧ (∀ l ∈ (s.dropDetours).links, ∀ e, l.detour = some e → e ∈ s.detours l)
    ∧ (∀ (target inc : Nat) (m : Msg), target ≠ 64 + s.pkgid → s.msgs = [m] → m.body = .evict target inc → m.dom = false → s.msgStale m = false →
        s.evictable target inc = true → s.holdsBack m.die = false → s.sequencerUp false m.die m.body = true → s.queuesOpen = true →
        let t : State := { s with msgs := [], pkgSeq := s.pkgSeq + 1 }
        let m' := { m with seq := s.pkgSeq + 1 }
        exec (.evict target) s = .next (((t.sent m').evictTarget target).deliver m'))
    ∧ (∀ d, (s.die d).admitted = false ∨ s.castOut = true → exec (.evictionDiscovered d) s = .next
        ((s.instances d).foldl (fun (t : State) i => t.modDie i (fun z => { incarn := z.incarn, rehome := z.rehome })) (s.dropDie d)))
    ∧ (∀ d e, d < s.part.dies → (s.die d).admitted = false → s.sequencer = some e → s.live e = true →
        s.sequencerUp false e (.admission d) = true → s.queuesOpen = true → (∀ x ∈ s.msgs, x.die ≠ e ∧ x.body ≠ .admission d) →
        ∃ m : Msg, m.seq = s.pkgSeq + 1 ∧ m.dom = false ∧ m.type = 0x02 ∧ m.die = e ∧ m.body = .admission d ∧ m.sender = none
          ∧ exec (.admission d) s = .next ((({ s with pkgSeq := s.pkgSeq + 1 } : State).admitDie d).deliver m))
    ∧ (∀ d e x, d < s.part.dies → (s.die d).admitted = false → s.sequencer = some e → s.live e = true →
        (∀ x ∈ s.msgs, x.body ≠ .admission d) → x ∈ s.msgs → x.die = e → x.dom = false →
        ∃ m : Msg, m.dom = false ∧ m.die = e ∧ m.body = .admission d ∧ exec (.admission d) s = .next { s with msgs := s.msgs ++ [m] })
    ∧ (∀ (d : Nat) (x : Shoot), s.shoots.find? (fun y => y.seq = x.seq) = some x → x.todo.contains d = true → (s.die d).failed = false →
        s.shoots.any (fun y => y.seq < x.seq && y.todo.contains d) = false → s.shootBlocked d x = false →
        let s0 := s.performStores (fun w => w.die = d && x.hits w)
        let t := (if x.wb then s0.shootLines d x else s0).modDie d (fun z => { z with tlb := z.tlb.filter (fun t => !x.covers t.asid t.va t.size) })
        exec (.inval d x.seq) s = .next { t with shoots := t.shoots.map (fun y =>
          if y.id = x.id then { y with todo := y.todo.filter (fun k => k ≠ d), acks := y.acks ++ [d] } else y) })
    ∧ (∀ d seq, exec (.ack d seq) s = .next (State.commitShoots { s with shoots := s.shoots.map (fun y =>
          if y.seq = seq then { y with acks := y.acks.filter (fun k => k ≠ d) } else y) }))
    ∧ (∀ (x : ShardOp), s.shards.find? (fun y => y.id = x.id) = some x → x.permit = true →
        let r := (s.shardPages x).foldl (fun (a : State × BitVec 2) l => if a.2 ≠ 0 then a else a.1.appendPage x l) (s, 0)
        exec (.ckshardCompletion x.id) s = .next
          (({ r.1 with shards := r.1.shards.filter (fun y => y.id ≠ x.id) } : State).finishTok x.quire x.tok r.2 none))
    ∧ (∀ d, d < 64 → exec (.dieFailure d) s = .next
        ((s.instances d).foldl (fun (t : State) i => t.modDie i (fun z => { z with failed := true })) s))
    ∧ exec (.dieFailure (64 + s.pkgid)) s = .next { s with dies := s.dies.map (fun z => { z with failed := true }) }
    ∧ (∀ p, p ≠ s.pkgid → exec (.dieFailure (64 + p)) s = .next { s with deadPkgs := putBit s.deadPkgs p true })

namespace Sys2Proof.Claims

/-! ## The machine -/

/-- Two lists of one length, related place by place. -/
def Pointwise {α β : Type} (R : α → β → Prop) (xs : List α) (ys : List β) : Prop :=
  xs.length = ys.length ∧ ∀ (i : Nat) (x : α) (y : β), xs[i]? = some x → ys[i]? = some y → R x y

/-- The memory is in canonical form. -/
abbrev Canonical (s : State) : Prop := Memory.wf s.mem = true

/-- Lanes of the batch and of the active fibres. -/
abbrev batchLanes (s : State) : List Nat := s.batch.map (·.lane)
/-- The active lanes. -/
abbrev activeLanes (s : State) (pr : BitVec 3) (neg : Bool) : List Nat := (s.active pr neg).map (·.lane)

/-- The trap of a word that its checks stop: no part of its effect happens, and the batch is not blocked any more. -/
abbrev Trapped (s t : State) : Prop := ∃ r : Trap, t = s.unblocked.takeTrap r

/-- A fibre has moved on, and nothing else of it has changed. -/
abbrev Stepped (f g : Fibre) : Prop := g = { f with pc := g.pc, gather := g.gather, parked := g.parked }

/-- What a word that writes the lane destination `d` of `k` registers and latch `l` leaves of a fibre: everything where it is not in the
batch; all but where it goes where it is not active; else all but the destination, that latch and, where the word raises them, the flags. -/
def FibreFrame (bat act : List Nat) (d : Name) (k : Nat) (l : Option Latch) (flags : Bool) (f g : Fibre) : Prop :=
  (¬ f.lane ∈ bat → g = f) ∧ (¬ f.lane ∈ act → Stepped f g)
  ∧ g = { f with pc := g.pc, gather := g.gather, parked := g.parked, o := g.o, lint := g.lint, lfp := g.lfp, lmem := g.lmem,
                 lsfu := g.lsfu, fflags := g.fflags }
  ∧ (∀ m, l ≠ some m → g.latch m = f.latch m)
  ∧ ((∀ r, d ≠ .o r) → g.o = f.o)
  ∧ (∀ r, d = .o r → ∃ kvs : List (Nat × Word), (∀ x ∈ kvs, r ≤ x.1 ∧ x.1 < r + k) ∧ g.o = Sparse.setAll 0 kvs f.o)
  ∧ (flags = false → g.fflags = f.fflags)

/-- What it leaves of the current frame: only the destination's registers of active lanes are written, and only their tags change. -/
def RegsFrame (act : List Nat) (d : Name) (k : Nat) (a b : Frame) : Prop :=
  b = { a with regs := b.regs, tags := b.tags }
  ∧ ((∀ r, d ≠ .v r) → b = a)
  ∧ (∀ r, d = .v r → ∃ (kvs : List (Nat × Word)) (tags : List (Nat × Tag)),
      (∀ x ∈ kvs, ∃ i < k, ∃ lane ∈ act, x.1 = (r + i) * 32 + lane) ∧ b.regs = Sparse.setAll 0 kvs a.regs
      ∧ (∀ x ∈ tags, r ≤ x.1 ∧ x.1 < r + k) ∧ b.tags = Sparse.setAll (.u 0) tags a.tags)

/-- The frame of a word that writes a lane destination: in the quire, only fibres, the current frame and the batch's own wait change. -/
def QuireFrame (s t : State) (pr : BitVec 3) (neg : Bool) (d : Name) (w : Nat) (l : Option Latch) (flags : Bool) : Prop :=
  t.q = { s.q with fibres := t.q.fibres, frames := t.q.frames, waits := t.q.waits }
  ∧ t.q.waits = s.q.waits.filter (fun x => ¬ (x.pc = s.sel.1 ∧ x.frame = s.sel.2))
  ∧ Pointwise (FibreFrame (batchLanes s) (activeLanes s pr neg) d (w / 32) l flags) s.q.fibres t.q.fibres
  ∧ Pointwise (fun a b => (a.id ≠ s.sel.2 → b = a) ∧ (a.id = s.sel.2 → RegsFrame (activeLanes s pr neg) d (w / 32) a b))
      s.q.frames t.q.frames

/-- Beside the quire only the marks of bad cells that the word has overwritten change: no byte of memory, no other quire, no folio. -/
def LaneFrame (s t : State) (pr : BitVec 3) (neg : Bool) (d : Name) (w : Nat) (l : Option Latch) (flags : Bool) : Prop :=
  t = { s with q := t.q, bad := t.bad } ∧ (∀ c ∈ t.bad, c ∈ s.bad) ∧ QuireFrame s t pr neg d w l flags

/-- The integer words of the short form that write a lane destination of 32 bits and lint. -/
noncomputable def intWordsLS (o : SF) (m2 : BitVec 2) : List Instr :=
  [.addLS o, .subLS o, .mulLS o, .divLS o, .remLS o, .minLS o, .maxLS o, .andLS o, .orLS o, .xorLS o, .andnLS o, .notLS o, .negLS o,
   .absLS o, .shlLS o, .shrLS o, .sarLS o, .rotLS o, .clzLS o, .ctzLS o, .popcLS o, .brevLS o, .bfxLS o, .movLS o, .lidLS o, .vtagLS o,
   .bcastLS o, .shflLS o m2]
/-- Of the long form, by the type's width. -/
noncomputable def intWordsLL (o : LF) : List Instr :=
  [.addLL o, .subLL o, .mulLL o, .madLL o, .divLL o, .remLL o, .minLL o, .maxLL o, .andLL o, .orLL o, .xorLL o, .andnLL o, .notLL o,
   .negLL o, .absLL o, .shlLL o, .shrLL o, .sarLL o, .rotLL o, .brevLL o, .bfxLL o, .bfiLL o, .movLL o, .selLL o, .bcastLL o,
   .shflLL o, .icvtLL o]
/-- Of the long form, with a result of 32 bits. -/
noncomputable def wordsLL32 (o : LF) : List Instr := [.clzLL o, .ctzLL o, .popcLL o, .lidLL o, .vtagLL o, .voteLL o]
/-- Of the immediate form, by the type's width. -/
noncomputable def intWordsLI (o : IF) : List Instr :=
  [.addLI o, .subLI o, .mulLI o, .divLI o, .remLI o, .minLI o, .maxLI o, .andLI o, .orLI o, .xorLI o, .andnLI o, .shlLI o, .shrLI o,
   .sarLI o, .rotLI o, .bfxLI o, .moviLI o, .icvtLI o]
/-- The floating-point words of the short form, each with its operation. -/
noncomputable def floatWordsLS (o : SF) : List (Instr × FloatOp) :=
  [(.faddLS o, .add), (.fsubLS o, .sub), (.fmulLS o, .mul), (.fdivLS o, .div), (.fsqrtLS o, .sqrt),
   (.fminLS o, .minmax .min), (.fmaxLS o, .minmax .max), (.fminnLS o, .minmax .minn), (.fmaxnLS o, .minmax .maxn), (.fabsLS o, .abs),
   (.fnegLS o, .neg), (.fcpysLS o, .cpys), (.fclassLS o, .fclass), (.frintLS o, .rint false), (.fexpiLS o, .expi), (.fexpxLS o, .expx),
   (.fexp2fLS o, .frac .exp2), (.flog2fLS o, .frac .log2), (.fsinpifLS o, .frac .sinpi), (.fcospifLS o, .frac .cospi),
   (.fseedrLS o, .seedr), (.fseedqLS o, .seedq)]
/-- Of the long form. -/
noncomputable def floatWordsLL (o : LF) : List (Instr × FloatOp) :=
  [(.faddLL o, .add), (.fsubLL o, .sub), (.fmulLL o, .mul), (.fmaLL o, .fma o.np o.nc), (.fdivLL o, .div), (.fsqrtLL o, .sqrt),
   (.fminLL o, .minmax .min), (.fmaxLL o, .minmax .max), (.fminnLL o, .minmax .minn), (.fmaxnLL o, .minmax .maxn),
   (.fminmLL o, .minmax .minm), (.fmaxmLL o, .minmax .maxm), (.fabsLL o, .abs), (.fnegLL o, .neg), (.fcpysLL o, .cpys),
   (.fclassLL o, .fclass), (.frintLL o, .rint o.xflag), (.fexpiLL o, .expi), (.fexpxLL o, .expx), (.fexp2fLL o, .frac .exp2),
   (.flog2fLL o, .frac .log2), (.fsinpifLL o, .frac .sinpi), (.fcospifLL o, .frac .cospi), (.fseedrLL o, .seedr), (.fseedqLL o, .seedq)]
/-- Of the immediate form. -/
noncomputable def floatWordsLI (o : IF) : List (Instr × FloatOp) :=
  [(.faddLI o, .add), (.fsubLI o, .sub), (.fmulLI o, .mul), (.fminLI o, .minmax .min), (.fmaxLI o, .minmax .max),
   (.fminnLI o, .minmax .minn), (.fmaxnLI o, .minmax .maxn), (.fminmLI o, .minmax .minm), (.fmaxmLI o, .minmax .maxm),
   (.fexpiLI o, .expi)]

/-- The frame of a compare: of an active fibre only predicate `pd`, and for a floating-point compare the flags. -/
def PredFrame (s t : State) (pr : BitVec 3) (neg : Bool) (pd : Nat) (flags : Bool) : Prop :=
  t = { s with q := t.q } ∧ t.q = { s.q with fibres := t.q.fibres, waits := t.q.waits }
  ∧ Pointwise (fun f g => (¬ f.lane ∈ batchLanes s → g = f) ∧ (¬ f.lane ∈ activeLanes s pr neg → Stepped f g)
      ∧ g = { f with pc := g.pc, gather := g.gather, parked := g.parked, preds := g.preds, fflags := g.fflags }
      ∧ (∀ j, j ≠ pd → g.pred j = f.pred j) ∧ (flags = false → g.fflags = f.fflags)) s.q.fibres t.q.fibres

/-- The frame of a uniform word that writes s register `d` (none for a compare) or predicate `k`, and flags where it raises them. -/
def UniformFrame (s t : State) (d : Option Nat) (k : Option Nat) (flags : Bool) : Prop :=
  t = { s with q := t.q }
  ∧ t.q = { s.q with fibres := t.q.fibres, waits := t.q.waits, s := t.q.s, k := t.q.k }
  ∧ (t.q.s = s.q.s ∨ ∃ n v, d = some n ∧ n ≠ 0 ∧ t.q.s = Sparse.set 0 n v s.q.s)
  ∧ (∀ j, k ≠ some j → t.q.kpred j = s.q.kpred j)
  ∧ Pointwise (fun f g => (¬ f.lane ∈ batchLanes s → { g with fflags := f.fflags } = f)
      ∧ Stepped { f with fflags := g.fflags } g ∧ (flags = false → g.fflags = f.fflags)) s.q.fibres t.q.fibres

/-- The uniform words that write one s register, by form, integer and floating point. -/
noncomputable def uniWordsUS (o : SF) : List Instr :=
  [.saddUS o, .ssubUS o, .smulUS o, .sdivUS o, .sremUS o, .sminUS o, .smaxUS o, .sandUS o, .sorUS o, .sxorUS o, .sandnUS o, .sshlUS o,
   .sshrUS o, .ssarUS o, .srotUS o, .sclzUS o, .sctzUS o, .spopcUS o, .sbfxUS o, .smovUS o, .sgetUS o, .rdsrUS o]
/-- The same in the long form. -/
noncomputable def uniWordsUL (o : LF) : List Instr :=
  [.saddUL o, .ssubUL o, .smulUL o, .sdivUL o, .sremUL o, .sminUL o, .smaxUL o, .sandUL o, .sorUL o, .sxorUL o, .sandnUL o, .sshlUL o,
   .sshrUL o, .ssarUL o, .srotUL o, .sclzUL o, .sctzUL o, .spopcUL o, .sbfxUL o, .smovUL o, .sgetUL o, .sselUL o]
/-- The same in the immediate form. -/
noncomputable def uniWordsUI (o : IF) : List Instr :=
  [.saddUI o, .ssubUI o, .smulUI o, .sdivUI o, .sremUI o, .sminUI o, .smaxUI o, .sandUI o, .sorUI o, .sxorUI o, .sandnUI o, .sshlUI o,
   .sshrUI o, .ssarUI o, .srotUI o, .sbfxUI o, .smoviUI o]
/-- The floating-point ones. -/
noncomputable def uniFloatsUS (o : SF) : List Instr := [.sfaddUS o, .sfsubUS o, .sfmulUS o, .sfdivUS o, .sfsqrtUS o]
/-- The same in the long form. -/
noncomputable def uniFloatsUL (o : LF) : List Instr := [.sfaddUL o, .sfsubUL o, .sfmulUL o, .sfmaUL o, .sfdivUL o, .sfsqrtUL o, .sfcvtUL o]
/-- The same in the immediate form. -/
noncomputable def uniFloatsUI (o : IF) : List Instr := [.sfaddUI o, .sfsubUI o, .sfmulUI o]

/-- Words that move the fibres of their batch and change nothing else at all: branches, and words whose effect on this machine is only to
advance. -/
def MoveFrame (s t : State) : Prop :=
  t = { s with q := t.q } ∧ t.q = { s.q with fibres := t.q.fibres, waits := t.q.waits }
  ∧ Pointwise (fun f g => (¬ f.lane ∈ batchLanes s → g = f) ∧ Stepped f g) s.q.fibres t.q.fibres

/-- `xfence`: besides the batch only what its FROM paths put in order changes: with neither the core path nor subscriptions there, no byte
and nothing on its way. -/
def FenceFrame (s t : State) (from_ : BitVec 6) : Prop :=
  t.q = { s.q with fibres := t.q.fibres, waits := t.q.waits }
  ∧ Pointwise (fun f g => (¬ f.lane ∈ batchLanes s → g = f) ∧ Stepped f g) s.q.fibres t.q.fibres
  ∧ t.rest = s.rest ∧ t.folios = s.folios
  ∧ (from_.getLsbD 0 = false → from_.getLsbD 4 = false → t = { s with q := t.q, views := t.views })

/-- The frame of a store, against the state `u` in which its release, if any, has been made and what happens before it has been
performed (R286, R293): no byte changes; what the word stores is new to the list of stores that only its quire has seen, or on its
way to another core, at the bytes of its accesses and nowhere else; the quire reads every other byte of its own stores as before;
registers, predicates, frames and the other quires stand, and without an access to a management register those do, too. -/
def StoreFrame (u t : State) (xs : List Access) (n : Nat) (flagless : Quire) : Prop :=
  t.mem = u.mem ∧ t.hist = u.hist ∧ t.lineKey = u.lineKey
  ∧ (∃ new, t.stores = u.stores ++ new ∧ ∀ w ∈ new, w.from_ = u.q.uid ∧ w.die = u.fol.die
      ∧ ∃ x ∈ xs, x.t.loc ≤ w.dest.loc ∧ w.dest.loc + w.bytes.length ≤ x.t.loc + n)
  ∧ (∃ sent, t.inbound = u.inbound ++ sent ∧ ∀ w ∈ sent, w.from_ = u.q.uid ∧ w.sub = none
      ∧ ∃ x ∈ xs, ∃ off, x.t = .scratch w.fid off ∧ off ≤ w.off ∧ w.off + w.bytes.length ≤ off + n)
  ∧ (∀ (y : Target) (i : Nat), (∀ x ∈ xs, y.loc + i < x.t.loc ∨ x.t.loc + n ≤ y.loc + i) →
      t.ownByte u.q.uid y i = u.ownByte u.q.uid y i)
  ∧ t.q = { flagless with fibres := t.q.fibres, waits := t.q.waits }
  ∧ Pointwise Stepped flagless.fibres t.q.fibres ∧ t.rest = u.rest ∧ t.folios = u.folios
  ∧ ((∀ x ∈ xs, ∀ y pa, x.t ≠ .device y pa) → ∀ d, (t.die d).mgmt = (u.die d).mgmt)

/-- The issuing quire owes no store of others (R289): nothing is still to be performed before its own next access. -/
abbrev OwesNothing (s : State) : Prop := (s.view s.q.uid).owed = []

/-- A write of n bytes at a home writes a place: it is one of its bytes there or at the replica (R410). -/
def AtHome (s : State) (pa n loc : Nat) : Prop :=
  (pa ≤ loc ∧ loc < pa + n) ∨ ∃ i < n, ∃ ra, s.replicaOf (pa + i) = some ra ∧ ra ≤ loc ∧ loc < ra + n

/-- The line of a byte, and its line at the replica, hold a place: a write at the home encrypts them anew under its own key (R359, R410). -/
def LineAtHome (s : State) (pa loc : Nat) : Prop :=
  loc / 64 = pa / 64 ∨ ∃ ra, s.replicaOf pa = some ra ∧ loc / 64 = ra / 64

/-- What a store may change when it is performed, as a key reads it (R195, R359, R390, R410): in memory, its own bytes at the home,
and, as another key reads them, the rest of the lines that it touches there; nothing where it goes into a copy away from home; in a
scratchpad its bytes, or those of the image of a saved one. -/
def Writes (s : State) (w : Store) (kid loc : Nat) : Prop :=
  match w.dest with
  | .mem a pa => ∃ p, s.reach w.die pa = .at p ∧ (s.isHome w.die p = true ∨ a.home = 1 ∨ a.home = 3)
      ∧ (AtHome s p w.bytes.length loc ∨ (kid ≠ a.kid ∧ LineAtHome s p loc))
  | .scratch fid off =>
    match s.imageScratch fid with
    | none => scratchLoc fid off ≤ loc ∧ loc < scratchLoc fid off + w.bytes.length
    | some (pa, k) => AtHome s (pa + off) w.bytes.length loc ∨ (kid ≠ k ∧ ∃ i < w.bytes.length, LineAtHome s (pa + off + i) loc)

/-- What a load leaves as it is: no byte of memory, no key of a line, no store, no other quire and no folio, and of the earlier
values only those of copies away from home, whose places begin at 2^64. -/
def Untouched (s t : State) : Prop :=
  t.mem = s.mem ∧ t.lineKey = s.lineKey ∧ t.stores = s.stores ∧ t.rest = s.rest ∧ t.folios = s.folios
  ∧ ∀ x, x.1 < 2 ^ 64 → (x ∈ t.hist ↔ x ∈ s.hist)

/-- A source that no check of names stops, read as a pair (R28, R36). -/
abbrev SourceOk (s : State) (n : Name) : Prop :=
  (Use.src n 64).illegal = false ∧ (Use.src n 64).misaligned = false ∧ (Use.src n 64).outside (8 * s.frm.size8) s.fol.nbands = false

/-- The checks of a word's destination of `w` bits (R28, R36, R64): 0x040 where its name may not be written, then 0x042 where its
group is misaligned, then 0x041 where it leaves the frame. The first comes whatever the sources are; the others come after the
checks of the sources' names. -/
def DestChecked (s : State) (i : Instr) (pr : BitVec 3) (neg : Bool) (d : Name) (w : Nat) (srcs : List Name) : Prop :=
  let traps := fun (c : Nat) => Traps i c (laneMask (s.active pr neg)) 0 s
  i.wf = true → (s.encv = 1 → ∀ n ∈ d :: srcs, nameLate n = false) →
    ((∀ r, d ≠ .v r ∧ d ≠ .o r) → d ≠ .zero → traps 0x040)
    ∧ ((∀ n ∈ srcs, SourceOk s n) → ∀ r,
        (d = .v r ∨ d = .o r → r % (w / 32) ≠ 0 → traps 0x042)
        ∧ (d = .v r → r % (w / 32) = 0 → 8 * s.frm.size8 < r + w / 32 → traps 0x041))

end Sys2Proof.Claims

/-- R5, R30, R31, R35, R36: the frame of every lane word that writes a destination: it traps with nothing written, or only its
destination in the active lanes, the destination's tags, its latch, the flags it raises and where the batch goes change. It
rests on a choice of the model: log 21 (when a bad cell is good again). -/
def Obligations.LaneFrames : Prop :=
  ∀ s t : State,
    (∀ (o : SF) (m2 : BitVec 2),
      (∀ i ∈ intWordsLS o m2, exec i s = .next t → Trapped s t ∨ LaneFrame s t o.pr o.neg (shortName o.d) 32 (some .int) false)
      ∧ (∀ x ∈ floatWordsLS o, exec x.1 s = .next t →
          Trapped s t ∨ LaneFrame s t o.pr o.neg (shortName o.d) (x.2.width .f32) (some x.2.latch) true))
    ∧ (∀ o : LF,
      (∀ i ∈ intWordsLL o, exec i s = .next t →
        Trapped s t ∨ LaneFrame s t o.pr o.neg (longName o.d) (wrOf (laneTy o.ty)) (some .int) false)
      ∧ (∀ i ∈ wordsLL32 o, exec i s = .next t → Trapped s t ∨ LaneFrame s t o.pr o.neg (longName o.d) 32 (some .int) false)
      ∧ (∀ x ∈ floatWordsLL o, exec x.1 s = .next t →
          Trapped s t ∨ LaneFrame s t o.pr o.neg (longName o.d) (x.2.width (laneFt o.ty)) (some x.2.latch) true))
    ∧ (∀ o : IF,
      (∀ i ∈ intWordsLI o, exec i s = .next t →
        Trapped s t ∨ LaneFrame s t o.pr o.neg (shortName o.d) (wrOf (laneTy o.ty)) (some .int) false)
      ∧ (∀ x ∈ floatWordsLI o, exec x.1 s = .next t →
          Trapped s t ∨ LaneFrame s t o.pr o.neg (shortName o.d) (x.2.width (laneFt o.ty)) (some x.2.latch) true))

/-- R37, R94, R117, R324, R325, R334: the frame of the uniform words that write one s register, of the compares, and of the words
that only move their batch. It rests on a choice of the model: log 8 (the axioms of memory as steps). -/
def Obligations.UniformFrames : Prop :=
  ∀ s t : State,
    (∀ o : SF,
      (∀ i ∈ uniWordsUS o, exec i s = .next t → Trapped s t ∨ UniformFrame s t (some o.d.toNat) none false)
      ∧ (∀ i ∈ uniFloatsUS o, exec i s = .next t → Trapped s t ∨ UniformFrame s t (some o.d.toNat) none true)
      ∧ (exec (.scmpUS o) s = .next t → Trapped s t ∨ UniformFrame s t none (some (o.d.toNat % 8)) false)
      ∧ (exec (.sfcmpUS o) s = .next t → Trapped s t ∨ UniformFrame s t none (some (o.d.toNat % 8)) true)
      ∧ (exec (.cmpLS o) s = .next t → Trapped s t ∨ PredFrame s t o.pr o.neg (o.d.toNat % 8) false)
      ∧ (exec (.fcmpLS o) s = .next t → Trapped s t ∨ PredFrame s t o.pr o.neg (o.d.toNat % 8) true)
      ∧ (∀ i ∈ [Instr.nopUS o, .brxLS o, .sjmpUS o, .sbrxUS o], exec i s = .next t → Trapped s t ∨ MoveFrame s t)
      ∧ (exec (.xfenceUS o) s = .next t → Trapped s t ∨ (∃ r, t = s.block (.flush 4) 4 r) ∨ FenceFrame s t o.d))
    ∧ (∀ o : LF,
      (∀ i ∈ uniWordsUL o, exec i s = .next t → Trapped s t ∨ UniformFrame s t (some o.d.toNat) none false)
      ∧ (∀ i ∈ uniFloatsUL o, exec i s = .next t → Trapped s t ∨ UniformFrame s t (some o.d.toNat) none true)
      ∧ (exec (.scmpUL o) s = .next t → Trapped s t ∨ UniformFrame s t none (some (o.d.toNat % 8)) false)
      ∧ (exec (.sfcmpUL o) s = .next t → Trapped s t ∨ UniformFrame s t none (some (o.d.toNat % 8)) true)
      ∧ (exec (.cmpLL o) s = .next t → Trapped s t ∨ PredFrame s t o.pr o.neg (o.d.toNat % 8) false)
      ∧ (exec (.fcmpLL o) s = .next t → Trapped s t ∨ PredFrame s t o.pr o.neg (o.d.toNat % 8) true)
      ∧ (exec (.brxLL o) s = .next t → Trapped s t ∨ MoveFrame s t))
    ∧ (∀ o : IF,
      (∀ i ∈ uniWordsUI o, exec i s = .next t → Trapped s t ∨ UniformFrame s t (some o.d.toNat) none false)
      ∧ (∀ i ∈ uniFloatsUI o, exec i s = .next t → Trapped s t ∨ UniformFrame s t (some o.d.toNat) none true)
      ∧ (exec (.scmpUI o) s = .next t → Trapped s t ∨ UniformFrame s t none (some (o.d.toNat % 8)) false)
      ∧ (exec (.sfcmpUI o) s = .next t → Trapped s t ∨ UniformFrame s t none (some (o.d.toNat % 8)) true)
      ∧ (exec (.cmpLI o) s = .next t → Trapped s t ∨ PredFrame s t o.pr o.neg (o.d.toNat % 8) false)
      ∧ (exec (.fcmpLI o) s = .next t → Trapped s t ∨ PredFrame s t o.pr o.neg (o.d.toNat % 8) true)
      ∧ (∀ i ∈ [Instr.braLI o, .sbrUI o], exec i s = .next t → Trapped s t ∨ MoveFrame s t))

/-- R208 to R211, R286, R410: the frame of the stores: no register changes and nothing but the stored bytes, at the addresses that
the word computes, is to be written; a store that cannot be behind its release blocks; and when a store is performed every
byte outside its own reads as before, under every key, but for the rest of the lines that it touches, which another key than
its page's reads anew. Of a quire that still owes stores of others, each access has this frame against the state in which
those to its bytes are performed. It rests on choices of the model: log 8 (the axioms of memory as steps), 69 (the opaque
encryption). -/
def Obligations.StoreFrames : Prop :=
  ∀ (s : State),
    (∀ (x : MArgs) (i : Instr) (xs : List Access),
      ((∃ o m2, i = .stLS o m2 ∧ x = lsMem o m2) ∨ (∃ o, i = .stLL o ∧ x = llMem o) ∨ (∃ o, i = .stLI o ∧ x = liMem o)) →
      Passes i (memWord 0x21 x (.src x.d (mtWidth x.mt) :: x.uses 64)) s →
      Reaches s (laneEas x s 64) (fun ea => s.memCheck s.q.fid ea (mtBytes x.mt) .write) (mtBytes x.mt) false xs →
      Behind i x.len x.ord x.scope s (s.cacheAll xs) (fun u => OwesNothing u → ∃ t, exec i s = .next t ∧ StoreFrame u t xs (mtBytes x.mt) u.q))
    ∧ (∀ (x : MArgs) (i : Instr) (xs : List Access),
      ((∃ o m2, i = .stsLS o m2 ∧ x = lsMem o m2) ∨ (∃ o, i = .stsLL o ∧ x = llMem o) ∨ (∃ o, i = .stsLI o ∧ x = liMem o)) →
      Passes i (memWord 0x23 x (.src x.d (mtWidth x.mt) :: x.uses 32)) s →
      Reaches s (laneEas x s 32) (s.offsetCheck x.rem (mtBytes x.mt)) (mtBytes x.mt) false xs → OwesNothing s →
      ∃ t, exec i s = .next t ∧ StoreFrame (s.cacheAll xs) t xs (mtBytes x.mt) s.q)
    ∧ (∀ (x : UMArgs) (i : Instr) (y : Access),
      ((∃ o m2, i = .sstUS o m2 ∧ x = usMem o m2) ∨ (∃ o, i = .sstUL o ∧ x = ulMem o) ∨ (∃ o, i = .sstUI o ∧ x = uiMem o)) →
      Passes i (memWordU 0x11 x (x.data :: x.uses)) s → s.kActive x.pr x.neg = true →
      Reaches s [(0, uniEa x s)] (fun ea => s.memCheck s.q.fid ea (umtBytes x.mt) .write) (umtBytes x.mt) false [y] →
      Behind i x.len x.ord x.scope s (s.cacheAll [y]) (fun u => OwesNothing u → ∃ t, exec i s = .next t ∧ StoreFrame u t [y] (umtBytes x.mt) u.q))
    ∧ (∀ (x : Access) (n hint v : Nat) (rel : Option Nat), (∀ y pa, x.t ≠ .device y pa) →
      let u := (((s.touchCore .l1 true (x.t.hinted hint)).owedStores (x.t.hinted hint) n).settleOwedAt (x.t.hinted hint) n)
      StoreFrame u (s.storeOne n hint x v rel) [x] n u.q)
    ∧ (∀ (w : Store) (t : State), Canonical s → Sparse.wf 0 s.lineKey = true → s.partials = [] → s.perform w = some t →
      t.q = s.q ∧ t.rest = s.rest ∧ t.folios = s.folios ∧ t.stores = s.stores
      ∧ ∀ kid loc, ¬ Writes s w kid loc → t.plain kid loc = s.plain kid loc)

/-- R208 to R210: the frame of the loads, lane and uniform, with and without acquire: with no partial, no write on its way and no
store of the quire, nor one that happens before what it does next, that is still to be performed, a load leaves every byte of memory
as it is, and of the quire only its destination, for a lane word lmem, and where the batch goes change. -/
def Obligations.LoadFrames : Prop :=
  ∀ (s t : State) (i : Instr), s.partials = [] → s.inbound = [] →
    (∀ w ∈ s.stores, w.from_ ≠ s.q.uid ∧ (s.view s.q.uid).owes w.from_ w.id = false) → exec i s = .next t →
    (∀ x : MArgs, ((∃ o m2, (i = .ldLS o m2 ∨ i = .ldsLS o m2) ∧ x = lsMem o m2) ∨ (∃ o, (i = .ldLL o ∨ i = .ldsLL o) ∧ x = llMem o)
        ∨ (∃ o, (i = .ldLI o ∨ i = .ldsLI o) ∧ x = liMem o)) →
      Trapped s t ∨ (∃ k r, t = s.block k x.len r)
      ∨ (Untouched s t ∧ QuireFrame s t x.pr x.neg x.d (mtWidth x.mt) (some .mem) false))
    ∧ (∀ x : UMArgs, ((∃ o m2, i = .sldUS o m2 ∧ x = usMem o m2) ∨ (∃ o, i = .sldUL o ∧ x = ulMem o) ∨ (∃ o, i = .sldUI o ∧ x = uiMem o)) →
      Trapped s t ∨ (∃ k r, t = s.block k x.len r)
      ∨ (Untouched s t ∧ t.q = { s.q with fibres := t.q.fibres, waits := t.q.waits, s := t.q.s }
          ∧ (∃ kvs : List (Nat × DWord), (∀ y ∈ kvs, y.1 ≠ 0 ∧ x.d ≤ y.1 ∧ y.1 < x.d + if x.mt = 6 then 2 else 1)
              ∧ t.q.s = Sparse.setAll 0 kvs s.q.s)
          ∧ Pointwise (fun f g => (¬ f.lane ∈ batchLanes s → g = f) ∧ Stepped f g) s.q.fibres t.q.fibres))

/-- R1, R211, R238: a read after a write to the same bytes gives them, and every other byte stands; the canonical form is kept; a
store on the home die is read back there under its key; and a quire reads what it has stored, whoever else has seen it (R290).
It rests on choices of the model: log 2 (the 0 that unwritten memory reads), 69 (the opaque encryption). -/
def Obligations.ReadAfterWrite : Prop :=
  ∀ s : State, Canonical s →
    (∀ (loc : Nat) (bs : List Byte),
      Canonical (s.putBytes loc bs)
      ∧ (∀ k, (h : k < bs.length) → (s.putBytes loc bs).byte (loc + k) = bs[k])
      ∧ (∀ a, (a < loc ∨ loc + bs.length ≤ a) → (s.putBytes loc bs).byte a = s.byte a))
    ∧ (∀ n v, leNat (leBytes n v) = v % 256 ^ n ∧ (leBytes n v).length = n)
    ∧ (∀ (d pa n v : Nat) (x : Attr), s.isHome d pa = true → s.partials = [] → s.replicaOf pa = none → pa % 64 + n ≤ 64 →
        let t := s.storeBytes d x pa (leBytes n v)
        Canonical t ∧ ∀ k, k < n → t.seeByte d x (pa + k) = BitVec.ofNat 8 (v / 256 ^ k))
    ∧ (∀ (t : Target) (n v lane d salt : Nat),
        ((∃ x pa, t = .mem x pa) ∨ ∃ fid off, t = .scratch fid off ∧ s.sameCore fid = true) →
        (s.storeTo t n v lane).coreRead s.q.uid d t n salt = v % 256 ^ n)

/-- R31: what a word writes to a v register of its frame is what each active lane reads there afterwards, every other lane and register of
the frame keeps its value, the tag is that of the merged values of all member lanes, and the latch holds the whole result; a trap
writes no register and no tag. -/
def Obligations.WriteDestination : Prop :=
  (∀ (s : State) (fr : Frame) (r k : Nat) (l : Latch) (rs : List (Nat × Nat)),
    s.q.frames.find? (fun x => x.id = s.sel.2) = some fr → Sparse.wf (0 : Word) fr.regs = true → Sparse.wf (Tag.u 0) fr.tags = true →
    (rs.map (·.1)).Nodup → (∀ x ∈ rs, x.1 < 32) → (∀ f ∈ s.q.fibres, f.lane < 32) →
    let t := s.writeLanes (.v r) (32 * k) (some l) rs
    (∀ x ∈ rs, ∀ i < k, t.frm.v (r + i) x.1 = BitVec.ofNat 32 (x.2 / 2 ^ (32 * i)))
    ∧ (∀ n lane, lane < 32 → (n < r ∨ r + k ≤ n ∨ ¬ lane ∈ rs.map (·.1)) → t.frm.v n lane = fr.v n lane)
    ∧ (rs ≠ [] → ∀ i < k, t.frm.tag (r + i) = tagOf ((s.q.memberLanes s.sel.2).map (fun lane => (lane, t.frm.v (r + i) lane))))
    ∧ (∀ n, (n < r ∨ r + k ≤ n) → t.frm.tag n = fr.tag n)
    ∧ (∀ f ∈ t.q.fibres, ∀ x ∈ rs, f.lane = x.1 → f.latch l = BitVec.ofNat 64 x.2))
  ∧ (∀ (s : State) (r : Trap), (s.takeTrap r).q.frames = s.q.frames)

/-- R37: s0 reads 0, k0 and p0 read true, and writes to them are discarded; the others hold what is written and no other changes; at
launch they read 0 and false; a child of `fspawn` has a copy of its parent's predicates; an s-group that does not start at a
multiple of its size raises 0x042. -/
def Obligations.HardWired : Prop :=
  (∀ (q : Quire) (v : DWord) (b : Bool), q.sreg 0 = 0 ∧ q.setS 0 v = q ∧ q.kpred 0 = true ∧ q.setK 0 b = q)
  ∧ (∀ (f : Fibre) (b : Bool), f.pred 0 = true ∧ f.setPred 0 b = f)
  ∧ (∀ (q : Quire) (n : Nat) (v : DWord), n ≠ 0 → Sparse.wf (0 : DWord) q.s = true →
      (q.setS n v).sreg n = v ∧ (∀ j, j ≠ n → (q.setS n v).sreg j = q.sreg j) ∧ Sparse.wf (0 : DWord) (q.setS n v).s = true)
  ∧ (∀ (q : Quire) (n : Nat) (b : Bool), 0 < n → n < 8 →
      (q.setK n b).kpred n = b ∧ ∀ j, j ≠ n → (q.setK n b).kpred j = q.kpred j)
  ∧ (∀ (f : Fibre) (n : Nat) (b : Bool), 0 < n → n < 8 →
      (f.setPred n b).pred n = b ∧ ∀ j, j ≠ n → (f.setPred n b).pred j = f.pred j)
  ∧ (∀ (uid fid quireid slot frame8 nfib clock : Nat) (entry : DWord) (n : Nat), n ≠ 0 →
      let q := newQuire uid fid quireid slot entry frame8 nfib clock
      q.sreg n = 0 ∧ q.kpred n = false ∧ ∀ f ∈ q.fibres, f.pred n = false)
  ∧ (∀ (q : Quire) (to_ : DWord) (f : Fibre) (c : Nat), q.fibres.find? (fun g => g.lane = f.lane) = some f → q.freeSlot = some c →
      ∃ g ∈ (spawnOne to_ q f.lane).fibres, ∃ p ∈ (spawnOne to_ q f.lane).fibres, g.lane = c ∧ p.lane = f.lane ∧ g.preds = p.preds)
  ∧ (∀ (s : State) (D : Desc) (b : Res) (n k : Nat), Use.sgroup n k ∈ D.uses → n % k ≠ 0 →
      opInVersion s.encv D.uni D.op = true → (opSupervisor D.uni D.op = true → s.super = true) → D.priv = true → D.unit = true →
      D.legal = true → (s.encv = 1 → D.uses.any Use.late = false) → D.uses.any Use.illegal = false →
      ∃ r : Trap, r.code = 0x042 ∧ r.epc = s.pc ∧ D.run s b = s.unblocked.takeTrap r)

/-- R30: the tag of some member lanes' values: U exactly when they are one value; A with a base and a stride exactly when they are
not and these are the least stride that fits and its base; G exactly when none fits. A write of some lane re-evaluates the
written register's tag and no other. It rests on a choice of the model: log 78 (a write of no lane). -/
def Obligations.TagRule : Prop :=
  (∀ vs : List (Nat × Word), vs ≠ [] → (vs.map (·.1)).Pairwise (· < ·) → (∀ x ∈ vs, x.1 < 32) →
    let fits := fun (b st : Word) => ∀ x ∈ vs, x.2 = b + st * BitVec.ofNat 32 x.1
    (∀ v, tagOf vs = .u v ↔ ∀ x ∈ vs, x.2 = v)
    ∧ (∀ b st, tagOf vs = .a b st ↔
        ¬ (∃ v, ∀ x ∈ vs, x.2 = v) ∧ fits b st ∧ ∀ b' st', fits b' st' → st.toNat ≤ st'.toNat)
    ∧ (tagOf vs = .g ↔ ¬ ∃ b st, fits b st))
  ∧ (∀ (fr : Frame) (members : List Nat) (r n : Nat) (vs : List (Nat × Word)), Sparse.wf (Tag.u 0) fr.tags = true →
      let t := fr.writeReg members r vs
      t.tag n = if n = r ∧ vs ≠ [] then tagOf (members.map (fun lane => (lane, t.v r lane))) else fr.tag n)

/-- R367 to R370, R373: a trap outside a curator leaves every register as it is; the quire is held under the lowest free entry of
its die's table, and the fault goes to a handler, with no byte changed, or to the kernel instance, whose trap queue in memory
takes its record; with no free entry the quire waits. It rests on a choice of the model: log 87 (the place of a record and its
key). -/
def Obligations.TrapHoldsQuire : Prop :=
  ∀ (s : State) (r : Trap), (∀ k, s.fol.kind ≠ .curator k) → s.fol.die < s.dies.length → s.q.fid = s.fol.fid →
    (∀ i, (s.die s.fol.die).freeEntry = some i →
      let g := Sparse.get 0 i (s.die s.fol.die).gens
      ∃ t, s.takeTrap r = t ∧ t.q = { s.q with held := some i, pend := none }
        ∧ (∃ h ∈ (t.die s.fol.die).held, h.index = i ∧ h.gen = g ∧ h.holder = .quire s.q.uid ∧ h.trap = r ∧ h.fid = s.q.fid)
        ∧ (toHandler s.fol r = true → t.mem = s.mem
            ∧ ∃ h, (t.die s.fol.die).handlers = (s.die s.fol.die).handlers ++ [h] ∧ h.index = i ∧ h.trap = r)
        ∧ (toHandler s.fol r = false → (t.die s.fol.die).pend130 = true ∧ (t.die s.fol.die).trapN = (s.die s.fol.die).trapN + 1
            ∧ (∃ h, (t.die s.fol.die).trapQ = (s.die s.fol.die).trapQ ++ [h] ∧ h.index = i ∧ h.trap = r ∧ h.kernel = true
                ∧ h.at_ = some (s.trapPlace s.fol.die (s.die s.fol.die).trapN + 64))
            ∧ (s.fol.die < 4 → Canonical s → Sparse.wf 0 s.lineKey = true → ∀ k b, (r.record (handleOf i g))[k]? = some b →
                t.plain 0 (s.trapPlace s.fol.die (s.die s.fol.die).trapN + 64 + k) = b)))
    ∧ ((s.die s.fol.die).freeEntry = none →
      ∃ t, s.takeTrap r = t ∧ t.q = { s.q with pend := some r } ∧ t.mem = s.mem ∧ t.dies = s.dies)

/-- R384: a trap in a curator sets the trap registers and IN, and the batch goes to TVEC; no byte and no other register changes. While IN is
1 no asynchronous cause is taken. `eret` sets the pc to %epc and IN to 0; it raises 0x024 in user mode, and 0x0B0 where IN is 0. -/
def Obligations.TrapEntersCurator : Prop :=
  (∀ (s : State) (k : Nat) (r : Trap), s.fol.kind = .curator k →
    ∃ t, s.takeTrap r = t ∧ t = { s with q := t.q }
      ∧ t.q = { s.q with fibres := t.q.fibres, inFlag := true, tregs := t.q.tregs }
      ∧ t.q.tregs.epc = r.epc ∧ t.q.tregs.eaddr = r.eaddr ∧ t.q.tregs.elanes = r.elanes.setWidth 64
      ∧ fieldOf t.q.tregs.cause 8 0 = r.code % 512 ∧ fieldOf t.q.tregs.cause 25 16 = r.inner % 1024
      ∧ t.q.tregs.cause.getLsbD 30 = r.sup ∧ t.q.tregs.cause.getLsbD 31 = r.eng ∧ (r.tok = none → t.q.tregs.etok = 0)
      ∧ Pointwise (fun f g => Stepped f g ∧ (f.lane ∈ batchLanes s → g.pc = s.q.tvec) ∧ (¬ f.lane ∈ batchLanes s → g = f))
          s.q.fibres t.q.fibres)
  ∧ (∀ (s : State) (d k : Nat) (q : Quire), s.curator d k = some q → q.inFlag = true → exec (.curatorTrapEntry d k) s = .next s)
  ∧ parse 0xE8000000 0 = some (.eretUS { pr := 0, neg := false, d := 0, a := 0, b := 0 })
  ∧ (∀ (s : State) (o : SF),
      (s.super = false → Traps (.eretUS o) 0x024 (laneMask s.batch) 0 s)
      ∧ Under (.eretUS o) (usWord 0x34 o []) s
        ((s.q.inFlag = false → Traps (.eretUS o) 0x0B0 (laneMask s.batch) 0 s)
          ∧ (s.q.inFlag = true → ∃ t, exec (.eretUS o) s = .next t ∧ t = { s with q := t.q }
              ∧ t.q = { s.q with fibres := t.q.fibres, inFlag := false, waits := t.q.waits }
              ∧ Pointwise (fun f g => Stepped f g ∧ (f.lane ∈ batchLanes s → g.pc = s.q.tregs.epc) ∧ (¬ f.lane ∈ batchLanes s → g = f))
                  s.q.fibres t.q.fibres)))

/-- R63, R64, R382: in user mode the supervisor words, `rdsr` and `wrsr` of a management register, and `wrsr` of a read-only
register trap with 0x024 in every member of the batch, before any other check but that of the version; in supervisor mode `wrsr` of
a read-only register is ignored, and a register below 0x800 is read in every mode. -/
def Sys2Proof.Claims.PrivilegedWords : Prop :=
  ∀ (s : State),
    (∀ o : SF, (s.super = true → sysRO o.sysnum.toNat = true → Under (.wrsrUS o) (srWord o true) s (Done (.wrsrUS o) 4 s s))
      ∧ (o.sysnum.toNat < 0x800 →
          Under (.rdsrUS o) (srWord o true) s (Done (.rdsrUS o) 4 s (s.setS o.d.toNat (s.sysReg o.sysnum.toNat)))))
    ∧ (s.super = false →
    (∀ o : SF, sysRO o.sysnum.toNat = true → Traps (.wrsrUS o) 0x024 (laneMask s.batch) 0 s)
    ∧ (∀ o : SF, ∀ i ∈ [Instr.eretUS o, .msendUS o, .mrecvUS o, .ckbeginUS o, .ckcommitUS o, .linkctlStatus o, .linkctlPause o,
        .linkctlRepair o, .linkctlRetrain o, .linkctlResume o, .tlbctlUS o],
      Traps i 0x024 (laneMask s.batch) 0 s)
    ∧ (∀ o : LF, Traps (.ckshardUL o) 0x024 (laneMask s.batch) 0 s)
    ∧ (∀ o : SF, 0x800 ≤ o.sysnum.toNat → Traps (.rdsrUS o) 0x024 (laneMask s.batch) 0 s ∧ Traps (.wrsrUS o) 0x024 (laneMask s.batch) 0 s))

/-- R28, R36, R64: an integer, movement or floating-point word of the lanes, in each of its forms, whose destination is a name that
may not be written, a misaligned group or a register outside the frame traps with 0x040, 0x042 or 0x041 in its active lanes, in this
order of precedence. -/
def Sys2Proof.Claims.DestinationChecks : Prop :=
  ∀ s : State,
    (∀ (o : SF) (m2 : BitVec 2),
      (∀ i ∈ intWordsLS o m2, DestChecked s i o.pr o.neg (shortName o.d) 32 [shortName o.a, shortName o.b])
      ∧ (∀ x ∈ floatWordsLS o, DestChecked s x.1 o.pr o.neg (shortName o.d) (x.2.width .f32) [shortName o.a, shortName o.b]))
    ∧ (∀ o : LF, let srcs := [longName o.a, longName o.b, longName o.c]
      (∀ i ∈ intWordsLL o, (i = .selLL o → o.c.toNat < 16) → DestChecked s i o.pr o.neg (longName o.d) (wrOf (laneTy o.ty)) srcs)
      ∧ (∀ i ∈ wordsLL32 o, DestChecked s i o.pr o.neg (longName o.d) 32 srcs)
      ∧ (∀ x ∈ floatWordsLL o, DestChecked s x.1 o.pr o.neg (longName o.d) (x.2.width (laneFt o.ty)) srcs))
    ∧ (∀ o : IF,
      (∀ i ∈ intWordsLI o, DestChecked s i o.pr o.neg (shortName o.d) (wrOf (laneTy o.ty)) [shortName o.a])
      ∧ (∀ x ∈ floatWordsLI o, DestChecked s x.1 o.pr o.neg (shortName o.d) (x.2.width (laneFt o.ty)) [shortName o.a]))

/-- R63, R64: the checks before a word has its effect. -/
def Obligations.WordChecks : Prop :=
  Sys2Proof.Claims.PrivilegedWords ∧ Sys2Proof.Claims.DestinationChecks

/-- R204: the checks of an access in their order; a check that fails in some lane gives the cause of the first failing lane, the lanes that
share it and its address; and a load or store with such a lane traps so, with no lane's access made. -/
def Obligations.AccessFaults : Prop :=
  (∀ (s : State) (fid n ea : Nat) (acc : Acc),
    (ea % n ≠ 0 → s.memCheck fid ea n acc = .error 0x060 ∧ s.offsetCheck false n ea = .error 0x060)
    ∧ (ea % n = 0 → 2 ^ 56 ≤ ea → s.memCheck fid ea n acc = .error 0x080)
    ∧ (ea % n = 0 → windowBase ≤ ea → ea < 2 ^ 56 → s.memCheck fid ea n acc = s.window fid ea)
    ∧ (∀ c, ea % n = 0 → ea < windowBase → c ≠ 0x142 →
        s.translate (s.folio fid).die (s.folio fid).asid (s.folio fid).super ea acc (Path.core.places (s.folio fid).core) = .error c →
        s.memCheck fid ea n acc = .error c))
  ∧ (∀ (eas : List (Nat × Nat)) (check : Nat → Except Nat Target) (c : Nat) (lanes : Word) (ea : DWord),
      checkAll eas check = .error (c, lanes, ea) ↔
        ∃ good lane a rest, eas = good ++ (lane, a) :: rest ∧ (∀ x ∈ good, ∃ t, check x.2 = .ok t) ∧ check a = .error c
          ∧ ea = BitVec.ofNat 64 a
          ∧ lanes = lanesOf ((eas.filter (fun x => match check x.2 with | .error c' => c' = c | .ok _ => false)).map (·.1)))
  ∧ (∀ (s : State) (i : Instr) (c : Nat) (lanes : Word) (ea : DWord),
      (∀ x : MArgs, ((∃ o m2, i = .ldLS o m2 ∧ x = lsMem o m2) ∨ (∃ o, i = .ldLL o ∧ x = llMem o) ∨ (∃ o, i = .ldLI o ∧ x = liMem o)) →
        Passes i (memWord 0x20 x (.dst x.d (mtWidth x.mt) :: x.uses 64)) s →
        checkAll (laneEas x s 64) (fun ea => s.memCheck s.q.fid ea (mtBytes x.mt) .read) = .error (c, lanes, ea) → Traps i c lanes ea s)
      ∧ (∀ x : MArgs, ((∃ o m2, i = .stLS o m2 ∧ x = lsMem o m2) ∨ (∃ o, i = .stLL o ∧ x = llMem o) ∨ (∃ o, i = .stLI o ∧ x = liMem o)) →
        Passes i (memWord 0x21 x (.src x.d (mtWidth x.mt) :: x.uses 64)) s →
        checkAll (laneEas x s 64) (fun ea => s.memCheck s.q.fid ea (mtBytes x.mt) .write) = .error (c, lanes, ea) → Traps i c lanes ea s)
      ∧ (∀ x : UMArgs, ((∃ o m2, i = .sldUS o m2 ∧ x = usMem o m2) ∨ (∃ o, i = .sldUL o ∧ x = ulMem o) ∨ (∃ o, i = .sldUI o ∧ x = uiMem o)) →
        Passes i (memWordU 0x10 x (x.data :: x.uses)) s → s.kActive x.pr x.neg = true →
        s.memCheck s.q.fid (uniEa x s) (umtBytes x.mt) .read = .error c → Traps i c (laneMask s.batch) (BitVec.ofNat 64 (uniEa x s)) s)
      ∧ (∀ x : UMArgs, ((∃ o m2, i = .sstUS o m2 ∧ x = usMem o m2) ∨ (∃ o, i = .sstUL o ∧ x = ulMem o) ∨ (∃ o, i = .sstUI o ∧ x = uiMem o)) →
        Passes i (memWordU 0x11 x (x.data :: x.uses)) s → s.kActive x.pr x.neg = true →
        s.memCheck s.q.fid (uniEa x s) (umtBytes x.mt) .write = .error c → Traps i c (laneMask s.batch) (BitVec.ofNat 64 (uniEa x s)) s))

/-- R48 to R62: for every instruction of the table that a program can hold, decoding its encoding gives it back, whatever word
follows a short form; the five operations of `linkctl` share one word. -/
def Obligations.DecodeEncode : Prop :=
  ∀ (i : Instr) (w0 : Word) (w1 : Option Word) (next : Word), i.wf = true → encode i = some (w0, w1) →
    parse w0 (w1.getD next) = some i.wordForm ∧ isLong w0 = w1.isSome

/-- R50 to R62: words of the spec's encoding tables and the instructions they stand for. -/
def Obligations.KnownWords : Prop :=
  parse 0x2400C108 0 = some (.fmulLS { pr := 0, neg := false, d := 3, a := 1, b := 2 })
  ∧ parse 0xE000C000 0 = some (.sysUS { pr := 0, neg := false, d := 3, a := 0, b := 0 })
  ∧ parse 0xE0004001 0 = some (.trapUS { pr := 0, neg := false, d := 1, a := 0, b := 0 })
  ∧ parse 0xC0000001 0 = some (.barUS { pr := 0, neg := false, d := 0, a := 0, b := 0 } 1)
  ∧ parse 0xC6000831 0 = some (.qpushUS { pr := 0, neg := false, d := 0, a := 8, b := 12 } 1)
  ∧ parse 0xEE014600 0 = some (.linkctlStatus { pr := 0, neg := false, d := 5, a := 6, b := 0 })

/-- R22, R48, R49, R66, R316: a step that issues a batch fetches its words, or, where the batch goes on in an instruction, takes
those that it was fetched with, and runs the instruction that they parse as, or RESERVED_WORD where they parse as none or a
long form does not lie at a multiple of 8. The quire's stamp is the clock, and behind a fetch the word's leaf is cached; what
follows every step is `after`. It rests on choices of the model: log 7 (the choice among agents), 71 (cached leaves). -/
def Obligations.StepRunsDecoded : Prop :=
  ∀ (s : State) (uid : Nat) (pc : DWord) (frame : Nat) (w0 w1 : Word),
    s.boot ≠ .tripped → s.pick = some (.issue uid pc frame) →
    let u := s.prepare uid pc frame
    let i := if pc.toNat % 8 = 4 ∧ isLong w0 = true then Instr.reservedWord w0 w1 else (parse w0 w1).getD (.reservedWord w0 w1)
    let runs := fun (v : State) =>
      (∀ t, exec i { v with word := (w0, w1) } = .next t → step s = .next t.after)
      ∧ (∀ e, exec i { v with word := (w0, w1) } = .refused e → step s = .refused e)
    u.sel = (pc, frame) ∧ u.q.stamp = u.clock
    ∧ (∀ x, u.q.kept pc frame = none → u.fetch u.q.fid pc.toNat = .words w0 w1 x →
        runs ((u.cacheTarget u.q.fid .core x).touchCore .l1 false x))
    ∧ (u.q.kept pc frame = some (w0, w1) → runs u)

/-- R1, R188, R189: the canonical form of memory is kept by every step that answers a next state, whatever happens in it. It rests
on a choice of the model: log 2 (the 0 that unwritten memory reads). -/
def Obligations.StepKeepsMemory : Prop :=
  ∀ s t : State, Canonical s → step s = .next t → Canonical t

/-- R15, R42, R407: the machine after reset: no power, no admitted die, no byte listed, every management register 0; and its
memory is in canonical form. It rests on choices of the model: log 1 (the 0 of what no rule resets), 2 (the 0 that unwritten
memory reads). -/
def Obligations.ResetState : Prop :=
  Canonical State.reset ∧ State.reset.boot = .off ∧ (∀ d, (State.reset.die d).admitted = false)
    ∧ (∀ d n, State.reset.mgmt d n = 0) ∧ (∀ loc, State.reset.byte loc = 0) ∧ State.reset.epoch = 1
    ∧ exec .powerOn State.reset = .next { State.reset with boot := .refetch 0 }
end

