-- ==== Sys2Proof/Laws/Operands.lean ====
section
/-! SUPPORT. What the shared shape of an instruction can do: one lemma for each way in which `Desc.run` ends, and what it does in
every case. -/

namespace Sys2Proof.Machine

variable {D : Desc} {s t : State}

/-- A failing decode check is the trap of R64, whatever the effect would have been. -/
theorem Desc.run_caused {c : Nat} (h : D.cause s = some c) (b : Res) :
    D.run s b = s.unblocked.takeTrap (D.trap s c (laneMask (D.fibres s))) := by
  simp [Desc.run, h]

/-- What the checks leave when they pass. -/
theorem Desc.run_clear (h : D.clear s) (b : Res) : D.run s b =
    (match b with
      | .done t => t.unblocked.advance s.batch D.len
      | .jump t => t.unblocked
      | .stop c l a => s.unblocked.takeTrap (D.trap s c l a)
      | .trap t => s.unblocked.takeTrap t
      | .wait t k => t.block k D.len (D.trap s 0 (laneMask (D.fibres s)))) := by
  obtain ⟨h1, h2, h3⟩ := h
  simp only [Desc.run, h1, if_neg h2, h3]
  cases b <;> rfl

theorem Desc.run_done (h : D.clear s) : D.run s (.done t) = t.unblocked.advance s.batch D.len := Desc.run_clear h _
theorem Desc.run_jump (h : D.clear s) : D.run s (.jump t) = t.unblocked := Desc.run_clear h _
theorem Desc.run_stop (h : D.clear s) (c : Nat) (l : Word) (a : DWord) :
    D.run s (.stop c l a) = s.unblocked.takeTrap (D.trap s c l a) := Desc.run_clear h _
theorem Desc.run_trap (h : D.clear s) (t : Trap) : D.run s (.trap t) = s.unblocked.takeTrap t := Desc.run_clear h _
theorem Desc.run_wait (h : D.clear s) (k : WaitKind) : D.run s (.wait t k) = t.block k D.len (D.trap s 0 (laneMask (D.fibres s))) :=
  Desc.run_clear h _

theorem Desc.runU_active (h : s.kActive D.pr D.neg = true) (b : Res) : D.runU s b = D.run s b := by simp [Desc.runU, h]
theorem Desc.runU_idle (h : s.kActive D.pr D.neg = false) (b : Res) : D.runU s b = D.run s (.done s) := by simp [Desc.runU, h]

theorem Desc.runU_done (h : D.clear s) :
    D.runU s (.done t) = (if s.kActive D.pr D.neg then t else s).unblocked.advance s.batch D.len := by
  cases hk : s.kActive D.pr D.neg <;> simp [Desc.runU, hk, Desc.run_done h]

theorem Desc.scalar_clear (h : D.clear s) (d v : Nat) :
    D.scalar s d v = (if s.kActive D.pr D.neg then s.setS d (BitVec.ofNat 64 v) else s).unblocked.advance s.batch D.len :=
  Desc.runU_done h

theorem Desc.lanewise_clear (h : D.clear s) (d : Name) (w : Nat) (l : Option Latch) (g : Fibre → Nat) :
    D.lanewise s d w l g =
      (s.writeLanes d w l ((s.active D.pr D.neg).map (fun f => (f.lane, g f)))).unblocked.advance s.batch D.len :=
  Desc.run_done h

/-- Everything that running a word can do: its effect completes, jumps or blocks, or the batch takes a trap in a state that
differs from `s` in its wait list alone. -/
theorem Desc.run_cases (D : Desc) (s : State) (b : Res) :
    (∃ r : Trap, D.run s b = s.unblocked.takeTrap r)
      ∨ (∃ t, b = .done t ∧ D.run s b = t.unblocked.advance s.batch D.len)
      ∨ (∃ t, b = .jump t ∧ D.run s b = t.unblocked)
      ∨ (∃ t k, b = .wait t k ∧ D.run s b = t.block k D.len (D.trap s 0 (laneMask (D.fibres s)))) := by
  by_cases h : D.clear s
  · rw [Desc.run_clear h]
    cases b with
    | done t => exact .inr (.inl ⟨t, rfl, rfl⟩)
    | jump t => exact .inr (.inr (.inl ⟨t, rfl, rfl⟩))
    | stop c l a => exact .inl ⟨_, rfl⟩
    | trap t => exact .inl ⟨_, rfl⟩
    | wait t k => exact .inr (.inr (.inr ⟨t, k, rfl, rfl⟩))
  · left
    cases hc : D.cause s with
    | some c => exact ⟨_, Desc.run_caused hc b⟩
    | none =>
      simp only [Desc.run, hc]
      split
      · exact ⟨_, rfl⟩
      · rename_i h2
        split
        · exact ⟨_, rfl⟩
        · rename_i h3
          exact absurd ⟨hc, h2, by simpa using h3⟩ h

end Sys2Proof.Machine
end

