-- ==== Sys2Proof/Laws/Access.lean ====
section
/-! SUPPORT. What an instruction with memory accesses can do: one lemma for each way in which `Desc.access` ends. -/

namespace Sys2Proof.Machine

variable {D : Desc} {s : State} {eas : List (Nat × Nat)} {check : Nat → Except Nat Target} {n : Nat} {reads : Bool}
  {effect : State → List Access → Res} {xs : List Access}

/-- A word whose decode checks fail, or a uniform word under a false predicate, makes no access. -/
theorem Desc.access_idle (h : (D.cause s).isSome = true ∨ (D.uni = true ∧ s.kActive D.pr D.neg = false)) :
    D.access s eas check n reads effect = .next (D.run s (.done s)) := by
  unfold Desc.access
  rw [if_pos]
  rcases h with h | ⟨h1, h2⟩
  · simp [h]
  · simp [h1, h2]

/-- Accesses that pass their checks and that nothing hinders: the effect runs on the state in which their leaves are cached. -/
theorem Desc.access_ok (hc : D.cause s = none) (hk : D.uni = false ∨ s.kActive D.pr D.neg = true)
    (h1 : checkAll eas check = .ok xs) (h3 : s.hindrance xs n reads = none) :
    D.access s eas check n reads effect = .next (D.run s (effect (s.cacheAll xs) xs)) := by
  unfold Desc.access
  rw [if_neg, h1]
  · dsimp only; rw [h3]
  · rcases hk with hk | hk <;> simp [hc, hk]

/-- A failing access check: the trap of R204, with nothing done. -/
theorem Desc.access_error {c : Nat} {lanes : Word} {ea : DWord} (hc : D.cause s = none) (hk : D.uni = false ∨ s.kActive D.pr D.neg = true)
    (h1 : checkAll eas check = .error (c, lanes, ea)) :
    D.access s eas check n reads effect = .next (D.run s (.stop c (if D.uni then laneMask s.batch else lanes) ea)) := by
  unfold Desc.access
  rw [if_neg, h1]
  rcases hk with hk | hk <;> simp [hc, hk]

/-- Everything that a word with accesses can do: it runs with nothing done, a stop, a wait, or its effect on
the state in which the leaves of its accesses are cached. -/
theorem Desc.access_cases (D : Desc) (s : State) (eas : List (Nat × Nat)) (check : Nat → Except Nat Target) (n : Nat) (reads : Bool)
    (effect : State → List Access → Res) :
    D.access s eas check n reads effect = .next (D.run s (.done s))
      ∨ (∃ c l a, D.access s eas check n reads effect = .next (D.run s (.stop c l a)))
      ∨ (∃ pa l, D.access s eas check n reads effect = .next (D.run s (.wait s (.reach pa l))))
      ∨ (∃ xs, checkAll eas check = .ok xs ∧ D.access s eas check n reads effect = .next (D.run s (effect (s.cacheAll xs) xs))) := by
  unfold Desc.access
  split
  · exact .inl rfl
  · split
    · exact .inr (.inl ⟨_, _, _, rfl⟩)
    · rename_i xs hx
      split
      · rename_i r hr
        unfold State.hindrance at hr
        repeat' split at hr
        all_goals cases hr
        · exact .inr (.inr (.inl ⟨_, _, rfl⟩))
        · exact .inr (.inl ⟨_, _, _, rfl⟩)
        · exact .inr (.inl ⟨_, _, _, rfl⟩)
      · exact .inr (.inr (.inr ⟨xs, hx, rfl⟩))

end Sys2Proof.Machine
end

