-- ==== Sys2Proof/Laws/Sparse.lean ====
section
/-! SUPPORT. The laws of sparse maps: read after write, and that every operation keeps the canonical form. -/

namespace Sys2Proof.Sparse

variable {β : Type}

theorem get_insert_self (d : β) (k : Nat) (v : β) (m : List (Nat × β)) : get d k (insert k v m) = v := by
  induction m with
  | nil => simp [insert, get]
  | cons h m ih =>
    obtain ⟨a, w⟩ := h
    simp only [insert]
    split
    · simp [get]
    · split
      · simp [get]
      · rename_i h1 h2; simp [get, h1, h2, ih]

theorem get_insert_ne (d : β) (k j : Nat) (v : β) (m : List (Nat × β)) (h : j ≠ k) :
    get d j (insert k v m) = get d j m := by
  induction m with
  | nil =>
    simp only [insert, get]
    split
    · omega
    · split <;> rfl
  | cons x m ih =>
    obtain ⟨a, w⟩ := x
    simp only [insert]
    split
    · rename_i h1; subst h1; simp [get, h.symm]
    · split
      · rename_i h1 h2
        by_cases hjk : j < k
        · simp [get, h.symm, hjk, show a ≠ j by omega, show j < a by omega]
        · simp [get, h.symm, hjk]
      · simp only [get]; rw [ih]

theorem wfFrom_mono [DecidableEq β] (d : β) {lo lo' : Nat} (h : lo' ≤ lo) :
    ∀ m : List (Nat × β), wfFrom d lo m = true → wfFrom d lo' m = true
  | [], _ => rfl
  | (a, v) :: m, hm => by
    simp only [wfFrom, Bool.and_eq_true, decide_eq_true_eq] at hm ⊢
    exact ⟨⟨by omega, hm.1.2⟩, hm.2⟩

theorem get_of_lt [DecidableEq β] (d : β) {lo k : Nat} (h : k < lo) :
    ∀ m : List (Nat × β), wfFrom d lo m = true → get d k m = d
  | [], _ => rfl
  | (a, v) :: m, hm => by
    simp only [wfFrom, Bool.and_eq_true, decide_eq_true_eq] at hm
    simp [get, show a ≠ k by omega, show k < a by omega]

theorem wfFrom_insert [DecidableEq β] (d : β) (k : Nat) (v : β) (hv : v ≠ d) :
    ∀ (m : List (Nat × β)) (lo : Nat), lo ≤ k → wfFrom d lo m = true → wfFrom d lo (insert k v m) = true
  | [], lo, hlo, _ => by simp [insert, wfFrom, hlo, hv]
  | (a, w) :: m, lo, hlo, hm => by
    simp only [wfFrom, Bool.and_eq_true, decide_eq_true_eq] at hm
    simp only [insert]
    split
    · rename_i h; subst h; simp [wfFrom, hlo, hv, hm.2]
    · split
      · rename_i h1 h2
        simp only [wfFrom, Bool.and_eq_true, decide_eq_true_eq]
        exact ⟨⟨hlo, hv⟩, ⟨by omega, hm.1.2⟩, hm.2⟩
      · rename_i h1 h2
        simp only [wfFrom, Bool.and_eq_true, decide_eq_true_eq]
        exact ⟨hm.1, wfFrom_insert d k v hv m (a + 1) (by omega) hm.2⟩

theorem wfFrom_erase [DecidableEq β] (d : β) (k : Nat) :
    ∀ (m : List (Nat × β)) (lo : Nat), wfFrom d lo m = true → wfFrom d lo (erase k m) = true
  | [], _, _ => rfl
  | (a, w) :: m, lo, hm => by
    simp only [wfFrom, Bool.and_eq_true, decide_eq_true_eq] at hm
    simp only [erase]
    split
    · exact wfFrom_mono d (by omega) m hm.2
    · split
      · simp [wfFrom, hm]
      · simp only [wfFrom, Bool.and_eq_true, decide_eq_true_eq]
        exact ⟨hm.1, wfFrom_erase d k m (a + 1) hm.2⟩

theorem get_erase_self [DecidableEq β] (d : β) (k : Nat) :
    ∀ (m : List (Nat × β)) (lo : Nat), wfFrom d lo m = true → get d k (erase k m) = d
  | [], _, _ => rfl
  | (a, w) :: m, lo, hm => by
    simp only [wfFrom, Bool.and_eq_true, decide_eq_true_eq] at hm
    simp only [erase]
    split
    · rename_i h; subst h; exact get_of_lt d (Nat.lt_succ_self _) m hm.2
    · split
      · rename_i h1 h2; simp [get, h1, h2]
      · rename_i h1 h2; simp [get, h1, h2, get_erase_self d k m (a + 1) hm.2]

theorem get_erase_ne [DecidableEq β] (d : β) (k j : Nat) (h : j ≠ k) :
    ∀ (m : List (Nat × β)) (lo : Nat), wfFrom d lo m = true → get d j (erase k m) = get d j m
  | [], _, _ => rfl
  | (a, w) :: m, lo, hm => by
    simp only [wfFrom, Bool.and_eq_true, decide_eq_true_eq] at hm
    simp only [erase]
    split
    · rename_i h1; subst h1
      by_cases hj : j < a
      · simp [get, h.symm, hj, get_of_lt d (show j < a + 1 by omega) m hm.2]
      · simp [get, h.symm, hj]
    · split
      · rfl
      · simp only [get]; rw [get_erase_ne d k j h m (a + 1) hm.2]

/-- Every write keeps the canonical form. -/
theorem wf_set [DecidableEq β] (d : β) (k : Nat) (v : β) (m : List (Nat × β)) (hm : wf d m = true) :
    wf d (set d k v m) = true := by
  unfold set
  split
  · exact wfFrom_erase d k m 0 hm
  · rename_i h; exact wfFrom_insert d k v h m 0 (Nat.zero_le _) hm

/-- A read after a write to the same key gives the value written. -/
theorem get_set_self [DecidableEq β] (d : β) (k : Nat) (v : β) (m : List (Nat × β)) (hm : wf d m = true) :
    get d k (set d k v m) = v := by
  unfold set
  split
  · rename_i h; rw [get_erase_self d k m 0 hm, h]
  · exact get_insert_self d k v m

/-- A write leaves every other key alone. -/
theorem get_set_ne [DecidableEq β] (d : β) (k j : Nat) (v : β) (m : List (Nat × β)) (hm : wf d m = true)
    (h : j ≠ k) : get d j (set d k v m) = get d j m := by
  unfold set
  split
  · exact get_erase_ne d k j h m 0 hm
  · exact get_insert_ne d k j v m h

theorem wf_setAll [DecidableEq β] (d : β) (kvs : List (Nat × β)) :
    ∀ m : List (Nat × β), wf d m = true → wf d (setAll d kvs m) = true := by
  induction kvs with
  | nil => intro m hm; exact hm
  | cons x xs ih => intro m hm; exact ih _ (wf_set d x.1 x.2 m hm)

/-- Writing several keys leaves a key alone that is none of them. -/
theorem get_setAll_notin [DecidableEq β] (d : β) (j : Nat) (kvs : List (Nat × β)) :
    ∀ m : List (Nat × β), wf d m = true → (∀ x ∈ kvs, j ≠ x.1) → get d j (setAll d kvs m) = get d j m := by
  induction kvs with
  | nil => intro m _ _; rfl
  | cons x xs ih =>
    intro m hm h
    have h1 := ih (set d x.1 x.2 m) (wf_set d _ _ _ hm) (fun y hy => h y (List.mem_cons_of_mem _ hy))
    rw [get_set_ne d _ _ _ _ hm (h x List.mem_cons_self)] at h1
    exact h1

end Sys2Proof.Sparse
end

