-- ==== Sys2Proof/Laws/State.lean ====
section
/-! SUPPORT. What each update of the state leaves as it was: one lemma for each operation and field. -/

namespace Sys2Proof.Machine

/-- What every step of a fold keeps, the fold keeps. -/
theorem State.foldl_keeps {α β : Type} (g : State → β) {f : State → α → State} (hf : ∀ s x, g (f s x) = g s) (xs : List α) (s : State) :
    g (xs.foldl f s) = g s := by
  induction xs generalizing s with
  | nil => rfl
  | cons x xs ih => rw [List.foldl_cons, ih, hf]

variable (s : State)


@[simp] theorem State.modDie_q (d : Nat) (f : Die → Die) : (s.modDie d f).q = s.q := rfl
@[simp] theorem State.modDie_rest (d : Nat) (f : Die → Die) : (s.modDie d f).rest = s.rest := rfl
@[simp] theorem State.modDie_sel (d : Nat) (f : Die → Die) : (s.modDie d f).sel = s.sel := rfl
@[simp] theorem State.modDie_word (d : Nat) (f : Die → Die) : (s.modDie d f).word = s.word := rfl
@[simp] theorem State.modDie_folios (d : Nat) (f : Die → Die) : (s.modDie d f).folios = s.folios := rfl
@[simp] theorem State.modDie_volumes (d : Nat) (f : Die → Die) : (s.modDie d f).volumes = s.volumes := rfl
@[simp] theorem State.modDie_colls (d : Nat) (f : Die → Die) : (s.modDie d f).colls = s.colls := rfl
@[simp] theorem State.modDie_saved (d : Nat) (f : Die → Die) : (s.modDie d f).saved = s.saved := rfl
@[simp] theorem State.modDie_remaps (d : Nat) (f : Die → Die) : (s.modDie d f).remaps = s.remaps := rfl
@[simp] theorem State.modDie_mem (d : Nat) (f : Die → Die) : (s.modDie d f).mem = s.mem := rfl
@[simp] theorem State.modDie_lineKey (d : Nat) (f : Die → Die) : (s.modDie d f).lineKey = s.lineKey := rfl
@[simp] theorem State.modDie_class_ (d : Nat) (f : Die → Die) : (s.modDie d f).class_ = s.class_ := rfl
@[simp] theorem State.modDie_shadow (d : Nat) (f : Die → Die) : (s.modDie d f).shadow = s.shadow := rfl
@[simp] theorem State.modDie_stores (d : Nat) (f : Die → Die) : (s.modDie d f).stores = s.stores := rfl
@[simp] theorem State.modDie_hist (d : Nat) (f : Die → Die) : (s.modDie d f).hist = s.hist := rfl
@[simp] theorem State.modDie_views (d : Nat) (f : Die → Die) : (s.modDie d f).views = s.views := rfl
@[simp] theorem State.modDie_backs (d : Nat) (f : Die → Die) : (s.modDie d f).backs = s.backs := rfl
@[simp] theorem State.modDie_holders (d : Nat) (f : Die → Die) : (s.modDie d f).holders = s.holders := rfl
@[simp] theorem State.modDie_bits (d : Nat) (f : Die → Die) : (s.modDie d f).bits = s.bits := rfl
@[simp] theorem State.modDie_poison (d : Nat) (f : Die → Die) : (s.modDie d f).poison = s.poison := rfl
@[simp] theorem State.modDie_bad (d : Nat) (f : Die → Die) : (s.modDie d f).bad = s.bad := rfl
@[simp] theorem State.modDie_partials (d : Nat) (f : Die → Die) : (s.modDie d f).partials = s.partials := rfl
@[simp] theorem State.modDie_counters (d : Nat) (f : Die → Die) : (s.modDie d f).counters = s.counters := rfl
@[simp] theorem State.modDie_subs (d : Nat) (f : Die → Die) : (s.modDie d f).subs = s.subs := rfl
@[simp] theorem State.modDie_subGens (d : Nat) (f : Die → Die) : (s.modDie d f).subGens = s.subGens := rfl
@[simp] theorem State.modDie_copies (d : Nat) (f : Die → Die) : (s.modDie d f).copies = s.copies := rfl
@[simp] theorem State.modDie_tiles (d : Nat) (f : Die → Die) : (s.modDie d f).tiles = s.tiles := rfl
@[simp] theorem State.modDie_inbound (d : Nat) (f : Die → Die) : (s.modDie d f).inbound = s.inbound := rfl
@[simp] theorem State.modDie_matops (d : Nat) (f : Die → Die) : (s.modDie d f).matops = s.matops := rfl
@[simp] theorem State.modDie_permits (d : Nat) (f : Die → Die) : (s.modDie d f).permits = s.permits := rfl
@[simp] theorem State.modDie_shards (d : Nat) (f : Die → Die) : (s.modDie d f).shards = s.shards := rfl
@[simp] theorem State.modDie_shoots (d : Nat) (f : Die → Die) : (s.modDie d f).shoots = s.shoots := rfl
@[simp] theorem State.modDie_msgs (d : Nat) (f : Die → Die) : (s.modDie d f).msgs = s.msgs := rfl
@[simp] theorem State.modDie_links (d : Nat) (f : Die → Die) : (s.modDie d f).links = s.links := rfl
@[simp] theorem State.modDie_keys (d : Nat) (f : Die → Die) : (s.modDie d f).keys = s.keys := rfl
@[simp] theorem State.modDie_part (d : Nat) (f : Die → Die) : (s.modDie d f).part = s.part := rfl
@[simp] theorem State.modDie_pkgid (d : Nat) (f : Die → Die) : (s.modDie d f).pkgid = s.pkgid := rfl
@[simp] theorem State.modDie_pkgs (d : Nat) (f : Die → Die) : (s.modDie d f).pkgs = s.pkgs := rfl
@[simp] theorem State.modDie_everPkgs (d : Nat) (f : Die → Die) : (s.modDie d f).everPkgs = s.everPkgs := rfl
@[simp] theorem State.modDie_deadPkgs (d : Nat) (f : Die → Die) : (s.modDie d f).deadPkgs = s.deadPkgs := rfl
@[simp] theorem State.modDie_outcast (d : Nat) (f : Die → Die) : (s.modDie d f).outcast = s.outcast := rfl
@[simp] theorem State.modDie_pkgGen (d : Nat) (f : Die → Die) : (s.modDie d f).pkgGen = s.pkgGen := rfl
@[simp] theorem State.modDie_epoch (d : Nat) (f : Die → Die) : (s.modDie d f).epoch = s.epoch := rfl
@[simp] theorem State.modDie_pkgSeq (d : Nat) (f : Die → Die) : (s.modDie d f).pkgSeq = s.pkgSeq := rfl
@[simp] theorem State.modDie_domSeq (d : Nat) (f : Die → Die) : (s.modDie d f).domSeq = s.domSeq := rfl
@[simp] theorem State.modDie_misses (d : Nat) (f : Die → Die) : (s.modDie d f).misses = s.misses := rfl
@[simp] theorem State.modDie_lqWait (d : Nat) (f : Die → Die) : (s.modDie d f).lqWait = s.lqWait := rfl
@[simp] theorem State.modDie_boot (d : Nat) (f : Die → Die) : (s.modDie d f).boot = s.boot := rfl
@[simp] theorem State.modDie_images (d : Nat) (f : Die → Die) : (s.modDie d f).images = s.images := rfl
@[simp] theorem State.modDie_minVer (d : Nat) (f : Die → Die) : (s.modDie d f).minVer = s.minVer := rfl
@[simp] theorem State.modDie_romKey (d : Nat) (f : Die → Die) : (s.modDie d f).romKey = s.romKey := rfl
@[simp] theorem State.modDie_measure (d : Nat) (f : Die → Die) : (s.modDie d f).measure = s.measure := rfl
@[simp] theorem State.modDie_hot (d : Nat) (f : Die → Die) : (s.modDie d f).hot = s.hot := rfl
@[simp] theorem State.modDie_tick (d : Nat) (f : Die → Die) : (s.modDie d f).tick = s.tick := rfl
@[simp] theorem State.modDie_clock (d : Nat) (f : Die → Die) : (s.modDie d f).clock = s.clock := rfl
@[simp] theorem State.modDie_order (d : Nat) (f : Die → Die) : (s.modDie d f).order = s.order := rfl
@[simp] theorem State.modDie_next (d : Nat) (f : Die → Die) : (s.modDie d f).next = s.next := rfl
@[simp] theorem State.modDie_inputs (d : Nat) (f : Die → Die) : (s.modDie d f).inputs = s.inputs := rfl

@[simp] theorem State.modFolio_q (i : Nat) (f : Folio → Folio) : (s.modFolio i f).q = s.q := rfl
@[simp] theorem State.modFolio_rest (i : Nat) (f : Folio → Folio) : (s.modFolio i f).rest = s.rest := rfl
@[simp] theorem State.modFolio_sel (i : Nat) (f : Folio → Folio) : (s.modFolio i f).sel = s.sel := rfl
@[simp] theorem State.modFolio_word (i : Nat) (f : Folio → Folio) : (s.modFolio i f).word = s.word := rfl
@[simp] theorem State.modFolio_volumes (i : Nat) (f : Folio → Folio) : (s.modFolio i f).volumes = s.volumes := rfl
@[simp] theorem State.modFolio_colls (i : Nat) (f : Folio → Folio) : (s.modFolio i f).colls = s.colls := rfl
@[simp] theorem State.modFolio_remaps (i : Nat) (f : Folio → Folio) : (s.modFolio i f).remaps = s.remaps := rfl
@[simp] theorem State.modFolio_dies (i : Nat) (f : Folio → Folio) : (s.modFolio i f).dies = s.dies := rfl
@[simp] theorem State.modFolio_mem (i : Nat) (f : Folio → Folio) : (s.modFolio i f).mem = s.mem := rfl
@[simp] theorem State.modFolio_lineKey (i : Nat) (f : Folio → Folio) : (s.modFolio i f).lineKey = s.lineKey := rfl
@[simp] theorem State.modFolio_class_ (i : Nat) (f : Folio → Folio) : (s.modFolio i f).class_ = s.class_ := rfl
@[simp] theorem State.modFolio_shadow (i : Nat) (f : Folio → Folio) : (s.modFolio i f).shadow = s.shadow := rfl
@[simp] theorem State.modFolio_stores (i : Nat) (f : Folio → Folio) : (s.modFolio i f).stores = s.stores := rfl
@[simp] theorem State.modFolio_hist (i : Nat) (f : Folio → Folio) : (s.modFolio i f).hist = s.hist := rfl
@[simp] theorem State.modFolio_views (i : Nat) (f : Folio → Folio) : (s.modFolio i f).views = s.views := rfl
@[simp] theorem State.modFolio_backs (i : Nat) (f : Folio → Folio) : (s.modFolio i f).backs = s.backs := rfl
@[simp] theorem State.modFolio_holders (i : Nat) (f : Folio → Folio) : (s.modFolio i f).holders = s.holders := rfl
@[simp] theorem State.modFolio_bits (i : Nat) (f : Folio → Folio) : (s.modFolio i f).bits = s.bits := rfl
@[simp] theorem State.modFolio_poison (i : Nat) (f : Folio → Folio) : (s.modFolio i f).poison = s.poison := rfl
@[simp] theorem State.modFolio_bad (i : Nat) (f : Folio → Folio) : (s.modFolio i f).bad = s.bad := rfl
@[simp] theorem State.modFolio_partials (i : Nat) (f : Folio → Folio) : (s.modFolio i f).partials = s.partials := rfl
@[simp] theorem State.modFolio_counters (i : Nat) (f : Folio → Folio) : (s.modFolio i f).counters = s.counters := rfl
@[simp] theorem State.modFolio_subs (i : Nat) (f : Folio → Folio) : (s.modFolio i f).subs = s.subs := rfl
@[simp] theorem State.modFolio_subGens (i : Nat) (f : Folio → Folio) : (s.modFolio i f).subGens = s.subGens := rfl
@[simp] theorem State.modFolio_copies (i : Nat) (f : Folio → Folio) : (s.modFolio i f).copies = s.copies := rfl
@[simp] theorem State.modFolio_tiles (i : Nat) (f : Folio → Folio) : (s.modFolio i f).tiles = s.tiles := rfl
@[simp] theorem State.modFolio_inbound (i : Nat) (f : Folio → Folio) : (s.modFolio i f).inbound = s.inbound := rfl
@[simp] theorem State.modFolio_matops (i : Nat) (f : Folio → Folio) : (s.modFolio i f).matops = s.matops := rfl
@[simp] theorem State.modFolio_permits (i : Nat) (f : Folio → Folio) : (s.modFolio i f).permits = s.permits := rfl
@[simp] theorem State.modFolio_shards (i : Nat) (f : Folio → Folio) : (s.modFolio i f).shards = s.shards := rfl
@[simp] theorem State.modFolio_shoots (i : Nat) (f : Folio → Folio) : (s.modFolio i f).shoots = s.shoots := rfl
@[simp] theorem State.modFolio_msgs (i : Nat) (f : Folio → Folio) : (s.modFolio i f).msgs = s.msgs := rfl
@[simp] theorem State.modFolio_links (i : Nat) (f : Folio → Folio) : (s.modFolio i f).links = s.links := rfl
@[simp] theorem State.modFolio_keys (i : Nat) (f : Folio → Folio) : (s.modFolio i f).keys = s.keys := rfl
@[simp] theorem State.modFolio_part (i : Nat) (f : Folio → Folio) : (s.modFolio i f).part = s.part := rfl
@[simp] theorem State.modFolio_pkgid (i : Nat) (f : Folio → Folio) : (s.modFolio i f).pkgid = s.pkgid := rfl
@[simp] theorem State.modFolio_pkgs (i : Nat) (f : Folio → Folio) : (s.modFolio i f).pkgs = s.pkgs := rfl
@[simp] theorem State.modFolio_everPkgs (i : Nat) (f : Folio → Folio) : (s.modFolio i f).everPkgs = s.everPkgs := rfl
@[simp] theorem State.modFolio_deadPkgs (i : Nat) (f : Folio → Folio) : (s.modFolio i f).deadPkgs = s.deadPkgs := rfl
@[simp] theorem State.modFolio_outcast (i : Nat) (f : Folio → Folio) : (s.modFolio i f).outcast = s.outcast := rfl
@[simp] theorem State.modFolio_pkgGen (i : Nat) (f : Folio → Folio) : (s.modFolio i f).pkgGen = s.pkgGen := rfl
@[simp] theorem State.modFolio_epoch (i : Nat) (f : Folio → Folio) : (s.modFolio i f).epoch = s.epoch := rfl
@[simp] theorem State.modFolio_pkgSeq (i : Nat) (f : Folio → Folio) : (s.modFolio i f).pkgSeq = s.pkgSeq := rfl
@[simp] theorem State.modFolio_domSeq (i : Nat) (f : Folio → Folio) : (s.modFolio i f).domSeq = s.domSeq := rfl
@[simp] theorem State.modFolio_misses (i : Nat) (f : Folio → Folio) : (s.modFolio i f).misses = s.misses := rfl
@[simp] theorem State.modFolio_lqWait (i : Nat) (f : Folio → Folio) : (s.modFolio i f).lqWait = s.lqWait := rfl
@[simp] theorem State.modFolio_boot (i : Nat) (f : Folio → Folio) : (s.modFolio i f).boot = s.boot := rfl
@[simp] theorem State.modFolio_images (i : Nat) (f : Folio → Folio) : (s.modFolio i f).images = s.images := rfl
@[simp] theorem State.modFolio_minVer (i : Nat) (f : Folio → Folio) : (s.modFolio i f).minVer = s.minVer := rfl
@[simp] theorem State.modFolio_romKey (i : Nat) (f : Folio → Folio) : (s.modFolio i f).romKey = s.romKey := rfl
@[simp] theorem State.modFolio_measure (i : Nat) (f : Folio → Folio) : (s.modFolio i f).measure = s.measure := rfl
@[simp] theorem State.modFolio_hot (i : Nat) (f : Folio → Folio) : (s.modFolio i f).hot = s.hot := rfl
@[simp] theorem State.modFolio_tick (i : Nat) (f : Folio → Folio) : (s.modFolio i f).tick = s.tick := rfl
@[simp] theorem State.modFolio_clock (i : Nat) (f : Folio → Folio) : (s.modFolio i f).clock = s.clock := rfl
@[simp] theorem State.modFolio_order (i : Nat) (f : Folio → Folio) : (s.modFolio i f).order = s.order := rfl
@[simp] theorem State.modFolio_next (i : Nat) (f : Folio → Folio) : (s.modFolio i f).next = s.next := rfl
@[simp] theorem State.modFolio_inputs (i : Nat) (f : Folio → Folio) : (s.modFolio i f).inputs = s.inputs := rfl

@[simp] theorem State.modVolume_q (i : Nat) (f : Volume → Volume) : (s.modVolume i f).q = s.q := rfl
@[simp] theorem State.modVolume_rest (i : Nat) (f : Volume → Volume) : (s.modVolume i f).rest = s.rest := rfl
@[simp] theorem State.modVolume_sel (i : Nat) (f : Volume → Volume) : (s.modVolume i f).sel = s.sel := rfl
@[simp] theorem State.modVolume_word (i : Nat) (f : Volume → Volume) : (s.modVolume i f).word = s.word := rfl
@[simp] theorem State.modVolume_folios (i : Nat) (f : Volume → Volume) : (s.modVolume i f).folios = s.folios := rfl
@[simp] theorem State.modVolume_colls (i : Nat) (f : Volume → Volume) : (s.modVolume i f).colls = s.colls := rfl
@[simp] theorem State.modVolume_saved (i : Nat) (f : Volume → Volume) : (s.modVolume i f).saved = s.saved := rfl
@[simp] theorem State.modVolume_remaps (i : Nat) (f : Volume → Volume) : (s.modVolume i f).remaps = s.remaps := rfl
@[simp] theorem State.modVolume_dies (i : Nat) (f : Volume → Volume) : (s.modVolume i f).dies = s.dies := rfl
@[simp] theorem State.modVolume_mem (i : Nat) (f : Volume → Volume) : (s.modVolume i f).mem = s.mem := rfl
@[simp] theorem State.modVolume_lineKey (i : Nat) (f : Volume → Volume) : (s.modVolume i f).lineKey = s.lineKey := rfl
@[simp] theorem State.modVolume_class_ (i : Nat) (f : Volume → Volume) : (s.modVolume i f).class_ = s.class_ := rfl
@[simp] theorem State.modVolume_shadow (i : Nat) (f : Volume → Volume) : (s.modVolume i f).shadow = s.shadow := rfl
@[simp] theorem State.modVolume_stores (i : Nat) (f : Volume → Volume) : (s.modVolume i f).stores = s.stores := rfl
@[simp] theorem State.modVolume_hist (i : Nat) (f : Volume → Volume) : (s.modVolume i f).hist = s.hist := rfl
@[simp] theorem State.modVolume_views (i : Nat) (f : Volume → Volume) : (s.modVolume i f).views = s.views := rfl
@[simp] theorem State.modVolume_backs (i : Nat) (f : Volume → Volume) : (s.modVolume i f).backs = s.backs := rfl
@[simp] theorem State.modVolume_holders (i : Nat) (f : Volume → Volume) : (s.modVolume i f).holders = s.holders := rfl
@[simp] theorem State.modVolume_bits (i : Nat) (f : Volume → Volume) : (s.modVolume i f).bits = s.bits := rfl
@[simp] theorem State.modVolume_poison (i : Nat) (f : Volume → Volume) : (s.modVolume i f).poison = s.poison := rfl
@[simp] theorem State.modVolume_bad (i : Nat) (f : Volume → Volume) : (s.modVolume i f).bad = s.bad := rfl
@[simp] theorem State.modVolume_partials (i : Nat) (f : Volume → Volume) : (s.modVolume i f).partials = s.partials := rfl
@[simp] theorem State.modVolume_counters (i : Nat) (f : Volume → Volume) : (s.modVolume i f).counters = s.counters := rfl
@[simp] theorem State.modVolume_subs (i : Nat) (f : Volume → Volume) : (s.modVolume i f).subs = s.subs := rfl
@[simp] theorem State.modVolume_subGens (i : Nat) (f : Volume → Volume) : (s.modVolume i f).subGens = s.subGens := rfl
@[simp] theorem State.modVolume_copies (i : Nat) (f : Volume → Volume) : (s.modVolume i f).copies = s.copies := rfl
@[simp] theorem State.modVolume_tiles (i : Nat) (f : Volume → Volume) : (s.modVolume i f).tiles = s.tiles := rfl
@[simp] theorem State.modVolume_inbound (i : Nat) (f : Volume → Volume) : (s.modVolume i f).inbound = s.inbound := rfl
@[simp] theorem State.modVolume_matops (i : Nat) (f : Volume → Volume) : (s.modVolume i f).matops = s.matops := rfl
@[simp] theorem State.modVolume_permits (i : Nat) (f : Volume → Volume) : (s.modVolume i f).permits = s.permits := rfl
@[simp] theorem State.modVolume_shards (i : Nat) (f : Volume → Volume) : (s.modVolume i f).shards = s.shards := rfl
@[simp] theorem State.modVolume_shoots (i : Nat) (f : Volume → Volume) : (s.modVolume i f).shoots = s.shoots := rfl
@[simp] theorem State.modVolume_msgs (i : Nat) (f : Volume → Volume) : (s.modVolume i f).msgs = s.msgs := rfl
@[simp] theorem State.modVolume_links (i : Nat) (f : Volume → Volume) : (s.modVolume i f).links = s.links := rfl
@[simp] theorem State.modVolume_keys (i : Nat) (f : Volume → Volume) : (s.modVolume i f).keys = s.keys := rfl
@[simp] theorem State.modVolume_part (i : Nat) (f : Volume → Volume) : (s.modVolume i f).part = s.part := rfl
@[simp] theorem State.modVolume_pkgid (i : Nat) (f : Volume → Volume) : (s.modVolume i f).pkgid = s.pkgid := rfl
@[simp] theorem State.modVolume_pkgs (i : Nat) (f : Volume → Volume) : (s.modVolume i f).pkgs = s.pkgs := rfl
@[simp] theorem State.modVolume_everPkgs (i : Nat) (f : Volume → Volume) : (s.modVolume i f).everPkgs = s.everPkgs := rfl
@[simp] theorem State.modVolume_deadPkgs (i : Nat) (f : Volume → Volume) : (s.modVolume i f).deadPkgs = s.deadPkgs := rfl
@[simp] theorem State.modVolume_outcast (i : Nat) (f : Volume → Volume) : (s.modVolume i f).outcast = s.outcast := rfl
@[simp] theorem State.modVolume_pkgGen (i : Nat) (f : Volume → Volume) : (s.modVolume i f).pkgGen = s.pkgGen := rfl
@[simp] theorem State.modVolume_epoch (i : Nat) (f : Volume → Volume) : (s.modVolume i f).epoch = s.epoch := rfl
@[simp] theorem State.modVolume_pkgSeq (i : Nat) (f : Volume → Volume) : (s.modVolume i f).pkgSeq = s.pkgSeq := rfl
@[simp] theorem State.modVolume_domSeq (i : Nat) (f : Volume → Volume) : (s.modVolume i f).domSeq = s.domSeq := rfl
@[simp] theorem State.modVolume_misses (i : Nat) (f : Volume → Volume) : (s.modVolume i f).misses = s.misses := rfl
@[simp] theorem State.modVolume_lqWait (i : Nat) (f : Volume → Volume) : (s.modVolume i f).lqWait = s.lqWait := rfl
@[simp] theorem State.modVolume_boot (i : Nat) (f : Volume → Volume) : (s.modVolume i f).boot = s.boot := rfl
@[simp] theorem State.modVolume_images (i : Nat) (f : Volume → Volume) : (s.modVolume i f).images = s.images := rfl
@[simp] theorem State.modVolume_minVer (i : Nat) (f : Volume → Volume) : (s.modVolume i f).minVer = s.minVer := rfl
@[simp] theorem State.modVolume_romKey (i : Nat) (f : Volume → Volume) : (s.modVolume i f).romKey = s.romKey := rfl
@[simp] theorem State.modVolume_measure (i : Nat) (f : Volume → Volume) : (s.modVolume i f).measure = s.measure := rfl
@[simp] theorem State.modVolume_hot (i : Nat) (f : Volume → Volume) : (s.modVolume i f).hot = s.hot := rfl
@[simp] theorem State.modVolume_tick (i : Nat) (f : Volume → Volume) : (s.modVolume i f).tick = s.tick := rfl
@[simp] theorem State.modVolume_clock (i : Nat) (f : Volume → Volume) : (s.modVolume i f).clock = s.clock := rfl
@[simp] theorem State.modVolume_order (i : Nat) (f : Volume → Volume) : (s.modVolume i f).order = s.order := rfl
@[simp] theorem State.modVolume_next (i : Nat) (f : Volume → Volume) : (s.modVolume i f).next = s.next := rfl
@[simp] theorem State.modVolume_inputs (i : Nat) (f : Volume → Volume) : (s.modVolume i f).inputs = s.inputs := rfl

@[simp] theorem State.modQuire_sel (i : Nat) (f : Quire → Quire) : (s.modQuire i f).sel = s.sel := rfl
@[simp] theorem State.modQuire_word (i : Nat) (f : Quire → Quire) : (s.modQuire i f).word = s.word := rfl
@[simp] theorem State.modQuire_folios (i : Nat) (f : Quire → Quire) : (s.modQuire i f).folios = s.folios := rfl
@[simp] theorem State.modQuire_volumes (i : Nat) (f : Quire → Quire) : (s.modQuire i f).volumes = s.volumes := rfl
@[simp] theorem State.modQuire_colls (i : Nat) (f : Quire → Quire) : (s.modQuire i f).colls = s.colls := rfl
@[simp] theorem State.modQuire_remaps (i : Nat) (f : Quire → Quire) : (s.modQuire i f).remaps = s.remaps := rfl
@[simp] theorem State.modQuire_dies (i : Nat) (f : Quire → Quire) : (s.modQuire i f).dies = s.dies := rfl
@[simp] theorem State.modQuire_mem (i : Nat) (f : Quire → Quire) : (s.modQuire i f).mem = s.mem := rfl
@[simp] theorem State.modQuire_lineKey (i : Nat) (f : Quire → Quire) : (s.modQuire i f).lineKey = s.lineKey := rfl
@[simp] theorem State.modQuire_class_ (i : Nat) (f : Quire → Quire) : (s.modQuire i f).class_ = s.class_ := rfl
@[simp] theorem State.modQuire_shadow (i : Nat) (f : Quire → Quire) : (s.modQuire i f).shadow = s.shadow := rfl
@[simp] theorem State.modQuire_stores (i : Nat) (f : Quire → Quire) : (s.modQuire i f).stores = s.stores := rfl
@[simp] theorem State.modQuire_hist (i : Nat) (f : Quire → Quire) : (s.modQuire i f).hist = s.hist := rfl
@[simp] theorem State.modQuire_views (i : Nat) (f : Quire → Quire) : (s.modQuire i f).views = s.views := rfl
@[simp] theorem State.modQuire_backs (i : Nat) (f : Quire → Quire) : (s.modQuire i f).backs = s.backs := rfl
@[simp] theorem State.modQuire_holders (i : Nat) (f : Quire → Quire) : (s.modQuire i f).holders = s.holders := rfl
@[simp] theorem State.modQuire_bits (i : Nat) (f : Quire → Quire) : (s.modQuire i f).bits = s.bits := rfl
@[simp] theorem State.modQuire_poison (i : Nat) (f : Quire → Quire) : (s.modQuire i f).poison = s.poison := rfl
@[simp] theorem State.modQuire_bad (i : Nat) (f : Quire → Quire) : (s.modQuire i f).bad = s.bad := rfl
@[simp] theorem State.modQuire_partials (i : Nat) (f : Quire → Quire) : (s.modQuire i f).partials = s.partials := rfl
@[simp] theorem State.modQuire_counters (i : Nat) (f : Quire → Quire) : (s.modQuire i f).counters = s.counters := rfl
@[simp] theorem State.modQuire_subs (i : Nat) (f : Quire → Quire) : (s.modQuire i f).subs = s.subs := rfl
@[simp] theorem State.modQuire_subGens (i : Nat) (f : Quire → Quire) : (s.modQuire i f).subGens = s.subGens := rfl
@[simp] theorem State.modQuire_copies (i : Nat) (f : Quire → Quire) : (s.modQuire i f).copies = s.copies := rfl
@[simp] theorem State.modQuire_tiles (i : Nat) (f : Quire → Quire) : (s.modQuire i f).tiles = s.tiles := rfl
@[simp] theorem State.modQuire_inbound (i : Nat) (f : Quire → Quire) : (s.modQuire i f).inbound = s.inbound := rfl
@[simp] theorem State.modQuire_matops (i : Nat) (f : Quire → Quire) : (s.modQuire i f).matops = s.matops := rfl
@[simp] theorem State.modQuire_permits (i : Nat) (f : Quire → Quire) : (s.modQuire i f).permits = s.permits := rfl
@[simp] theorem State.modQuire_shards (i : Nat) (f : Quire → Quire) : (s.modQuire i f).shards = s.shards := rfl
@[simp] theorem State.modQuire_shoots (i : Nat) (f : Quire → Quire) : (s.modQuire i f).shoots = s.shoots := rfl
@[simp] theorem State.modQuire_msgs (i : Nat) (f : Quire → Quire) : (s.modQuire i f).msgs = s.msgs := rfl
@[simp] theorem State.modQuire_links (i : Nat) (f : Quire → Quire) : (s.modQuire i f).links = s.links := rfl
@[simp] theorem State.modQuire_keys (i : Nat) (f : Quire → Quire) : (s.modQuire i f).keys = s.keys := rfl
@[simp] theorem State.modQuire_part (i : Nat) (f : Quire → Quire) : (s.modQuire i f).part = s.part := rfl
@[simp] theorem State.modQuire_pkgid (i : Nat) (f : Quire → Quire) : (s.modQuire i f).pkgid = s.pkgid := rfl
@[simp] theorem State.modQuire_pkgs (i : Nat) (f : Quire → Quire) : (s.modQuire i f).pkgs = s.pkgs := rfl
@[simp] theorem State.modQuire_everPkgs (i : Nat) (f : Quire → Quire) : (s.modQuire i f).everPkgs = s.everPkgs := rfl
@[simp] theorem State.modQuire_deadPkgs (i : Nat) (f : Quire → Quire) : (s.modQuire i f).deadPkgs = s.deadPkgs := rfl
@[simp] theorem State.modQuire_outcast (i : Nat) (f : Quire → Quire) : (s.modQuire i f).outcast = s.outcast := rfl
@[simp] theorem State.modQuire_pkgGen (i : Nat) (f : Quire → Quire) : (s.modQuire i f).pkgGen = s.pkgGen := rfl
@[simp] theorem State.modQuire_epoch (i : Nat) (f : Quire → Quire) : (s.modQuire i f).epoch = s.epoch := rfl
@[simp] theorem State.modQuire_pkgSeq (i : Nat) (f : Quire → Quire) : (s.modQuire i f).pkgSeq = s.pkgSeq := rfl
@[simp] theorem State.modQuire_domSeq (i : Nat) (f : Quire → Quire) : (s.modQuire i f).domSeq = s.domSeq := rfl
@[simp] theorem State.modQuire_misses (i : Nat) (f : Quire → Quire) : (s.modQuire i f).misses = s.misses := rfl
@[simp] theorem State.modQuire_lqWait (i : Nat) (f : Quire → Quire) : (s.modQuire i f).lqWait = s.lqWait := rfl
@[simp] theorem State.modQuire_boot (i : Nat) (f : Quire → Quire) : (s.modQuire i f).boot = s.boot := rfl
@[simp] theorem State.modQuire_images (i : Nat) (f : Quire → Quire) : (s.modQuire i f).images = s.images := rfl
@[simp] theorem State.modQuire_minVer (i : Nat) (f : Quire → Quire) : (s.modQuire i f).minVer = s.minVer := rfl
@[simp] theorem State.modQuire_romKey (i : Nat) (f : Quire → Quire) : (s.modQuire i f).romKey = s.romKey := rfl
@[simp] theorem State.modQuire_measure (i : Nat) (f : Quire → Quire) : (s.modQuire i f).measure = s.measure := rfl
@[simp] theorem State.modQuire_hot (i : Nat) (f : Quire → Quire) : (s.modQuire i f).hot = s.hot := rfl
@[simp] theorem State.modQuire_tick (i : Nat) (f : Quire → Quire) : (s.modQuire i f).tick = s.tick := rfl
@[simp] theorem State.modQuire_clock (i : Nat) (f : Quire → Quire) : (s.modQuire i f).clock = s.clock := rfl
@[simp] theorem State.modQuire_order (i : Nat) (f : Quire → Quire) : (s.modQuire i f).order = s.order := rfl
@[simp] theorem State.modQuire_next (i : Nat) (f : Quire → Quire) : (s.modQuire i f).next = s.next := rfl
@[simp] theorem State.modQuire_inputs (i : Nat) (f : Quire → Quire) : (s.modQuire i f).inputs = s.inputs := rfl

@[simp] theorem State.setS_rest (n : Nat) (v : DWord) : (s.setS n v).rest = s.rest := rfl
@[simp] theorem State.setS_sel (n : Nat) (v : DWord) : (s.setS n v).sel = s.sel := rfl
@[simp] theorem State.setS_word (n : Nat) (v : DWord) : (s.setS n v).word = s.word := rfl
@[simp] theorem State.setS_folios (n : Nat) (v : DWord) : (s.setS n v).folios = s.folios := rfl
@[simp] theorem State.setS_volumes (n : Nat) (v : DWord) : (s.setS n v).volumes = s.volumes := rfl
@[simp] theorem State.setS_colls (n : Nat) (v : DWord) : (s.setS n v).colls = s.colls := rfl
@[simp] theorem State.setS_saved (n : Nat) (v : DWord) : (s.setS n v).saved = s.saved := rfl
@[simp] theorem State.setS_remaps (n : Nat) (v : DWord) : (s.setS n v).remaps = s.remaps := rfl
@[simp] theorem State.setS_dies (n : Nat) (v : DWord) : (s.setS n v).dies = s.dies := rfl
@[simp] theorem State.setS_mem (n : Nat) (v : DWord) : (s.setS n v).mem = s.mem := rfl
@[simp] theorem State.setS_lineKey (n : Nat) (v : DWord) : (s.setS n v).lineKey = s.lineKey := rfl
@[simp] theorem State.setS_class_ (n : Nat) (v : DWord) : (s.setS n v).class_ = s.class_ := rfl
@[simp] theorem State.setS_shadow (n : Nat) (v : DWord) : (s.setS n v).shadow = s.shadow := rfl
@[simp] theorem State.setS_stores (n : Nat) (v : DWord) : (s.setS n v).stores = s.stores := rfl
@[simp] theorem State.setS_hist (n : Nat) (v : DWord) : (s.setS n v).hist = s.hist := rfl
@[simp] theorem State.setS_views (n : Nat) (v : DWord) : (s.setS n v).views = s.views := rfl
@[simp] theorem State.setS_backs (n : Nat) (v : DWord) : (s.setS n v).backs = s.backs := rfl
@[simp] theorem State.setS_holders (n : Nat) (v : DWord) : (s.setS n v).holders = s.holders := rfl
@[simp] theorem State.setS_bits (n : Nat) (v : DWord) : (s.setS n v).bits = s.bits := rfl
@[simp] theorem State.setS_poison (n : Nat) (v : DWord) : (s.setS n v).poison = s.poison := rfl
@[simp] theorem State.setS_bad (n : Nat) (v : DWord) : (s.setS n v).bad = s.bad := rfl
@[simp] theorem State.setS_partials (n : Nat) (v : DWord) : (s.setS n v).partials = s.partials := rfl
@[simp] theorem State.setS_counters (n : Nat) (v : DWord) : (s.setS n v).counters = s.counters := rfl
@[simp] theorem State.setS_subs (n : Nat) (v : DWord) : (s.setS n v).subs = s.subs := rfl
@[simp] theorem State.setS_subGens (n : Nat) (v : DWord) : (s.setS n v).subGens = s.subGens := rfl
@[simp] theorem State.setS_copies (n : Nat) (v : DWord) : (s.setS n v).copies = s.copies := rfl
@[simp] theorem State.setS_tiles (n : Nat) (v : DWord) : (s.setS n v).tiles = s.tiles := rfl
@[simp] theorem State.setS_inbound (n : Nat) (v : DWord) : (s.setS n v).inbound = s.inbound := rfl
@[simp] theorem State.setS_matops (n : Nat) (v : DWord) : (s.setS n v).matops = s.matops := rfl
@[simp] theorem State.setS_permits (n : Nat) (v : DWord) : (s.setS n v).permits = s.permits := rfl
@[simp] theorem State.setS_shards (n : Nat) (v : DWord) : (s.setS n v).shards = s.shards := rfl
@[simp] theorem State.setS_shoots (n : Nat) (v : DWord) : (s.setS n v).shoots = s.shoots := rfl
@[simp] theorem State.setS_msgs (n : Nat) (v : DWord) : (s.setS n v).msgs = s.msgs := rfl
@[simp] theorem State.setS_links (n : Nat) (v : DWord) : (s.setS n v).links = s.links := rfl
@[simp] theorem State.setS_keys (n : Nat) (v : DWord) : (s.setS n v).keys = s.keys := rfl
@[simp] theorem State.setS_part (n : Nat) (v : DWord) : (s.setS n v).part = s.part := rfl
@[simp] theorem State.setS_pkgid (n : Nat) (v : DWord) : (s.setS n v).pkgid = s.pkgid := rfl
@[simp] theorem State.setS_pkgs (n : Nat) (v : DWord) : (s.setS n v).pkgs = s.pkgs := rfl
@[simp] theorem State.setS_everPkgs (n : Nat) (v : DWord) : (s.setS n v).everPkgs = s.everPkgs := rfl
@[simp] theorem State.setS_deadPkgs (n : Nat) (v : DWord) : (s.setS n v).deadPkgs = s.deadPkgs := rfl
@[simp] theorem State.setS_outcast (n : Nat) (v : DWord) : (s.setS n v).outcast = s.outcast := rfl
@[simp] theorem State.setS_pkgGen (n : Nat) (v : DWord) : (s.setS n v).pkgGen = s.pkgGen := rfl
@[simp] theorem State.setS_epoch (n : Nat) (v : DWord) : (s.setS n v).epoch = s.epoch := rfl
@[simp] theorem State.setS_pkgSeq (n : Nat) (v : DWord) : (s.setS n v).pkgSeq = s.pkgSeq := rfl
@[simp] theorem State.setS_domSeq (n : Nat) (v : DWord) : (s.setS n v).domSeq = s.domSeq := rfl
@[simp] theorem State.setS_misses (n : Nat) (v : DWord) : (s.setS n v).misses = s.misses := rfl
@[simp] theorem State.setS_lqWait (n : Nat) (v : DWord) : (s.setS n v).lqWait = s.lqWait := rfl
@[simp] theorem State.setS_boot (n : Nat) (v : DWord) : (s.setS n v).boot = s.boot := rfl
@[simp] theorem State.setS_images (n : Nat) (v : DWord) : (s.setS n v).images = s.images := rfl
@[simp] theorem State.setS_minVer (n : Nat) (v : DWord) : (s.setS n v).minVer = s.minVer := rfl
@[simp] theorem State.setS_romKey (n : Nat) (v : DWord) : (s.setS n v).romKey = s.romKey := rfl
@[simp] theorem State.setS_measure (n : Nat) (v : DWord) : (s.setS n v).measure = s.measure := rfl
@[simp] theorem State.setS_hot (n : Nat) (v : DWord) : (s.setS n v).hot = s.hot := rfl
@[simp] theorem State.setS_tick (n : Nat) (v : DWord) : (s.setS n v).tick = s.tick := rfl
@[simp] theorem State.setS_clock (n : Nat) (v : DWord) : (s.setS n v).clock = s.clock := rfl
@[simp] theorem State.setS_order (n : Nat) (v : DWord) : (s.setS n v).order = s.order := rfl
@[simp] theorem State.setS_next (n : Nat) (v : DWord) : (s.setS n v).next = s.next := rfl
@[simp] theorem State.setS_inputs (n : Nat) (v : DWord) : (s.setS n v).inputs = s.inputs := rfl

@[simp] theorem State.setK_rest (n : Nat) (b : Bool) : (s.setK n b).rest = s.rest := rfl
@[simp] theorem State.setK_sel (n : Nat) (b : Bool) : (s.setK n b).sel = s.sel := rfl
@[simp] theorem State.setK_word (n : Nat) (b : Bool) : (s.setK n b).word = s.word := rfl
@[simp] theorem State.setK_folios (n : Nat) (b : Bool) : (s.setK n b).folios = s.folios := rfl
@[simp] theorem State.setK_volumes (n : Nat) (b : Bool) : (s.setK n b).volumes = s.volumes := rfl
@[simp] theorem State.setK_colls (n : Nat) (b : Bool) : (s.setK n b).colls = s.colls := rfl
@[simp] theorem State.setK_saved (n : Nat) (b : Bool) : (s.setK n b).saved = s.saved := rfl
@[simp] theorem State.setK_remaps (n : Nat) (b : Bool) : (s.setK n b).remaps = s.remaps := rfl
@[simp] theorem State.setK_dies (n : Nat) (b : Bool) : (s.setK n b).dies = s.dies := rfl
@[simp] theorem State.setK_mem (n : Nat) (b : Bool) : (s.setK n b).mem = s.mem := rfl
@[simp] theorem State.setK_lineKey (n : Nat) (b : Bool) : (s.setK n b).lineKey = s.lineKey := rfl
@[simp] theorem State.setK_class_ (n : Nat) (b : Bool) : (s.setK n b).class_ = s.class_ := rfl
@[simp] theorem State.setK_shadow (n : Nat) (b : Bool) : (s.setK n b).shadow = s.shadow := rfl
@[simp] theorem State.setK_stores (n : Nat) (b : Bool) : (s.setK n b).stores = s.stores := rfl
@[simp] theorem State.setK_hist (n : Nat) (b : Bool) : (s.setK n b).hist = s.hist := rfl
@[simp] theorem State.setK_views (n : Nat) (b : Bool) : (s.setK n b).views = s.views := rfl
@[simp] theorem State.setK_backs (n : Nat) (b : Bool) : (s.setK n b).backs = s.backs := rfl
@[simp] theorem State.setK_holders (n : Nat) (b : Bool) : (s.setK n b).holders = s.holders := rfl
@[simp] theorem State.setK_bits (n : Nat) (b : Bool) : (s.setK n b).bits = s.bits := rfl
@[simp] theorem State.setK_poison (n : Nat) (b : Bool) : (s.setK n b).poison = s.poison := rfl
@[simp] theorem State.setK_bad (n : Nat) (b : Bool) : (s.setK n b).bad = s.bad := rfl
@[simp] theorem State.setK_partials (n : Nat) (b : Bool) : (s.setK n b).partials = s.partials := rfl
@[simp] theorem State.setK_counters (n : Nat) (b : Bool) : (s.setK n b).counters = s.counters := rfl
@[simp] theorem State.setK_subs (n : Nat) (b : Bool) : (s.setK n b).subs = s.subs := rfl
@[simp] theorem State.setK_subGens (n : Nat) (b : Bool) : (s.setK n b).subGens = s.subGens := rfl
@[simp] theorem State.setK_copies (n : Nat) (b : Bool) : (s.setK n b).copies = s.copies := rfl
@[simp] theorem State.setK_tiles (n : Nat) (b : Bool) : (s.setK n b).tiles = s.tiles := rfl
@[simp] theorem State.setK_inbound (n : Nat) (b : Bool) : (s.setK n b).inbound = s.inbound := rfl
@[simp] theorem State.setK_matops (n : Nat) (b : Bool) : (s.setK n b).matops = s.matops := rfl
@[simp] theorem State.setK_permits (n : Nat) (b : Bool) : (s.setK n b).permits = s.permits := rfl
@[simp] theorem State.setK_shards (n : Nat) (b : Bool) : (s.setK n b).shards = s.shards := rfl
@[simp] theorem State.setK_shoots (n : Nat) (b : Bool) : (s.setK n b).shoots = s.shoots := rfl
@[simp] theorem State.setK_msgs (n : Nat) (b : Bool) : (s.setK n b).msgs = s.msgs := rfl
@[simp] theorem State.setK_links (n : Nat) (b : Bool) : (s.setK n b).links = s.links := rfl
@[simp] theorem State.setK_keys (n : Nat) (b : Bool) : (s.setK n b).keys = s.keys := rfl
@[simp] theorem State.setK_part (n : Nat) (b : Bool) : (s.setK n b).part = s.part := rfl
@[simp] theorem State.setK_pkgid (n : Nat) (b : Bool) : (s.setK n b).pkgid = s.pkgid := rfl
@[simp] theorem State.setK_pkgs (n : Nat) (b : Bool) : (s.setK n b).pkgs = s.pkgs := rfl
@[simp] theorem State.setK_everPkgs (n : Nat) (b : Bool) : (s.setK n b).everPkgs = s.everPkgs := rfl
@[simp] theorem State.setK_deadPkgs (n : Nat) (b : Bool) : (s.setK n b).deadPkgs = s.deadPkgs := rfl
@[simp] theorem State.setK_outcast (n : Nat) (b : Bool) : (s.setK n b).outcast = s.outcast := rfl
@[simp] theorem State.setK_pkgGen (n : Nat) (b : Bool) : (s.setK n b).pkgGen = s.pkgGen := rfl
@[simp] theorem State.setK_epoch (n : Nat) (b : Bool) : (s.setK n b).epoch = s.epoch := rfl
@[simp] theorem State.setK_pkgSeq (n : Nat) (b : Bool) : (s.setK n b).pkgSeq = s.pkgSeq := rfl
@[simp] theorem State.setK_domSeq (n : Nat) (b : Bool) : (s.setK n b).domSeq = s.domSeq := rfl
@[simp] theorem State.setK_misses (n : Nat) (b : Bool) : (s.setK n b).misses = s.misses := rfl
@[simp] theorem State.setK_lqWait (n : Nat) (b : Bool) : (s.setK n b).lqWait = s.lqWait := rfl
@[simp] theorem State.setK_boot (n : Nat) (b : Bool) : (s.setK n b).boot = s.boot := rfl
@[simp] theorem State.setK_images (n : Nat) (b : Bool) : (s.setK n b).images = s.images := rfl
@[simp] theorem State.setK_minVer (n : Nat) (b : Bool) : (s.setK n b).minVer = s.minVer := rfl
@[simp] theorem State.setK_romKey (n : Nat) (b : Bool) : (s.setK n b).romKey = s.romKey := rfl
@[simp] theorem State.setK_measure (n : Nat) (b : Bool) : (s.setK n b).measure = s.measure := rfl
@[simp] theorem State.setK_hot (n : Nat) (b : Bool) : (s.setK n b).hot = s.hot := rfl
@[simp] theorem State.setK_tick (n : Nat) (b : Bool) : (s.setK n b).tick = s.tick := rfl
@[simp] theorem State.setK_clock (n : Nat) (b : Bool) : (s.setK n b).clock = s.clock := rfl
@[simp] theorem State.setK_order (n : Nat) (b : Bool) : (s.setK n b).order = s.order := rfl
@[simp] theorem State.setK_next (n : Nat) (b : Bool) : (s.setK n b).next = s.next := rfl
@[simp] theorem State.setK_inputs (n : Nat) (b : Bool) : (s.setK n b).inputs = s.inputs := rfl

@[simp] theorem State.startTok_rest (n : Nat) : (s.startTok n).rest = s.rest := rfl
@[simp] theorem State.startTok_sel (n : Nat) : (s.startTok n).sel = s.sel := rfl
@[simp] theorem State.startTok_word (n : Nat) : (s.startTok n).word = s.word := rfl
@[simp] theorem State.startTok_folios (n : Nat) : (s.startTok n).folios = s.folios := rfl
@[simp] theorem State.startTok_volumes (n : Nat) : (s.startTok n).volumes = s.volumes := rfl
@[simp] theorem State.startTok_colls (n : Nat) : (s.startTok n).colls = s.colls := rfl
@[simp] theorem State.startTok_saved (n : Nat) : (s.startTok n).saved = s.saved := rfl
@[simp] theorem State.startTok_remaps (n : Nat) : (s.startTok n).remaps = s.remaps := rfl
@[simp] theorem State.startTok_dies (n : Nat) : (s.startTok n).dies = s.dies := rfl
@[simp] theorem State.startTok_mem (n : Nat) : (s.startTok n).mem = s.mem := rfl
@[simp] theorem State.startTok_lineKey (n : Nat) : (s.startTok n).lineKey = s.lineKey := rfl
@[simp] theorem State.startTok_class_ (n : Nat) : (s.startTok n).class_ = s.class_ := rfl
@[simp] theorem State.startTok_shadow (n : Nat) : (s.startTok n).shadow = s.shadow := rfl
@[simp] theorem State.startTok_stores (n : Nat) : (s.startTok n).stores = s.stores := rfl
@[simp] theorem State.startTok_hist (n : Nat) : (s.startTok n).hist = s.hist := rfl
@[simp] theorem State.startTok_views (n : Nat) : (s.startTok n).views = s.views := rfl
@[simp] theorem State.startTok_backs (n : Nat) : (s.startTok n).backs = s.backs := rfl
@[simp] theorem State.startTok_holders (n : Nat) : (s.startTok n).holders = s.holders := rfl
@[simp] theorem State.startTok_bits (n : Nat) : (s.startTok n).bits = s.bits := rfl
@[simp] theorem State.startTok_poison (n : Nat) : (s.startTok n).poison = s.poison := rfl
@[simp] theorem State.startTok_bad (n : Nat) : (s.startTok n).bad = s.bad := rfl
@[simp] theorem State.startTok_partials (n : Nat) : (s.startTok n).partials = s.partials := rfl
@[simp] theorem State.startTok_counters (n : Nat) : (s.startTok n).counters = s.counters := rfl
@[simp] theorem State.startTok_subs (n : Nat) : (s.startTok n).subs = s.subs := rfl
@[simp] theorem State.startTok_subGens (n : Nat) : (s.startTok n).subGens = s.subGens := rfl
@[simp] theorem State.startTok_copies (n : Nat) : (s.startTok n).copies = s.copies := rfl
@[simp] theorem State.startTok_tiles (n : Nat) : (s.startTok n).tiles = s.tiles := rfl
@[simp] theorem State.startTok_inbound (n : Nat) : (s.startTok n).inbound = s.inbound := rfl
@[simp] theorem State.startTok_matops (n : Nat) : (s.startTok n).matops = s.matops := rfl
@[simp] theorem State.startTok_permits (n : Nat) : (s.startTok n).permits = s.permits := rfl
@[simp] theorem State.startTok_shards (n : Nat) : (s.startTok n).shards = s.shards := rfl
@[simp] theorem State.startTok_shoots (n : Nat) : (s.startTok n).shoots = s.shoots := rfl
@[simp] theorem State.startTok_msgs (n : Nat) : (s.startTok n).msgs = s.msgs := rfl
@[simp] theorem State.startTok_links (n : Nat) : (s.startTok n).links = s.links := rfl
@[simp] theorem State.startTok_keys (n : Nat) : (s.startTok n).keys = s.keys := rfl
@[simp] theorem State.startTok_part (n : Nat) : (s.startTok n).part = s.part := rfl
@[simp] theorem State.startTok_pkgid (n : Nat) : (s.startTok n).pkgid = s.pkgid := rfl
@[simp] theorem State.startTok_pkgs (n : Nat) : (s.startTok n).pkgs = s.pkgs := rfl
@[simp] theorem State.startTok_everPkgs (n : Nat) : (s.startTok n).everPkgs = s.everPkgs := rfl
@[simp] theorem State.startTok_deadPkgs (n : Nat) : (s.startTok n).deadPkgs = s.deadPkgs := rfl
@[simp] theorem State.startTok_outcast (n : Nat) : (s.startTok n).outcast = s.outcast := rfl
@[simp] theorem State.startTok_pkgGen (n : Nat) : (s.startTok n).pkgGen = s.pkgGen := rfl
@[simp] theorem State.startTok_epoch (n : Nat) : (s.startTok n).epoch = s.epoch := rfl
@[simp] theorem State.startTok_pkgSeq (n : Nat) : (s.startTok n).pkgSeq = s.pkgSeq := rfl
@[simp] theorem State.startTok_domSeq (n : Nat) : (s.startTok n).domSeq = s.domSeq := rfl
@[simp] theorem State.startTok_misses (n : Nat) : (s.startTok n).misses = s.misses := rfl
@[simp] theorem State.startTok_lqWait (n : Nat) : (s.startTok n).lqWait = s.lqWait := rfl
@[simp] theorem State.startTok_boot (n : Nat) : (s.startTok n).boot = s.boot := rfl
@[simp] theorem State.startTok_images (n : Nat) : (s.startTok n).images = s.images := rfl
@[simp] theorem State.startTok_minVer (n : Nat) : (s.startTok n).minVer = s.minVer := rfl
@[simp] theorem State.startTok_romKey (n : Nat) : (s.startTok n).romKey = s.romKey := rfl
@[simp] theorem State.startTok_measure (n : Nat) : (s.startTok n).measure = s.measure := rfl
@[simp] theorem State.startTok_hot (n : Nat) : (s.startTok n).hot = s.hot := rfl
@[simp] theorem State.startTok_tick (n : Nat) : (s.startTok n).tick = s.tick := rfl
@[simp] theorem State.startTok_clock (n : Nat) : (s.startTok n).clock = s.clock := rfl
@[simp] theorem State.startTok_order (n : Nat) : (s.startTok n).order = s.order := rfl
@[simp] theorem State.startTok_next (n : Nat) : (s.startTok n).next = s.next := rfl
@[simp] theorem State.startTok_inputs (n : Nat) : (s.startTok n).inputs = s.inputs := rfl

@[simp] theorem State.finishTok_sel (i n : Nat) (o : BitVec 2) (r : Option Trap) : (s.finishTok i n o r).sel = s.sel := rfl
@[simp] theorem State.finishTok_word (i n : Nat) (o : BitVec 2) (r : Option Trap) : (s.finishTok i n o r).word = s.word := rfl
@[simp] theorem State.finishTok_folios (i n : Nat) (o : BitVec 2) (r : Option Trap) : (s.finishTok i n o r).folios = s.folios := rfl
@[simp] theorem State.finishTok_volumes (i n : Nat) (o : BitVec 2) (r : Option Trap) : (s.finishTok i n o r).volumes = s.volumes := rfl
@[simp] theorem State.finishTok_colls (i n : Nat) (o : BitVec 2) (r : Option Trap) : (s.finishTok i n o r).colls = s.colls := rfl
@[simp] theorem State.finishTok_remaps (i n : Nat) (o : BitVec 2) (r : Option Trap) : (s.finishTok i n o r).remaps = s.remaps := rfl
@[simp] theorem State.finishTok_dies (i n : Nat) (o : BitVec 2) (r : Option Trap) : (s.finishTok i n o r).dies = s.dies := rfl
@[simp] theorem State.finishTok_mem (i n : Nat) (o : BitVec 2) (r : Option Trap) : (s.finishTok i n o r).mem = s.mem := rfl
@[simp] theorem State.finishTok_lineKey (i n : Nat) (o : BitVec 2) (r : Option Trap) : (s.finishTok i n o r).lineKey = s.lineKey := rfl
@[simp] theorem State.finishTok_class_ (i n : Nat) (o : BitVec 2) (r : Option Trap) : (s.finishTok i n o r).class_ = s.class_ := rfl
@[simp] theorem State.finishTok_shadow (i n : Nat) (o : BitVec 2) (r : Option Trap) : (s.finishTok i n o r).shadow = s.shadow := rfl
@[simp] theorem State.finishTok_stores (i n : Nat) (o : BitVec 2) (r : Option Trap) : (s.finishTok i n o r).stores = s.stores := rfl
@[simp] theorem State.finishTok_hist (i n : Nat) (o : BitVec 2) (r : Option Trap) : (s.finishTok i n o r).hist = s.hist := rfl
@[simp] theorem State.finishTok_views (i n : Nat) (o : BitVec 2) (r : Option Trap) : (s.finishTok i n o r).views = s.views := rfl
@[simp] theorem State.finishTok_backs (i n : Nat) (o : BitVec 2) (r : Option Trap) : (s.finishTok i n o r).backs = s.backs := rfl
@[simp] theorem State.finishTok_holders (i n : Nat) (o : BitVec 2) (r : Option Trap) : (s.finishTok i n o r).holders = s.holders := rfl
@[simp] theorem State.finishTok_bits (i n : Nat) (o : BitVec 2) (r : Option Trap) : (s.finishTok i n o r).bits = s.bits := rfl
@[simp] theorem State.finishTok_poison (i n : Nat) (o : BitVec 2) (r : Option Trap) : (s.finishTok i n o r).poison = s.poison := rfl
@[simp] theorem State.finishTok_bad (i n : Nat) (o : BitVec 2) (r : Option Trap) : (s.finishTok i n o r).bad = s.bad := rfl
@[simp] theorem State.finishTok_partials (i n : Nat) (o : BitVec 2) (r : Option Trap) : (s.finishTok i n o r).partials = s.partials := rfl
@[simp] theorem State.finishTok_counters (i n : Nat) (o : BitVec 2) (r : Option Trap) : (s.finishTok i n o r).counters = s.counters := rfl
@[simp] theorem State.finishTok_subs (i n : Nat) (o : BitVec 2) (r : Option Trap) : (s.finishTok i n o r).subs = s.subs := rfl
@[simp] theorem State.finishTok_subGens (i n : Nat) (o : BitVec 2) (r : Option Trap) : (s.finishTok i n o r).subGens = s.subGens := rfl
@[simp] theorem State.finishTok_copies (i n : Nat) (o : BitVec 2) (r : Option Trap) : (s.finishTok i n o r).copies = s.copies := rfl
@[simp] theorem State.finishTok_tiles (i n : Nat) (o : BitVec 2) (r : Option Trap) : (s.finishTok i n o r).tiles = s.tiles := rfl
@[simp] theorem State.finishTok_inbound (i n : Nat) (o : BitVec 2) (r : Option Trap) : (s.finishTok i n o r).inbound = s.inbound := rfl
@[simp] theorem State.finishTok_matops (i n : Nat) (o : BitVec 2) (r : Option Trap) : (s.finishTok i n o r).matops = s.matops := rfl
@[simp] theorem State.finishTok_permits (i n : Nat) (o : BitVec 2) (r : Option Trap) : (s.finishTok i n o r).permits = s.permits := rfl
@[simp] theorem State.finishTok_shards (i n : Nat) (o : BitVec 2) (r : Option Trap) : (s.finishTok i n o r).shards = s.shards := rfl
@[simp] theorem State.finishTok_shoots (i n : Nat) (o : BitVec 2) (r : Option Trap) : (s.finishTok i n o r).shoots = s.shoots := rfl
@[simp] theorem State.finishTok_msgs (i n : Nat) (o : BitVec 2) (r : Option Trap) : (s.finishTok i n o r).msgs = s.msgs := rfl
@[simp] theorem State.finishTok_links (i n : Nat) (o : BitVec 2) (r : Option Trap) : (s.finishTok i n o r).links = s.links := rfl
@[simp] theorem State.finishTok_keys (i n : Nat) (o : BitVec 2) (r : Option Trap) : (s.finishTok i n o r).keys = s.keys := rfl
@[simp] theorem State.finishTok_part (i n : Nat) (o : BitVec 2) (r : Option Trap) : (s.finishTok i n o r).part = s.part := rfl
@[simp] theorem State.finishTok_pkgid (i n : Nat) (o : BitVec 2) (r : Option Trap) : (s.finishTok i n o r).pkgid = s.pkgid := rfl
@[simp] theorem State.finishTok_pkgs (i n : Nat) (o : BitVec 2) (r : Option Trap) : (s.finishTok i n o r).pkgs = s.pkgs := rfl
@[simp] theorem State.finishTok_everPkgs (i n : Nat) (o : BitVec 2) (r : Option Trap) : (s.finishTok i n o r).everPkgs = s.everPkgs := rfl
@[simp] theorem State.finishTok_deadPkgs (i n : Nat) (o : BitVec 2) (r : Option Trap) : (s.finishTok i n o r).deadPkgs = s.deadPkgs := rfl
@[simp] theorem State.finishTok_outcast (i n : Nat) (o : BitVec 2) (r : Option Trap) : (s.finishTok i n o r).outcast = s.outcast := rfl
@[simp] theorem State.finishTok_pkgGen (i n : Nat) (o : BitVec 2) (r : Option Trap) : (s.finishTok i n o r).pkgGen = s.pkgGen := rfl
@[simp] theorem State.finishTok_epoch (i n : Nat) (o : BitVec 2) (r : Option Trap) : (s.finishTok i n o r).epoch = s.epoch := rfl
@[simp] theorem State.finishTok_pkgSeq (i n : Nat) (o : BitVec 2) (r : Option Trap) : (s.finishTok i n o r).pkgSeq = s.pkgSeq := rfl
@[simp] theorem State.finishTok_domSeq (i n : Nat) (o : BitVec 2) (r : Option Trap) : (s.finishTok i n o r).domSeq = s.domSeq := rfl
@[simp] theorem State.finishTok_misses (i n : Nat) (o : BitVec 2) (r : Option Trap) : (s.finishTok i n o r).misses = s.misses := rfl
@[simp] theorem State.finishTok_lqWait (i n : Nat) (o : BitVec 2) (r : Option Trap) : (s.finishTok i n o r).lqWait = s.lqWait := rfl
@[simp] theorem State.finishTok_boot (i n : Nat) (o : BitVec 2) (r : Option Trap) : (s.finishTok i n o r).boot = s.boot := rfl
@[simp] theorem State.finishTok_images (i n : Nat) (o : BitVec 2) (r : Option Trap) : (s.finishTok i n o r).images = s.images := rfl
@[simp] theorem State.finishTok_minVer (i n : Nat) (o : BitVec 2) (r : Option Trap) : (s.finishTok i n o r).minVer = s.minVer := rfl
@[simp] theorem State.finishTok_romKey (i n : Nat) (o : BitVec 2) (r : Option Trap) : (s.finishTok i n o r).romKey = s.romKey := rfl
@[simp] theorem State.finishTok_measure (i n : Nat) (o : BitVec 2) (r : Option Trap) : (s.finishTok i n o r).measure = s.measure := rfl
@[simp] theorem State.finishTok_hot (i n : Nat) (o : BitVec 2) (r : Option Trap) : (s.finishTok i n o r).hot = s.hot := rfl
@[simp] theorem State.finishTok_tick (i n : Nat) (o : BitVec 2) (r : Option Trap) : (s.finishTok i n o r).tick = s.tick := rfl
@[simp] theorem State.finishTok_clock (i n : Nat) (o : BitVec 2) (r : Option Trap) : (s.finishTok i n o r).clock = s.clock := rfl
@[simp] theorem State.finishTok_order (i n : Nat) (o : BitVec 2) (r : Option Trap) : (s.finishTok i n o r).order = s.order := rfl
@[simp] theorem State.finishTok_next (i n : Nat) (o : BitVec 2) (r : Option Trap) : (s.finishTok i n o r).next = s.next := rfl
@[simp] theorem State.finishTok_inputs (i n : Nat) (o : BitVec 2) (r : Option Trap) : (s.finishTok i n o r).inputs = s.inputs := rfl

@[simp] theorem State.mapFibres_rest (g : Fibre → Fibre) : (s.mapFibres g).rest = s.rest := rfl
@[simp] theorem State.mapFibres_sel (g : Fibre → Fibre) : (s.mapFibres g).sel = s.sel := rfl
@[simp] theorem State.mapFibres_word (g : Fibre → Fibre) : (s.mapFibres g).word = s.word := rfl
@[simp] theorem State.mapFibres_folios (g : Fibre → Fibre) : (s.mapFibres g).folios = s.folios := rfl
@[simp] theorem State.mapFibres_volumes (g : Fibre → Fibre) : (s.mapFibres g).volumes = s.volumes := rfl
@[simp] theorem State.mapFibres_colls (g : Fibre → Fibre) : (s.mapFibres g).colls = s.colls := rfl
@[simp] theorem State.mapFibres_saved (g : Fibre → Fibre) : (s.mapFibres g).saved = s.saved := rfl
@[simp] theorem State.mapFibres_remaps (g : Fibre → Fibre) : (s.mapFibres g).remaps = s.remaps := rfl
@[simp] theorem State.mapFibres_dies (g : Fibre → Fibre) : (s.mapFibres g).dies = s.dies := rfl
@[simp] theorem State.mapFibres_mem (g : Fibre → Fibre) : (s.mapFibres g).mem = s.mem := rfl
@[simp] theorem State.mapFibres_lineKey (g : Fibre → Fibre) : (s.mapFibres g).lineKey = s.lineKey := rfl
@[simp] theorem State.mapFibres_class_ (g : Fibre → Fibre) : (s.mapFibres g).class_ = s.class_ := rfl
@[simp] theorem State.mapFibres_shadow (g : Fibre → Fibre) : (s.mapFibres g).shadow = s.shadow := rfl
@[simp] theorem State.mapFibres_stores (g : Fibre → Fibre) : (s.mapFibres g).stores = s.stores := rfl
@[simp] theorem State.mapFibres_hist (g : Fibre → Fibre) : (s.mapFibres g).hist = s.hist := rfl
@[simp] theorem State.mapFibres_views (g : Fibre → Fibre) : (s.mapFibres g).views = s.views := rfl
@[simp] theorem State.mapFibres_backs (g : Fibre → Fibre) : (s.mapFibres g).backs = s.backs := rfl
@[simp] theorem State.mapFibres_holders (g : Fibre → Fibre) : (s.mapFibres g).holders = s.holders := rfl
@[simp] theorem State.mapFibres_bits (g : Fibre → Fibre) : (s.mapFibres g).bits = s.bits := rfl
@[simp] theorem State.mapFibres_poison (g : Fibre → Fibre) : (s.mapFibres g).poison = s.poison := rfl
@[simp] theorem State.mapFibres_bad (g : Fibre → Fibre) : (s.mapFibres g).bad = s.bad := rfl
@[simp] theorem State.mapFibres_partials (g : Fibre → Fibre) : (s.mapFibres g).partials = s.partials := rfl
@[simp] theorem State.mapFibres_counters (g : Fibre → Fibre) : (s.mapFibres g).counters = s.counters := rfl
@[simp] theorem State.mapFibres_subs (g : Fibre → Fibre) : (s.mapFibres g).subs = s.subs := rfl
@[simp] theorem State.mapFibres_subGens (g : Fibre → Fibre) : (s.mapFibres g).subGens = s.subGens := rfl
@[simp] theorem State.mapFibres_copies (g : Fibre → Fibre) : (s.mapFibres g).copies = s.copies := rfl
@[simp] theorem State.mapFibres_tiles (g : Fibre → Fibre) : (s.mapFibres g).tiles = s.tiles := rfl
@[simp] theorem State.mapFibres_inbound (g : Fibre → Fibre) : (s.mapFibres g).inbound = s.inbound := rfl
@[simp] theorem State.mapFibres_matops (g : Fibre → Fibre) : (s.mapFibres g).matops = s.matops := rfl
@[simp] theorem State.mapFibres_permits (g : Fibre → Fibre) : (s.mapFibres g).permits = s.permits := rfl
@[simp] theorem State.mapFibres_shards (g : Fibre → Fibre) : (s.mapFibres g).shards = s.shards := rfl
@[simp] theorem State.mapFibres_shoots (g : Fibre → Fibre) : (s.mapFibres g).shoots = s.shoots := rfl
@[simp] theorem State.mapFibres_msgs (g : Fibre → Fibre) : (s.mapFibres g).msgs = s.msgs := rfl
@[simp] theorem State.mapFibres_links (g : Fibre → Fibre) : (s.mapFibres g).links = s.links := rfl
@[simp] theorem State.mapFibres_keys (g : Fibre → Fibre) : (s.mapFibres g).keys = s.keys := rfl
@[simp] theorem State.mapFibres_part (g : Fibre → Fibre) : (s.mapFibres g).part = s.part := rfl
@[simp] theorem State.mapFibres_pkgid (g : Fibre → Fibre) : (s.mapFibres g).pkgid = s.pkgid := rfl
@[simp] theorem State.mapFibres_pkgs (g : Fibre → Fibre) : (s.mapFibres g).pkgs = s.pkgs := rfl
@[simp] theorem State.mapFibres_everPkgs (g : Fibre → Fibre) : (s.mapFibres g).everPkgs = s.everPkgs := rfl
@[simp] theorem State.mapFibres_deadPkgs (g : Fibre → Fibre) : (s.mapFibres g).deadPkgs = s.deadPkgs := rfl
@[simp] theorem State.mapFibres_outcast (g : Fibre → Fibre) : (s.mapFibres g).outcast = s.outcast := rfl
@[simp] theorem State.mapFibres_pkgGen (g : Fibre → Fibre) : (s.mapFibres g).pkgGen = s.pkgGen := rfl
@[simp] theorem State.mapFibres_epoch (g : Fibre → Fibre) : (s.mapFibres g).epoch = s.epoch := rfl
@[simp] theorem State.mapFibres_pkgSeq (g : Fibre → Fibre) : (s.mapFibres g).pkgSeq = s.pkgSeq := rfl
@[simp] theorem State.mapFibres_domSeq (g : Fibre → Fibre) : (s.mapFibres g).domSeq = s.domSeq := rfl
@[simp] theorem State.mapFibres_misses (g : Fibre → Fibre) : (s.mapFibres g).misses = s.misses := rfl
@[simp] theorem State.mapFibres_lqWait (g : Fibre → Fibre) : (s.mapFibres g).lqWait = s.lqWait := rfl
@[simp] theorem State.mapFibres_boot (g : Fibre → Fibre) : (s.mapFibres g).boot = s.boot := rfl
@[simp] theorem State.mapFibres_images (g : Fibre → Fibre) : (s.mapFibres g).images = s.images := rfl
@[simp] theorem State.mapFibres_minVer (g : Fibre → Fibre) : (s.mapFibres g).minVer = s.minVer := rfl
@[simp] theorem State.mapFibres_romKey (g : Fibre → Fibre) : (s.mapFibres g).romKey = s.romKey := rfl
@[simp] theorem State.mapFibres_measure (g : Fibre → Fibre) : (s.mapFibres g).measure = s.measure := rfl
@[simp] theorem State.mapFibres_hot (g : Fibre → Fibre) : (s.mapFibres g).hot = s.hot := rfl
@[simp] theorem State.mapFibres_tick (g : Fibre → Fibre) : (s.mapFibres g).tick = s.tick := rfl
@[simp] theorem State.mapFibres_clock (g : Fibre → Fibre) : (s.mapFibres g).clock = s.clock := rfl
@[simp] theorem State.mapFibres_order (g : Fibre → Fibre) : (s.mapFibres g).order = s.order := rfl
@[simp] theorem State.mapFibres_next (g : Fibre → Fibre) : (s.mapFibres g).next = s.next := rfl
@[simp] theorem State.mapFibres_inputs (g : Fibre → Fibre) : (s.mapFibres g).inputs = s.inputs := rfl

@[simp] theorem State.move_rest (xs : List (Nat × DWord)) : (s.move xs).rest = s.rest := rfl
@[simp] theorem State.move_sel (xs : List (Nat × DWord)) : (s.move xs).sel = s.sel := rfl
@[simp] theorem State.move_word (xs : List (Nat × DWord)) : (s.move xs).word = s.word := rfl
@[simp] theorem State.move_folios (xs : List (Nat × DWord)) : (s.move xs).folios = s.folios := rfl
@[simp] theorem State.move_volumes (xs : List (Nat × DWord)) : (s.move xs).volumes = s.volumes := rfl
@[simp] theorem State.move_colls (xs : List (Nat × DWord)) : (s.move xs).colls = s.colls := rfl
@[simp] theorem State.move_saved (xs : List (Nat × DWord)) : (s.move xs).saved = s.saved := rfl
@[simp] theorem State.move_remaps (xs : List (Nat × DWord)) : (s.move xs).remaps = s.remaps := rfl
@[simp] theorem State.move_dies (xs : List (Nat × DWord)) : (s.move xs).dies = s.dies := rfl
@[simp] theorem State.move_mem (xs : List (Nat × DWord)) : (s.move xs).mem = s.mem := rfl
@[simp] theorem State.move_lineKey (xs : List (Nat × DWord)) : (s.move xs).lineKey = s.lineKey := rfl
@[simp] theorem State.move_class_ (xs : List (Nat × DWord)) : (s.move xs).class_ = s.class_ := rfl
@[simp] theorem State.move_shadow (xs : List (Nat × DWord)) : (s.move xs).shadow = s.shadow := rfl
@[simp] theorem State.move_stores (xs : List (Nat × DWord)) : (s.move xs).stores = s.stores := rfl
@[simp] theorem State.move_hist (xs : List (Nat × DWord)) : (s.move xs).hist = s.hist := rfl
@[simp] theorem State.move_views (xs : List (Nat × DWord)) : (s.move xs).views = s.views := rfl
@[simp] theorem State.move_backs (xs : List (Nat × DWord)) : (s.move xs).backs = s.backs := rfl
@[simp] theorem State.move_holders (xs : List (Nat × DWord)) : (s.move xs).holders = s.holders := rfl
@[simp] theorem State.move_bits (xs : List (Nat × DWord)) : (s.move xs).bits = s.bits := rfl
@[simp] theorem State.move_poison (xs : List (Nat × DWord)) : (s.move xs).poison = s.poison := rfl
@[simp] theorem State.move_bad (xs : List (Nat × DWord)) : (s.move xs).bad = s.bad := rfl
@[simp] theorem State.move_partials (xs : List (Nat × DWord)) : (s.move xs).partials = s.partials := rfl
@[simp] theorem State.move_counters (xs : List (Nat × DWord)) : (s.move xs).counters = s.counters := rfl
@[simp] theorem State.move_subs (xs : List (Nat × DWord)) : (s.move xs).subs = s.subs := rfl
@[simp] theorem State.move_subGens (xs : List (Nat × DWord)) : (s.move xs).subGens = s.subGens := rfl
@[simp] theorem State.move_copies (xs : List (Nat × DWord)) : (s.move xs).copies = s.copies := rfl
@[simp] theorem State.move_tiles (xs : List (Nat × DWord)) : (s.move xs).tiles = s.tiles := rfl
@[simp] theorem State.move_inbound (xs : List (Nat × DWord)) : (s.move xs).inbound = s.inbound := rfl
@[simp] theorem State.move_matops (xs : List (Nat × DWord)) : (s.move xs).matops = s.matops := rfl
@[simp] theorem State.move_permits (xs : List (Nat × DWord)) : (s.move xs).permits = s.permits := rfl
@[simp] theorem State.move_shards (xs : List (Nat × DWord)) : (s.move xs).shards = s.shards := rfl
@[simp] theorem State.move_shoots (xs : List (Nat × DWord)) : (s.move xs).shoots = s.shoots := rfl
@[simp] theorem State.move_msgs (xs : List (Nat × DWord)) : (s.move xs).msgs = s.msgs := rfl
@[simp] theorem State.move_links (xs : List (Nat × DWord)) : (s.move xs).links = s.links := rfl
@[simp] theorem State.move_keys (xs : List (Nat × DWord)) : (s.move xs).keys = s.keys := rfl
@[simp] theorem State.move_part (xs : List (Nat × DWord)) : (s.move xs).part = s.part := rfl
@[simp] theorem State.move_pkgid (xs : List (Nat × DWord)) : (s.move xs).pkgid = s.pkgid := rfl
@[simp] theorem State.move_pkgs (xs : List (Nat × DWord)) : (s.move xs).pkgs = s.pkgs := rfl
@[simp] theorem State.move_everPkgs (xs : List (Nat × DWord)) : (s.move xs).everPkgs = s.everPkgs := rfl
@[simp] theorem State.move_deadPkgs (xs : List (Nat × DWord)) : (s.move xs).deadPkgs = s.deadPkgs := rfl
@[simp] theorem State.move_outcast (xs : List (Nat × DWord)) : (s.move xs).outcast = s.outcast := rfl
@[simp] theorem State.move_pkgGen (xs : List (Nat × DWord)) : (s.move xs).pkgGen = s.pkgGen := rfl
@[simp] theorem State.move_epoch (xs : List (Nat × DWord)) : (s.move xs).epoch = s.epoch := rfl
@[simp] theorem State.move_pkgSeq (xs : List (Nat × DWord)) : (s.move xs).pkgSeq = s.pkgSeq := rfl
@[simp] theorem State.move_domSeq (xs : List (Nat × DWord)) : (s.move xs).domSeq = s.domSeq := rfl
@[simp] theorem State.move_misses (xs : List (Nat × DWord)) : (s.move xs).misses = s.misses := rfl
@[simp] theorem State.move_lqWait (xs : List (Nat × DWord)) : (s.move xs).lqWait = s.lqWait := rfl
@[simp] theorem State.move_boot (xs : List (Nat × DWord)) : (s.move xs).boot = s.boot := rfl
@[simp] theorem State.move_images (xs : List (Nat × DWord)) : (s.move xs).images = s.images := rfl
@[simp] theorem State.move_minVer (xs : List (Nat × DWord)) : (s.move xs).minVer = s.minVer := rfl
@[simp] theorem State.move_romKey (xs : List (Nat × DWord)) : (s.move xs).romKey = s.romKey := rfl
@[simp] theorem State.move_measure (xs : List (Nat × DWord)) : (s.move xs).measure = s.measure := rfl
@[simp] theorem State.move_hot (xs : List (Nat × DWord)) : (s.move xs).hot = s.hot := rfl
@[simp] theorem State.move_tick (xs : List (Nat × DWord)) : (s.move xs).tick = s.tick := rfl
@[simp] theorem State.move_clock (xs : List (Nat × DWord)) : (s.move xs).clock = s.clock := rfl
@[simp] theorem State.move_order (xs : List (Nat × DWord)) : (s.move xs).order = s.order := rfl
@[simp] theorem State.move_next (xs : List (Nat × DWord)) : (s.move xs).next = s.next := rfl
@[simp] theorem State.move_inputs (xs : List (Nat × DWord)) : (s.move xs).inputs = s.inputs := rfl

@[simp] theorem State.advance_rest (xs : List Fibre) (n : Nat) : (s.advance xs n).rest = s.rest := rfl
@[simp] theorem State.advance_sel (xs : List Fibre) (n : Nat) : (s.advance xs n).sel = s.sel := rfl
@[simp] theorem State.advance_word (xs : List Fibre) (n : Nat) : (s.advance xs n).word = s.word := rfl
@[simp] theorem State.advance_folios (xs : List Fibre) (n : Nat) : (s.advance xs n).folios = s.folios := rfl
@[simp] theorem State.advance_volumes (xs : List Fibre) (n : Nat) : (s.advance xs n).volumes = s.volumes := rfl
@[simp] theorem State.advance_colls (xs : List Fibre) (n : Nat) : (s.advance xs n).colls = s.colls := rfl
@[simp] theorem State.advance_saved (xs : List Fibre) (n : Nat) : (s.advance xs n).saved = s.saved := rfl
@[simp] theorem State.advance_remaps (xs : List Fibre) (n : Nat) : (s.advance xs n).remaps = s.remaps := rfl
@[simp] theorem State.advance_dies (xs : List Fibre) (n : Nat) : (s.advance xs n).dies = s.dies := rfl
@[simp] theorem State.advance_mem (xs : List Fibre) (n : Nat) : (s.advance xs n).mem = s.mem := rfl
@[simp] theorem State.advance_lineKey (xs : List Fibre) (n : Nat) : (s.advance xs n).lineKey = s.lineKey := rfl
@[simp] theorem State.advance_class_ (xs : List Fibre) (n : Nat) : (s.advance xs n).class_ = s.class_ := rfl
@[simp] theorem State.advance_shadow (xs : List Fibre) (n : Nat) : (s.advance xs n).shadow = s.shadow := rfl
@[simp] theorem State.advance_stores (xs : List Fibre) (n : Nat) : (s.advance xs n).stores = s.stores := rfl
@[simp] theorem State.advance_hist (xs : List Fibre) (n : Nat) : (s.advance xs n).hist = s.hist := rfl
@[simp] theorem State.advance_views (xs : List Fibre) (n : Nat) : (s.advance xs n).views = s.views := rfl
@[simp] theorem State.advance_backs (xs : List Fibre) (n : Nat) : (s.advance xs n).backs = s.backs := rfl
@[simp] theorem State.advance_holders (xs : List Fibre) (n : Nat) : (s.advance xs n).holders = s.holders := rfl
@[simp] theorem State.advance_bits (xs : List Fibre) (n : Nat) : (s.advance xs n).bits = s.bits := rfl
@[simp] theorem State.advance_poison (xs : List Fibre) (n : Nat) : (s.advance xs n).poison = s.poison := rfl
@[simp] theorem State.advance_bad (xs : List Fibre) (n : Nat) : (s.advance xs n).bad = s.bad := rfl
@[simp] theorem State.advance_partials (xs : List Fibre) (n : Nat) : (s.advance xs n).partials = s.partials := rfl
@[simp] theorem State.advance_counters (xs : List Fibre) (n : Nat) : (s.advance xs n).counters = s.counters := rfl
@[simp] theorem State.advance_subs (xs : List Fibre) (n : Nat) : (s.advance xs n).subs = s.subs := rfl
@[simp] theorem State.advance_subGens (xs : List Fibre) (n : Nat) : (s.advance xs n).subGens = s.subGens := rfl
@[simp] theorem State.advance_copies (xs : List Fibre) (n : Nat) : (s.advance xs n).copies = s.copies := rfl
@[simp] theorem State.advance_tiles (xs : List Fibre) (n : Nat) : (s.advance xs n).tiles = s.tiles := rfl
@[simp] theorem State.advance_inbound (xs : List Fibre) (n : Nat) : (s.advance xs n).inbound = s.inbound := rfl
@[simp] theorem State.advance_matops (xs : List Fibre) (n : Nat) : (s.advance xs n).matops = s.matops := rfl
@[simp] theorem State.advance_permits (xs : List Fibre) (n : Nat) : (s.advance xs n).permits = s.permits := rfl
@[simp] theorem State.advance_shards (xs : List Fibre) (n : Nat) : (s.advance xs n).shards = s.shards := rfl
@[simp] theorem State.advance_shoots (xs : List Fibre) (n : Nat) : (s.advance xs n).shoots = s.shoots := rfl
@[simp] theorem State.advance_msgs (xs : List Fibre) (n : Nat) : (s.advance xs n).msgs = s.msgs := rfl
@[simp] theorem State.advance_links (xs : List Fibre) (n : Nat) : (s.advance xs n).links = s.links := rfl
@[simp] theorem State.advance_keys (xs : List Fibre) (n : Nat) : (s.advance xs n).keys = s.keys := rfl
@[simp] theorem State.advance_part (xs : List Fibre) (n : Nat) : (s.advance xs n).part = s.part := rfl
@[simp] theorem State.advance_pkgid (xs : List Fibre) (n : Nat) : (s.advance xs n).pkgid = s.pkgid := rfl
@[simp] theorem State.advance_pkgs (xs : List Fibre) (n : Nat) : (s.advance xs n).pkgs = s.pkgs := rfl
@[simp] theorem State.advance_everPkgs (xs : List Fibre) (n : Nat) : (s.advance xs n).everPkgs = s.everPkgs := rfl
@[simp] theorem State.advance_deadPkgs (xs : List Fibre) (n : Nat) : (s.advance xs n).deadPkgs = s.deadPkgs := rfl
@[simp] theorem State.advance_outcast (xs : List Fibre) (n : Nat) : (s.advance xs n).outcast = s.outcast := rfl
@[simp] theorem State.advance_pkgGen (xs : List Fibre) (n : Nat) : (s.advance xs n).pkgGen = s.pkgGen := rfl
@[simp] theorem State.advance_epoch (xs : List Fibre) (n : Nat) : (s.advance xs n).epoch = s.epoch := rfl
@[simp] theorem State.advance_pkgSeq (xs : List Fibre) (n : Nat) : (s.advance xs n).pkgSeq = s.pkgSeq := rfl
@[simp] theorem State.advance_domSeq (xs : List Fibre) (n : Nat) : (s.advance xs n).domSeq = s.domSeq := rfl
@[simp] theorem State.advance_misses (xs : List Fibre) (n : Nat) : (s.advance xs n).misses = s.misses := rfl
@[simp] theorem State.advance_lqWait (xs : List Fibre) (n : Nat) : (s.advance xs n).lqWait = s.lqWait := rfl
@[simp] theorem State.advance_boot (xs : List Fibre) (n : Nat) : (s.advance xs n).boot = s.boot := rfl
@[simp] theorem State.advance_images (xs : List Fibre) (n : Nat) : (s.advance xs n).images = s.images := rfl
@[simp] theorem State.advance_minVer (xs : List Fibre) (n : Nat) : (s.advance xs n).minVer = s.minVer := rfl
@[simp] theorem State.advance_romKey (xs : List Fibre) (n : Nat) : (s.advance xs n).romKey = s.romKey := rfl
@[simp] theorem State.advance_measure (xs : List Fibre) (n : Nat) : (s.advance xs n).measure = s.measure := rfl
@[simp] theorem State.advance_hot (xs : List Fibre) (n : Nat) : (s.advance xs n).hot = s.hot := rfl
@[simp] theorem State.advance_tick (xs : List Fibre) (n : Nat) : (s.advance xs n).tick = s.tick := rfl
@[simp] theorem State.advance_clock (xs : List Fibre) (n : Nat) : (s.advance xs n).clock = s.clock := rfl
@[simp] theorem State.advance_order (xs : List Fibre) (n : Nat) : (s.advance xs n).order = s.order := rfl
@[simp] theorem State.advance_next (xs : List Fibre) (n : Nat) : (s.advance xs n).next = s.next := rfl
@[simp] theorem State.advance_inputs (xs : List Fibre) (n : Nat) : (s.advance xs n).inputs = s.inputs := rfl

@[simp] theorem State.unblocked_rest : (s.unblocked).rest = s.rest := rfl
@[simp] theorem State.unblocked_sel : (s.unblocked).sel = s.sel := rfl
@[simp] theorem State.unblocked_word : (s.unblocked).word = s.word := rfl
@[simp] theorem State.unblocked_folios : (s.unblocked).folios = s.folios := rfl
@[simp] theorem State.unblocked_volumes : (s.unblocked).volumes = s.volumes := rfl
@[simp] theorem State.unblocked_colls : (s.unblocked).colls = s.colls := rfl
@[simp] theorem State.unblocked_saved : (s.unblocked).saved = s.saved := rfl
@[simp] theorem State.unblocked_remaps : (s.unblocked).remaps = s.remaps := rfl
@[simp] theorem State.unblocked_dies : (s.unblocked).dies = s.dies := rfl
@[simp] theorem State.unblocked_mem : (s.unblocked).mem = s.mem := rfl
@[simp] theorem State.unblocked_lineKey : (s.unblocked).lineKey = s.lineKey := rfl
@[simp] theorem State.unblocked_class_ : (s.unblocked).class_ = s.class_ := rfl
@[simp] theorem State.unblocked_shadow : (s.unblocked).shadow = s.shadow := rfl
@[simp] theorem State.unblocked_stores : (s.unblocked).stores = s.stores := rfl
@[simp] theorem State.unblocked_hist : (s.unblocked).hist = s.hist := rfl
@[simp] theorem State.unblocked_views : (s.unblocked).views = s.views := rfl
@[simp] theorem State.unblocked_backs : (s.unblocked).backs = s.backs := rfl
@[simp] theorem State.unblocked_holders : (s.unblocked).holders = s.holders := rfl
@[simp] theorem State.unblocked_bits : (s.unblocked).bits = s.bits := rfl
@[simp] theorem State.unblocked_poison : (s.unblocked).poison = s.poison := rfl
@[simp] theorem State.unblocked_bad : (s.unblocked).bad = s.bad := rfl
@[simp] theorem State.unblocked_partials : (s.unblocked).partials = s.partials := rfl
@[simp] theorem State.unblocked_counters : (s.unblocked).counters = s.counters := rfl
@[simp] theorem State.unblocked_subs : (s.unblocked).subs = s.subs := rfl
@[simp] theorem State.unblocked_subGens : (s.unblocked).subGens = s.subGens := rfl
@[simp] theorem State.unblocked_copies : (s.unblocked).copies = s.copies := rfl
@[simp] theorem State.unblocked_tiles : (s.unblocked).tiles = s.tiles := rfl
@[simp] theorem State.unblocked_inbound : (s.unblocked).inbound = s.inbound := rfl
@[simp] theorem State.unblocked_matops : (s.unblocked).matops = s.matops := rfl
@[simp] theorem State.unblocked_permits : (s.unblocked).permits = s.permits := rfl
@[simp] theorem State.unblocked_shards : (s.unblocked).shards = s.shards := rfl
@[simp] theorem State.unblocked_shoots : (s.unblocked).shoots = s.shoots := rfl
@[simp] theorem State.unblocked_msgs : (s.unblocked).msgs = s.msgs := rfl
@[simp] theorem State.unblocked_links : (s.unblocked).links = s.links := rfl
@[simp] theorem State.unblocked_keys : (s.unblocked).keys = s.keys := rfl
@[simp] theorem State.unblocked_part : (s.unblocked).part = s.part := rfl
@[simp] theorem State.unblocked_pkgid : (s.unblocked).pkgid = s.pkgid := rfl
@[simp] theorem State.unblocked_pkgs : (s.unblocked).pkgs = s.pkgs := rfl
@[simp] theorem State.unblocked_everPkgs : (s.unblocked).everPkgs = s.everPkgs := rfl
@[simp] theorem State.unblocked_deadPkgs : (s.unblocked).deadPkgs = s.deadPkgs := rfl
@[simp] theorem State.unblocked_outcast : (s.unblocked).outcast = s.outcast := rfl
@[simp] theorem State.unblocked_pkgGen : (s.unblocked).pkgGen = s.pkgGen := rfl
@[simp] theorem State.unblocked_epoch : (s.unblocked).epoch = s.epoch := rfl
@[simp] theorem State.unblocked_pkgSeq : (s.unblocked).pkgSeq = s.pkgSeq := rfl
@[simp] theorem State.unblocked_domSeq : (s.unblocked).domSeq = s.domSeq := rfl
@[simp] theorem State.unblocked_misses : (s.unblocked).misses = s.misses := rfl
@[simp] theorem State.unblocked_lqWait : (s.unblocked).lqWait = s.lqWait := rfl
@[simp] theorem State.unblocked_boot : (s.unblocked).boot = s.boot := rfl
@[simp] theorem State.unblocked_images : (s.unblocked).images = s.images := rfl
@[simp] theorem State.unblocked_minVer : (s.unblocked).minVer = s.minVer := rfl
@[simp] theorem State.unblocked_romKey : (s.unblocked).romKey = s.romKey := rfl
@[simp] theorem State.unblocked_measure : (s.unblocked).measure = s.measure := rfl
@[simp] theorem State.unblocked_hot : (s.unblocked).hot = s.hot := rfl
@[simp] theorem State.unblocked_tick : (s.unblocked).tick = s.tick := rfl
@[simp] theorem State.unblocked_clock : (s.unblocked).clock = s.clock := rfl
@[simp] theorem State.unblocked_order : (s.unblocked).order = s.order := rfl
@[simp] theorem State.unblocked_next : (s.unblocked).next = s.next := rfl
@[simp] theorem State.unblocked_inputs : (s.unblocked).inputs = s.inputs := rfl

@[simp] theorem State.block_rest (k : WaitKind) (n : Nat) (t : Trap) : (s.block k n t).rest = s.rest := by unfold State.block; split <;> rfl
@[simp] theorem State.block_sel (k : WaitKind) (n : Nat) (t : Trap) : (s.block k n t).sel = s.sel := by unfold State.block; split <;> rfl
@[simp] theorem State.block_word (k : WaitKind) (n : Nat) (t : Trap) : (s.block k n t).word = s.word := by unfold State.block; split <;> rfl
@[simp] theorem State.block_folios (k : WaitKind) (n : Nat) (t : Trap) : (s.block k n t).folios = s.folios := by unfold State.block; split <;> rfl
@[simp] theorem State.block_volumes (k : WaitKind) (n : Nat) (t : Trap) : (s.block k n t).volumes = s.volumes := by unfold State.block; split <;> rfl
@[simp] theorem State.block_colls (k : WaitKind) (n : Nat) (t : Trap) : (s.block k n t).colls = s.colls := by unfold State.block; split <;> rfl
@[simp] theorem State.block_saved (k : WaitKind) (n : Nat) (t : Trap) : (s.block k n t).saved = s.saved := by unfold State.block; split <;> rfl
@[simp] theorem State.block_remaps (k : WaitKind) (n : Nat) (t : Trap) : (s.block k n t).remaps = s.remaps := by unfold State.block; split <;> rfl
@[simp] theorem State.block_dies (k : WaitKind) (n : Nat) (t : Trap) : (s.block k n t).dies = s.dies := by unfold State.block; split <;> rfl
@[simp] theorem State.block_mem (k : WaitKind) (n : Nat) (t : Trap) : (s.block k n t).mem = s.mem := by unfold State.block; split <;> rfl
@[simp] theorem State.block_lineKey (k : WaitKind) (n : Nat) (t : Trap) : (s.block k n t).lineKey = s.lineKey := by unfold State.block; split <;> rfl
@[simp] theorem State.block_class_ (k : WaitKind) (n : Nat) (t : Trap) : (s.block k n t).class_ = s.class_ := by unfold State.block; split <;> rfl
@[simp] theorem State.block_shadow (k : WaitKind) (n : Nat) (t : Trap) : (s.block k n t).shadow = s.shadow := by unfold State.block; split <;> rfl
@[simp] theorem State.block_stores (k : WaitKind) (n : Nat) (t : Trap) : (s.block k n t).stores = s.stores := by unfold State.block; split <;> rfl
@[simp] theorem State.block_hist (k : WaitKind) (n : Nat) (t : Trap) : (s.block k n t).hist = s.hist := by unfold State.block; split <;> rfl
@[simp] theorem State.block_views (k : WaitKind) (n : Nat) (t : Trap) : (s.block k n t).views = s.views := by unfold State.block; split <;> rfl
@[simp] theorem State.block_backs (k : WaitKind) (n : Nat) (t : Trap) : (s.block k n t).backs = s.backs := by unfold State.block; split <;> rfl
@[simp] theorem State.block_holders (k : WaitKind) (n : Nat) (t : Trap) : (s.block k n t).holders = s.holders := by unfold State.block; split <;> rfl
@[simp] theorem State.block_bits (k : WaitKind) (n : Nat) (t : Trap) : (s.block k n t).bits = s.bits := by unfold State.block; split <;> rfl
@[simp] theorem State.block_poison (k : WaitKind) (n : Nat) (t : Trap) : (s.block k n t).poison = s.poison := by unfold State.block; split <;> rfl
@[simp] theorem State.block_bad (k : WaitKind) (n : Nat) (t : Trap) : (s.block k n t).bad = s.bad := by unfold State.block; split <;> rfl
@[simp] theorem State.block_partials (k : WaitKind) (n : Nat) (t : Trap) : (s.block k n t).partials = s.partials := by unfold State.block; split <;> rfl
@[simp] theorem State.block_counters (k : WaitKind) (n : Nat) (t : Trap) : (s.block k n t).counters = s.counters := by unfold State.block; split <;> rfl
@[simp] theorem State.block_subs (k : WaitKind) (n : Nat) (t : Trap) : (s.block k n t).subs = s.subs := by unfold State.block; split <;> rfl
@[simp] theorem State.block_subGens (k : WaitKind) (n : Nat) (t : Trap) : (s.block k n t).subGens = s.subGens := by unfold State.block; split <;> rfl
@[simp] theorem State.block_copies (k : WaitKind) (n : Nat) (t : Trap) : (s.block k n t).copies = s.copies := by unfold State.block; split <;> rfl
@[simp] theorem State.block_tiles (k : WaitKind) (n : Nat) (t : Trap) : (s.block k n t).tiles = s.tiles := by unfold State.block; split <;> rfl
@[simp] theorem State.block_inbound (k : WaitKind) (n : Nat) (t : Trap) : (s.block k n t).inbound = s.inbound := by unfold State.block; split <;> rfl
@[simp] theorem State.block_matops (k : WaitKind) (n : Nat) (t : Trap) : (s.block k n t).matops = s.matops := by unfold State.block; split <;> rfl
@[simp] theorem State.block_permits (k : WaitKind) (n : Nat) (t : Trap) : (s.block k n t).permits = s.permits := by unfold State.block; split <;> rfl
@[simp] theorem State.block_shards (k : WaitKind) (n : Nat) (t : Trap) : (s.block k n t).shards = s.shards := by unfold State.block; split <;> rfl
@[simp] theorem State.block_shoots (k : WaitKind) (n : Nat) (t : Trap) : (s.block k n t).shoots = s.shoots := by unfold State.block; split <;> rfl
@[simp] theorem State.block_msgs (k : WaitKind) (n : Nat) (t : Trap) : (s.block k n t).msgs = s.msgs := by unfold State.block; split <;> rfl
@[simp] theorem State.block_links (k : WaitKind) (n : Nat) (t : Trap) : (s.block k n t).links = s.links := by unfold State.block; split <;> rfl
@[simp] theorem State.block_keys (k : WaitKind) (n : Nat) (t : Trap) : (s.block k n t).keys = s.keys := by unfold State.block; split <;> rfl
@[simp] theorem State.block_part (k : WaitKind) (n : Nat) (t : Trap) : (s.block k n t).part = s.part := by unfold State.block; split <;> rfl
@[simp] theorem State.block_pkgid (k : WaitKind) (n : Nat) (t : Trap) : (s.block k n t).pkgid = s.pkgid := by unfold State.block; split <;> rfl
@[simp] theorem State.block_pkgs (k : WaitKind) (n : Nat) (t : Trap) : (s.block k n t).pkgs = s.pkgs := by unfold State.block; split <;> rfl
@[simp] theorem State.block_everPkgs (k : WaitKind) (n : Nat) (t : Trap) : (s.block k n t).everPkgs = s.everPkgs := by unfold State.block; split <;> rfl
@[simp] theorem State.block_deadPkgs (k : WaitKind) (n : Nat) (t : Trap) : (s.block k n t).deadPkgs = s.deadPkgs := by unfold State.block; split <;> rfl
@[simp] theorem State.block_outcast (k : WaitKind) (n : Nat) (t : Trap) : (s.block k n t).outcast = s.outcast := by unfold State.block; split <;> rfl
@[simp] theorem State.block_pkgGen (k : WaitKind) (n : Nat) (t : Trap) : (s.block k n t).pkgGen = s.pkgGen := by unfold State.block; split <;> rfl
@[simp] theorem State.block_epoch (k : WaitKind) (n : Nat) (t : Trap) : (s.block k n t).epoch = s.epoch := by unfold State.block; split <;> rfl
@[simp] theorem State.block_pkgSeq (k : WaitKind) (n : Nat) (t : Trap) : (s.block k n t).pkgSeq = s.pkgSeq := by unfold State.block; split <;> rfl
@[simp] theorem State.block_domSeq (k : WaitKind) (n : Nat) (t : Trap) : (s.block k n t).domSeq = s.domSeq := by unfold State.block; split <;> rfl
@[simp] theorem State.block_misses (k : WaitKind) (n : Nat) (t : Trap) : (s.block k n t).misses = s.misses := by unfold State.block; split <;> rfl
@[simp] theorem State.block_lqWait (k : WaitKind) (n : Nat) (t : Trap) : (s.block k n t).lqWait = s.lqWait := by unfold State.block; split <;> rfl
@[simp] theorem State.block_boot (k : WaitKind) (n : Nat) (t : Trap) : (s.block k n t).boot = s.boot := by unfold State.block; split <;> rfl
@[simp] theorem State.block_images (k : WaitKind) (n : Nat) (t : Trap) : (s.block k n t).images = s.images := by unfold State.block; split <;> rfl
@[simp] theorem State.block_minVer (k : WaitKind) (n : Nat) (t : Trap) : (s.block k n t).minVer = s.minVer := by unfold State.block; split <;> rfl
@[simp] theorem State.block_romKey (k : WaitKind) (n : Nat) (t : Trap) : (s.block k n t).romKey = s.romKey := by unfold State.block; split <;> rfl
@[simp] theorem State.block_measure (k : WaitKind) (n : Nat) (t : Trap) : (s.block k n t).measure = s.measure := by unfold State.block; split <;> rfl
@[simp] theorem State.block_hot (k : WaitKind) (n : Nat) (t : Trap) : (s.block k n t).hot = s.hot := by unfold State.block; split <;> rfl
@[simp] theorem State.block_tick (k : WaitKind) (n : Nat) (t : Trap) : (s.block k n t).tick = s.tick := by unfold State.block; split <;> rfl
@[simp] theorem State.block_clock (k : WaitKind) (n : Nat) (t : Trap) : (s.block k n t).clock = s.clock := by unfold State.block; split <;> rfl
@[simp] theorem State.block_next (k : WaitKind) (n : Nat) (t : Trap) : (s.block k n t).next = s.next := by unfold State.block; split <;> rfl
@[simp] theorem State.block_inputs (k : WaitKind) (n : Nat) (t : Trap) : (s.block k n t).inputs = s.inputs := by unfold State.block; split <;> rfl

@[simp] theorem State.writeLanes_rest (d : Name) (w : Nat) (l : Option Latch) (xs : List (Nat × Nat)) : (s.writeLanes d w l xs).rest = s.rest := by unfold State.writeLanes; cases d <;> cases l <;> rfl
@[simp] theorem State.writeLanes_sel (d : Name) (w : Nat) (l : Option Latch) (xs : List (Nat × Nat)) : (s.writeLanes d w l xs).sel = s.sel := by unfold State.writeLanes; cases d <;> cases l <;> rfl
@[simp] theorem State.writeLanes_word (d : Name) (w : Nat) (l : Option Latch) (xs : List (Nat × Nat)) : (s.writeLanes d w l xs).word = s.word := by unfold State.writeLanes; cases d <;> cases l <;> rfl
@[simp] theorem State.writeLanes_folios (d : Name) (w : Nat) (l : Option Latch) (xs : List (Nat × Nat)) : (s.writeLanes d w l xs).folios = s.folios := by unfold State.writeLanes; cases d <;> cases l <;> rfl
@[simp] theorem State.writeLanes_volumes (d : Name) (w : Nat) (l : Option Latch) (xs : List (Nat × Nat)) : (s.writeLanes d w l xs).volumes = s.volumes := by unfold State.writeLanes; cases d <;> cases l <;> rfl
@[simp] theorem State.writeLanes_colls (d : Name) (w : Nat) (l : Option Latch) (xs : List (Nat × Nat)) : (s.writeLanes d w l xs).colls = s.colls := by unfold State.writeLanes; cases d <;> cases l <;> rfl
@[simp] theorem State.writeLanes_saved (d : Name) (w : Nat) (l : Option Latch) (xs : List (Nat × Nat)) : (s.writeLanes d w l xs).saved = s.saved := by unfold State.writeLanes; cases d <;> cases l <;> rfl
@[simp] theorem State.writeLanes_remaps (d : Name) (w : Nat) (l : Option Latch) (xs : List (Nat × Nat)) : (s.writeLanes d w l xs).remaps = s.remaps := by unfold State.writeLanes; cases d <;> cases l <;> rfl
@[simp] theorem State.writeLanes_dies (d : Name) (w : Nat) (l : Option Latch) (xs : List (Nat × Nat)) : (s.writeLanes d w l xs).dies = s.dies := by unfold State.writeLanes; cases d <;> cases l <;> rfl
@[simp] theorem State.writeLanes_mem (d : Name) (w : Nat) (l : Option Latch) (xs : List (Nat × Nat)) : (s.writeLanes d w l xs).mem = s.mem := by unfold State.writeLanes; cases d <;> cases l <;> rfl
@[simp] theorem State.writeLanes_lineKey (d : Name) (w : Nat) (l : Option Latch) (xs : List (Nat × Nat)) : (s.writeLanes d w l xs).lineKey = s.lineKey := by unfold State.writeLanes; cases d <;> cases l <;> rfl
@[simp] theorem State.writeLanes_class_ (d : Name) (w : Nat) (l : Option Latch) (xs : List (Nat × Nat)) : (s.writeLanes d w l xs).class_ = s.class_ := by unfold State.writeLanes; cases d <;> cases l <;> rfl
@[simp] theorem State.writeLanes_shadow (d : Name) (w : Nat) (l : Option Latch) (xs : List (Nat × Nat)) : (s.writeLanes d w l xs).shadow = s.shadow := by unfold State.writeLanes; cases d <;> cases l <;> rfl
@[simp] theorem State.writeLanes_stores (d : Name) (w : Nat) (l : Option Latch) (xs : List (Nat × Nat)) : (s.writeLanes d w l xs).stores = s.stores := by unfold State.writeLanes; cases d <;> cases l <;> rfl
@[simp] theorem State.writeLanes_hist (d : Name) (w : Nat) (l : Option Latch) (xs : List (Nat × Nat)) : (s.writeLanes d w l xs).hist = s.hist := by unfold State.writeLanes; cases d <;> cases l <;> rfl
@[simp] theorem State.writeLanes_views (d : Name) (w : Nat) (l : Option Latch) (xs : List (Nat × Nat)) : (s.writeLanes d w l xs).views = s.views := by unfold State.writeLanes; cases d <;> cases l <;> rfl
@[simp] theorem State.writeLanes_backs (d : Name) (w : Nat) (l : Option Latch) (xs : List (Nat × Nat)) : (s.writeLanes d w l xs).backs = s.backs := by unfold State.writeLanes; cases d <;> cases l <;> rfl
@[simp] theorem State.writeLanes_holders (d : Name) (w : Nat) (l : Option Latch) (xs : List (Nat × Nat)) : (s.writeLanes d w l xs).holders = s.holders := by unfold State.writeLanes; cases d <;> cases l <;> rfl
@[simp] theorem State.writeLanes_bits (d : Name) (w : Nat) (l : Option Latch) (xs : List (Nat × Nat)) : (s.writeLanes d w l xs).bits = s.bits := by unfold State.writeLanes; cases d <;> cases l <;> rfl
@[simp] theorem State.writeLanes_poison (d : Name) (w : Nat) (l : Option Latch) (xs : List (Nat × Nat)) : (s.writeLanes d w l xs).poison = s.poison := by unfold State.writeLanes; cases d <;> cases l <;> rfl
@[simp] theorem State.writeLanes_partials (d : Name) (w : Nat) (l : Option Latch) (xs : List (Nat × Nat)) : (s.writeLanes d w l xs).partials = s.partials := by unfold State.writeLanes; cases d <;> cases l <;> rfl
@[simp] theorem State.writeLanes_counters (d : Name) (w : Nat) (l : Option Latch) (xs : List (Nat × Nat)) : (s.writeLanes d w l xs).counters = s.counters := by unfold State.writeLanes; cases d <;> cases l <;> rfl
@[simp] theorem State.writeLanes_subs (d : Name) (w : Nat) (l : Option Latch) (xs : List (Nat × Nat)) : (s.writeLanes d w l xs).subs = s.subs := by unfold State.writeLanes; cases d <;> cases l <;> rfl
@[simp] theorem State.writeLanes_subGens (d : Name) (w : Nat) (l : Option Latch) (xs : List (Nat × Nat)) : (s.writeLanes d w l xs).subGens = s.subGens := by unfold State.writeLanes; cases d <;> cases l <;> rfl
@[simp] theorem State.writeLanes_copies (d : Name) (w : Nat) (l : Option Latch) (xs : List (Nat × Nat)) : (s.writeLanes d w l xs).copies = s.copies := by unfold State.writeLanes; cases d <;> cases l <;> rfl
@[simp] theorem State.writeLanes_tiles (d : Name) (w : Nat) (l : Option Latch) (xs : List (Nat × Nat)) : (s.writeLanes d w l xs).tiles = s.tiles := by unfold State.writeLanes; cases d <;> cases l <;> rfl
@[simp] theorem State.writeLanes_inbound (d : Name) (w : Nat) (l : Option Latch) (xs : List (Nat × Nat)) : (s.writeLanes d w l xs).inbound = s.inbound := by unfold State.writeLanes; cases d <;> cases l <;> rfl
@[simp] theorem State.writeLanes_matops (d : Name) (w : Nat) (l : Option Latch) (xs : List (Nat × Nat)) : (s.writeLanes d w l xs).matops = s.matops := by unfold State.writeLanes; cases d <;> cases l <;> rfl
@[simp] theorem State.writeLanes_permits (d : Name) (w : Nat) (l : Option Latch) (xs : List (Nat × Nat)) : (s.writeLanes d w l xs).permits = s.permits := by unfold State.writeLanes; cases d <;> cases l <;> rfl
@[simp] theorem State.writeLanes_shards (d : Name) (w : Nat) (l : Option Latch) (xs : List (Nat × Nat)) : (s.writeLanes d w l xs).shards = s.shards := by unfold State.writeLanes; cases d <;> cases l <;> rfl
@[simp] theorem State.writeLanes_shoots (d : Name) (w : Nat) (l : Option Latch) (xs : List (Nat × Nat)) : (s.writeLanes d w l xs).shoots = s.shoots := by unfold State.writeLanes; cases d <;> cases l <;> rfl
@[simp] theorem State.writeLanes_msgs (d : Name) (w : Nat) (l : Option Latch) (xs : List (Nat × Nat)) : (s.writeLanes d w l xs).msgs = s.msgs := by unfold State.writeLanes; cases d <;> cases l <;> rfl
@[simp] theorem State.writeLanes_links (d : Name) (w : Nat) (l : Option Latch) (xs : List (Nat × Nat)) : (s.writeLanes d w l xs).links = s.links := by unfold State.writeLanes; cases d <;> cases l <;> rfl
@[simp] theorem State.writeLanes_keys (d : Name) (w : Nat) (l : Option Latch) (xs : List (Nat × Nat)) : (s.writeLanes d w l xs).keys = s.keys := by unfold State.writeLanes; cases d <;> cases l <;> rfl
@[simp] theorem State.writeLanes_part (d : Name) (w : Nat) (l : Option Latch) (xs : List (Nat × Nat)) : (s.writeLanes d w l xs).part = s.part := by unfold State.writeLanes; cases d <;> cases l <;> rfl
@[simp] theorem State.writeLanes_pkgid (d : Name) (w : Nat) (l : Option Latch) (xs : List (Nat × Nat)) : (s.writeLanes d w l xs).pkgid = s.pkgid := by unfold State.writeLanes; cases d <;> cases l <;> rfl
@[simp] theorem State.writeLanes_pkgs (d : Name) (w : Nat) (l : Option Latch) (xs : List (Nat × Nat)) : (s.writeLanes d w l xs).pkgs = s.pkgs := by unfold State.writeLanes; cases d <;> cases l <;> rfl
@[simp] theorem State.writeLanes_everPkgs (d : Name) (w : Nat) (l : Option Latch) (xs : List (Nat × Nat)) : (s.writeLanes d w l xs).everPkgs = s.everPkgs := by unfold State.writeLanes; cases d <;> cases l <;> rfl
@[simp] theorem State.writeLanes_deadPkgs (d : Name) (w : Nat) (l : Option Latch) (xs : List (Nat × Nat)) : (s.writeLanes d w l xs).deadPkgs = s.deadPkgs := by unfold State.writeLanes; cases d <;> cases l <;> rfl
@[simp] theorem State.writeLanes_outcast (d : Name) (w : Nat) (l : Option Latch) (xs : List (Nat × Nat)) : (s.writeLanes d w l xs).outcast = s.outcast := by unfold State.writeLanes; cases d <;> cases l <;> rfl
@[simp] theorem State.writeLanes_pkgGen (d : Name) (w : Nat) (l : Option Latch) (xs : List (Nat × Nat)) : (s.writeLanes d w l xs).pkgGen = s.pkgGen := by unfold State.writeLanes; cases d <;> cases l <;> rfl
@[simp] theorem State.writeLanes_epoch (d : Name) (w : Nat) (l : Option Latch) (xs : List (Nat × Nat)) : (s.writeLanes d w l xs).epoch = s.epoch := by unfold State.writeLanes; cases d <;> cases l <;> rfl
@[simp] theorem State.writeLanes_pkgSeq (d : Name) (w : Nat) (l : Option Latch) (xs : List (Nat × Nat)) : (s.writeLanes d w l xs).pkgSeq = s.pkgSeq := by unfold State.writeLanes; cases d <;> cases l <;> rfl
@[simp] theorem State.writeLanes_domSeq (d : Name) (w : Nat) (l : Option Latch) (xs : List (Nat × Nat)) : (s.writeLanes d w l xs).domSeq = s.domSeq := by unfold State.writeLanes; cases d <;> cases l <;> rfl
@[simp] theorem State.writeLanes_misses (d : Name) (w : Nat) (l : Option Latch) (xs : List (Nat × Nat)) : (s.writeLanes d w l xs).misses = s.misses := by unfold State.writeLanes; cases d <;> cases l <;> rfl
@[simp] theorem State.writeLanes_lqWait (d : Name) (w : Nat) (l : Option Latch) (xs : List (Nat × Nat)) : (s.writeLanes d w l xs).lqWait = s.lqWait := by unfold State.writeLanes; cases d <;> cases l <;> rfl
@[simp] theorem State.writeLanes_boot (d : Name) (w : Nat) (l : Option Latch) (xs : List (Nat × Nat)) : (s.writeLanes d w l xs).boot = s.boot := by unfold State.writeLanes; cases d <;> cases l <;> rfl
@[simp] theorem State.writeLanes_images (d : Name) (w : Nat) (l : Option Latch) (xs : List (Nat × Nat)) : (s.writeLanes d w l xs).images = s.images := by unfold State.writeLanes; cases d <;> cases l <;> rfl
@[simp] theorem State.writeLanes_minVer (d : Name) (w : Nat) (l : Option Latch) (xs : List (Nat × Nat)) : (s.writeLanes d w l xs).minVer = s.minVer := by unfold State.writeLanes; cases d <;> cases l <;> rfl
@[simp] theorem State.writeLanes_romKey (d : Name) (w : Nat) (l : Option Latch) (xs : List (Nat × Nat)) : (s.writeLanes d w l xs).romKey = s.romKey := by unfold State.writeLanes; cases d <;> cases l <;> rfl
@[simp] theorem State.writeLanes_measure (d : Name) (w : Nat) (l : Option Latch) (xs : List (Nat × Nat)) : (s.writeLanes d w l xs).measure = s.measure := by unfold State.writeLanes; cases d <;> cases l <;> rfl
@[simp] theorem State.writeLanes_hot (d : Name) (w : Nat) (l : Option Latch) (xs : List (Nat × Nat)) : (s.writeLanes d w l xs).hot = s.hot := by unfold State.writeLanes; cases d <;> cases l <;> rfl
@[simp] theorem State.writeLanes_tick (d : Name) (w : Nat) (l : Option Latch) (xs : List (Nat × Nat)) : (s.writeLanes d w l xs).tick = s.tick := by unfold State.writeLanes; cases d <;> cases l <;> rfl
@[simp] theorem State.writeLanes_clock (d : Name) (w : Nat) (l : Option Latch) (xs : List (Nat × Nat)) : (s.writeLanes d w l xs).clock = s.clock := by unfold State.writeLanes; cases d <;> cases l <;> rfl
@[simp] theorem State.writeLanes_order (d : Name) (w : Nat) (l : Option Latch) (xs : List (Nat × Nat)) : (s.writeLanes d w l xs).order = s.order := by unfold State.writeLanes; cases d <;> cases l <;> rfl
@[simp] theorem State.writeLanes_next (d : Name) (w : Nat) (l : Option Latch) (xs : List (Nat × Nat)) : (s.writeLanes d w l xs).next = s.next := by unfold State.writeLanes; cases d <;> cases l <;> rfl
@[simp] theorem State.writeLanes_inputs (d : Name) (w : Nat) (l : Option Latch) (xs : List (Nat × Nat)) : (s.writeLanes d w l xs).inputs = s.inputs := by unfold State.writeLanes; cases d <;> cases l <;> rfl

@[simp] theorem State.writePreds_rest (n : Nat) (xs : List (Nat × Bool)) : (s.writePreds n xs).rest = s.rest := rfl
@[simp] theorem State.writePreds_sel (n : Nat) (xs : List (Nat × Bool)) : (s.writePreds n xs).sel = s.sel := rfl
@[simp] theorem State.writePreds_word (n : Nat) (xs : List (Nat × Bool)) : (s.writePreds n xs).word = s.word := rfl
@[simp] theorem State.writePreds_folios (n : Nat) (xs : List (Nat × Bool)) : (s.writePreds n xs).folios = s.folios := rfl
@[simp] theorem State.writePreds_volumes (n : Nat) (xs : List (Nat × Bool)) : (s.writePreds n xs).volumes = s.volumes := rfl
@[simp] theorem State.writePreds_colls (n : Nat) (xs : List (Nat × Bool)) : (s.writePreds n xs).colls = s.colls := rfl
@[simp] theorem State.writePreds_saved (n : Nat) (xs : List (Nat × Bool)) : (s.writePreds n xs).saved = s.saved := rfl
@[simp] theorem State.writePreds_remaps (n : Nat) (xs : List (Nat × Bool)) : (s.writePreds n xs).remaps = s.remaps := rfl
@[simp] theorem State.writePreds_dies (n : Nat) (xs : List (Nat × Bool)) : (s.writePreds n xs).dies = s.dies := rfl
@[simp] theorem State.writePreds_mem (n : Nat) (xs : List (Nat × Bool)) : (s.writePreds n xs).mem = s.mem := rfl
@[simp] theorem State.writePreds_lineKey (n : Nat) (xs : List (Nat × Bool)) : (s.writePreds n xs).lineKey = s.lineKey := rfl
@[simp] theorem State.writePreds_class_ (n : Nat) (xs : List (Nat × Bool)) : (s.writePreds n xs).class_ = s.class_ := rfl
@[simp] theorem State.writePreds_shadow (n : Nat) (xs : List (Nat × Bool)) : (s.writePreds n xs).shadow = s.shadow := rfl
@[simp] theorem State.writePreds_stores (n : Nat) (xs : List (Nat × Bool)) : (s.writePreds n xs).stores = s.stores := rfl
@[simp] theorem State.writePreds_hist (n : Nat) (xs : List (Nat × Bool)) : (s.writePreds n xs).hist = s.hist := rfl
@[simp] theorem State.writePreds_views (n : Nat) (xs : List (Nat × Bool)) : (s.writePreds n xs).views = s.views := rfl
@[simp] theorem State.writePreds_backs (n : Nat) (xs : List (Nat × Bool)) : (s.writePreds n xs).backs = s.backs := rfl
@[simp] theorem State.writePreds_holders (n : Nat) (xs : List (Nat × Bool)) : (s.writePreds n xs).holders = s.holders := rfl
@[simp] theorem State.writePreds_bits (n : Nat) (xs : List (Nat × Bool)) : (s.writePreds n xs).bits = s.bits := rfl
@[simp] theorem State.writePreds_poison (n : Nat) (xs : List (Nat × Bool)) : (s.writePreds n xs).poison = s.poison := rfl
@[simp] theorem State.writePreds_bad (n : Nat) (xs : List (Nat × Bool)) : (s.writePreds n xs).bad = s.bad := rfl
@[simp] theorem State.writePreds_partials (n : Nat) (xs : List (Nat × Bool)) : (s.writePreds n xs).partials = s.partials := rfl
@[simp] theorem State.writePreds_counters (n : Nat) (xs : List (Nat × Bool)) : (s.writePreds n xs).counters = s.counters := rfl
@[simp] theorem State.writePreds_subs (n : Nat) (xs : List (Nat × Bool)) : (s.writePreds n xs).subs = s.subs := rfl
@[simp] theorem State.writePreds_subGens (n : Nat) (xs : List (Nat × Bool)) : (s.writePreds n xs).subGens = s.subGens := rfl
@[simp] theorem State.writePreds_copies (n : Nat) (xs : List (Nat × Bool)) : (s.writePreds n xs).copies = s.copies := rfl
@[simp] theorem State.writePreds_tiles (n : Nat) (xs : List (Nat × Bool)) : (s.writePreds n xs).tiles = s.tiles := rfl
@[simp] theorem State.writePreds_inbound (n : Nat) (xs : List (Nat × Bool)) : (s.writePreds n xs).inbound = s.inbound := rfl
@[simp] theorem State.writePreds_matops (n : Nat) (xs : List (Nat × Bool)) : (s.writePreds n xs).matops = s.matops := rfl
@[simp] theorem State.writePreds_permits (n : Nat) (xs : List (Nat × Bool)) : (s.writePreds n xs).permits = s.permits := rfl
@[simp] theorem State.writePreds_shards (n : Nat) (xs : List (Nat × Bool)) : (s.writePreds n xs).shards = s.shards := rfl
@[simp] theorem State.writePreds_shoots (n : Nat) (xs : List (Nat × Bool)) : (s.writePreds n xs).shoots = s.shoots := rfl
@[simp] theorem State.writePreds_msgs (n : Nat) (xs : List (Nat × Bool)) : (s.writePreds n xs).msgs = s.msgs := rfl
@[simp] theorem State.writePreds_links (n : Nat) (xs : List (Nat × Bool)) : (s.writePreds n xs).links = s.links := rfl
@[simp] theorem State.writePreds_keys (n : Nat) (xs : List (Nat × Bool)) : (s.writePreds n xs).keys = s.keys := rfl
@[simp] theorem State.writePreds_part (n : Nat) (xs : List (Nat × Bool)) : (s.writePreds n xs).part = s.part := rfl
@[simp] theorem State.writePreds_pkgid (n : Nat) (xs : List (Nat × Bool)) : (s.writePreds n xs).pkgid = s.pkgid := rfl
@[simp] theorem State.writePreds_pkgs (n : Nat) (xs : List (Nat × Bool)) : (s.writePreds n xs).pkgs = s.pkgs := rfl
@[simp] theorem State.writePreds_everPkgs (n : Nat) (xs : List (Nat × Bool)) : (s.writePreds n xs).everPkgs = s.everPkgs := rfl
@[simp] theorem State.writePreds_deadPkgs (n : Nat) (xs : List (Nat × Bool)) : (s.writePreds n xs).deadPkgs = s.deadPkgs := rfl
@[simp] theorem State.writePreds_outcast (n : Nat) (xs : List (Nat × Bool)) : (s.writePreds n xs).outcast = s.outcast := rfl
@[simp] theorem State.writePreds_pkgGen (n : Nat) (xs : List (Nat × Bool)) : (s.writePreds n xs).pkgGen = s.pkgGen := rfl
@[simp] theorem State.writePreds_epoch (n : Nat) (xs : List (Nat × Bool)) : (s.writePreds n xs).epoch = s.epoch := rfl
@[simp] theorem State.writePreds_pkgSeq (n : Nat) (xs : List (Nat × Bool)) : (s.writePreds n xs).pkgSeq = s.pkgSeq := rfl
@[simp] theorem State.writePreds_domSeq (n : Nat) (xs : List (Nat × Bool)) : (s.writePreds n xs).domSeq = s.domSeq := rfl
@[simp] theorem State.writePreds_misses (n : Nat) (xs : List (Nat × Bool)) : (s.writePreds n xs).misses = s.misses := rfl
@[simp] theorem State.writePreds_lqWait (n : Nat) (xs : List (Nat × Bool)) : (s.writePreds n xs).lqWait = s.lqWait := rfl
@[simp] theorem State.writePreds_boot (n : Nat) (xs : List (Nat × Bool)) : (s.writePreds n xs).boot = s.boot := rfl
@[simp] theorem State.writePreds_images (n : Nat) (xs : List (Nat × Bool)) : (s.writePreds n xs).images = s.images := rfl
@[simp] theorem State.writePreds_minVer (n : Nat) (xs : List (Nat × Bool)) : (s.writePreds n xs).minVer = s.minVer := rfl
@[simp] theorem State.writePreds_romKey (n : Nat) (xs : List (Nat × Bool)) : (s.writePreds n xs).romKey = s.romKey := rfl
@[simp] theorem State.writePreds_measure (n : Nat) (xs : List (Nat × Bool)) : (s.writePreds n xs).measure = s.measure := rfl
@[simp] theorem State.writePreds_hot (n : Nat) (xs : List (Nat × Bool)) : (s.writePreds n xs).hot = s.hot := rfl
@[simp] theorem State.writePreds_tick (n : Nat) (xs : List (Nat × Bool)) : (s.writePreds n xs).tick = s.tick := rfl
@[simp] theorem State.writePreds_clock (n : Nat) (xs : List (Nat × Bool)) : (s.writePreds n xs).clock = s.clock := rfl
@[simp] theorem State.writePreds_order (n : Nat) (xs : List (Nat × Bool)) : (s.writePreds n xs).order = s.order := rfl
@[simp] theorem State.writePreds_next (n : Nat) (xs : List (Nat × Bool)) : (s.writePreds n xs).next = s.next := rfl
@[simp] theorem State.writePreds_inputs (n : Nat) (xs : List (Nat × Bool)) : (s.writePreds n xs).inputs = s.inputs := rfl

@[simp] theorem State.putByte_q (a : Nat) (b : Byte) : (s.putByte a b).q = s.q := rfl
@[simp] theorem State.putByte_rest (a : Nat) (b : Byte) : (s.putByte a b).rest = s.rest := rfl
@[simp] theorem State.putByte_sel (a : Nat) (b : Byte) : (s.putByte a b).sel = s.sel := rfl
@[simp] theorem State.putByte_word (a : Nat) (b : Byte) : (s.putByte a b).word = s.word := rfl
@[simp] theorem State.putByte_folios (a : Nat) (b : Byte) : (s.putByte a b).folios = s.folios := rfl
@[simp] theorem State.putByte_volumes (a : Nat) (b : Byte) : (s.putByte a b).volumes = s.volumes := rfl
@[simp] theorem State.putByte_colls (a : Nat) (b : Byte) : (s.putByte a b).colls = s.colls := rfl
@[simp] theorem State.putByte_saved (a : Nat) (b : Byte) : (s.putByte a b).saved = s.saved := rfl
@[simp] theorem State.putByte_remaps (a : Nat) (b : Byte) : (s.putByte a b).remaps = s.remaps := rfl
@[simp] theorem State.putByte_dies (a : Nat) (b : Byte) : (s.putByte a b).dies = s.dies := rfl
@[simp] theorem State.putByte_lineKey (a : Nat) (b : Byte) : (s.putByte a b).lineKey = s.lineKey := rfl
@[simp] theorem State.putByte_class_ (a : Nat) (b : Byte) : (s.putByte a b).class_ = s.class_ := rfl
@[simp] theorem State.putByte_shadow (a : Nat) (b : Byte) : (s.putByte a b).shadow = s.shadow := rfl
@[simp] theorem State.putByte_stores (a : Nat) (b : Byte) : (s.putByte a b).stores = s.stores := rfl
@[simp] theorem State.putByte_hist (a : Nat) (b : Byte) : (s.putByte a b).hist = s.hist := rfl
@[simp] theorem State.putByte_views (a : Nat) (b : Byte) : (s.putByte a b).views = s.views := rfl
@[simp] theorem State.putByte_backs (a : Nat) (b : Byte) : (s.putByte a b).backs = s.backs := rfl
@[simp] theorem State.putByte_holders (a : Nat) (b : Byte) : (s.putByte a b).holders = s.holders := rfl
@[simp] theorem State.putByte_bits (a : Nat) (b : Byte) : (s.putByte a b).bits = s.bits := rfl
@[simp] theorem State.putByte_poison (a : Nat) (b : Byte) : (s.putByte a b).poison = s.poison := rfl
@[simp] theorem State.putByte_bad (a : Nat) (b : Byte) : (s.putByte a b).bad = s.bad := rfl
@[simp] theorem State.putByte_partials (a : Nat) (b : Byte) : (s.putByte a b).partials = s.partials := rfl
@[simp] theorem State.putByte_counters (a : Nat) (b : Byte) : (s.putByte a b).counters = s.counters := rfl
@[simp] theorem State.putByte_subs (a : Nat) (b : Byte) : (s.putByte a b).subs = s.subs := rfl
@[simp] theorem State.putByte_subGens (a : Nat) (b : Byte) : (s.putByte a b).subGens = s.subGens := rfl
@[simp] theorem State.putByte_copies (a : Nat) (b : Byte) : (s.putByte a b).copies = s.copies := rfl
@[simp] theorem State.putByte_tiles (a : Nat) (b : Byte) : (s.putByte a b).tiles = s.tiles := rfl
@[simp] theorem State.putByte_inbound (a : Nat) (b : Byte) : (s.putByte a b).inbound = s.inbound := rfl
@[simp] theorem State.putByte_matops (a : Nat) (b : Byte) : (s.putByte a b).matops = s.matops := rfl
@[simp] theorem State.putByte_permits (a : Nat) (b : Byte) : (s.putByte a b).permits = s.permits := rfl
@[simp] theorem State.putByte_shards (a : Nat) (b : Byte) : (s.putByte a b).shards = s.shards := rfl
@[simp] theorem State.putByte_shoots (a : Nat) (b : Byte) : (s.putByte a b).shoots = s.shoots := rfl
@[simp] theorem State.putByte_msgs (a : Nat) (b : Byte) : (s.putByte a b).msgs = s.msgs := rfl
@[simp] theorem State.putByte_links (a : Nat) (b : Byte) : (s.putByte a b).links = s.links := rfl
@[simp] theorem State.putByte_keys (a : Nat) (b : Byte) : (s.putByte a b).keys = s.keys := rfl
@[simp] theorem State.putByte_part (a : Nat) (b : Byte) : (s.putByte a b).part = s.part := rfl
@[simp] theorem State.putByte_pkgid (a : Nat) (b : Byte) : (s.putByte a b).pkgid = s.pkgid := rfl
@[simp] theorem State.putByte_pkgs (a : Nat) (b : Byte) : (s.putByte a b).pkgs = s.pkgs := rfl
@[simp] theorem State.putByte_everPkgs (a : Nat) (b : Byte) : (s.putByte a b).everPkgs = s.everPkgs := rfl
@[simp] theorem State.putByte_deadPkgs (a : Nat) (b : Byte) : (s.putByte a b).deadPkgs = s.deadPkgs := rfl
@[simp] theorem State.putByte_outcast (a : Nat) (b : Byte) : (s.putByte a b).outcast = s.outcast := rfl
@[simp] theorem State.putByte_pkgGen (a : Nat) (b : Byte) : (s.putByte a b).pkgGen = s.pkgGen := rfl
@[simp] theorem State.putByte_epoch (a : Nat) (b : Byte) : (s.putByte a b).epoch = s.epoch := rfl
@[simp] theorem State.putByte_pkgSeq (a : Nat) (b : Byte) : (s.putByte a b).pkgSeq = s.pkgSeq := rfl
@[simp] theorem State.putByte_domSeq (a : Nat) (b : Byte) : (s.putByte a b).domSeq = s.domSeq := rfl
@[simp] theorem State.putByte_misses (a : Nat) (b : Byte) : (s.putByte a b).misses = s.misses := rfl
@[simp] theorem State.putByte_lqWait (a : Nat) (b : Byte) : (s.putByte a b).lqWait = s.lqWait := rfl
@[simp] theorem State.putByte_boot (a : Nat) (b : Byte) : (s.putByte a b).boot = s.boot := rfl
@[simp] theorem State.putByte_images (a : Nat) (b : Byte) : (s.putByte a b).images = s.images := rfl
@[simp] theorem State.putByte_minVer (a : Nat) (b : Byte) : (s.putByte a b).minVer = s.minVer := rfl
@[simp] theorem State.putByte_romKey (a : Nat) (b : Byte) : (s.putByte a b).romKey = s.romKey := rfl
@[simp] theorem State.putByte_measure (a : Nat) (b : Byte) : (s.putByte a b).measure = s.measure := rfl
@[simp] theorem State.putByte_hot (a : Nat) (b : Byte) : (s.putByte a b).hot = s.hot := rfl
@[simp] theorem State.putByte_tick (a : Nat) (b : Byte) : (s.putByte a b).tick = s.tick := rfl
@[simp] theorem State.putByte_clock (a : Nat) (b : Byte) : (s.putByte a b).clock = s.clock := rfl
@[simp] theorem State.putByte_order (a : Nat) (b : Byte) : (s.putByte a b).order = s.order := rfl
@[simp] theorem State.putByte_next (a : Nat) (b : Byte) : (s.putByte a b).next = s.next := rfl
@[simp] theorem State.putByte_inputs (a : Nat) (b : Byte) : (s.putByte a b).inputs = s.inputs := rfl

@[simp] theorem State.putBytes_q (a : Nat) (bs : List Byte) : (s.putBytes a bs).q = s.q := rfl
@[simp] theorem State.putBytes_rest (a : Nat) (bs : List Byte) : (s.putBytes a bs).rest = s.rest := rfl
@[simp] theorem State.putBytes_sel (a : Nat) (bs : List Byte) : (s.putBytes a bs).sel = s.sel := rfl
@[simp] theorem State.putBytes_word (a : Nat) (bs : List Byte) : (s.putBytes a bs).word = s.word := rfl
@[simp] theorem State.putBytes_folios (a : Nat) (bs : List Byte) : (s.putBytes a bs).folios = s.folios := rfl
@[simp] theorem State.putBytes_volumes (a : Nat) (bs : List Byte) : (s.putBytes a bs).volumes = s.volumes := rfl
@[simp] theorem State.putBytes_colls (a : Nat) (bs : List Byte) : (s.putBytes a bs).colls = s.colls := rfl
@[simp] theorem State.putBytes_saved (a : Nat) (bs : List Byte) : (s.putBytes a bs).saved = s.saved := rfl
@[simp] theorem State.putBytes_remaps (a : Nat) (bs : List Byte) : (s.putBytes a bs).remaps = s.remaps := rfl
@[simp] theorem State.putBytes_dies (a : Nat) (bs : List Byte) : (s.putBytes a bs).dies = s.dies := rfl
@[simp] theorem State.putBytes_lineKey (a : Nat) (bs : List Byte) : (s.putBytes a bs).lineKey = s.lineKey := rfl
@[simp] theorem State.putBytes_class_ (a : Nat) (bs : List Byte) : (s.putBytes a bs).class_ = s.class_ := rfl
@[simp] theorem State.putBytes_shadow (a : Nat) (bs : List Byte) : (s.putBytes a bs).shadow = s.shadow := rfl
@[simp] theorem State.putBytes_stores (a : Nat) (bs : List Byte) : (s.putBytes a bs).stores = s.stores := rfl
@[simp] theorem State.putBytes_hist (a : Nat) (bs : List Byte) : (s.putBytes a bs).hist = s.hist := rfl
@[simp] theorem State.putBytes_views (a : Nat) (bs : List Byte) : (s.putBytes a bs).views = s.views := rfl
@[simp] theorem State.putBytes_backs (a : Nat) (bs : List Byte) : (s.putBytes a bs).backs = s.backs := rfl
@[simp] theorem State.putBytes_holders (a : Nat) (bs : List Byte) : (s.putBytes a bs).holders = s.holders := rfl
@[simp] theorem State.putBytes_bits (a : Nat) (bs : List Byte) : (s.putBytes a bs).bits = s.bits := rfl
@[simp] theorem State.putBytes_poison (a : Nat) (bs : List Byte) : (s.putBytes a bs).poison = s.poison := rfl
@[simp] theorem State.putBytes_bad (a : Nat) (bs : List Byte) : (s.putBytes a bs).bad = s.bad := rfl
@[simp] theorem State.putBytes_partials (a : Nat) (bs : List Byte) : (s.putBytes a bs).partials = s.partials := rfl
@[simp] theorem State.putBytes_counters (a : Nat) (bs : List Byte) : (s.putBytes a bs).counters = s.counters := rfl
@[simp] theorem State.putBytes_subs (a : Nat) (bs : List Byte) : (s.putBytes a bs).subs = s.subs := rfl
@[simp] theorem State.putBytes_subGens (a : Nat) (bs : List Byte) : (s.putBytes a bs).subGens = s.subGens := rfl
@[simp] theorem State.putBytes_copies (a : Nat) (bs : List Byte) : (s.putBytes a bs).copies = s.copies := rfl
@[simp] theorem State.putBytes_tiles (a : Nat) (bs : List Byte) : (s.putBytes a bs).tiles = s.tiles := rfl
@[simp] theorem State.putBytes_inbound (a : Nat) (bs : List Byte) : (s.putBytes a bs).inbound = s.inbound := rfl
@[simp] theorem State.putBytes_matops (a : Nat) (bs : List Byte) : (s.putBytes a bs).matops = s.matops := rfl
@[simp] theorem State.putBytes_permits (a : Nat) (bs : List Byte) : (s.putBytes a bs).permits = s.permits := rfl
@[simp] theorem State.putBytes_shards (a : Nat) (bs : List Byte) : (s.putBytes a bs).shards = s.shards := rfl
@[simp] theorem State.putBytes_shoots (a : Nat) (bs : List Byte) : (s.putBytes a bs).shoots = s.shoots := rfl
@[simp] theorem State.putBytes_msgs (a : Nat) (bs : List Byte) : (s.putBytes a bs).msgs = s.msgs := rfl
@[simp] theorem State.putBytes_links (a : Nat) (bs : List Byte) : (s.putBytes a bs).links = s.links := rfl
@[simp] theorem State.putBytes_keys (a : Nat) (bs : List Byte) : (s.putBytes a bs).keys = s.keys := rfl
@[simp] theorem State.putBytes_part (a : Nat) (bs : List Byte) : (s.putBytes a bs).part = s.part := rfl
@[simp] theorem State.putBytes_pkgid (a : Nat) (bs : List Byte) : (s.putBytes a bs).pkgid = s.pkgid := rfl
@[simp] theorem State.putBytes_pkgs (a : Nat) (bs : List Byte) : (s.putBytes a bs).pkgs = s.pkgs := rfl
@[simp] theorem State.putBytes_everPkgs (a : Nat) (bs : List Byte) : (s.putBytes a bs).everPkgs = s.everPkgs := rfl
@[simp] theorem State.putBytes_deadPkgs (a : Nat) (bs : List Byte) : (s.putBytes a bs).deadPkgs = s.deadPkgs := rfl
@[simp] theorem State.putBytes_outcast (a : Nat) (bs : List Byte) : (s.putBytes a bs).outcast = s.outcast := rfl
@[simp] theorem State.putBytes_pkgGen (a : Nat) (bs : List Byte) : (s.putBytes a bs).pkgGen = s.pkgGen := rfl
@[simp] theorem State.putBytes_epoch (a : Nat) (bs : List Byte) : (s.putBytes a bs).epoch = s.epoch := rfl
@[simp] theorem State.putBytes_pkgSeq (a : Nat) (bs : List Byte) : (s.putBytes a bs).pkgSeq = s.pkgSeq := rfl
@[simp] theorem State.putBytes_domSeq (a : Nat) (bs : List Byte) : (s.putBytes a bs).domSeq = s.domSeq := rfl
@[simp] theorem State.putBytes_misses (a : Nat) (bs : List Byte) : (s.putBytes a bs).misses = s.misses := rfl
@[simp] theorem State.putBytes_lqWait (a : Nat) (bs : List Byte) : (s.putBytes a bs).lqWait = s.lqWait := rfl
@[simp] theorem State.putBytes_boot (a : Nat) (bs : List Byte) : (s.putBytes a bs).boot = s.boot := rfl
@[simp] theorem State.putBytes_images (a : Nat) (bs : List Byte) : (s.putBytes a bs).images = s.images := rfl
@[simp] theorem State.putBytes_minVer (a : Nat) (bs : List Byte) : (s.putBytes a bs).minVer = s.minVer := rfl
@[simp] theorem State.putBytes_romKey (a : Nat) (bs : List Byte) : (s.putBytes a bs).romKey = s.romKey := rfl
@[simp] theorem State.putBytes_measure (a : Nat) (bs : List Byte) : (s.putBytes a bs).measure = s.measure := rfl
@[simp] theorem State.putBytes_hot (a : Nat) (bs : List Byte) : (s.putBytes a bs).hot = s.hot := rfl
@[simp] theorem State.putBytes_tick (a : Nat) (bs : List Byte) : (s.putBytes a bs).tick = s.tick := rfl
@[simp] theorem State.putBytes_clock (a : Nat) (bs : List Byte) : (s.putBytes a bs).clock = s.clock := rfl
@[simp] theorem State.putBytes_order (a : Nat) (bs : List Byte) : (s.putBytes a bs).order = s.order := rfl
@[simp] theorem State.putBytes_next (a : Nat) (bs : List Byte) : (s.putBytes a bs).next = s.next := rfl
@[simp] theorem State.putBytes_inputs (a : Nat) (bs : List Byte) : (s.putBytes a bs).inputs = s.inputs := rfl

@[simp] theorem State.keepShadow_q (a : Nat) : (s.keepShadow a).q = s.q := rfl
@[simp] theorem State.keepShadow_rest (a : Nat) : (s.keepShadow a).rest = s.rest := rfl
@[simp] theorem State.keepShadow_sel (a : Nat) : (s.keepShadow a).sel = s.sel := rfl
@[simp] theorem State.keepShadow_word (a : Nat) : (s.keepShadow a).word = s.word := rfl
@[simp] theorem State.keepShadow_folios (a : Nat) : (s.keepShadow a).folios = s.folios := rfl
@[simp] theorem State.keepShadow_volumes (a : Nat) : (s.keepShadow a).volumes = s.volumes := rfl
@[simp] theorem State.keepShadow_colls (a : Nat) : (s.keepShadow a).colls = s.colls := rfl
@[simp] theorem State.keepShadow_saved (a : Nat) : (s.keepShadow a).saved = s.saved := rfl
@[simp] theorem State.keepShadow_remaps (a : Nat) : (s.keepShadow a).remaps = s.remaps := rfl
@[simp] theorem State.keepShadow_dies (a : Nat) : (s.keepShadow a).dies = s.dies := rfl
@[simp] theorem State.keepShadow_mem (a : Nat) : (s.keepShadow a).mem = s.mem := rfl
@[simp] theorem State.keepShadow_lineKey (a : Nat) : (s.keepShadow a).lineKey = s.lineKey := rfl
@[simp] theorem State.keepShadow_class_ (a : Nat) : (s.keepShadow a).class_ = s.class_ := rfl
@[simp] theorem State.keepShadow_stores (a : Nat) : (s.keepShadow a).stores = s.stores := rfl
@[simp] theorem State.keepShadow_hist (a : Nat) : (s.keepShadow a).hist = s.hist := rfl
@[simp] theorem State.keepShadow_views (a : Nat) : (s.keepShadow a).views = s.views := rfl
@[simp] theorem State.keepShadow_backs (a : Nat) : (s.keepShadow a).backs = s.backs := rfl
@[simp] theorem State.keepShadow_holders (a : Nat) : (s.keepShadow a).holders = s.holders := rfl
@[simp] theorem State.keepShadow_bits (a : Nat) : (s.keepShadow a).bits = s.bits := rfl
@[simp] theorem State.keepShadow_poison (a : Nat) : (s.keepShadow a).poison = s.poison := rfl
@[simp] theorem State.keepShadow_bad (a : Nat) : (s.keepShadow a).bad = s.bad := rfl
@[simp] theorem State.keepShadow_partials (a : Nat) : (s.keepShadow a).partials = s.partials := rfl
@[simp] theorem State.keepShadow_counters (a : Nat) : (s.keepShadow a).counters = s.counters := rfl
@[simp] theorem State.keepShadow_subs (a : Nat) : (s.keepShadow a).subs = s.subs := rfl
@[simp] theorem State.keepShadow_subGens (a : Nat) : (s.keepShadow a).subGens = s.subGens := rfl
@[simp] theorem State.keepShadow_copies (a : Nat) : (s.keepShadow a).copies = s.copies := rfl
@[simp] theorem State.keepShadow_tiles (a : Nat) : (s.keepShadow a).tiles = s.tiles := rfl
@[simp] theorem State.keepShadow_inbound (a : Nat) : (s.keepShadow a).inbound = s.inbound := rfl
@[simp] theorem State.keepShadow_matops (a : Nat) : (s.keepShadow a).matops = s.matops := rfl
@[simp] theorem State.keepShadow_permits (a : Nat) : (s.keepShadow a).permits = s.permits := rfl
@[simp] theorem State.keepShadow_shards (a : Nat) : (s.keepShadow a).shards = s.shards := rfl
@[simp] theorem State.keepShadow_shoots (a : Nat) : (s.keepShadow a).shoots = s.shoots := rfl
@[simp] theorem State.keepShadow_msgs (a : Nat) : (s.keepShadow a).msgs = s.msgs := rfl
@[simp] theorem State.keepShadow_links (a : Nat) : (s.keepShadow a).links = s.links := rfl
@[simp] theorem State.keepShadow_keys (a : Nat) : (s.keepShadow a).keys = s.keys := rfl
@[simp] theorem State.keepShadow_part (a : Nat) : (s.keepShadow a).part = s.part := rfl
@[simp] theorem State.keepShadow_pkgid (a : Nat) : (s.keepShadow a).pkgid = s.pkgid := rfl
@[simp] theorem State.keepShadow_pkgs (a : Nat) : (s.keepShadow a).pkgs = s.pkgs := rfl
@[simp] theorem State.keepShadow_everPkgs (a : Nat) : (s.keepShadow a).everPkgs = s.everPkgs := rfl
@[simp] theorem State.keepShadow_deadPkgs (a : Nat) : (s.keepShadow a).deadPkgs = s.deadPkgs := rfl
@[simp] theorem State.keepShadow_outcast (a : Nat) : (s.keepShadow a).outcast = s.outcast := rfl
@[simp] theorem State.keepShadow_pkgGen (a : Nat) : (s.keepShadow a).pkgGen = s.pkgGen := rfl
@[simp] theorem State.keepShadow_epoch (a : Nat) : (s.keepShadow a).epoch = s.epoch := rfl
@[simp] theorem State.keepShadow_pkgSeq (a : Nat) : (s.keepShadow a).pkgSeq = s.pkgSeq := rfl
@[simp] theorem State.keepShadow_domSeq (a : Nat) : (s.keepShadow a).domSeq = s.domSeq := rfl
@[simp] theorem State.keepShadow_misses (a : Nat) : (s.keepShadow a).misses = s.misses := rfl
@[simp] theorem State.keepShadow_lqWait (a : Nat) : (s.keepShadow a).lqWait = s.lqWait := rfl
@[simp] theorem State.keepShadow_boot (a : Nat) : (s.keepShadow a).boot = s.boot := rfl
@[simp] theorem State.keepShadow_images (a : Nat) : (s.keepShadow a).images = s.images := rfl
@[simp] theorem State.keepShadow_minVer (a : Nat) : (s.keepShadow a).minVer = s.minVer := rfl
@[simp] theorem State.keepShadow_romKey (a : Nat) : (s.keepShadow a).romKey = s.romKey := rfl
@[simp] theorem State.keepShadow_measure (a : Nat) : (s.keepShadow a).measure = s.measure := rfl
@[simp] theorem State.keepShadow_hot (a : Nat) : (s.keepShadow a).hot = s.hot := rfl
@[simp] theorem State.keepShadow_tick (a : Nat) : (s.keepShadow a).tick = s.tick := rfl
@[simp] theorem State.keepShadow_clock (a : Nat) : (s.keepShadow a).clock = s.clock := rfl
@[simp] theorem State.keepShadow_order (a : Nat) : (s.keepShadow a).order = s.order := rfl
@[simp] theorem State.keepShadow_next (a : Nat) : (s.keepShadow a).next = s.next := rfl
@[simp] theorem State.keepShadow_inputs (a : Nat) : (s.keepShadow a).inputs = s.inputs := rfl

@[simp] theorem State.write_q (a : Nat) (bs : List Byte) : (s.write a bs).q = s.q := rfl
@[simp] theorem State.write_rest (a : Nat) (bs : List Byte) : (s.write a bs).rest = s.rest := rfl
@[simp] theorem State.write_sel (a : Nat) (bs : List Byte) : (s.write a bs).sel = s.sel := rfl
@[simp] theorem State.write_word (a : Nat) (bs : List Byte) : (s.write a bs).word = s.word := rfl
@[simp] theorem State.write_folios (a : Nat) (bs : List Byte) : (s.write a bs).folios = s.folios := rfl
@[simp] theorem State.write_volumes (a : Nat) (bs : List Byte) : (s.write a bs).volumes = s.volumes := rfl
@[simp] theorem State.write_colls (a : Nat) (bs : List Byte) : (s.write a bs).colls = s.colls := rfl
@[simp] theorem State.write_saved (a : Nat) (bs : List Byte) : (s.write a bs).saved = s.saved := rfl
@[simp] theorem State.write_remaps (a : Nat) (bs : List Byte) : (s.write a bs).remaps = s.remaps := rfl
@[simp] theorem State.write_dies (a : Nat) (bs : List Byte) : (s.write a bs).dies = s.dies := rfl
@[simp] theorem State.write_lineKey (a : Nat) (bs : List Byte) : (s.write a bs).lineKey = s.lineKey := rfl
@[simp] theorem State.write_class_ (a : Nat) (bs : List Byte) : (s.write a bs).class_ = s.class_ := rfl
@[simp] theorem State.write_shadow (a : Nat) (bs : List Byte) : (s.write a bs).shadow = s.shadow := rfl
@[simp] theorem State.write_stores (a : Nat) (bs : List Byte) : (s.write a bs).stores = s.stores := rfl
@[simp] theorem State.write_views (a : Nat) (bs : List Byte) : (s.write a bs).views = s.views := rfl
@[simp] theorem State.write_backs (a : Nat) (bs : List Byte) : (s.write a bs).backs = s.backs := rfl
@[simp] theorem State.write_holders (a : Nat) (bs : List Byte) : (s.write a bs).holders = s.holders := rfl
@[simp] theorem State.write_bits (a : Nat) (bs : List Byte) : (s.write a bs).bits = s.bits := rfl
@[simp] theorem State.write_poison (a : Nat) (bs : List Byte) : (s.write a bs).poison = s.poison := rfl
@[simp] theorem State.write_bad (a : Nat) (bs : List Byte) : (s.write a bs).bad = s.bad := rfl
@[simp] theorem State.write_partials (a : Nat) (bs : List Byte) : (s.write a bs).partials = s.partials := rfl
@[simp] theorem State.write_counters (a : Nat) (bs : List Byte) : (s.write a bs).counters = s.counters := rfl
@[simp] theorem State.write_subs (a : Nat) (bs : List Byte) : (s.write a bs).subs = s.subs := rfl
@[simp] theorem State.write_subGens (a : Nat) (bs : List Byte) : (s.write a bs).subGens = s.subGens := rfl
@[simp] theorem State.write_copies (a : Nat) (bs : List Byte) : (s.write a bs).copies = s.copies := rfl
@[simp] theorem State.write_tiles (a : Nat) (bs : List Byte) : (s.write a bs).tiles = s.tiles := rfl
@[simp] theorem State.write_inbound (a : Nat) (bs : List Byte) : (s.write a bs).inbound = s.inbound := rfl
@[simp] theorem State.write_matops (a : Nat) (bs : List Byte) : (s.write a bs).matops = s.matops := rfl
@[simp] theorem State.write_permits (a : Nat) (bs : List Byte) : (s.write a bs).permits = s.permits := rfl
@[simp] theorem State.write_shards (a : Nat) (bs : List Byte) : (s.write a bs).shards = s.shards := rfl
@[simp] theorem State.write_shoots (a : Nat) (bs : List Byte) : (s.write a bs).shoots = s.shoots := rfl
@[simp] theorem State.write_msgs (a : Nat) (bs : List Byte) : (s.write a bs).msgs = s.msgs := rfl
@[simp] theorem State.write_links (a : Nat) (bs : List Byte) : (s.write a bs).links = s.links := rfl
@[simp] theorem State.write_keys (a : Nat) (bs : List Byte) : (s.write a bs).keys = s.keys := rfl
@[simp] theorem State.write_part (a : Nat) (bs : List Byte) : (s.write a bs).part = s.part := rfl
@[simp] theorem State.write_pkgid (a : Nat) (bs : List Byte) : (s.write a bs).pkgid = s.pkgid := rfl
@[simp] theorem State.write_pkgs (a : Nat) (bs : List Byte) : (s.write a bs).pkgs = s.pkgs := rfl
@[simp] theorem State.write_everPkgs (a : Nat) (bs : List Byte) : (s.write a bs).everPkgs = s.everPkgs := rfl
@[simp] theorem State.write_deadPkgs (a : Nat) (bs : List Byte) : (s.write a bs).deadPkgs = s.deadPkgs := rfl
@[simp] theorem State.write_outcast (a : Nat) (bs : List Byte) : (s.write a bs).outcast = s.outcast := rfl
@[simp] theorem State.write_pkgGen (a : Nat) (bs : List Byte) : (s.write a bs).pkgGen = s.pkgGen := rfl
@[simp] theorem State.write_epoch (a : Nat) (bs : List Byte) : (s.write a bs).epoch = s.epoch := rfl
@[simp] theorem State.write_pkgSeq (a : Nat) (bs : List Byte) : (s.write a bs).pkgSeq = s.pkgSeq := rfl
@[simp] theorem State.write_domSeq (a : Nat) (bs : List Byte) : (s.write a bs).domSeq = s.domSeq := rfl
@[simp] theorem State.write_misses (a : Nat) (bs : List Byte) : (s.write a bs).misses = s.misses := rfl
@[simp] theorem State.write_lqWait (a : Nat) (bs : List Byte) : (s.write a bs).lqWait = s.lqWait := rfl
@[simp] theorem State.write_boot (a : Nat) (bs : List Byte) : (s.write a bs).boot = s.boot := rfl
@[simp] theorem State.write_images (a : Nat) (bs : List Byte) : (s.write a bs).images = s.images := rfl
@[simp] theorem State.write_minVer (a : Nat) (bs : List Byte) : (s.write a bs).minVer = s.minVer := rfl
@[simp] theorem State.write_romKey (a : Nat) (bs : List Byte) : (s.write a bs).romKey = s.romKey := rfl
@[simp] theorem State.write_measure (a : Nat) (bs : List Byte) : (s.write a bs).measure = s.measure := rfl
@[simp] theorem State.write_hot (a : Nat) (bs : List Byte) : (s.write a bs).hot = s.hot := rfl
@[simp] theorem State.write_tick (a : Nat) (bs : List Byte) : (s.write a bs).tick = s.tick := rfl
@[simp] theorem State.write_clock (a : Nat) (bs : List Byte) : (s.write a bs).clock = s.clock := rfl
@[simp] theorem State.write_order (a : Nat) (bs : List Byte) : (s.write a bs).order = s.order := rfl
@[simp] theorem State.write_next (a : Nat) (bs : List Byte) : (s.write a bs).next = s.next := rfl
@[simp] theorem State.write_inputs (a : Nat) (bs : List Byte) : (s.write a bs).inputs = s.inputs := rfl

@[simp] theorem State.modView_q (i : Nat) (f : View → View) : (s.modView i f).q = s.q := rfl
@[simp] theorem State.modView_rest (i : Nat) (f : View → View) : (s.modView i f).rest = s.rest := rfl
@[simp] theorem State.modView_sel (i : Nat) (f : View → View) : (s.modView i f).sel = s.sel := rfl
@[simp] theorem State.modView_word (i : Nat) (f : View → View) : (s.modView i f).word = s.word := rfl
@[simp] theorem State.modView_folios (i : Nat) (f : View → View) : (s.modView i f).folios = s.folios := rfl
@[simp] theorem State.modView_volumes (i : Nat) (f : View → View) : (s.modView i f).volumes = s.volumes := rfl
@[simp] theorem State.modView_colls (i : Nat) (f : View → View) : (s.modView i f).colls = s.colls := rfl
@[simp] theorem State.modView_saved (i : Nat) (f : View → View) : (s.modView i f).saved = s.saved := rfl
@[simp] theorem State.modView_remaps (i : Nat) (f : View → View) : (s.modView i f).remaps = s.remaps := rfl
@[simp] theorem State.modView_dies (i : Nat) (f : View → View) : (s.modView i f).dies = s.dies := rfl
@[simp] theorem State.modView_mem (i : Nat) (f : View → View) : (s.modView i f).mem = s.mem := rfl
@[simp] theorem State.modView_lineKey (i : Nat) (f : View → View) : (s.modView i f).lineKey = s.lineKey := rfl
@[simp] theorem State.modView_class_ (i : Nat) (f : View → View) : (s.modView i f).class_ = s.class_ := rfl
@[simp] theorem State.modView_shadow (i : Nat) (f : View → View) : (s.modView i f).shadow = s.shadow := rfl
@[simp] theorem State.modView_stores (i : Nat) (f : View → View) : (s.modView i f).stores = s.stores := rfl
@[simp] theorem State.modView_hist (i : Nat) (f : View → View) : (s.modView i f).hist = s.hist := rfl
@[simp] theorem State.modView_backs (i : Nat) (f : View → View) : (s.modView i f).backs = s.backs := rfl
@[simp] theorem State.modView_holders (i : Nat) (f : View → View) : (s.modView i f).holders = s.holders := rfl
@[simp] theorem State.modView_bits (i : Nat) (f : View → View) : (s.modView i f).bits = s.bits := rfl
@[simp] theorem State.modView_poison (i : Nat) (f : View → View) : (s.modView i f).poison = s.poison := rfl
@[simp] theorem State.modView_bad (i : Nat) (f : View → View) : (s.modView i f).bad = s.bad := rfl
@[simp] theorem State.modView_partials (i : Nat) (f : View → View) : (s.modView i f).partials = s.partials := rfl
@[simp] theorem State.modView_counters (i : Nat) (f : View → View) : (s.modView i f).counters = s.counters := rfl
@[simp] theorem State.modView_subs (i : Nat) (f : View → View) : (s.modView i f).subs = s.subs := rfl
@[simp] theorem State.modView_subGens (i : Nat) (f : View → View) : (s.modView i f).subGens = s.subGens := rfl
@[simp] theorem State.modView_copies (i : Nat) (f : View → View) : (s.modView i f).copies = s.copies := rfl
@[simp] theorem State.modView_tiles (i : Nat) (f : View → View) : (s.modView i f).tiles = s.tiles := rfl
@[simp] theorem State.modView_inbound (i : Nat) (f : View → View) : (s.modView i f).inbound = s.inbound := rfl
@[simp] theorem State.modView_matops (i : Nat) (f : View → View) : (s.modView i f).matops = s.matops := rfl
@[simp] theorem State.modView_permits (i : Nat) (f : View → View) : (s.modView i f).permits = s.permits := rfl
@[simp] theorem State.modView_shards (i : Nat) (f : View → View) : (s.modView i f).shards = s.shards := rfl
@[simp] theorem State.modView_shoots (i : Nat) (f : View → View) : (s.modView i f).shoots = s.shoots := rfl
@[simp] theorem State.modView_msgs (i : Nat) (f : View → View) : (s.modView i f).msgs = s.msgs := rfl
@[simp] theorem State.modView_links (i : Nat) (f : View → View) : (s.modView i f).links = s.links := rfl
@[simp] theorem State.modView_keys (i : Nat) (f : View → View) : (s.modView i f).keys = s.keys := rfl
@[simp] theorem State.modView_part (i : Nat) (f : View → View) : (s.modView i f).part = s.part := rfl
@[simp] theorem State.modView_pkgid (i : Nat) (f : View → View) : (s.modView i f).pkgid = s.pkgid := rfl
@[simp] theorem State.modView_pkgs (i : Nat) (f : View → View) : (s.modView i f).pkgs = s.pkgs := rfl
@[simp] theorem State.modView_everPkgs (i : Nat) (f : View → View) : (s.modView i f).everPkgs = s.everPkgs := rfl
@[simp] theorem State.modView_deadPkgs (i : Nat) (f : View → View) : (s.modView i f).deadPkgs = s.deadPkgs := rfl
@[simp] theorem State.modView_outcast (i : Nat) (f : View → View) : (s.modView i f).outcast = s.outcast := rfl
@[simp] theorem State.modView_pkgGen (i : Nat) (f : View → View) : (s.modView i f).pkgGen = s.pkgGen := rfl
@[simp] theorem State.modView_epoch (i : Nat) (f : View → View) : (s.modView i f).epoch = s.epoch := rfl
@[simp] theorem State.modView_pkgSeq (i : Nat) (f : View → View) : (s.modView i f).pkgSeq = s.pkgSeq := rfl
@[simp] theorem State.modView_domSeq (i : Nat) (f : View → View) : (s.modView i f).domSeq = s.domSeq := rfl
@[simp] theorem State.modView_misses (i : Nat) (f : View → View) : (s.modView i f).misses = s.misses := rfl
@[simp] theorem State.modView_lqWait (i : Nat) (f : View → View) : (s.modView i f).lqWait = s.lqWait := rfl
@[simp] theorem State.modView_boot (i : Nat) (f : View → View) : (s.modView i f).boot = s.boot := rfl
@[simp] theorem State.modView_images (i : Nat) (f : View → View) : (s.modView i f).images = s.images := rfl
@[simp] theorem State.modView_minVer (i : Nat) (f : View → View) : (s.modView i f).minVer = s.minVer := rfl
@[simp] theorem State.modView_romKey (i : Nat) (f : View → View) : (s.modView i f).romKey = s.romKey := rfl
@[simp] theorem State.modView_measure (i : Nat) (f : View → View) : (s.modView i f).measure = s.measure := rfl
@[simp] theorem State.modView_hot (i : Nat) (f : View → View) : (s.modView i f).hot = s.hot := rfl
@[simp] theorem State.modView_tick (i : Nat) (f : View → View) : (s.modView i f).tick = s.tick := rfl
@[simp] theorem State.modView_clock (i : Nat) (f : View → View) : (s.modView i f).clock = s.clock := rfl
@[simp] theorem State.modView_order (i : Nat) (f : View → View) : (s.modView i f).order = s.order := rfl
@[simp] theorem State.modView_next (i : Nat) (f : View → View) : (s.modView i f).next = s.next := rfl
@[simp] theorem State.modView_inputs (i : Nat) (f : View → View) : (s.modView i f).inputs = s.inputs := rfl

@[simp] theorem State.sync_q (i : Nat) : (s.sync i).q = s.q := rfl
@[simp] theorem State.sync_rest (i : Nat) : (s.sync i).rest = s.rest := rfl
@[simp] theorem State.sync_sel (i : Nat) : (s.sync i).sel = s.sel := rfl
@[simp] theorem State.sync_word (i : Nat) : (s.sync i).word = s.word := rfl
@[simp] theorem State.sync_folios (i : Nat) : (s.sync i).folios = s.folios := rfl
@[simp] theorem State.sync_volumes (i : Nat) : (s.sync i).volumes = s.volumes := rfl
@[simp] theorem State.sync_colls (i : Nat) : (s.sync i).colls = s.colls := rfl
@[simp] theorem State.sync_saved (i : Nat) : (s.sync i).saved = s.saved := rfl
@[simp] theorem State.sync_remaps (i : Nat) : (s.sync i).remaps = s.remaps := rfl
@[simp] theorem State.sync_dies (i : Nat) : (s.sync i).dies = s.dies := rfl
@[simp] theorem State.sync_mem (i : Nat) : (s.sync i).mem = s.mem := rfl
@[simp] theorem State.sync_lineKey (i : Nat) : (s.sync i).lineKey = s.lineKey := rfl
@[simp] theorem State.sync_class_ (i : Nat) : (s.sync i).class_ = s.class_ := rfl
@[simp] theorem State.sync_shadow (i : Nat) : (s.sync i).shadow = s.shadow := rfl
@[simp] theorem State.sync_stores (i : Nat) : (s.sync i).stores = s.stores := rfl
@[simp] theorem State.sync_hist (i : Nat) : (s.sync i).hist = s.hist := rfl
@[simp] theorem State.sync_backs (i : Nat) : (s.sync i).backs = s.backs := rfl
@[simp] theorem State.sync_holders (i : Nat) : (s.sync i).holders = s.holders := rfl
@[simp] theorem State.sync_bits (i : Nat) : (s.sync i).bits = s.bits := rfl
@[simp] theorem State.sync_poison (i : Nat) : (s.sync i).poison = s.poison := rfl
@[simp] theorem State.sync_bad (i : Nat) : (s.sync i).bad = s.bad := rfl
@[simp] theorem State.sync_partials (i : Nat) : (s.sync i).partials = s.partials := rfl
@[simp] theorem State.sync_counters (i : Nat) : (s.sync i).counters = s.counters := rfl
@[simp] theorem State.sync_subs (i : Nat) : (s.sync i).subs = s.subs := rfl
@[simp] theorem State.sync_subGens (i : Nat) : (s.sync i).subGens = s.subGens := rfl
@[simp] theorem State.sync_copies (i : Nat) : (s.sync i).copies = s.copies := rfl
@[simp] theorem State.sync_tiles (i : Nat) : (s.sync i).tiles = s.tiles := rfl
@[simp] theorem State.sync_inbound (i : Nat) : (s.sync i).inbound = s.inbound := rfl
@[simp] theorem State.sync_matops (i : Nat) : (s.sync i).matops = s.matops := rfl
@[simp] theorem State.sync_permits (i : Nat) : (s.sync i).permits = s.permits := rfl
@[simp] theorem State.sync_shards (i : Nat) : (s.sync i).shards = s.shards := rfl
@[simp] theorem State.sync_shoots (i : Nat) : (s.sync i).shoots = s.shoots := rfl
@[simp] theorem State.sync_msgs (i : Nat) : (s.sync i).msgs = s.msgs := rfl
@[simp] theorem State.sync_links (i : Nat) : (s.sync i).links = s.links := rfl
@[simp] theorem State.sync_keys (i : Nat) : (s.sync i).keys = s.keys := rfl
@[simp] theorem State.sync_part (i : Nat) : (s.sync i).part = s.part := rfl
@[simp] theorem State.sync_pkgid (i : Nat) : (s.sync i).pkgid = s.pkgid := rfl
@[simp] theorem State.sync_pkgs (i : Nat) : (s.sync i).pkgs = s.pkgs := rfl
@[simp] theorem State.sync_everPkgs (i : Nat) : (s.sync i).everPkgs = s.everPkgs := rfl
@[simp] theorem State.sync_deadPkgs (i : Nat) : (s.sync i).deadPkgs = s.deadPkgs := rfl
@[simp] theorem State.sync_outcast (i : Nat) : (s.sync i).outcast = s.outcast := rfl
@[simp] theorem State.sync_pkgGen (i : Nat) : (s.sync i).pkgGen = s.pkgGen := rfl
@[simp] theorem State.sync_epoch (i : Nat) : (s.sync i).epoch = s.epoch := rfl
@[simp] theorem State.sync_pkgSeq (i : Nat) : (s.sync i).pkgSeq = s.pkgSeq := rfl
@[simp] theorem State.sync_domSeq (i : Nat) : (s.sync i).domSeq = s.domSeq := rfl
@[simp] theorem State.sync_misses (i : Nat) : (s.sync i).misses = s.misses := rfl
@[simp] theorem State.sync_lqWait (i : Nat) : (s.sync i).lqWait = s.lqWait := rfl
@[simp] theorem State.sync_boot (i : Nat) : (s.sync i).boot = s.boot := rfl
@[simp] theorem State.sync_images (i : Nat) : (s.sync i).images = s.images := rfl
@[simp] theorem State.sync_minVer (i : Nat) : (s.sync i).minVer = s.minVer := rfl
@[simp] theorem State.sync_romKey (i : Nat) : (s.sync i).romKey = s.romKey := rfl
@[simp] theorem State.sync_measure (i : Nat) : (s.sync i).measure = s.measure := rfl
@[simp] theorem State.sync_hot (i : Nat) : (s.sync i).hot = s.hot := rfl
@[simp] theorem State.sync_tick (i : Nat) : (s.sync i).tick = s.tick := rfl
@[simp] theorem State.sync_clock (i : Nat) : (s.sync i).clock = s.clock := rfl
@[simp] theorem State.sync_order (i : Nat) : (s.sync i).order = s.order := rfl
@[simp] theorem State.sync_next (i : Nat) : (s.sync i).next = s.next := rfl
@[simp] theorem State.sync_inputs (i : Nat) : (s.sync i).inputs = s.inputs := rfl

@[simp] theorem State.orderPaths_q (i : Nat) (ps : List Nat) : (s.orderPaths i ps).q = s.q := rfl
@[simp] theorem State.orderPaths_rest (i : Nat) (ps : List Nat) : (s.orderPaths i ps).rest = s.rest := rfl
@[simp] theorem State.orderPaths_sel (i : Nat) (ps : List Nat) : (s.orderPaths i ps).sel = s.sel := rfl
@[simp] theorem State.orderPaths_word (i : Nat) (ps : List Nat) : (s.orderPaths i ps).word = s.word := rfl
@[simp] theorem State.orderPaths_folios (i : Nat) (ps : List Nat) : (s.orderPaths i ps).folios = s.folios := rfl
@[simp] theorem State.orderPaths_volumes (i : Nat) (ps : List Nat) : (s.orderPaths i ps).volumes = s.volumes := rfl
@[simp] theorem State.orderPaths_colls (i : Nat) (ps : List Nat) : (s.orderPaths i ps).colls = s.colls := rfl
@[simp] theorem State.orderPaths_saved (i : Nat) (ps : List Nat) : (s.orderPaths i ps).saved = s.saved := rfl
@[simp] theorem State.orderPaths_remaps (i : Nat) (ps : List Nat) : (s.orderPaths i ps).remaps = s.remaps := rfl
@[simp] theorem State.orderPaths_dies (i : Nat) (ps : List Nat) : (s.orderPaths i ps).dies = s.dies := rfl
@[simp] theorem State.orderPaths_mem (i : Nat) (ps : List Nat) : (s.orderPaths i ps).mem = s.mem := rfl
@[simp] theorem State.orderPaths_lineKey (i : Nat) (ps : List Nat) : (s.orderPaths i ps).lineKey = s.lineKey := rfl
@[simp] theorem State.orderPaths_class_ (i : Nat) (ps : List Nat) : (s.orderPaths i ps).class_ = s.class_ := rfl
@[simp] theorem State.orderPaths_shadow (i : Nat) (ps : List Nat) : (s.orderPaths i ps).shadow = s.shadow := rfl
@[simp] theorem State.orderPaths_stores (i : Nat) (ps : List Nat) : (s.orderPaths i ps).stores = s.stores := rfl
@[simp] theorem State.orderPaths_hist (i : Nat) (ps : List Nat) : (s.orderPaths i ps).hist = s.hist := rfl
@[simp] theorem State.orderPaths_backs (i : Nat) (ps : List Nat) : (s.orderPaths i ps).backs = s.backs := rfl
@[simp] theorem State.orderPaths_holders (i : Nat) (ps : List Nat) : (s.orderPaths i ps).holders = s.holders := rfl
@[simp] theorem State.orderPaths_bits (i : Nat) (ps : List Nat) : (s.orderPaths i ps).bits = s.bits := rfl
@[simp] theorem State.orderPaths_poison (i : Nat) (ps : List Nat) : (s.orderPaths i ps).poison = s.poison := rfl
@[simp] theorem State.orderPaths_bad (i : Nat) (ps : List Nat) : (s.orderPaths i ps).bad = s.bad := rfl
@[simp] theorem State.orderPaths_partials (i : Nat) (ps : List Nat) : (s.orderPaths i ps).partials = s.partials := rfl
@[simp] theorem State.orderPaths_counters (i : Nat) (ps : List Nat) : (s.orderPaths i ps).counters = s.counters := rfl
@[simp] theorem State.orderPaths_subs (i : Nat) (ps : List Nat) : (s.orderPaths i ps).subs = s.subs := rfl
@[simp] theorem State.orderPaths_subGens (i : Nat) (ps : List Nat) : (s.orderPaths i ps).subGens = s.subGens := rfl
@[simp] theorem State.orderPaths_copies (i : Nat) (ps : List Nat) : (s.orderPaths i ps).copies = s.copies := rfl
@[simp] theorem State.orderPaths_tiles (i : Nat) (ps : List Nat) : (s.orderPaths i ps).tiles = s.tiles := rfl
@[simp] theorem State.orderPaths_inbound (i : Nat) (ps : List Nat) : (s.orderPaths i ps).inbound = s.inbound := rfl
@[simp] theorem State.orderPaths_matops (i : Nat) (ps : List Nat) : (s.orderPaths i ps).matops = s.matops := rfl
@[simp] theorem State.orderPaths_permits (i : Nat) (ps : List Nat) : (s.orderPaths i ps).permits = s.permits := rfl
@[simp] theorem State.orderPaths_shards (i : Nat) (ps : List Nat) : (s.orderPaths i ps).shards = s.shards := rfl
@[simp] theorem State.orderPaths_shoots (i : Nat) (ps : List Nat) : (s.orderPaths i ps).shoots = s.shoots := rfl
@[simp] theorem State.orderPaths_msgs (i : Nat) (ps : List Nat) : (s.orderPaths i ps).msgs = s.msgs := rfl
@[simp] theorem State.orderPaths_links (i : Nat) (ps : List Nat) : (s.orderPaths i ps).links = s.links := rfl
@[simp] theorem State.orderPaths_keys (i : Nat) (ps : List Nat) : (s.orderPaths i ps).keys = s.keys := rfl
@[simp] theorem State.orderPaths_part (i : Nat) (ps : List Nat) : (s.orderPaths i ps).part = s.part := rfl
@[simp] theorem State.orderPaths_pkgid (i : Nat) (ps : List Nat) : (s.orderPaths i ps).pkgid = s.pkgid := rfl
@[simp] theorem State.orderPaths_pkgs (i : Nat) (ps : List Nat) : (s.orderPaths i ps).pkgs = s.pkgs := rfl
@[simp] theorem State.orderPaths_everPkgs (i : Nat) (ps : List Nat) : (s.orderPaths i ps).everPkgs = s.everPkgs := rfl
@[simp] theorem State.orderPaths_deadPkgs (i : Nat) (ps : List Nat) : (s.orderPaths i ps).deadPkgs = s.deadPkgs := rfl
@[simp] theorem State.orderPaths_outcast (i : Nat) (ps : List Nat) : (s.orderPaths i ps).outcast = s.outcast := rfl
@[simp] theorem State.orderPaths_pkgGen (i : Nat) (ps : List Nat) : (s.orderPaths i ps).pkgGen = s.pkgGen := rfl
@[simp] theorem State.orderPaths_epoch (i : Nat) (ps : List Nat) : (s.orderPaths i ps).epoch = s.epoch := rfl
@[simp] theorem State.orderPaths_pkgSeq (i : Nat) (ps : List Nat) : (s.orderPaths i ps).pkgSeq = s.pkgSeq := rfl
@[simp] theorem State.orderPaths_domSeq (i : Nat) (ps : List Nat) : (s.orderPaths i ps).domSeq = s.domSeq := rfl
@[simp] theorem State.orderPaths_misses (i : Nat) (ps : List Nat) : (s.orderPaths i ps).misses = s.misses := rfl
@[simp] theorem State.orderPaths_lqWait (i : Nat) (ps : List Nat) : (s.orderPaths i ps).lqWait = s.lqWait := rfl
@[simp] theorem State.orderPaths_boot (i : Nat) (ps : List Nat) : (s.orderPaths i ps).boot = s.boot := rfl
@[simp] theorem State.orderPaths_images (i : Nat) (ps : List Nat) : (s.orderPaths i ps).images = s.images := rfl
@[simp] theorem State.orderPaths_minVer (i : Nat) (ps : List Nat) : (s.orderPaths i ps).minVer = s.minVer := rfl
@[simp] theorem State.orderPaths_romKey (i : Nat) (ps : List Nat) : (s.orderPaths i ps).romKey = s.romKey := rfl
@[simp] theorem State.orderPaths_measure (i : Nat) (ps : List Nat) : (s.orderPaths i ps).measure = s.measure := rfl
@[simp] theorem State.orderPaths_hot (i : Nat) (ps : List Nat) : (s.orderPaths i ps).hot = s.hot := rfl
@[simp] theorem State.orderPaths_tick (i : Nat) (ps : List Nat) : (s.orderPaths i ps).tick = s.tick := rfl
@[simp] theorem State.orderPaths_clock (i : Nat) (ps : List Nat) : (s.orderPaths i ps).clock = s.clock := rfl
@[simp] theorem State.orderPaths_order (i : Nat) (ps : List Nat) : (s.orderPaths i ps).order = s.order := rfl
@[simp] theorem State.orderPaths_next (i : Nat) (ps : List Nat) : (s.orderPaths i ps).next = s.next := rfl
@[simp] theorem State.orderPaths_inputs (i : Nat) (ps : List Nat) : (s.orderPaths i ps).inputs = s.inputs := rfl

@[simp] theorem State.classLine_q (d h l : Nat) : (s.classLine d h l).q = s.q := rfl
@[simp] theorem State.classLine_rest (d h l : Nat) : (s.classLine d h l).rest = s.rest := rfl
@[simp] theorem State.classLine_sel (d h l : Nat) : (s.classLine d h l).sel = s.sel := rfl
@[simp] theorem State.classLine_word (d h l : Nat) : (s.classLine d h l).word = s.word := rfl
@[simp] theorem State.classLine_folios (d h l : Nat) : (s.classLine d h l).folios = s.folios := rfl
@[simp] theorem State.classLine_volumes (d h l : Nat) : (s.classLine d h l).volumes = s.volumes := rfl
@[simp] theorem State.classLine_colls (d h l : Nat) : (s.classLine d h l).colls = s.colls := rfl
@[simp] theorem State.classLine_saved (d h l : Nat) : (s.classLine d h l).saved = s.saved := rfl
@[simp] theorem State.classLine_remaps (d h l : Nat) : (s.classLine d h l).remaps = s.remaps := rfl
@[simp] theorem State.classLine_dies (d h l : Nat) : (s.classLine d h l).dies = s.dies := rfl
@[simp] theorem State.classLine_mem (d h l : Nat) : (s.classLine d h l).mem = s.mem := rfl
@[simp] theorem State.classLine_lineKey (d h l : Nat) : (s.classLine d h l).lineKey = s.lineKey := rfl
@[simp] theorem State.classLine_shadow (d h l : Nat) : (s.classLine d h l).shadow = s.shadow := rfl
@[simp] theorem State.classLine_stores (d h l : Nat) : (s.classLine d h l).stores = s.stores := rfl
@[simp] theorem State.classLine_hist (d h l : Nat) : (s.classLine d h l).hist = s.hist := rfl
@[simp] theorem State.classLine_views (d h l : Nat) : (s.classLine d h l).views = s.views := rfl
@[simp] theorem State.classLine_backs (d h l : Nat) : (s.classLine d h l).backs = s.backs := rfl
@[simp] theorem State.classLine_holders (d h l : Nat) : (s.classLine d h l).holders = s.holders := rfl
@[simp] theorem State.classLine_bits (d h l : Nat) : (s.classLine d h l).bits = s.bits := rfl
@[simp] theorem State.classLine_poison (d h l : Nat) : (s.classLine d h l).poison = s.poison := rfl
@[simp] theorem State.classLine_bad (d h l : Nat) : (s.classLine d h l).bad = s.bad := rfl
@[simp] theorem State.classLine_partials (d h l : Nat) : (s.classLine d h l).partials = s.partials := rfl
@[simp] theorem State.classLine_counters (d h l : Nat) : (s.classLine d h l).counters = s.counters := rfl
@[simp] theorem State.classLine_subs (d h l : Nat) : (s.classLine d h l).subs = s.subs := rfl
@[simp] theorem State.classLine_subGens (d h l : Nat) : (s.classLine d h l).subGens = s.subGens := rfl
@[simp] theorem State.classLine_copies (d h l : Nat) : (s.classLine d h l).copies = s.copies := rfl
@[simp] theorem State.classLine_tiles (d h l : Nat) : (s.classLine d h l).tiles = s.tiles := rfl
@[simp] theorem State.classLine_inbound (d h l : Nat) : (s.classLine d h l).inbound = s.inbound := rfl
@[simp] theorem State.classLine_matops (d h l : Nat) : (s.classLine d h l).matops = s.matops := rfl
@[simp] theorem State.classLine_permits (d h l : Nat) : (s.classLine d h l).permits = s.permits := rfl
@[simp] theorem State.classLine_shards (d h l : Nat) : (s.classLine d h l).shards = s.shards := rfl
@[simp] theorem State.classLine_shoots (d h l : Nat) : (s.classLine d h l).shoots = s.shoots := rfl
@[simp] theorem State.classLine_msgs (d h l : Nat) : (s.classLine d h l).msgs = s.msgs := rfl
@[simp] theorem State.classLine_links (d h l : Nat) : (s.classLine d h l).links = s.links := rfl
@[simp] theorem State.classLine_keys (d h l : Nat) : (s.classLine d h l).keys = s.keys := rfl
@[simp] theorem State.classLine_part (d h l : Nat) : (s.classLine d h l).part = s.part := rfl
@[simp] theorem State.classLine_pkgid (d h l : Nat) : (s.classLine d h l).pkgid = s.pkgid := rfl
@[simp] theorem State.classLine_pkgs (d h l : Nat) : (s.classLine d h l).pkgs = s.pkgs := rfl
@[simp] theorem State.classLine_everPkgs (d h l : Nat) : (s.classLine d h l).everPkgs = s.everPkgs := rfl
@[simp] theorem State.classLine_deadPkgs (d h l : Nat) : (s.classLine d h l).deadPkgs = s.deadPkgs := rfl
@[simp] theorem State.classLine_outcast (d h l : Nat) : (s.classLine d h l).outcast = s.outcast := rfl
@[simp] theorem State.classLine_pkgGen (d h l : Nat) : (s.classLine d h l).pkgGen = s.pkgGen := rfl
@[simp] theorem State.classLine_epoch (d h l : Nat) : (s.classLine d h l).epoch = s.epoch := rfl
@[simp] theorem State.classLine_pkgSeq (d h l : Nat) : (s.classLine d h l).pkgSeq = s.pkgSeq := rfl
@[simp] theorem State.classLine_domSeq (d h l : Nat) : (s.classLine d h l).domSeq = s.domSeq := rfl
@[simp] theorem State.classLine_misses (d h l : Nat) : (s.classLine d h l).misses = s.misses := rfl
@[simp] theorem State.classLine_lqWait (d h l : Nat) : (s.classLine d h l).lqWait = s.lqWait := rfl
@[simp] theorem State.classLine_boot (d h l : Nat) : (s.classLine d h l).boot = s.boot := rfl
@[simp] theorem State.classLine_images (d h l : Nat) : (s.classLine d h l).images = s.images := rfl
@[simp] theorem State.classLine_minVer (d h l : Nat) : (s.classLine d h l).minVer = s.minVer := rfl
@[simp] theorem State.classLine_romKey (d h l : Nat) : (s.classLine d h l).romKey = s.romKey := rfl
@[simp] theorem State.classLine_measure (d h l : Nat) : (s.classLine d h l).measure = s.measure := rfl
@[simp] theorem State.classLine_hot (d h l : Nat) : (s.classLine d h l).hot = s.hot := rfl
@[simp] theorem State.classLine_tick (d h l : Nat) : (s.classLine d h l).tick = s.tick := rfl
@[simp] theorem State.classLine_clock (d h l : Nat) : (s.classLine d h l).clock = s.clock := rfl
@[simp] theorem State.classLine_order (d h l : Nat) : (s.classLine d h l).order = s.order := rfl
@[simp] theorem State.classLine_next (d h l : Nat) : (s.classLine d h l).next = s.next := rfl
@[simp] theorem State.classLine_inputs (d h l : Nat) : (s.classLine d h l).inputs = s.inputs := rfl

@[simp] theorem State.addHolder_q (d pa : Nat) : (s.addHolder d pa).q = s.q := rfl
@[simp] theorem State.addHolder_rest (d pa : Nat) : (s.addHolder d pa).rest = s.rest := rfl
@[simp] theorem State.addHolder_sel (d pa : Nat) : (s.addHolder d pa).sel = s.sel := rfl
@[simp] theorem State.addHolder_word (d pa : Nat) : (s.addHolder d pa).word = s.word := rfl
@[simp] theorem State.addHolder_folios (d pa : Nat) : (s.addHolder d pa).folios = s.folios := rfl
@[simp] theorem State.addHolder_volumes (d pa : Nat) : (s.addHolder d pa).volumes = s.volumes := rfl
@[simp] theorem State.addHolder_colls (d pa : Nat) : (s.addHolder d pa).colls = s.colls := rfl
@[simp] theorem State.addHolder_saved (d pa : Nat) : (s.addHolder d pa).saved = s.saved := rfl
@[simp] theorem State.addHolder_remaps (d pa : Nat) : (s.addHolder d pa).remaps = s.remaps := rfl
@[simp] theorem State.addHolder_dies (d pa : Nat) : (s.addHolder d pa).dies = s.dies := rfl
@[simp] theorem State.addHolder_mem (d pa : Nat) : (s.addHolder d pa).mem = s.mem := rfl
@[simp] theorem State.addHolder_lineKey (d pa : Nat) : (s.addHolder d pa).lineKey = s.lineKey := rfl
@[simp] theorem State.addHolder_class_ (d pa : Nat) : (s.addHolder d pa).class_ = s.class_ := rfl
@[simp] theorem State.addHolder_shadow (d pa : Nat) : (s.addHolder d pa).shadow = s.shadow := rfl
@[simp] theorem State.addHolder_stores (d pa : Nat) : (s.addHolder d pa).stores = s.stores := rfl
@[simp] theorem State.addHolder_hist (d pa : Nat) : (s.addHolder d pa).hist = s.hist := rfl
@[simp] theorem State.addHolder_views (d pa : Nat) : (s.addHolder d pa).views = s.views := rfl
@[simp] theorem State.addHolder_backs (d pa : Nat) : (s.addHolder d pa).backs = s.backs := rfl
@[simp] theorem State.addHolder_bits (d pa : Nat) : (s.addHolder d pa).bits = s.bits := rfl
@[simp] theorem State.addHolder_poison (d pa : Nat) : (s.addHolder d pa).poison = s.poison := rfl
@[simp] theorem State.addHolder_bad (d pa : Nat) : (s.addHolder d pa).bad = s.bad := rfl
@[simp] theorem State.addHolder_partials (d pa : Nat) : (s.addHolder d pa).partials = s.partials := rfl
@[simp] theorem State.addHolder_counters (d pa : Nat) : (s.addHolder d pa).counters = s.counters := rfl
@[simp] theorem State.addHolder_subs (d pa : Nat) : (s.addHolder d pa).subs = s.subs := rfl
@[simp] theorem State.addHolder_subGens (d pa : Nat) : (s.addHolder d pa).subGens = s.subGens := rfl
@[simp] theorem State.addHolder_copies (d pa : Nat) : (s.addHolder d pa).copies = s.copies := rfl
@[simp] theorem State.addHolder_tiles (d pa : Nat) : (s.addHolder d pa).tiles = s.tiles := rfl
@[simp] theorem State.addHolder_inbound (d pa : Nat) : (s.addHolder d pa).inbound = s.inbound := rfl
@[simp] theorem State.addHolder_matops (d pa : Nat) : (s.addHolder d pa).matops = s.matops := rfl
@[simp] theorem State.addHolder_permits (d pa : Nat) : (s.addHolder d pa).permits = s.permits := rfl
@[simp] theorem State.addHolder_shards (d pa : Nat) : (s.addHolder d pa).shards = s.shards := rfl
@[simp] theorem State.addHolder_shoots (d pa : Nat) : (s.addHolder d pa).shoots = s.shoots := rfl
@[simp] theorem State.addHolder_msgs (d pa : Nat) : (s.addHolder d pa).msgs = s.msgs := rfl
@[simp] theorem State.addHolder_links (d pa : Nat) : (s.addHolder d pa).links = s.links := rfl
@[simp] theorem State.addHolder_keys (d pa : Nat) : (s.addHolder d pa).keys = s.keys := rfl
@[simp] theorem State.addHolder_part (d pa : Nat) : (s.addHolder d pa).part = s.part := rfl
@[simp] theorem State.addHolder_pkgid (d pa : Nat) : (s.addHolder d pa).pkgid = s.pkgid := rfl
@[simp] theorem State.addHolder_pkgs (d pa : Nat) : (s.addHolder d pa).pkgs = s.pkgs := rfl
@[simp] theorem State.addHolder_everPkgs (d pa : Nat) : (s.addHolder d pa).everPkgs = s.everPkgs := rfl
@[simp] theorem State.addHolder_deadPkgs (d pa : Nat) : (s.addHolder d pa).deadPkgs = s.deadPkgs := rfl
@[simp] theorem State.addHolder_outcast (d pa : Nat) : (s.addHolder d pa).outcast = s.outcast := rfl
@[simp] theorem State.addHolder_pkgGen (d pa : Nat) : (s.addHolder d pa).pkgGen = s.pkgGen := rfl
@[simp] theorem State.addHolder_epoch (d pa : Nat) : (s.addHolder d pa).epoch = s.epoch := rfl
@[simp] theorem State.addHolder_pkgSeq (d pa : Nat) : (s.addHolder d pa).pkgSeq = s.pkgSeq := rfl
@[simp] theorem State.addHolder_domSeq (d pa : Nat) : (s.addHolder d pa).domSeq = s.domSeq := rfl
@[simp] theorem State.addHolder_misses (d pa : Nat) : (s.addHolder d pa).misses = s.misses := rfl
@[simp] theorem State.addHolder_lqWait (d pa : Nat) : (s.addHolder d pa).lqWait = s.lqWait := rfl
@[simp] theorem State.addHolder_boot (d pa : Nat) : (s.addHolder d pa).boot = s.boot := rfl
@[simp] theorem State.addHolder_images (d pa : Nat) : (s.addHolder d pa).images = s.images := rfl
@[simp] theorem State.addHolder_minVer (d pa : Nat) : (s.addHolder d pa).minVer = s.minVer := rfl
@[simp] theorem State.addHolder_romKey (d pa : Nat) : (s.addHolder d pa).romKey = s.romKey := rfl
@[simp] theorem State.addHolder_measure (d pa : Nat) : (s.addHolder d pa).measure = s.measure := rfl
@[simp] theorem State.addHolder_hot (d pa : Nat) : (s.addHolder d pa).hot = s.hot := rfl
@[simp] theorem State.addHolder_tick (d pa : Nat) : (s.addHolder d pa).tick = s.tick := rfl
@[simp] theorem State.addHolder_clock (d pa : Nat) : (s.addHolder d pa).clock = s.clock := rfl
@[simp] theorem State.addHolder_order (d pa : Nat) : (s.addHolder d pa).order = s.order := rfl
@[simp] theorem State.addHolder_next (d pa : Nat) : (s.addHolder d pa).next = s.next := rfl
@[simp] theorem State.addHolder_inputs (d pa : Nat) : (s.addHolder d pa).inputs = s.inputs := rfl

@[simp] theorem State.dropCopies_q (d : Nat) (p : Copy → Bool) : (s.dropCopies d p).q = s.q := rfl
@[simp] theorem State.dropCopies_rest (d : Nat) (p : Copy → Bool) : (s.dropCopies d p).rest = s.rest := rfl
@[simp] theorem State.dropCopies_sel (d : Nat) (p : Copy → Bool) : (s.dropCopies d p).sel = s.sel := rfl
@[simp] theorem State.dropCopies_word (d : Nat) (p : Copy → Bool) : (s.dropCopies d p).word = s.word := rfl
@[simp] theorem State.dropCopies_folios (d : Nat) (p : Copy → Bool) : (s.dropCopies d p).folios = s.folios := rfl
@[simp] theorem State.dropCopies_volumes (d : Nat) (p : Copy → Bool) : (s.dropCopies d p).volumes = s.volumes := rfl
@[simp] theorem State.dropCopies_colls (d : Nat) (p : Copy → Bool) : (s.dropCopies d p).colls = s.colls := rfl
@[simp] theorem State.dropCopies_saved (d : Nat) (p : Copy → Bool) : (s.dropCopies d p).saved = s.saved := rfl
@[simp] theorem State.dropCopies_remaps (d : Nat) (p : Copy → Bool) : (s.dropCopies d p).remaps = s.remaps := rfl
@[simp] theorem State.dropCopies_mem (d : Nat) (p : Copy → Bool) : (s.dropCopies d p).mem = s.mem := rfl
@[simp] theorem State.dropCopies_lineKey (d : Nat) (p : Copy → Bool) : (s.dropCopies d p).lineKey = s.lineKey := rfl
@[simp] theorem State.dropCopies_shadow (d : Nat) (p : Copy → Bool) : (s.dropCopies d p).shadow = s.shadow := rfl
@[simp] theorem State.dropCopies_stores (d : Nat) (p : Copy → Bool) : (s.dropCopies d p).stores = s.stores := rfl
@[simp] theorem State.dropCopies_views (d : Nat) (p : Copy → Bool) : (s.dropCopies d p).views = s.views := rfl
@[simp] theorem State.dropCopies_backs (d : Nat) (p : Copy → Bool) : (s.dropCopies d p).backs = s.backs := rfl
@[simp] theorem State.dropCopies_holders (d : Nat) (p : Copy → Bool) : (s.dropCopies d p).holders = s.holders := rfl
@[simp] theorem State.dropCopies_bits (d : Nat) (p : Copy → Bool) : (s.dropCopies d p).bits = s.bits := rfl
@[simp] theorem State.dropCopies_poison (d : Nat) (p : Copy → Bool) : (s.dropCopies d p).poison = s.poison := rfl
@[simp] theorem State.dropCopies_bad (d : Nat) (p : Copy → Bool) : (s.dropCopies d p).bad = s.bad := rfl
@[simp] theorem State.dropCopies_partials (d : Nat) (p : Copy → Bool) : (s.dropCopies d p).partials = s.partials := rfl
@[simp] theorem State.dropCopies_counters (d : Nat) (p : Copy → Bool) : (s.dropCopies d p).counters = s.counters := rfl
@[simp] theorem State.dropCopies_subs (d : Nat) (p : Copy → Bool) : (s.dropCopies d p).subs = s.subs := rfl
@[simp] theorem State.dropCopies_subGens (d : Nat) (p : Copy → Bool) : (s.dropCopies d p).subGens = s.subGens := rfl
@[simp] theorem State.dropCopies_copies (d : Nat) (p : Copy → Bool) : (s.dropCopies d p).copies = s.copies := rfl
@[simp] theorem State.dropCopies_tiles (d : Nat) (p : Copy → Bool) : (s.dropCopies d p).tiles = s.tiles := rfl
@[simp] theorem State.dropCopies_inbound (d : Nat) (p : Copy → Bool) : (s.dropCopies d p).inbound = s.inbound := rfl
@[simp] theorem State.dropCopies_matops (d : Nat) (p : Copy → Bool) : (s.dropCopies d p).matops = s.matops := rfl
@[simp] theorem State.dropCopies_permits (d : Nat) (p : Copy → Bool) : (s.dropCopies d p).permits = s.permits := rfl
@[simp] theorem State.dropCopies_shards (d : Nat) (p : Copy → Bool) : (s.dropCopies d p).shards = s.shards := rfl
@[simp] theorem State.dropCopies_shoots (d : Nat) (p : Copy → Bool) : (s.dropCopies d p).shoots = s.shoots := rfl
@[simp] theorem State.dropCopies_msgs (d : Nat) (p : Copy → Bool) : (s.dropCopies d p).msgs = s.msgs := rfl
@[simp] theorem State.dropCopies_links (d : Nat) (p : Copy → Bool) : (s.dropCopies d p).links = s.links := rfl
@[simp] theorem State.dropCopies_keys (d : Nat) (p : Copy → Bool) : (s.dropCopies d p).keys = s.keys := rfl
@[simp] theorem State.dropCopies_part (d : Nat) (p : Copy → Bool) : (s.dropCopies d p).part = s.part := rfl
@[simp] theorem State.dropCopies_pkgid (d : Nat) (p : Copy → Bool) : (s.dropCopies d p).pkgid = s.pkgid := rfl
@[simp] theorem State.dropCopies_pkgs (d : Nat) (p : Copy → Bool) : (s.dropCopies d p).pkgs = s.pkgs := rfl
@[simp] theorem State.dropCopies_everPkgs (d : Nat) (p : Copy → Bool) : (s.dropCopies d p).everPkgs = s.everPkgs := rfl
@[simp] theorem State.dropCopies_deadPkgs (d : Nat) (p : Copy → Bool) : (s.dropCopies d p).deadPkgs = s.deadPkgs := rfl
@[simp] theorem State.dropCopies_outcast (d : Nat) (p : Copy → Bool) : (s.dropCopies d p).outcast = s.outcast := rfl
@[simp] theorem State.dropCopies_pkgGen (d : Nat) (p : Copy → Bool) : (s.dropCopies d p).pkgGen = s.pkgGen := rfl
@[simp] theorem State.dropCopies_epoch (d : Nat) (p : Copy → Bool) : (s.dropCopies d p).epoch = s.epoch := rfl
@[simp] theorem State.dropCopies_pkgSeq (d : Nat) (p : Copy → Bool) : (s.dropCopies d p).pkgSeq = s.pkgSeq := rfl
@[simp] theorem State.dropCopies_domSeq (d : Nat) (p : Copy → Bool) : (s.dropCopies d p).domSeq = s.domSeq := rfl
@[simp] theorem State.dropCopies_misses (d : Nat) (p : Copy → Bool) : (s.dropCopies d p).misses = s.misses := rfl
@[simp] theorem State.dropCopies_lqWait (d : Nat) (p : Copy → Bool) : (s.dropCopies d p).lqWait = s.lqWait := rfl
@[simp] theorem State.dropCopies_boot (d : Nat) (p : Copy → Bool) : (s.dropCopies d p).boot = s.boot := rfl
@[simp] theorem State.dropCopies_images (d : Nat) (p : Copy → Bool) : (s.dropCopies d p).images = s.images := rfl
@[simp] theorem State.dropCopies_minVer (d : Nat) (p : Copy → Bool) : (s.dropCopies d p).minVer = s.minVer := rfl
@[simp] theorem State.dropCopies_romKey (d : Nat) (p : Copy → Bool) : (s.dropCopies d p).romKey = s.romKey := rfl
@[simp] theorem State.dropCopies_measure (d : Nat) (p : Copy → Bool) : (s.dropCopies d p).measure = s.measure := rfl
@[simp] theorem State.dropCopies_hot (d : Nat) (p : Copy → Bool) : (s.dropCopies d p).hot = s.hot := rfl
@[simp] theorem State.dropCopies_tick (d : Nat) (p : Copy → Bool) : (s.dropCopies d p).tick = s.tick := rfl
@[simp] theorem State.dropCopies_clock (d : Nat) (p : Copy → Bool) : (s.dropCopies d p).clock = s.clock := rfl
@[simp] theorem State.dropCopies_order (d : Nat) (p : Copy → Bool) : (s.dropCopies d p).order = s.order := rfl
@[simp] theorem State.dropCopies_next (d : Nat) (p : Copy → Bool) : (s.dropCopies d p).next = s.next := rfl
@[simp] theorem State.dropCopies_inputs (d : Nat) (p : Copy → Bool) : (s.dropCopies d p).inputs = s.inputs := rfl

/-- What bringing a line under a key may change. -/
theorem State.rekey_cases (k pa : Nat) : ∃ m l, s.rekey k pa = { s with mem := m, lineKey := l } := by
  unfold State.rekey
  by_cases h : Sparse.get 0 (pa / 64) s.lineKey = s.keyCode k pa
  · exact ⟨_, _, if_pos h⟩
  · exact ⟨_, _, if_neg h⟩

@[simp] theorem State.rekey_q (k pa : Nat) : (s.rekey k pa).q = s.q := by obtain ⟨_, _, e⟩ := s.rekey_cases k pa; rw [e]
@[simp] theorem State.rekey_rest (k pa : Nat) : (s.rekey k pa).rest = s.rest := by obtain ⟨_, _, e⟩ := s.rekey_cases k pa; rw [e]
@[simp] theorem State.rekey_sel (k pa : Nat) : (s.rekey k pa).sel = s.sel := by obtain ⟨_, _, e⟩ := s.rekey_cases k pa; rw [e]
@[simp] theorem State.rekey_word (k pa : Nat) : (s.rekey k pa).word = s.word := by obtain ⟨_, _, e⟩ := s.rekey_cases k pa; rw [e]
@[simp] theorem State.rekey_folios (k pa : Nat) : (s.rekey k pa).folios = s.folios := by obtain ⟨_, _, e⟩ := s.rekey_cases k pa; rw [e]
@[simp] theorem State.rekey_volumes (k pa : Nat) : (s.rekey k pa).volumes = s.volumes := by obtain ⟨_, _, e⟩ := s.rekey_cases k pa; rw [e]
@[simp] theorem State.rekey_colls (k pa : Nat) : (s.rekey k pa).colls = s.colls := by obtain ⟨_, _, e⟩ := s.rekey_cases k pa; rw [e]
@[simp] theorem State.rekey_saved (k pa : Nat) : (s.rekey k pa).saved = s.saved := by obtain ⟨_, _, e⟩ := s.rekey_cases k pa; rw [e]
@[simp] theorem State.rekey_remaps (k pa : Nat) : (s.rekey k pa).remaps = s.remaps := by obtain ⟨_, _, e⟩ := s.rekey_cases k pa; rw [e]
@[simp] theorem State.rekey_dies (k pa : Nat) : (s.rekey k pa).dies = s.dies := by obtain ⟨_, _, e⟩ := s.rekey_cases k pa; rw [e]
@[simp] theorem State.rekey_class_ (k pa : Nat) : (s.rekey k pa).class_ = s.class_ := by obtain ⟨_, _, e⟩ := s.rekey_cases k pa; rw [e]
@[simp] theorem State.rekey_shadow (k pa : Nat) : (s.rekey k pa).shadow = s.shadow := by obtain ⟨_, _, e⟩ := s.rekey_cases k pa; rw [e]
@[simp] theorem State.rekey_stores (k pa : Nat) : (s.rekey k pa).stores = s.stores := by obtain ⟨_, _, e⟩ := s.rekey_cases k pa; rw [e]
@[simp] theorem State.rekey_hist (k pa : Nat) : (s.rekey k pa).hist = s.hist := by obtain ⟨_, _, e⟩ := s.rekey_cases k pa; rw [e]
@[simp] theorem State.rekey_views (k pa : Nat) : (s.rekey k pa).views = s.views := by obtain ⟨_, _, e⟩ := s.rekey_cases k pa; rw [e]
@[simp] theorem State.rekey_backs (k pa : Nat) : (s.rekey k pa).backs = s.backs := by obtain ⟨_, _, e⟩ := s.rekey_cases k pa; rw [e]
@[simp] theorem State.rekey_holders (k pa : Nat) : (s.rekey k pa).holders = s.holders := by obtain ⟨_, _, e⟩ := s.rekey_cases k pa; rw [e]
@[simp] theorem State.rekey_bits (k pa : Nat) : (s.rekey k pa).bits = s.bits := by obtain ⟨_, _, e⟩ := s.rekey_cases k pa; rw [e]
@[simp] theorem State.rekey_poison (k pa : Nat) : (s.rekey k pa).poison = s.poison := by obtain ⟨_, _, e⟩ := s.rekey_cases k pa; rw [e]
@[simp] theorem State.rekey_bad (k pa : Nat) : (s.rekey k pa).bad = s.bad := by obtain ⟨_, _, e⟩ := s.rekey_cases k pa; rw [e]
@[simp] theorem State.rekey_partials (k pa : Nat) : (s.rekey k pa).partials = s.partials := by obtain ⟨_, _, e⟩ := s.rekey_cases k pa; rw [e]
@[simp] theorem State.rekey_counters (k pa : Nat) : (s.rekey k pa).counters = s.counters := by obtain ⟨_, _, e⟩ := s.rekey_cases k pa; rw [e]
@[simp] theorem State.rekey_subs (k pa : Nat) : (s.rekey k pa).subs = s.subs := by obtain ⟨_, _, e⟩ := s.rekey_cases k pa; rw [e]
@[simp] theorem State.rekey_subGens (k pa : Nat) : (s.rekey k pa).subGens = s.subGens := by obtain ⟨_, _, e⟩ := s.rekey_cases k pa; rw [e]
@[simp] theorem State.rekey_copies (k pa : Nat) : (s.rekey k pa).copies = s.copies := by obtain ⟨_, _, e⟩ := s.rekey_cases k pa; rw [e]
@[simp] theorem State.rekey_tiles (k pa : Nat) : (s.rekey k pa).tiles = s.tiles := by obtain ⟨_, _, e⟩ := s.rekey_cases k pa; rw [e]
@[simp] theorem State.rekey_inbound (k pa : Nat) : (s.rekey k pa).inbound = s.inbound := by obtain ⟨_, _, e⟩ := s.rekey_cases k pa; rw [e]
@[simp] theorem State.rekey_matops (k pa : Nat) : (s.rekey k pa).matops = s.matops := by obtain ⟨_, _, e⟩ := s.rekey_cases k pa; rw [e]
@[simp] theorem State.rekey_permits (k pa : Nat) : (s.rekey k pa).permits = s.permits := by obtain ⟨_, _, e⟩ := s.rekey_cases k pa; rw [e]
@[simp] theorem State.rekey_shards (k pa : Nat) : (s.rekey k pa).shards = s.shards := by obtain ⟨_, _, e⟩ := s.rekey_cases k pa; rw [e]
@[simp] theorem State.rekey_shoots (k pa : Nat) : (s.rekey k pa).shoots = s.shoots := by obtain ⟨_, _, e⟩ := s.rekey_cases k pa; rw [e]
@[simp] theorem State.rekey_msgs (k pa : Nat) : (s.rekey k pa).msgs = s.msgs := by obtain ⟨_, _, e⟩ := s.rekey_cases k pa; rw [e]
@[simp] theorem State.rekey_links (k pa : Nat) : (s.rekey k pa).links = s.links := by obtain ⟨_, _, e⟩ := s.rekey_cases k pa; rw [e]
@[simp] theorem State.rekey_keys (k pa : Nat) : (s.rekey k pa).keys = s.keys := by obtain ⟨_, _, e⟩ := s.rekey_cases k pa; rw [e]
@[simp] theorem State.rekey_part (k pa : Nat) : (s.rekey k pa).part = s.part := by obtain ⟨_, _, e⟩ := s.rekey_cases k pa; rw [e]
@[simp] theorem State.rekey_pkgid (k pa : Nat) : (s.rekey k pa).pkgid = s.pkgid := by obtain ⟨_, _, e⟩ := s.rekey_cases k pa; rw [e]
@[simp] theorem State.rekey_pkgs (k pa : Nat) : (s.rekey k pa).pkgs = s.pkgs := by obtain ⟨_, _, e⟩ := s.rekey_cases k pa; rw [e]
@[simp] theorem State.rekey_everPkgs (k pa : Nat) : (s.rekey k pa).everPkgs = s.everPkgs := by obtain ⟨_, _, e⟩ := s.rekey_cases k pa; rw [e]
@[simp] theorem State.rekey_deadPkgs (k pa : Nat) : (s.rekey k pa).deadPkgs = s.deadPkgs := by obtain ⟨_, _, e⟩ := s.rekey_cases k pa; rw [e]
@[simp] theorem State.rekey_outcast (k pa : Nat) : (s.rekey k pa).outcast = s.outcast := by obtain ⟨_, _, e⟩ := s.rekey_cases k pa; rw [e]
@[simp] theorem State.rekey_pkgGen (k pa : Nat) : (s.rekey k pa).pkgGen = s.pkgGen := by obtain ⟨_, _, e⟩ := s.rekey_cases k pa; rw [e]
@[simp] theorem State.rekey_epoch (k pa : Nat) : (s.rekey k pa).epoch = s.epoch := by obtain ⟨_, _, e⟩ := s.rekey_cases k pa; rw [e]
@[simp] theorem State.rekey_pkgSeq (k pa : Nat) : (s.rekey k pa).pkgSeq = s.pkgSeq := by obtain ⟨_, _, e⟩ := s.rekey_cases k pa; rw [e]
@[simp] theorem State.rekey_domSeq (k pa : Nat) : (s.rekey k pa).domSeq = s.domSeq := by obtain ⟨_, _, e⟩ := s.rekey_cases k pa; rw [e]
@[simp] theorem State.rekey_misses (k pa : Nat) : (s.rekey k pa).misses = s.misses := by obtain ⟨_, _, e⟩ := s.rekey_cases k pa; rw [e]
@[simp] theorem State.rekey_lqWait (k pa : Nat) : (s.rekey k pa).lqWait = s.lqWait := by obtain ⟨_, _, e⟩ := s.rekey_cases k pa; rw [e]
@[simp] theorem State.rekey_boot (k pa : Nat) : (s.rekey k pa).boot = s.boot := by obtain ⟨_, _, e⟩ := s.rekey_cases k pa; rw [e]
@[simp] theorem State.rekey_images (k pa : Nat) : (s.rekey k pa).images = s.images := by obtain ⟨_, _, e⟩ := s.rekey_cases k pa; rw [e]
@[simp] theorem State.rekey_minVer (k pa : Nat) : (s.rekey k pa).minVer = s.minVer := by obtain ⟨_, _, e⟩ := s.rekey_cases k pa; rw [e]
@[simp] theorem State.rekey_romKey (k pa : Nat) : (s.rekey k pa).romKey = s.romKey := by obtain ⟨_, _, e⟩ := s.rekey_cases k pa; rw [e]
@[simp] theorem State.rekey_measure (k pa : Nat) : (s.rekey k pa).measure = s.measure := by obtain ⟨_, _, e⟩ := s.rekey_cases k pa; rw [e]
@[simp] theorem State.rekey_hot (k pa : Nat) : (s.rekey k pa).hot = s.hot := by obtain ⟨_, _, e⟩ := s.rekey_cases k pa; rw [e]
@[simp] theorem State.rekey_tick (k pa : Nat) : (s.rekey k pa).tick = s.tick := by obtain ⟨_, _, e⟩ := s.rekey_cases k pa; rw [e]
@[simp] theorem State.rekey_clock (k pa : Nat) : (s.rekey k pa).clock = s.clock := by obtain ⟨_, _, e⟩ := s.rekey_cases k pa; rw [e]
@[simp] theorem State.rekey_order (k pa : Nat) : (s.rekey k pa).order = s.order := by obtain ⟨_, _, e⟩ := s.rekey_cases k pa; rw [e]
@[simp] theorem State.rekey_next (k pa : Nat) : (s.rekey k pa).next = s.next := by obtain ⟨_, _, e⟩ := s.rekey_cases k pa; rw [e]
@[simp] theorem State.rekey_inputs (k pa : Nat) : (s.rekey k pa).inputs = s.inputs := by obtain ⟨_, _, e⟩ := s.rekey_cases k pa; rw [e]

/-- What a write at a home may change. -/
theorem State.putRaw_cases (k pa : Nat) (bs : List Byte) :
    ∃ m l h b, s.putRaw k pa bs = { s with mem := m, lineKey := l, hist := h, backs := b } := by
  unfold State.putRaw
  obtain ⟨m, l, hu⟩ := s.rekey_cases k pa
  rw [hu]
  cases s.replicaOf pa with
  | none => exact ⟨_, _, _, _, rfl⟩
  | some ra =>
    dsimp only
    obtain ⟨m', l', hv⟩ := State.rekey_cases (_ : State) k ra
    rw [hv]
    exact ⟨_, _, _, _, rfl⟩

@[simp] theorem State.putRaw_q (k pa : Nat) (bs : List Byte) : (s.putRaw k pa bs).q = s.q := by obtain ⟨_, _, _, _, e⟩ := s.putRaw_cases k pa bs; rw [e]
@[simp] theorem State.putRaw_rest (k pa : Nat) (bs : List Byte) : (s.putRaw k pa bs).rest = s.rest := by obtain ⟨_, _, _, _, e⟩ := s.putRaw_cases k pa bs; rw [e]
@[simp] theorem State.putRaw_sel (k pa : Nat) (bs : List Byte) : (s.putRaw k pa bs).sel = s.sel := by obtain ⟨_, _, _, _, e⟩ := s.putRaw_cases k pa bs; rw [e]
@[simp] theorem State.putRaw_word (k pa : Nat) (bs : List Byte) : (s.putRaw k pa bs).word = s.word := by obtain ⟨_, _, _, _, e⟩ := s.putRaw_cases k pa bs; rw [e]
@[simp] theorem State.putRaw_folios (k pa : Nat) (bs : List Byte) : (s.putRaw k pa bs).folios = s.folios := by obtain ⟨_, _, _, _, e⟩ := s.putRaw_cases k pa bs; rw [e]
@[simp] theorem State.putRaw_volumes (k pa : Nat) (bs : List Byte) : (s.putRaw k pa bs).volumes = s.volumes := by obtain ⟨_, _, _, _, e⟩ := s.putRaw_cases k pa bs; rw [e]
@[simp] theorem State.putRaw_colls (k pa : Nat) (bs : List Byte) : (s.putRaw k pa bs).colls = s.colls := by obtain ⟨_, _, _, _, e⟩ := s.putRaw_cases k pa bs; rw [e]
@[simp] theorem State.putRaw_saved (k pa : Nat) (bs : List Byte) : (s.putRaw k pa bs).saved = s.saved := by obtain ⟨_, _, _, _, e⟩ := s.putRaw_cases k pa bs; rw [e]
@[simp] theorem State.putRaw_remaps (k pa : Nat) (bs : List Byte) : (s.putRaw k pa bs).remaps = s.remaps := by obtain ⟨_, _, _, _, e⟩ := s.putRaw_cases k pa bs; rw [e]
@[simp] theorem State.putRaw_dies (k pa : Nat) (bs : List Byte) : (s.putRaw k pa bs).dies = s.dies := by obtain ⟨_, _, _, _, e⟩ := s.putRaw_cases k pa bs; rw [e]
@[simp] theorem State.putRaw_class_ (k pa : Nat) (bs : List Byte) : (s.putRaw k pa bs).class_ = s.class_ := by obtain ⟨_, _, _, _, e⟩ := s.putRaw_cases k pa bs; rw [e]
@[simp] theorem State.putRaw_shadow (k pa : Nat) (bs : List Byte) : (s.putRaw k pa bs).shadow = s.shadow := by obtain ⟨_, _, _, _, e⟩ := s.putRaw_cases k pa bs; rw [e]
@[simp] theorem State.putRaw_stores (k pa : Nat) (bs : List Byte) : (s.putRaw k pa bs).stores = s.stores := by obtain ⟨_, _, _, _, e⟩ := s.putRaw_cases k pa bs; rw [e]
@[simp] theorem State.putRaw_views (k pa : Nat) (bs : List Byte) : (s.putRaw k pa bs).views = s.views := by obtain ⟨_, _, _, _, e⟩ := s.putRaw_cases k pa bs; rw [e]
@[simp] theorem State.putRaw_holders (k pa : Nat) (bs : List Byte) : (s.putRaw k pa bs).holders = s.holders := by obtain ⟨_, _, _, _, e⟩ := s.putRaw_cases k pa bs; rw [e]
@[simp] theorem State.putRaw_bits (k pa : Nat) (bs : List Byte) : (s.putRaw k pa bs).bits = s.bits := by obtain ⟨_, _, _, _, e⟩ := s.putRaw_cases k pa bs; rw [e]
@[simp] theorem State.putRaw_poison (k pa : Nat) (bs : List Byte) : (s.putRaw k pa bs).poison = s.poison := by obtain ⟨_, _, _, _, e⟩ := s.putRaw_cases k pa bs; rw [e]
@[simp] theorem State.putRaw_bad (k pa : Nat) (bs : List Byte) : (s.putRaw k pa bs).bad = s.bad := by obtain ⟨_, _, _, _, e⟩ := s.putRaw_cases k pa bs; rw [e]
@[simp] theorem State.putRaw_partials (k pa : Nat) (bs : List Byte) : (s.putRaw k pa bs).partials = s.partials := by obtain ⟨_, _, _, _, e⟩ := s.putRaw_cases k pa bs; rw [e]
@[simp] theorem State.putRaw_counters (k pa : Nat) (bs : List Byte) : (s.putRaw k pa bs).counters = s.counters := by obtain ⟨_, _, _, _, e⟩ := s.putRaw_cases k pa bs; rw [e]
@[simp] theorem State.putRaw_subs (k pa : Nat) (bs : List Byte) : (s.putRaw k pa bs).subs = s.subs := by obtain ⟨_, _, _, _, e⟩ := s.putRaw_cases k pa bs; rw [e]
@[simp] theorem State.putRaw_subGens (k pa : Nat) (bs : List Byte) : (s.putRaw k pa bs).subGens = s.subGens := by obtain ⟨_, _, _, _, e⟩ := s.putRaw_cases k pa bs; rw [e]
@[simp] theorem State.putRaw_copies (k pa : Nat) (bs : List Byte) : (s.putRaw k pa bs).copies = s.copies := by obtain ⟨_, _, _, _, e⟩ := s.putRaw_cases k pa bs; rw [e]
@[simp] theorem State.putRaw_tiles (k pa : Nat) (bs : List Byte) : (s.putRaw k pa bs).tiles = s.tiles := by obtain ⟨_, _, _, _, e⟩ := s.putRaw_cases k pa bs; rw [e]
@[simp] theorem State.putRaw_inbound (k pa : Nat) (bs : List Byte) : (s.putRaw k pa bs).inbound = s.inbound := by obtain ⟨_, _, _, _, e⟩ := s.putRaw_cases k pa bs; rw [e]
@[simp] theorem State.putRaw_matops (k pa : Nat) (bs : List Byte) : (s.putRaw k pa bs).matops = s.matops := by obtain ⟨_, _, _, _, e⟩ := s.putRaw_cases k pa bs; rw [e]
@[simp] theorem State.putRaw_permits (k pa : Nat) (bs : List Byte) : (s.putRaw k pa bs).permits = s.permits := by obtain ⟨_, _, _, _, e⟩ := s.putRaw_cases k pa bs; rw [e]
@[simp] theorem State.putRaw_shards (k pa : Nat) (bs : List Byte) : (s.putRaw k pa bs).shards = s.shards := by obtain ⟨_, _, _, _, e⟩ := s.putRaw_cases k pa bs; rw [e]
@[simp] theorem State.putRaw_shoots (k pa : Nat) (bs : List Byte) : (s.putRaw k pa bs).shoots = s.shoots := by obtain ⟨_, _, _, _, e⟩ := s.putRaw_cases k pa bs; rw [e]
@[simp] theorem State.putRaw_msgs (k pa : Nat) (bs : List Byte) : (s.putRaw k pa bs).msgs = s.msgs := by obtain ⟨_, _, _, _, e⟩ := s.putRaw_cases k pa bs; rw [e]
@[simp] theorem State.putRaw_links (k pa : Nat) (bs : List Byte) : (s.putRaw k pa bs).links = s.links := by obtain ⟨_, _, _, _, e⟩ := s.putRaw_cases k pa bs; rw [e]
@[simp] theorem State.putRaw_keys (k pa : Nat) (bs : List Byte) : (s.putRaw k pa bs).keys = s.keys := by obtain ⟨_, _, _, _, e⟩ := s.putRaw_cases k pa bs; rw [e]
@[simp] theorem State.putRaw_part (k pa : Nat) (bs : List Byte) : (s.putRaw k pa bs).part = s.part := by obtain ⟨_, _, _, _, e⟩ := s.putRaw_cases k pa bs; rw [e]
@[simp] theorem State.putRaw_pkgid (k pa : Nat) (bs : List Byte) : (s.putRaw k pa bs).pkgid = s.pkgid := by obtain ⟨_, _, _, _, e⟩ := s.putRaw_cases k pa bs; rw [e]
@[simp] theorem State.putRaw_pkgs (k pa : Nat) (bs : List Byte) : (s.putRaw k pa bs).pkgs = s.pkgs := by obtain ⟨_, _, _, _, e⟩ := s.putRaw_cases k pa bs; rw [e]
@[simp] theorem State.putRaw_everPkgs (k pa : Nat) (bs : List Byte) : (s.putRaw k pa bs).everPkgs = s.everPkgs := by obtain ⟨_, _, _, _, e⟩ := s.putRaw_cases k pa bs; rw [e]
@[simp] theorem State.putRaw_deadPkgs (k pa : Nat) (bs : List Byte) : (s.putRaw k pa bs).deadPkgs = s.deadPkgs := by obtain ⟨_, _, _, _, e⟩ := s.putRaw_cases k pa bs; rw [e]
@[simp] theorem State.putRaw_outcast (k pa : Nat) (bs : List Byte) : (s.putRaw k pa bs).outcast = s.outcast := by obtain ⟨_, _, _, _, e⟩ := s.putRaw_cases k pa bs; rw [e]
@[simp] theorem State.putRaw_pkgGen (k pa : Nat) (bs : List Byte) : (s.putRaw k pa bs).pkgGen = s.pkgGen := by obtain ⟨_, _, _, _, e⟩ := s.putRaw_cases k pa bs; rw [e]
@[simp] theorem State.putRaw_epoch (k pa : Nat) (bs : List Byte) : (s.putRaw k pa bs).epoch = s.epoch := by obtain ⟨_, _, _, _, e⟩ := s.putRaw_cases k pa bs; rw [e]
@[simp] theorem State.putRaw_pkgSeq (k pa : Nat) (bs : List Byte) : (s.putRaw k pa bs).pkgSeq = s.pkgSeq := by obtain ⟨_, _, _, _, e⟩ := s.putRaw_cases k pa bs; rw [e]
@[simp] theorem State.putRaw_domSeq (k pa : Nat) (bs : List Byte) : (s.putRaw k pa bs).domSeq = s.domSeq := by obtain ⟨_, _, _, _, e⟩ := s.putRaw_cases k pa bs; rw [e]
@[simp] theorem State.putRaw_misses (k pa : Nat) (bs : List Byte) : (s.putRaw k pa bs).misses = s.misses := by obtain ⟨_, _, _, _, e⟩ := s.putRaw_cases k pa bs; rw [e]
@[simp] theorem State.putRaw_lqWait (k pa : Nat) (bs : List Byte) : (s.putRaw k pa bs).lqWait = s.lqWait := by obtain ⟨_, _, _, _, e⟩ := s.putRaw_cases k pa bs; rw [e]
@[simp] theorem State.putRaw_boot (k pa : Nat) (bs : List Byte) : (s.putRaw k pa bs).boot = s.boot := by obtain ⟨_, _, _, _, e⟩ := s.putRaw_cases k pa bs; rw [e]
@[simp] theorem State.putRaw_images (k pa : Nat) (bs : List Byte) : (s.putRaw k pa bs).images = s.images := by obtain ⟨_, _, _, _, e⟩ := s.putRaw_cases k pa bs; rw [e]
@[simp] theorem State.putRaw_minVer (k pa : Nat) (bs : List Byte) : (s.putRaw k pa bs).minVer = s.minVer := by obtain ⟨_, _, _, _, e⟩ := s.putRaw_cases k pa bs; rw [e]
@[simp] theorem State.putRaw_romKey (k pa : Nat) (bs : List Byte) : (s.putRaw k pa bs).romKey = s.romKey := by obtain ⟨_, _, _, _, e⟩ := s.putRaw_cases k pa bs; rw [e]
@[simp] theorem State.putRaw_measure (k pa : Nat) (bs : List Byte) : (s.putRaw k pa bs).measure = s.measure := by obtain ⟨_, _, _, _, e⟩ := s.putRaw_cases k pa bs; rw [e]
@[simp] theorem State.putRaw_hot (k pa : Nat) (bs : List Byte) : (s.putRaw k pa bs).hot = s.hot := by obtain ⟨_, _, _, _, e⟩ := s.putRaw_cases k pa bs; rw [e]
@[simp] theorem State.putRaw_tick (k pa : Nat) (bs : List Byte) : (s.putRaw k pa bs).tick = s.tick := by obtain ⟨_, _, _, _, e⟩ := s.putRaw_cases k pa bs; rw [e]
@[simp] theorem State.putRaw_clock (k pa : Nat) (bs : List Byte) : (s.putRaw k pa bs).clock = s.clock := by obtain ⟨_, _, _, _, e⟩ := s.putRaw_cases k pa bs; rw [e]
@[simp] theorem State.putRaw_order (k pa : Nat) (bs : List Byte) : (s.putRaw k pa bs).order = s.order := by obtain ⟨_, _, _, _, e⟩ := s.putRaw_cases k pa bs; rw [e]
@[simp] theorem State.putRaw_next (k pa : Nat) (bs : List Byte) : (s.putRaw k pa bs).next = s.next := by obtain ⟨_, _, _, _, e⟩ := s.putRaw_cases k pa bs; rw [e]
@[simp] theorem State.putRaw_inputs (k pa : Nat) (bs : List Byte) : (s.putRaw k pa bs).inputs = s.inputs := by obtain ⟨_, _, _, _, e⟩ := s.putRaw_cases k pa bs; rw [e]

/-- So may a longer one. -/
theorem State.putLong_cases (k pa : Nat) (bs : List Byte) :
    ∃ m l h b, s.putLong k pa bs = { s with mem := m, lineKey := l, hist := h, backs := b } := by
  unfold State.putLong
  generalize List.range ((bs.length + 63) / 64) = is
  suffices ∀ (t : State), (∃ m l h b, t = { s with mem := m, lineKey := l, hist := h, backs := b }) →
      ∃ m l h b, is.foldl (fun (t : State) i => t.putRaw k (pa + 64 * i) ((bs.drop (64 * i)).take 64)) t =
        { s with mem := m, lineKey := l, hist := h, backs := b } from this s ⟨_, _, _, _, rfl⟩
  induction is with
  | nil => intro t ht; exact ht
  | cons i is ih =>
    rintro t ⟨m, l, h, b, rfl⟩
    obtain ⟨m', l', h', b', hu⟩ := State.putRaw_cases { s with mem := m, lineKey := l, hist := h, backs := b } k (pa + 64 * i)
      ((bs.drop (64 * i)).take 64)
    rw [List.foldl_cons, hu]
    exact ih _ ⟨_, _, _, _, rfl⟩

@[simp] theorem State.putLong_q (k pa : Nat) (bs : List Byte) : (s.putLong k pa bs).q = s.q := by obtain ⟨_, _, _, _, e⟩ := s.putLong_cases k pa bs; rw [e]
@[simp] theorem State.putLong_rest (k pa : Nat) (bs : List Byte) : (s.putLong k pa bs).rest = s.rest := by obtain ⟨_, _, _, _, e⟩ := s.putLong_cases k pa bs; rw [e]
@[simp] theorem State.putLong_sel (k pa : Nat) (bs : List Byte) : (s.putLong k pa bs).sel = s.sel := by obtain ⟨_, _, _, _, e⟩ := s.putLong_cases k pa bs; rw [e]
@[simp] theorem State.putLong_word (k pa : Nat) (bs : List Byte) : (s.putLong k pa bs).word = s.word := by obtain ⟨_, _, _, _, e⟩ := s.putLong_cases k pa bs; rw [e]
@[simp] theorem State.putLong_folios (k pa : Nat) (bs : List Byte) : (s.putLong k pa bs).folios = s.folios := by obtain ⟨_, _, _, _, e⟩ := s.putLong_cases k pa bs; rw [e]
@[simp] theorem State.putLong_volumes (k pa : Nat) (bs : List Byte) : (s.putLong k pa bs).volumes = s.volumes := by obtain ⟨_, _, _, _, e⟩ := s.putLong_cases k pa bs; rw [e]
@[simp] theorem State.putLong_colls (k pa : Nat) (bs : List Byte) : (s.putLong k pa bs).colls = s.colls := by obtain ⟨_, _, _, _, e⟩ := s.putLong_cases k pa bs; rw [e]
@[simp] theorem State.putLong_saved (k pa : Nat) (bs : List Byte) : (s.putLong k pa bs).saved = s.saved := by obtain ⟨_, _, _, _, e⟩ := s.putLong_cases k pa bs; rw [e]
@[simp] theorem State.putLong_remaps (k pa : Nat) (bs : List Byte) : (s.putLong k pa bs).remaps = s.remaps := by obtain ⟨_, _, _, _, e⟩ := s.putLong_cases k pa bs; rw [e]
@[simp] theorem State.putLong_dies (k pa : Nat) (bs : List Byte) : (s.putLong k pa bs).dies = s.dies := by obtain ⟨_, _, _, _, e⟩ := s.putLong_cases k pa bs; rw [e]
@[simp] theorem State.putLong_class_ (k pa : Nat) (bs : List Byte) : (s.putLong k pa bs).class_ = s.class_ := by obtain ⟨_, _, _, _, e⟩ := s.putLong_cases k pa bs; rw [e]
@[simp] theorem State.putLong_shadow (k pa : Nat) (bs : List Byte) : (s.putLong k pa bs).shadow = s.shadow := by obtain ⟨_, _, _, _, e⟩ := s.putLong_cases k pa bs; rw [e]
@[simp] theorem State.putLong_stores (k pa : Nat) (bs : List Byte) : (s.putLong k pa bs).stores = s.stores := by obtain ⟨_, _, _, _, e⟩ := s.putLong_cases k pa bs; rw [e]
@[simp] theorem State.putLong_views (k pa : Nat) (bs : List Byte) : (s.putLong k pa bs).views = s.views := by obtain ⟨_, _, _, _, e⟩ := s.putLong_cases k pa bs; rw [e]
@[simp] theorem State.putLong_holders (k pa : Nat) (bs : List Byte) : (s.putLong k pa bs).holders = s.holders := by obtain ⟨_, _, _, _, e⟩ := s.putLong_cases k pa bs; rw [e]
@[simp] theorem State.putLong_bits (k pa : Nat) (bs : List Byte) : (s.putLong k pa bs).bits = s.bits := by obtain ⟨_, _, _, _, e⟩ := s.putLong_cases k pa bs; rw [e]
@[simp] theorem State.putLong_poison (k pa : Nat) (bs : List Byte) : (s.putLong k pa bs).poison = s.poison := by obtain ⟨_, _, _, _, e⟩ := s.putLong_cases k pa bs; rw [e]
@[simp] theorem State.putLong_bad (k pa : Nat) (bs : List Byte) : (s.putLong k pa bs).bad = s.bad := by obtain ⟨_, _, _, _, e⟩ := s.putLong_cases k pa bs; rw [e]
@[simp] theorem State.putLong_partials (k pa : Nat) (bs : List Byte) : (s.putLong k pa bs).partials = s.partials := by obtain ⟨_, _, _, _, e⟩ := s.putLong_cases k pa bs; rw [e]
@[simp] theorem State.putLong_counters (k pa : Nat) (bs : List Byte) : (s.putLong k pa bs).counters = s.counters := by obtain ⟨_, _, _, _, e⟩ := s.putLong_cases k pa bs; rw [e]
@[simp] theorem State.putLong_subs (k pa : Nat) (bs : List Byte) : (s.putLong k pa bs).subs = s.subs := by obtain ⟨_, _, _, _, e⟩ := s.putLong_cases k pa bs; rw [e]
@[simp] theorem State.putLong_subGens (k pa : Nat) (bs : List Byte) : (s.putLong k pa bs).subGens = s.subGens := by obtain ⟨_, _, _, _, e⟩ := s.putLong_cases k pa bs; rw [e]
@[simp] theorem State.putLong_copies (k pa : Nat) (bs : List Byte) : (s.putLong k pa bs).copies = s.copies := by obtain ⟨_, _, _, _, e⟩ := s.putLong_cases k pa bs; rw [e]
@[simp] theorem State.putLong_tiles (k pa : Nat) (bs : List Byte) : (s.putLong k pa bs).tiles = s.tiles := by obtain ⟨_, _, _, _, e⟩ := s.putLong_cases k pa bs; rw [e]
@[simp] theorem State.putLong_inbound (k pa : Nat) (bs : List Byte) : (s.putLong k pa bs).inbound = s.inbound := by obtain ⟨_, _, _, _, e⟩ := s.putLong_cases k pa bs; rw [e]
@[simp] theorem State.putLong_matops (k pa : Nat) (bs : List Byte) : (s.putLong k pa bs).matops = s.matops := by obtain ⟨_, _, _, _, e⟩ := s.putLong_cases k pa bs; rw [e]
@[simp] theorem State.putLong_permits (k pa : Nat) (bs : List Byte) : (s.putLong k pa bs).permits = s.permits := by obtain ⟨_, _, _, _, e⟩ := s.putLong_cases k pa bs; rw [e]
@[simp] theorem State.putLong_shards (k pa : Nat) (bs : List Byte) : (s.putLong k pa bs).shards = s.shards := by obtain ⟨_, _, _, _, e⟩ := s.putLong_cases k pa bs; rw [e]
@[simp] theorem State.putLong_shoots (k pa : Nat) (bs : List Byte) : (s.putLong k pa bs).shoots = s.shoots := by obtain ⟨_, _, _, _, e⟩ := s.putLong_cases k pa bs; rw [e]
@[simp] theorem State.putLong_msgs (k pa : Nat) (bs : List Byte) : (s.putLong k pa bs).msgs = s.msgs := by obtain ⟨_, _, _, _, e⟩ := s.putLong_cases k pa bs; rw [e]
@[simp] theorem State.putLong_links (k pa : Nat) (bs : List Byte) : (s.putLong k pa bs).links = s.links := by obtain ⟨_, _, _, _, e⟩ := s.putLong_cases k pa bs; rw [e]
@[simp] theorem State.putLong_keys (k pa : Nat) (bs : List Byte) : (s.putLong k pa bs).keys = s.keys := by obtain ⟨_, _, _, _, e⟩ := s.putLong_cases k pa bs; rw [e]
@[simp] theorem State.putLong_part (k pa : Nat) (bs : List Byte) : (s.putLong k pa bs).part = s.part := by obtain ⟨_, _, _, _, e⟩ := s.putLong_cases k pa bs; rw [e]
@[simp] theorem State.putLong_pkgid (k pa : Nat) (bs : List Byte) : (s.putLong k pa bs).pkgid = s.pkgid := by obtain ⟨_, _, _, _, e⟩ := s.putLong_cases k pa bs; rw [e]
@[simp] theorem State.putLong_pkgs (k pa : Nat) (bs : List Byte) : (s.putLong k pa bs).pkgs = s.pkgs := by obtain ⟨_, _, _, _, e⟩ := s.putLong_cases k pa bs; rw [e]
@[simp] theorem State.putLong_everPkgs (k pa : Nat) (bs : List Byte) : (s.putLong k pa bs).everPkgs = s.everPkgs := by obtain ⟨_, _, _, _, e⟩ := s.putLong_cases k pa bs; rw [e]
@[simp] theorem State.putLong_deadPkgs (k pa : Nat) (bs : List Byte) : (s.putLong k pa bs).deadPkgs = s.deadPkgs := by obtain ⟨_, _, _, _, e⟩ := s.putLong_cases k pa bs; rw [e]
@[simp] theorem State.putLong_outcast (k pa : Nat) (bs : List Byte) : (s.putLong k pa bs).outcast = s.outcast := by obtain ⟨_, _, _, _, e⟩ := s.putLong_cases k pa bs; rw [e]
@[simp] theorem State.putLong_pkgGen (k pa : Nat) (bs : List Byte) : (s.putLong k pa bs).pkgGen = s.pkgGen := by obtain ⟨_, _, _, _, e⟩ := s.putLong_cases k pa bs; rw [e]
@[simp] theorem State.putLong_epoch (k pa : Nat) (bs : List Byte) : (s.putLong k pa bs).epoch = s.epoch := by obtain ⟨_, _, _, _, e⟩ := s.putLong_cases k pa bs; rw [e]
@[simp] theorem State.putLong_pkgSeq (k pa : Nat) (bs : List Byte) : (s.putLong k pa bs).pkgSeq = s.pkgSeq := by obtain ⟨_, _, _, _, e⟩ := s.putLong_cases k pa bs; rw [e]
@[simp] theorem State.putLong_domSeq (k pa : Nat) (bs : List Byte) : (s.putLong k pa bs).domSeq = s.domSeq := by obtain ⟨_, _, _, _, e⟩ := s.putLong_cases k pa bs; rw [e]
@[simp] theorem State.putLong_misses (k pa : Nat) (bs : List Byte) : (s.putLong k pa bs).misses = s.misses := by obtain ⟨_, _, _, _, e⟩ := s.putLong_cases k pa bs; rw [e]
@[simp] theorem State.putLong_lqWait (k pa : Nat) (bs : List Byte) : (s.putLong k pa bs).lqWait = s.lqWait := by obtain ⟨_, _, _, _, e⟩ := s.putLong_cases k pa bs; rw [e]
@[simp] theorem State.putLong_boot (k pa : Nat) (bs : List Byte) : (s.putLong k pa bs).boot = s.boot := by obtain ⟨_, _, _, _, e⟩ := s.putLong_cases k pa bs; rw [e]
@[simp] theorem State.putLong_images (k pa : Nat) (bs : List Byte) : (s.putLong k pa bs).images = s.images := by obtain ⟨_, _, _, _, e⟩ := s.putLong_cases k pa bs; rw [e]
@[simp] theorem State.putLong_minVer (k pa : Nat) (bs : List Byte) : (s.putLong k pa bs).minVer = s.minVer := by obtain ⟨_, _, _, _, e⟩ := s.putLong_cases k pa bs; rw [e]
@[simp] theorem State.putLong_romKey (k pa : Nat) (bs : List Byte) : (s.putLong k pa bs).romKey = s.romKey := by obtain ⟨_, _, _, _, e⟩ := s.putLong_cases k pa bs; rw [e]
@[simp] theorem State.putLong_measure (k pa : Nat) (bs : List Byte) : (s.putLong k pa bs).measure = s.measure := by obtain ⟨_, _, _, _, e⟩ := s.putLong_cases k pa bs; rw [e]
@[simp] theorem State.putLong_hot (k pa : Nat) (bs : List Byte) : (s.putLong k pa bs).hot = s.hot := by obtain ⟨_, _, _, _, e⟩ := s.putLong_cases k pa bs; rw [e]
@[simp] theorem State.putLong_tick (k pa : Nat) (bs : List Byte) : (s.putLong k pa bs).tick = s.tick := by obtain ⟨_, _, _, _, e⟩ := s.putLong_cases k pa bs; rw [e]
@[simp] theorem State.putLong_clock (k pa : Nat) (bs : List Byte) : (s.putLong k pa bs).clock = s.clock := by obtain ⟨_, _, _, _, e⟩ := s.putLong_cases k pa bs; rw [e]
@[simp] theorem State.putLong_order (k pa : Nat) (bs : List Byte) : (s.putLong k pa bs).order = s.order := by obtain ⟨_, _, _, _, e⟩ := s.putLong_cases k pa bs; rw [e]
@[simp] theorem State.putLong_next (k pa : Nat) (bs : List Byte) : (s.putLong k pa bs).next = s.next := by obtain ⟨_, _, _, _, e⟩ := s.putLong_cases k pa bs; rw [e]
@[simp] theorem State.putLong_inputs (k pa : Nat) (bs : List Byte) : (s.putLong k pa bs).inputs = s.inputs := by obtain ⟨_, _, _, _, e⟩ := s.putLong_cases k pa bs; rw [e]

/-- What holding a fault's holder may change. -/
theorem State.hold_cases (h : Holder) (i : Nat) :
    ∃ q rs sv cs ms, s.hold h i = { s with q := q, rest := rs, saved := sv, copies := cs, matops := ms } := by
  cases h <;> exact ⟨_, _, _, _, _, rfl⟩

@[simp] theorem State.hold_sel (h : Holder) (i : Nat) : (s.hold h i).sel = s.sel := by obtain ⟨_, _, _, _, _, e⟩ := s.hold_cases h i; rw [e]
@[simp] theorem State.hold_word (h : Holder) (i : Nat) : (s.hold h i).word = s.word := by obtain ⟨_, _, _, _, _, e⟩ := s.hold_cases h i; rw [e]
@[simp] theorem State.hold_folios (h : Holder) (i : Nat) : (s.hold h i).folios = s.folios := by obtain ⟨_, _, _, _, _, e⟩ := s.hold_cases h i; rw [e]
@[simp] theorem State.hold_volumes (h : Holder) (i : Nat) : (s.hold h i).volumes = s.volumes := by obtain ⟨_, _, _, _, _, e⟩ := s.hold_cases h i; rw [e]
@[simp] theorem State.hold_colls (h : Holder) (i : Nat) : (s.hold h i).colls = s.colls := by obtain ⟨_, _, _, _, _, e⟩ := s.hold_cases h i; rw [e]
@[simp] theorem State.hold_remaps (h : Holder) (i : Nat) : (s.hold h i).remaps = s.remaps := by obtain ⟨_, _, _, _, _, e⟩ := s.hold_cases h i; rw [e]
@[simp] theorem State.hold_dies (h : Holder) (i : Nat) : (s.hold h i).dies = s.dies := by obtain ⟨_, _, _, _, _, e⟩ := s.hold_cases h i; rw [e]
@[simp] theorem State.hold_mem (h : Holder) (i : Nat) : (s.hold h i).mem = s.mem := by obtain ⟨_, _, _, _, _, e⟩ := s.hold_cases h i; rw [e]
@[simp] theorem State.hold_lineKey (h : Holder) (i : Nat) : (s.hold h i).lineKey = s.lineKey := by obtain ⟨_, _, _, _, _, e⟩ := s.hold_cases h i; rw [e]
@[simp] theorem State.hold_class_ (h : Holder) (i : Nat) : (s.hold h i).class_ = s.class_ := by obtain ⟨_, _, _, _, _, e⟩ := s.hold_cases h i; rw [e]
@[simp] theorem State.hold_shadow (h : Holder) (i : Nat) : (s.hold h i).shadow = s.shadow := by obtain ⟨_, _, _, _, _, e⟩ := s.hold_cases h i; rw [e]
@[simp] theorem State.hold_stores (h : Holder) (i : Nat) : (s.hold h i).stores = s.stores := by obtain ⟨_, _, _, _, _, e⟩ := s.hold_cases h i; rw [e]
@[simp] theorem State.hold_hist (h : Holder) (i : Nat) : (s.hold h i).hist = s.hist := by obtain ⟨_, _, _, _, _, e⟩ := s.hold_cases h i; rw [e]
@[simp] theorem State.hold_views (h : Holder) (i : Nat) : (s.hold h i).views = s.views := by obtain ⟨_, _, _, _, _, e⟩ := s.hold_cases h i; rw [e]
@[simp] theorem State.hold_backs (h : Holder) (i : Nat) : (s.hold h i).backs = s.backs := by obtain ⟨_, _, _, _, _, e⟩ := s.hold_cases h i; rw [e]
@[simp] theorem State.hold_holders (h : Holder) (i : Nat) : (s.hold h i).holders = s.holders := by obtain ⟨_, _, _, _, _, e⟩ := s.hold_cases h i; rw [e]
@[simp] theorem State.hold_bits (h : Holder) (i : Nat) : (s.hold h i).bits = s.bits := by obtain ⟨_, _, _, _, _, e⟩ := s.hold_cases h i; rw [e]
@[simp] theorem State.hold_poison (h : Holder) (i : Nat) : (s.hold h i).poison = s.poison := by obtain ⟨_, _, _, _, _, e⟩ := s.hold_cases h i; rw [e]
@[simp] theorem State.hold_bad (h : Holder) (i : Nat) : (s.hold h i).bad = s.bad := by obtain ⟨_, _, _, _, _, e⟩ := s.hold_cases h i; rw [e]
@[simp] theorem State.hold_partials (h : Holder) (i : Nat) : (s.hold h i).partials = s.partials := by obtain ⟨_, _, _, _, _, e⟩ := s.hold_cases h i; rw [e]
@[simp] theorem State.hold_counters (h : Holder) (i : Nat) : (s.hold h i).counters = s.counters := by obtain ⟨_, _, _, _, _, e⟩ := s.hold_cases h i; rw [e]
@[simp] theorem State.hold_subs (h : Holder) (i : Nat) : (s.hold h i).subs = s.subs := by obtain ⟨_, _, _, _, _, e⟩ := s.hold_cases h i; rw [e]
@[simp] theorem State.hold_subGens (h : Holder) (i : Nat) : (s.hold h i).subGens = s.subGens := by obtain ⟨_, _, _, _, _, e⟩ := s.hold_cases h i; rw [e]
@[simp] theorem State.hold_tiles (h : Holder) (i : Nat) : (s.hold h i).tiles = s.tiles := by obtain ⟨_, _, _, _, _, e⟩ := s.hold_cases h i; rw [e]
@[simp] theorem State.hold_inbound (h : Holder) (i : Nat) : (s.hold h i).inbound = s.inbound := by obtain ⟨_, _, _, _, _, e⟩ := s.hold_cases h i; rw [e]
@[simp] theorem State.hold_permits (h : Holder) (i : Nat) : (s.hold h i).permits = s.permits := by obtain ⟨_, _, _, _, _, e⟩ := s.hold_cases h i; rw [e]
@[simp] theorem State.hold_shards (h : Holder) (i : Nat) : (s.hold h i).shards = s.shards := by obtain ⟨_, _, _, _, _, e⟩ := s.hold_cases h i; rw [e]
@[simp] theorem State.hold_shoots (h : Holder) (i : Nat) : (s.hold h i).shoots = s.shoots := by obtain ⟨_, _, _, _, _, e⟩ := s.hold_cases h i; rw [e]
@[simp] theorem State.hold_msgs (h : Holder) (i : Nat) : (s.hold h i).msgs = s.msgs := by obtain ⟨_, _, _, _, _, e⟩ := s.hold_cases h i; rw [e]
@[simp] theorem State.hold_links (h : Holder) (i : Nat) : (s.hold h i).links = s.links := by obtain ⟨_, _, _, _, _, e⟩ := s.hold_cases h i; rw [e]
@[simp] theorem State.hold_keys (h : Holder) (i : Nat) : (s.hold h i).keys = s.keys := by obtain ⟨_, _, _, _, _, e⟩ := s.hold_cases h i; rw [e]
@[simp] theorem State.hold_part (h : Holder) (i : Nat) : (s.hold h i).part = s.part := by obtain ⟨_, _, _, _, _, e⟩ := s.hold_cases h i; rw [e]
@[simp] theorem State.hold_pkgid (h : Holder) (i : Nat) : (s.hold h i).pkgid = s.pkgid := by obtain ⟨_, _, _, _, _, e⟩ := s.hold_cases h i; rw [e]
@[simp] theorem State.hold_pkgs (h : Holder) (i : Nat) : (s.hold h i).pkgs = s.pkgs := by obtain ⟨_, _, _, _, _, e⟩ := s.hold_cases h i; rw [e]
@[simp] theorem State.hold_everPkgs (h : Holder) (i : Nat) : (s.hold h i).everPkgs = s.everPkgs := by obtain ⟨_, _, _, _, _, e⟩ := s.hold_cases h i; rw [e]
@[simp] theorem State.hold_deadPkgs (h : Holder) (i : Nat) : (s.hold h i).deadPkgs = s.deadPkgs := by obtain ⟨_, _, _, _, _, e⟩ := s.hold_cases h i; rw [e]
@[simp] theorem State.hold_outcast (h : Holder) (i : Nat) : (s.hold h i).outcast = s.outcast := by obtain ⟨_, _, _, _, _, e⟩ := s.hold_cases h i; rw [e]
@[simp] theorem State.hold_pkgGen (h : Holder) (i : Nat) : (s.hold h i).pkgGen = s.pkgGen := by obtain ⟨_, _, _, _, _, e⟩ := s.hold_cases h i; rw [e]
@[simp] theorem State.hold_epoch (h : Holder) (i : Nat) : (s.hold h i).epoch = s.epoch := by obtain ⟨_, _, _, _, _, e⟩ := s.hold_cases h i; rw [e]
@[simp] theorem State.hold_pkgSeq (h : Holder) (i : Nat) : (s.hold h i).pkgSeq = s.pkgSeq := by obtain ⟨_, _, _, _, _, e⟩ := s.hold_cases h i; rw [e]
@[simp] theorem State.hold_domSeq (h : Holder) (i : Nat) : (s.hold h i).domSeq = s.domSeq := by obtain ⟨_, _, _, _, _, e⟩ := s.hold_cases h i; rw [e]
@[simp] theorem State.hold_misses (h : Holder) (i : Nat) : (s.hold h i).misses = s.misses := by obtain ⟨_, _, _, _, _, e⟩ := s.hold_cases h i; rw [e]
@[simp] theorem State.hold_lqWait (h : Holder) (i : Nat) : (s.hold h i).lqWait = s.lqWait := by obtain ⟨_, _, _, _, _, e⟩ := s.hold_cases h i; rw [e]
@[simp] theorem State.hold_boot (h : Holder) (i : Nat) : (s.hold h i).boot = s.boot := by obtain ⟨_, _, _, _, _, e⟩ := s.hold_cases h i; rw [e]
@[simp] theorem State.hold_images (h : Holder) (i : Nat) : (s.hold h i).images = s.images := by obtain ⟨_, _, _, _, _, e⟩ := s.hold_cases h i; rw [e]
@[simp] theorem State.hold_minVer (h : Holder) (i : Nat) : (s.hold h i).minVer = s.minVer := by obtain ⟨_, _, _, _, _, e⟩ := s.hold_cases h i; rw [e]
@[simp] theorem State.hold_romKey (h : Holder) (i : Nat) : (s.hold h i).romKey = s.romKey := by obtain ⟨_, _, _, _, _, e⟩ := s.hold_cases h i; rw [e]
@[simp] theorem State.hold_measure (h : Holder) (i : Nat) : (s.hold h i).measure = s.measure := by obtain ⟨_, _, _, _, _, e⟩ := s.hold_cases h i; rw [e]
@[simp] theorem State.hold_hot (h : Holder) (i : Nat) : (s.hold h i).hot = s.hot := by obtain ⟨_, _, _, _, _, e⟩ := s.hold_cases h i; rw [e]
@[simp] theorem State.hold_tick (h : Holder) (i : Nat) : (s.hold h i).tick = s.tick := by obtain ⟨_, _, _, _, _, e⟩ := s.hold_cases h i; rw [e]
@[simp] theorem State.hold_clock (h : Holder) (i : Nat) : (s.hold h i).clock = s.clock := by obtain ⟨_, _, _, _, _, e⟩ := s.hold_cases h i; rw [e]
@[simp] theorem State.hold_order (h : Holder) (i : Nat) : (s.hold h i).order = s.order := by obtain ⟨_, _, _, _, _, e⟩ := s.hold_cases h i; rw [e]
@[simp] theorem State.hold_next (h : Holder) (i : Nat) : (s.hold h i).next = s.next := by obtain ⟨_, _, _, _, _, e⟩ := s.hold_cases h i; rw [e]
@[simp] theorem State.hold_inputs (h : Holder) (i : Nat) : (s.hold h i).inputs = s.inputs := by obtain ⟨_, _, _, _, _, e⟩ := s.hold_cases h i; rw [e]

/-- What the wait of a holder for an entry may change. -/
theorem State.pendOn_cases (h : Holder) (t : Trap) :
    ∃ q rs sv cs ms, s.pendOn h t = { s with q := q, rest := rs, saved := sv, copies := cs, matops := ms } := by
  cases h <;> exact ⟨_, _, _, _, _, rfl⟩

@[simp] theorem State.pendOn_sel (h : Holder) (t : Trap) : (s.pendOn h t).sel = s.sel := by obtain ⟨_, _, _, _, _, e⟩ := s.pendOn_cases h t; rw [e]
@[simp] theorem State.pendOn_word (h : Holder) (t : Trap) : (s.pendOn h t).word = s.word := by obtain ⟨_, _, _, _, _, e⟩ := s.pendOn_cases h t; rw [e]
@[simp] theorem State.pendOn_folios (h : Holder) (t : Trap) : (s.pendOn h t).folios = s.folios := by obtain ⟨_, _, _, _, _, e⟩ := s.pendOn_cases h t; rw [e]
@[simp] theorem State.pendOn_volumes (h : Holder) (t : Trap) : (s.pendOn h t).volumes = s.volumes := by obtain ⟨_, _, _, _, _, e⟩ := s.pendOn_cases h t; rw [e]
@[simp] theorem State.pendOn_colls (h : Holder) (t : Trap) : (s.pendOn h t).colls = s.colls := by obtain ⟨_, _, _, _, _, e⟩ := s.pendOn_cases h t; rw [e]
@[simp] theorem State.pendOn_remaps (h : Holder) (t : Trap) : (s.pendOn h t).remaps = s.remaps := by obtain ⟨_, _, _, _, _, e⟩ := s.pendOn_cases h t; rw [e]
@[simp] theorem State.pendOn_dies (h : Holder) (t : Trap) : (s.pendOn h t).dies = s.dies := by obtain ⟨_, _, _, _, _, e⟩ := s.pendOn_cases h t; rw [e]
@[simp] theorem State.pendOn_mem (h : Holder) (t : Trap) : (s.pendOn h t).mem = s.mem := by obtain ⟨_, _, _, _, _, e⟩ := s.pendOn_cases h t; rw [e]
@[simp] theorem State.pendOn_lineKey (h : Holder) (t : Trap) : (s.pendOn h t).lineKey = s.lineKey := by obtain ⟨_, _, _, _, _, e⟩ := s.pendOn_cases h t; rw [e]
@[simp] theorem State.pendOn_class_ (h : Holder) (t : Trap) : (s.pendOn h t).class_ = s.class_ := by obtain ⟨_, _, _, _, _, e⟩ := s.pendOn_cases h t; rw [e]
@[simp] theorem State.pendOn_shadow (h : Holder) (t : Trap) : (s.pendOn h t).shadow = s.shadow := by obtain ⟨_, _, _, _, _, e⟩ := s.pendOn_cases h t; rw [e]
@[simp] theorem State.pendOn_stores (h : Holder) (t : Trap) : (s.pendOn h t).stores = s.stores := by obtain ⟨_, _, _, _, _, e⟩ := s.pendOn_cases h t; rw [e]
@[simp] theorem State.pendOn_hist (h : Holder) (t : Trap) : (s.pendOn h t).hist = s.hist := by obtain ⟨_, _, _, _, _, e⟩ := s.pendOn_cases h t; rw [e]
@[simp] theorem State.pendOn_views (h : Holder) (t : Trap) : (s.pendOn h t).views = s.views := by obtain ⟨_, _, _, _, _, e⟩ := s.pendOn_cases h t; rw [e]
@[simp] theorem State.pendOn_backs (h : Holder) (t : Trap) : (s.pendOn h t).backs = s.backs := by obtain ⟨_, _, _, _, _, e⟩ := s.pendOn_cases h t; rw [e]
@[simp] theorem State.pendOn_holders (h : Holder) (t : Trap) : (s.pendOn h t).holders = s.holders := by obtain ⟨_, _, _, _, _, e⟩ := s.pendOn_cases h t; rw [e]
@[simp] theorem State.pendOn_bits (h : Holder) (t : Trap) : (s.pendOn h t).bits = s.bits := by obtain ⟨_, _, _, _, _, e⟩ := s.pendOn_cases h t; rw [e]
@[simp] theorem State.pendOn_poison (h : Holder) (t : Trap) : (s.pendOn h t).poison = s.poison := by obtain ⟨_, _, _, _, _, e⟩ := s.pendOn_cases h t; rw [e]
@[simp] theorem State.pendOn_bad (h : Holder) (t : Trap) : (s.pendOn h t).bad = s.bad := by obtain ⟨_, _, _, _, _, e⟩ := s.pendOn_cases h t; rw [e]
@[simp] theorem State.pendOn_partials (h : Holder) (t : Trap) : (s.pendOn h t).partials = s.partials := by obtain ⟨_, _, _, _, _, e⟩ := s.pendOn_cases h t; rw [e]
@[simp] theorem State.pendOn_counters (h : Holder) (t : Trap) : (s.pendOn h t).counters = s.counters := by obtain ⟨_, _, _, _, _, e⟩ := s.pendOn_cases h t; rw [e]
@[simp] theorem State.pendOn_subs (h : Holder) (t : Trap) : (s.pendOn h t).subs = s.subs := by obtain ⟨_, _, _, _, _, e⟩ := s.pendOn_cases h t; rw [e]
@[simp] theorem State.pendOn_subGens (h : Holder) (t : Trap) : (s.pendOn h t).subGens = s.subGens := by obtain ⟨_, _, _, _, _, e⟩ := s.pendOn_cases h t; rw [e]
@[simp] theorem State.pendOn_tiles (h : Holder) (t : Trap) : (s.pendOn h t).tiles = s.tiles := by obtain ⟨_, _, _, _, _, e⟩ := s.pendOn_cases h t; rw [e]
@[simp] theorem State.pendOn_inbound (h : Holder) (t : Trap) : (s.pendOn h t).inbound = s.inbound := by obtain ⟨_, _, _, _, _, e⟩ := s.pendOn_cases h t; rw [e]
@[simp] theorem State.pendOn_permits (h : Holder) (t : Trap) : (s.pendOn h t).permits = s.permits := by obtain ⟨_, _, _, _, _, e⟩ := s.pendOn_cases h t; rw [e]
@[simp] theorem State.pendOn_shards (h : Holder) (t : Trap) : (s.pendOn h t).shards = s.shards := by obtain ⟨_, _, _, _, _, e⟩ := s.pendOn_cases h t; rw [e]
@[simp] theorem State.pendOn_shoots (h : Holder) (t : Trap) : (s.pendOn h t).shoots = s.shoots := by obtain ⟨_, _, _, _, _, e⟩ := s.pendOn_cases h t; rw [e]
@[simp] theorem State.pendOn_msgs (h : Holder) (t : Trap) : (s.pendOn h t).msgs = s.msgs := by obtain ⟨_, _, _, _, _, e⟩ := s.pendOn_cases h t; rw [e]
@[simp] theorem State.pendOn_links (h : Holder) (t : Trap) : (s.pendOn h t).links = s.links := by obtain ⟨_, _, _, _, _, e⟩ := s.pendOn_cases h t; rw [e]
@[simp] theorem State.pendOn_keys (h : Holder) (t : Trap) : (s.pendOn h t).keys = s.keys := by obtain ⟨_, _, _, _, _, e⟩ := s.pendOn_cases h t; rw [e]
@[simp] theorem State.pendOn_part (h : Holder) (t : Trap) : (s.pendOn h t).part = s.part := by obtain ⟨_, _, _, _, _, e⟩ := s.pendOn_cases h t; rw [e]
@[simp] theorem State.pendOn_pkgid (h : Holder) (t : Trap) : (s.pendOn h t).pkgid = s.pkgid := by obtain ⟨_, _, _, _, _, e⟩ := s.pendOn_cases h t; rw [e]
@[simp] theorem State.pendOn_pkgs (h : Holder) (t : Trap) : (s.pendOn h t).pkgs = s.pkgs := by obtain ⟨_, _, _, _, _, e⟩ := s.pendOn_cases h t; rw [e]
@[simp] theorem State.pendOn_everPkgs (h : Holder) (t : Trap) : (s.pendOn h t).everPkgs = s.everPkgs := by obtain ⟨_, _, _, _, _, e⟩ := s.pendOn_cases h t; rw [e]
@[simp] theorem State.pendOn_deadPkgs (h : Holder) (t : Trap) : (s.pendOn h t).deadPkgs = s.deadPkgs := by obtain ⟨_, _, _, _, _, e⟩ := s.pendOn_cases h t; rw [e]
@[simp] theorem State.pendOn_outcast (h : Holder) (t : Trap) : (s.pendOn h t).outcast = s.outcast := by obtain ⟨_, _, _, _, _, e⟩ := s.pendOn_cases h t; rw [e]
@[simp] theorem State.pendOn_pkgGen (h : Holder) (t : Trap) : (s.pendOn h t).pkgGen = s.pkgGen := by obtain ⟨_, _, _, _, _, e⟩ := s.pendOn_cases h t; rw [e]
@[simp] theorem State.pendOn_epoch (h : Holder) (t : Trap) : (s.pendOn h t).epoch = s.epoch := by obtain ⟨_, _, _, _, _, e⟩ := s.pendOn_cases h t; rw [e]
@[simp] theorem State.pendOn_pkgSeq (h : Holder) (t : Trap) : (s.pendOn h t).pkgSeq = s.pkgSeq := by obtain ⟨_, _, _, _, _, e⟩ := s.pendOn_cases h t; rw [e]
@[simp] theorem State.pendOn_domSeq (h : Holder) (t : Trap) : (s.pendOn h t).domSeq = s.domSeq := by obtain ⟨_, _, _, _, _, e⟩ := s.pendOn_cases h t; rw [e]
@[simp] theorem State.pendOn_misses (h : Holder) (t : Trap) : (s.pendOn h t).misses = s.misses := by obtain ⟨_, _, _, _, _, e⟩ := s.pendOn_cases h t; rw [e]
@[simp] theorem State.pendOn_lqWait (h : Holder) (t : Trap) : (s.pendOn h t).lqWait = s.lqWait := by obtain ⟨_, _, _, _, _, e⟩ := s.pendOn_cases h t; rw [e]
@[simp] theorem State.pendOn_boot (h : Holder) (t : Trap) : (s.pendOn h t).boot = s.boot := by obtain ⟨_, _, _, _, _, e⟩ := s.pendOn_cases h t; rw [e]
@[simp] theorem State.pendOn_images (h : Holder) (t : Trap) : (s.pendOn h t).images = s.images := by obtain ⟨_, _, _, _, _, e⟩ := s.pendOn_cases h t; rw [e]
@[simp] theorem State.pendOn_minVer (h : Holder) (t : Trap) : (s.pendOn h t).minVer = s.minVer := by obtain ⟨_, _, _, _, _, e⟩ := s.pendOn_cases h t; rw [e]
@[simp] theorem State.pendOn_romKey (h : Holder) (t : Trap) : (s.pendOn h t).romKey = s.romKey := by obtain ⟨_, _, _, _, _, e⟩ := s.pendOn_cases h t; rw [e]
@[simp] theorem State.pendOn_measure (h : Holder) (t : Trap) : (s.pendOn h t).measure = s.measure := by obtain ⟨_, _, _, _, _, e⟩ := s.pendOn_cases h t; rw [e]
@[simp] theorem State.pendOn_hot (h : Holder) (t : Trap) : (s.pendOn h t).hot = s.hot := by obtain ⟨_, _, _, _, _, e⟩ := s.pendOn_cases h t; rw [e]
@[simp] theorem State.pendOn_tick (h : Holder) (t : Trap) : (s.pendOn h t).tick = s.tick := by obtain ⟨_, _, _, _, _, e⟩ := s.pendOn_cases h t; rw [e]
@[simp] theorem State.pendOn_clock (h : Holder) (t : Trap) : (s.pendOn h t).clock = s.clock := by obtain ⟨_, _, _, _, _, e⟩ := s.pendOn_cases h t; rw [e]
@[simp] theorem State.pendOn_order (h : Holder) (t : Trap) : (s.pendOn h t).order = s.order := by obtain ⟨_, _, _, _, _, e⟩ := s.pendOn_cases h t; rw [e]
@[simp] theorem State.pendOn_next (h : Holder) (t : Trap) : (s.pendOn h t).next = s.next := by obtain ⟨_, _, _, _, _, e⟩ := s.pendOn_cases h t; rw [e]
@[simp] theorem State.pendOn_inputs (h : Holder) (t : Trap) : (s.pendOn h t).inputs = s.inputs := by obtain ⟨_, _, _, _, _, e⟩ := s.pendOn_cases h t; rw [e]

/-- What handing a fault to the kernel instance may change: the tables of the die, and the trap queue in memory. -/
theorem State.toKernel_cases (d : Nat) (f : HeldFault) :
    ∃ ds m l h b, s.toKernel d f = { s with dies := ds, mem := m, lineKey := l, hist := h, backs := b } := by
  unfold State.toKernel
  obtain ⟨m, l, h, b, hu⟩ := s.putLong_cases 0 (s.trapPlace d (s.die d).trapN) (s.trapName ++ f.trap.record (handleOf f.index f.gen))
  dsimp only
  rw [hu]
  exact ⟨_, _, _, _, _, rfl⟩

@[simp] theorem State.toKernel_q (d : Nat) (h : HeldFault) : (s.toKernel d h).q = s.q := by obtain ⟨_, _, _, _, _, e⟩ := s.toKernel_cases d h; rw [e]
@[simp] theorem State.toKernel_rest (d : Nat) (h : HeldFault) : (s.toKernel d h).rest = s.rest := by obtain ⟨_, _, _, _, _, e⟩ := s.toKernel_cases d h; rw [e]
@[simp] theorem State.toKernel_sel (d : Nat) (h : HeldFault) : (s.toKernel d h).sel = s.sel := by obtain ⟨_, _, _, _, _, e⟩ := s.toKernel_cases d h; rw [e]
@[simp] theorem State.toKernel_word (d : Nat) (h : HeldFault) : (s.toKernel d h).word = s.word := by obtain ⟨_, _, _, _, _, e⟩ := s.toKernel_cases d h; rw [e]
@[simp] theorem State.toKernel_folios (d : Nat) (h : HeldFault) : (s.toKernel d h).folios = s.folios := by obtain ⟨_, _, _, _, _, e⟩ := s.toKernel_cases d h; rw [e]
@[simp] theorem State.toKernel_volumes (d : Nat) (h : HeldFault) : (s.toKernel d h).volumes = s.volumes := by obtain ⟨_, _, _, _, _, e⟩ := s.toKernel_cases d h; rw [e]
@[simp] theorem State.toKernel_colls (d : Nat) (h : HeldFault) : (s.toKernel d h).colls = s.colls := by obtain ⟨_, _, _, _, _, e⟩ := s.toKernel_cases d h; rw [e]
@[simp] theorem State.toKernel_saved (d : Nat) (h : HeldFault) : (s.toKernel d h).saved = s.saved := by obtain ⟨_, _, _, _, _, e⟩ := s.toKernel_cases d h; rw [e]
@[simp] theorem State.toKernel_remaps (d : Nat) (h : HeldFault) : (s.toKernel d h).remaps = s.remaps := by obtain ⟨_, _, _, _, _, e⟩ := s.toKernel_cases d h; rw [e]
@[simp] theorem State.toKernel_class_ (d : Nat) (h : HeldFault) : (s.toKernel d h).class_ = s.class_ := by obtain ⟨_, _, _, _, _, e⟩ := s.toKernel_cases d h; rw [e]
@[simp] theorem State.toKernel_shadow (d : Nat) (h : HeldFault) : (s.toKernel d h).shadow = s.shadow := by obtain ⟨_, _, _, _, _, e⟩ := s.toKernel_cases d h; rw [e]
@[simp] theorem State.toKernel_stores (d : Nat) (h : HeldFault) : (s.toKernel d h).stores = s.stores := by obtain ⟨_, _, _, _, _, e⟩ := s.toKernel_cases d h; rw [e]
@[simp] theorem State.toKernel_views (d : Nat) (h : HeldFault) : (s.toKernel d h).views = s.views := by obtain ⟨_, _, _, _, _, e⟩ := s.toKernel_cases d h; rw [e]
@[simp] theorem State.toKernel_holders (d : Nat) (h : HeldFault) : (s.toKernel d h).holders = s.holders := by obtain ⟨_, _, _, _, _, e⟩ := s.toKernel_cases d h; rw [e]
@[simp] theorem State.toKernel_bits (d : Nat) (h : HeldFault) : (s.toKernel d h).bits = s.bits := by obtain ⟨_, _, _, _, _, e⟩ := s.toKernel_cases d h; rw [e]
@[simp] theorem State.toKernel_poison (d : Nat) (h : HeldFault) : (s.toKernel d h).poison = s.poison := by obtain ⟨_, _, _, _, _, e⟩ := s.toKernel_cases d h; rw [e]
@[simp] theorem State.toKernel_bad (d : Nat) (h : HeldFault) : (s.toKernel d h).bad = s.bad := by obtain ⟨_, _, _, _, _, e⟩ := s.toKernel_cases d h; rw [e]
@[simp] theorem State.toKernel_partials (d : Nat) (h : HeldFault) : (s.toKernel d h).partials = s.partials := by obtain ⟨_, _, _, _, _, e⟩ := s.toKernel_cases d h; rw [e]
@[simp] theorem State.toKernel_counters (d : Nat) (h : HeldFault) : (s.toKernel d h).counters = s.counters := by obtain ⟨_, _, _, _, _, e⟩ := s.toKernel_cases d h; rw [e]
@[simp] theorem State.toKernel_subs (d : Nat) (h : HeldFault) : (s.toKernel d h).subs = s.subs := by obtain ⟨_, _, _, _, _, e⟩ := s.toKernel_cases d h; rw [e]
@[simp] theorem State.toKernel_subGens (d : Nat) (h : HeldFault) : (s.toKernel d h).subGens = s.subGens := by obtain ⟨_, _, _, _, _, e⟩ := s.toKernel_cases d h; rw [e]
@[simp] theorem State.toKernel_copies (d : Nat) (h : HeldFault) : (s.toKernel d h).copies = s.copies := by obtain ⟨_, _, _, _, _, e⟩ := s.toKernel_cases d h; rw [e]
@[simp] theorem State.toKernel_tiles (d : Nat) (h : HeldFault) : (s.toKernel d h).tiles = s.tiles := by obtain ⟨_, _, _, _, _, e⟩ := s.toKernel_cases d h; rw [e]
@[simp] theorem State.toKernel_inbound (d : Nat) (h : HeldFault) : (s.toKernel d h).inbound = s.inbound := by obtain ⟨_, _, _, _, _, e⟩ := s.toKernel_cases d h; rw [e]
@[simp] theorem State.toKernel_matops (d : Nat) (h : HeldFault) : (s.toKernel d h).matops = s.matops := by obtain ⟨_, _, _, _, _, e⟩ := s.toKernel_cases d h; rw [e]
@[simp] theorem State.toKernel_permits (d : Nat) (h : HeldFault) : (s.toKernel d h).permits = s.permits := by obtain ⟨_, _, _, _, _, e⟩ := s.toKernel_cases d h; rw [e]
@[simp] theorem State.toKernel_shards (d : Nat) (h : HeldFault) : (s.toKernel d h).shards = s.shards := by obtain ⟨_, _, _, _, _, e⟩ := s.toKernel_cases d h; rw [e]
@[simp] theorem State.toKernel_shoots (d : Nat) (h : HeldFault) : (s.toKernel d h).shoots = s.shoots := by obtain ⟨_, _, _, _, _, e⟩ := s.toKernel_cases d h; rw [e]
@[simp] theorem State.toKernel_msgs (d : Nat) (h : HeldFault) : (s.toKernel d h).msgs = s.msgs := by obtain ⟨_, _, _, _, _, e⟩ := s.toKernel_cases d h; rw [e]
@[simp] theorem State.toKernel_links (d : Nat) (h : HeldFault) : (s.toKernel d h).links = s.links := by obtain ⟨_, _, _, _, _, e⟩ := s.toKernel_cases d h; rw [e]
@[simp] theorem State.toKernel_keys (d : Nat) (h : HeldFault) : (s.toKernel d h).keys = s.keys := by obtain ⟨_, _, _, _, _, e⟩ := s.toKernel_cases d h; rw [e]
@[simp] theorem State.toKernel_part (d : Nat) (h : HeldFault) : (s.toKernel d h).part = s.part := by obtain ⟨_, _, _, _, _, e⟩ := s.toKernel_cases d h; rw [e]
@[simp] theorem State.toKernel_pkgid (d : Nat) (h : HeldFault) : (s.toKernel d h).pkgid = s.pkgid := by obtain ⟨_, _, _, _, _, e⟩ := s.toKernel_cases d h; rw [e]
@[simp] theorem State.toKernel_pkgs (d : Nat) (h : HeldFault) : (s.toKernel d h).pkgs = s.pkgs := by obtain ⟨_, _, _, _, _, e⟩ := s.toKernel_cases d h; rw [e]
@[simp] theorem State.toKernel_everPkgs (d : Nat) (h : HeldFault) : (s.toKernel d h).everPkgs = s.everPkgs := by obtain ⟨_, _, _, _, _, e⟩ := s.toKernel_cases d h; rw [e]
@[simp] theorem State.toKernel_deadPkgs (d : Nat) (h : HeldFault) : (s.toKernel d h).deadPkgs = s.deadPkgs := by obtain ⟨_, _, _, _, _, e⟩ := s.toKernel_cases d h; rw [e]
@[simp] theorem State.toKernel_outcast (d : Nat) (h : HeldFault) : (s.toKernel d h).outcast = s.outcast := by obtain ⟨_, _, _, _, _, e⟩ := s.toKernel_cases d h; rw [e]
@[simp] theorem State.toKernel_pkgGen (d : Nat) (h : HeldFault) : (s.toKernel d h).pkgGen = s.pkgGen := by obtain ⟨_, _, _, _, _, e⟩ := s.toKernel_cases d h; rw [e]
@[simp] theorem State.toKernel_epoch (d : Nat) (h : HeldFault) : (s.toKernel d h).epoch = s.epoch := by obtain ⟨_, _, _, _, _, e⟩ := s.toKernel_cases d h; rw [e]
@[simp] theorem State.toKernel_pkgSeq (d : Nat) (h : HeldFault) : (s.toKernel d h).pkgSeq = s.pkgSeq := by obtain ⟨_, _, _, _, _, e⟩ := s.toKernel_cases d h; rw [e]
@[simp] theorem State.toKernel_domSeq (d : Nat) (h : HeldFault) : (s.toKernel d h).domSeq = s.domSeq := by obtain ⟨_, _, _, _, _, e⟩ := s.toKernel_cases d h; rw [e]
@[simp] theorem State.toKernel_misses (d : Nat) (h : HeldFault) : (s.toKernel d h).misses = s.misses := by obtain ⟨_, _, _, _, _, e⟩ := s.toKernel_cases d h; rw [e]
@[simp] theorem State.toKernel_lqWait (d : Nat) (h : HeldFault) : (s.toKernel d h).lqWait = s.lqWait := by obtain ⟨_, _, _, _, _, e⟩ := s.toKernel_cases d h; rw [e]
@[simp] theorem State.toKernel_boot (d : Nat) (h : HeldFault) : (s.toKernel d h).boot = s.boot := by obtain ⟨_, _, _, _, _, e⟩ := s.toKernel_cases d h; rw [e]
@[simp] theorem State.toKernel_images (d : Nat) (h : HeldFault) : (s.toKernel d h).images = s.images := by obtain ⟨_, _, _, _, _, e⟩ := s.toKernel_cases d h; rw [e]
@[simp] theorem State.toKernel_minVer (d : Nat) (h : HeldFault) : (s.toKernel d h).minVer = s.minVer := by obtain ⟨_, _, _, _, _, e⟩ := s.toKernel_cases d h; rw [e]
@[simp] theorem State.toKernel_romKey (d : Nat) (h : HeldFault) : (s.toKernel d h).romKey = s.romKey := by obtain ⟨_, _, _, _, _, e⟩ := s.toKernel_cases d h; rw [e]
@[simp] theorem State.toKernel_measure (d : Nat) (h : HeldFault) : (s.toKernel d h).measure = s.measure := by obtain ⟨_, _, _, _, _, e⟩ := s.toKernel_cases d h; rw [e]
@[simp] theorem State.toKernel_hot (d : Nat) (h : HeldFault) : (s.toKernel d h).hot = s.hot := by obtain ⟨_, _, _, _, _, e⟩ := s.toKernel_cases d h; rw [e]
@[simp] theorem State.toKernel_tick (d : Nat) (h : HeldFault) : (s.toKernel d h).tick = s.tick := by obtain ⟨_, _, _, _, _, e⟩ := s.toKernel_cases d h; rw [e]
@[simp] theorem State.toKernel_clock (d : Nat) (h : HeldFault) : (s.toKernel d h).clock = s.clock := by obtain ⟨_, _, _, _, _, e⟩ := s.toKernel_cases d h; rw [e]
@[simp] theorem State.toKernel_order (d : Nat) (h : HeldFault) : (s.toKernel d h).order = s.order := by obtain ⟨_, _, _, _, _, e⟩ := s.toKernel_cases d h; rw [e]
@[simp] theorem State.toKernel_next (d : Nat) (h : HeldFault) : (s.toKernel d h).next = s.next := by obtain ⟨_, _, _, _, _, e⟩ := s.toKernel_cases d h; rw [e]
@[simp] theorem State.toKernel_inputs (d : Nat) (h : HeldFault) : (s.toKernel d h).inputs = s.inputs := by obtain ⟨_, _, _, _, _, e⟩ := s.toKernel_cases d h; rw [e]

/-- What recording a fault may change: the holder, the quire of a curator, the tables of the die, and the trap queue in memory. -/
theorem State.recordFault_cases (h : Holder) (i : Nat) (t : Trap) :
    ∃ q rs sv cs ms ds m l hi b, s.recordFault h i t =
      { s with q := q, rest := rs, saved := sv, copies := cs, matops := ms, dies := ds, mem := m, lineKey := l, hist := hi, backs := b } := by
  unfold State.recordFault
  dsimp only
  cases (s.die (s.folio i).die).freeEntry with
  | none =>
    obtain ⟨q, rs, sv, cs, ms, e⟩ := s.pendOn_cases h t
    exact ⟨_, _, _, _, _, _, _, _, _, _, e⟩
  | some k =>
    dsimp only
    obtain ⟨q, rs, sv, cs, ms, e⟩ := State.hold_cases (s.modDie _ _) h k
    rw [e]
    cases (s.folio i).kind with
    | curator c =>
      dsimp only
      cases s.quires.find? _ <;> exact ⟨_, _, _, _, _, _, _, _, _, _, rfl⟩
    | normal =>
      dsimp only
      split
      · exact ⟨_, _, _, _, _, _, _, _, _, _, rfl⟩
      · obtain ⟨ds, m, l, hi, b, e'⟩ := State.toKernel_cases (_ : State) _ _
        rw [e']
        exact ⟨_, _, _, _, _, _, _, _, _, _, rfl⟩
    | handler c g =>
      dsimp only
      split
      · exact ⟨_, _, _, _, _, _, _, _, _, _, rfl⟩
      · obtain ⟨ds, m, l, hi, b, e'⟩ := State.toKernel_cases (_ : State) _ _
        rw [e']
        exact ⟨_, _, _, _, _, _, _, _, _, _, rfl⟩

@[simp] theorem State.recordFault_sel (h : Holder) (i : Nat) (t : Trap) : (s.recordFault h i t).sel = s.sel := by obtain ⟨_, _, _, _, _, _, _, _, _, _, e⟩ := s.recordFault_cases h i t; rw [e]
@[simp] theorem State.recordFault_word (h : Holder) (i : Nat) (t : Trap) : (s.recordFault h i t).word = s.word := by obtain ⟨_, _, _, _, _, _, _, _, _, _, e⟩ := s.recordFault_cases h i t; rw [e]
@[simp] theorem State.recordFault_folios (h : Holder) (i : Nat) (t : Trap) : (s.recordFault h i t).folios = s.folios := by obtain ⟨_, _, _, _, _, _, _, _, _, _, e⟩ := s.recordFault_cases h i t; rw [e]
@[simp] theorem State.recordFault_volumes (h : Holder) (i : Nat) (t : Trap) : (s.recordFault h i t).volumes = s.volumes := by obtain ⟨_, _, _, _, _, _, _, _, _, _, e⟩ := s.recordFault_cases h i t; rw [e]
@[simp] theorem State.recordFault_colls (h : Holder) (i : Nat) (t : Trap) : (s.recordFault h i t).colls = s.colls := by obtain ⟨_, _, _, _, _, _, _, _, _, _, e⟩ := s.recordFault_cases h i t; rw [e]
@[simp] theorem State.recordFault_remaps (h : Holder) (i : Nat) (t : Trap) : (s.recordFault h i t).remaps = s.remaps := by obtain ⟨_, _, _, _, _, _, _, _, _, _, e⟩ := s.recordFault_cases h i t; rw [e]
@[simp] theorem State.recordFault_class_ (h : Holder) (i : Nat) (t : Trap) : (s.recordFault h i t).class_ = s.class_ := by obtain ⟨_, _, _, _, _, _, _, _, _, _, e⟩ := s.recordFault_cases h i t; rw [e]
@[simp] theorem State.recordFault_shadow (h : Holder) (i : Nat) (t : Trap) : (s.recordFault h i t).shadow = s.shadow := by obtain ⟨_, _, _, _, _, _, _, _, _, _, e⟩ := s.recordFault_cases h i t; rw [e]
@[simp] theorem State.recordFault_stores (h : Holder) (i : Nat) (t : Trap) : (s.recordFault h i t).stores = s.stores := by obtain ⟨_, _, _, _, _, _, _, _, _, _, e⟩ := s.recordFault_cases h i t; rw [e]
@[simp] theorem State.recordFault_views (h : Holder) (i : Nat) (t : Trap) : (s.recordFault h i t).views = s.views := by obtain ⟨_, _, _, _, _, _, _, _, _, _, e⟩ := s.recordFault_cases h i t; rw [e]
@[simp] theorem State.recordFault_holders (h : Holder) (i : Nat) (t : Trap) : (s.recordFault h i t).holders = s.holders := by obtain ⟨_, _, _, _, _, _, _, _, _, _, e⟩ := s.recordFault_cases h i t; rw [e]
@[simp] theorem State.recordFault_bits (h : Holder) (i : Nat) (t : Trap) : (s.recordFault h i t).bits = s.bits := by obtain ⟨_, _, _, _, _, _, _, _, _, _, e⟩ := s.recordFault_cases h i t; rw [e]
@[simp] theorem State.recordFault_poison (h : Holder) (i : Nat) (t : Trap) : (s.recordFault h i t).poison = s.poison := by obtain ⟨_, _, _, _, _, _, _, _, _, _, e⟩ := s.recordFault_cases h i t; rw [e]
@[simp] theorem State.recordFault_bad (h : Holder) (i : Nat) (t : Trap) : (s.recordFault h i t).bad = s.bad := by obtain ⟨_, _, _, _, _, _, _, _, _, _, e⟩ := s.recordFault_cases h i t; rw [e]
@[simp] theorem State.recordFault_partials (h : Holder) (i : Nat) (t : Trap) : (s.recordFault h i t).partials = s.partials := by obtain ⟨_, _, _, _, _, _, _, _, _, _, e⟩ := s.recordFault_cases h i t; rw [e]
@[simp] theorem State.recordFault_counters (h : Holder) (i : Nat) (t : Trap) : (s.recordFault h i t).counters = s.counters := by obtain ⟨_, _, _, _, _, _, _, _, _, _, e⟩ := s.recordFault_cases h i t; rw [e]
@[simp] theorem State.recordFault_subs (h : Holder) (i : Nat) (t : Trap) : (s.recordFault h i t).subs = s.subs := by obtain ⟨_, _, _, _, _, _, _, _, _, _, e⟩ := s.recordFault_cases h i t; rw [e]
@[simp] theorem State.recordFault_subGens (h : Holder) (i : Nat) (t : Trap) : (s.recordFault h i t).subGens = s.subGens := by obtain ⟨_, _, _, _, _, _, _, _, _, _, e⟩ := s.recordFault_cases h i t; rw [e]
@[simp] theorem State.recordFault_tiles (h : Holder) (i : Nat) (t : Trap) : (s.recordFault h i t).tiles = s.tiles := by obtain ⟨_, _, _, _, _, _, _, _, _, _, e⟩ := s.recordFault_cases h i t; rw [e]
@[simp] theorem State.recordFault_inbound (h : Holder) (i : Nat) (t : Trap) : (s.recordFault h i t).inbound = s.inbound := by obtain ⟨_, _, _, _, _, _, _, _, _, _, e⟩ := s.recordFault_cases h i t; rw [e]
@[simp] theorem State.recordFault_permits (h : Holder) (i : Nat) (t : Trap) : (s.recordFault h i t).permits = s.permits := by obtain ⟨_, _, _, _, _, _, _, _, _, _, e⟩ := s.recordFault_cases h i t; rw [e]
@[simp] theorem State.recordFault_shards (h : Holder) (i : Nat) (t : Trap) : (s.recordFault h i t).shards = s.shards := by obtain ⟨_, _, _, _, _, _, _, _, _, _, e⟩ := s.recordFault_cases h i t; rw [e]
@[simp] theorem State.recordFault_shoots (h : Holder) (i : Nat) (t : Trap) : (s.recordFault h i t).shoots = s.shoots := by obtain ⟨_, _, _, _, _, _, _, _, _, _, e⟩ := s.recordFault_cases h i t; rw [e]
@[simp] theorem State.recordFault_msgs (h : Holder) (i : Nat) (t : Trap) : (s.recordFault h i t).msgs = s.msgs := by obtain ⟨_, _, _, _, _, _, _, _, _, _, e⟩ := s.recordFault_cases h i t; rw [e]
@[simp] theorem State.recordFault_links (h : Holder) (i : Nat) (t : Trap) : (s.recordFault h i t).links = s.links := by obtain ⟨_, _, _, _, _, _, _, _, _, _, e⟩ := s.recordFault_cases h i t; rw [e]
@[simp] theorem State.recordFault_keys (h : Holder) (i : Nat) (t : Trap) : (s.recordFault h i t).keys = s.keys := by obtain ⟨_, _, _, _, _, _, _, _, _, _, e⟩ := s.recordFault_cases h i t; rw [e]
@[simp] theorem State.recordFault_part (h : Holder) (i : Nat) (t : Trap) : (s.recordFault h i t).part = s.part := by obtain ⟨_, _, _, _, _, _, _, _, _, _, e⟩ := s.recordFault_cases h i t; rw [e]
@[simp] theorem State.recordFault_pkgid (h : Holder) (i : Nat) (t : Trap) : (s.recordFault h i t).pkgid = s.pkgid := by obtain ⟨_, _, _, _, _, _, _, _, _, _, e⟩ := s.recordFault_cases h i t; rw [e]
@[simp] theorem State.recordFault_pkgs (h : Holder) (i : Nat) (t : Trap) : (s.recordFault h i t).pkgs = s.pkgs := by obtain ⟨_, _, _, _, _, _, _, _, _, _, e⟩ := s.recordFault_cases h i t; rw [e]
@[simp] theorem State.recordFault_everPkgs (h : Holder) (i : Nat) (t : Trap) : (s.recordFault h i t).everPkgs = s.everPkgs := by obtain ⟨_, _, _, _, _, _, _, _, _, _, e⟩ := s.recordFault_cases h i t; rw [e]
@[simp] theorem State.recordFault_deadPkgs (h : Holder) (i : Nat) (t : Trap) : (s.recordFault h i t).deadPkgs = s.deadPkgs := by obtain ⟨_, _, _, _, _, _, _, _, _, _, e⟩ := s.recordFault_cases h i t; rw [e]
@[simp] theorem State.recordFault_outcast (h : Holder) (i : Nat) (t : Trap) : (s.recordFault h i t).outcast = s.outcast := by obtain ⟨_, _, _, _, _, _, _, _, _, _, e⟩ := s.recordFault_cases h i t; rw [e]
@[simp] theorem State.recordFault_pkgGen (h : Holder) (i : Nat) (t : Trap) : (s.recordFault h i t).pkgGen = s.pkgGen := by obtain ⟨_, _, _, _, _, _, _, _, _, _, e⟩ := s.recordFault_cases h i t; rw [e]
@[simp] theorem State.recordFault_epoch (h : Holder) (i : Nat) (t : Trap) : (s.recordFault h i t).epoch = s.epoch := by obtain ⟨_, _, _, _, _, _, _, _, _, _, e⟩ := s.recordFault_cases h i t; rw [e]
@[simp] theorem State.recordFault_pkgSeq (h : Holder) (i : Nat) (t : Trap) : (s.recordFault h i t).pkgSeq = s.pkgSeq := by obtain ⟨_, _, _, _, _, _, _, _, _, _, e⟩ := s.recordFault_cases h i t; rw [e]
@[simp] theorem State.recordFault_domSeq (h : Holder) (i : Nat) (t : Trap) : (s.recordFault h i t).domSeq = s.domSeq := by obtain ⟨_, _, _, _, _, _, _, _, _, _, e⟩ := s.recordFault_cases h i t; rw [e]
@[simp] theorem State.recordFault_misses (h : Holder) (i : Nat) (t : Trap) : (s.recordFault h i t).misses = s.misses := by obtain ⟨_, _, _, _, _, _, _, _, _, _, e⟩ := s.recordFault_cases h i t; rw [e]
@[simp] theorem State.recordFault_lqWait (h : Holder) (i : Nat) (t : Trap) : (s.recordFault h i t).lqWait = s.lqWait := by obtain ⟨_, _, _, _, _, _, _, _, _, _, e⟩ := s.recordFault_cases h i t; rw [e]
@[simp] theorem State.recordFault_boot (h : Holder) (i : Nat) (t : Trap) : (s.recordFault h i t).boot = s.boot := by obtain ⟨_, _, _, _, _, _, _, _, _, _, e⟩ := s.recordFault_cases h i t; rw [e]
@[simp] theorem State.recordFault_images (h : Holder) (i : Nat) (t : Trap) : (s.recordFault h i t).images = s.images := by obtain ⟨_, _, _, _, _, _, _, _, _, _, e⟩ := s.recordFault_cases h i t; rw [e]
@[simp] theorem State.recordFault_minVer (h : Holder) (i : Nat) (t : Trap) : (s.recordFault h i t).minVer = s.minVer := by obtain ⟨_, _, _, _, _, _, _, _, _, _, e⟩ := s.recordFault_cases h i t; rw [e]
@[simp] theorem State.recordFault_romKey (h : Holder) (i : Nat) (t : Trap) : (s.recordFault h i t).romKey = s.romKey := by obtain ⟨_, _, _, _, _, _, _, _, _, _, e⟩ := s.recordFault_cases h i t; rw [e]
@[simp] theorem State.recordFault_measure (h : Holder) (i : Nat) (t : Trap) : (s.recordFault h i t).measure = s.measure := by obtain ⟨_, _, _, _, _, _, _, _, _, _, e⟩ := s.recordFault_cases h i t; rw [e]
@[simp] theorem State.recordFault_hot (h : Holder) (i : Nat) (t : Trap) : (s.recordFault h i t).hot = s.hot := by obtain ⟨_, _, _, _, _, _, _, _, _, _, e⟩ := s.recordFault_cases h i t; rw [e]
@[simp] theorem State.recordFault_tick (h : Holder) (i : Nat) (t : Trap) : (s.recordFault h i t).tick = s.tick := by obtain ⟨_, _, _, _, _, _, _, _, _, _, e⟩ := s.recordFault_cases h i t; rw [e]
@[simp] theorem State.recordFault_clock (h : Holder) (i : Nat) (t : Trap) : (s.recordFault h i t).clock = s.clock := by obtain ⟨_, _, _, _, _, _, _, _, _, _, e⟩ := s.recordFault_cases h i t; rw [e]
@[simp] theorem State.recordFault_order (h : Holder) (i : Nat) (t : Trap) : (s.recordFault h i t).order = s.order := by obtain ⟨_, _, _, _, _, _, _, _, _, _, e⟩ := s.recordFault_cases h i t; rw [e]
@[simp] theorem State.recordFault_next (h : Holder) (i : Nat) (t : Trap) : (s.recordFault h i t).next = s.next := by obtain ⟨_, _, _, _, _, _, _, _, _, _, e⟩ := s.recordFault_cases h i t; rw [e]
@[simp] theorem State.recordFault_inputs (h : Holder) (i : Nat) (t : Trap) : (s.recordFault h i t).inputs = s.inputs := by obtain ⟨_, _, _, _, _, _, _, _, _, _, e⟩ := s.recordFault_cases h i t; rw [e]

/-- What taking a trap may change. -/
theorem State.takeTrap_cases (t : Trap) :
    ∃ q rs sv cs ms ds m l hi b, s.takeTrap t =
      { s with q := q, rest := rs, saved := sv, copies := cs, matops := ms, dies := ds, mem := m, lineKey := l, hist := hi, backs := b } := by
  unfold State.takeTrap
  cases s.fol.kind with
  | curator k => exact ⟨_, _, _, _, _, _, _, _, _, _, rfl⟩
  | normal => exact State.recordFault_cases s _ _ _
  | handler i g => exact State.recordFault_cases s _ _ _

@[simp] theorem State.takeTrap_sel (t : Trap) : (s.takeTrap t).sel = s.sel := by obtain ⟨_, _, _, _, _, _, _, _, _, _, e⟩ := s.takeTrap_cases t; rw [e]
@[simp] theorem State.takeTrap_word (t : Trap) : (s.takeTrap t).word = s.word := by obtain ⟨_, _, _, _, _, _, _, _, _, _, e⟩ := s.takeTrap_cases t; rw [e]
@[simp] theorem State.takeTrap_folios (t : Trap) : (s.takeTrap t).folios = s.folios := by obtain ⟨_, _, _, _, _, _, _, _, _, _, e⟩ := s.takeTrap_cases t; rw [e]
@[simp] theorem State.takeTrap_volumes (t : Trap) : (s.takeTrap t).volumes = s.volumes := by obtain ⟨_, _, _, _, _, _, _, _, _, _, e⟩ := s.takeTrap_cases t; rw [e]
@[simp] theorem State.takeTrap_colls (t : Trap) : (s.takeTrap t).colls = s.colls := by obtain ⟨_, _, _, _, _, _, _, _, _, _, e⟩ := s.takeTrap_cases t; rw [e]
@[simp] theorem State.takeTrap_remaps (t : Trap) : (s.takeTrap t).remaps = s.remaps := by obtain ⟨_, _, _, _, _, _, _, _, _, _, e⟩ := s.takeTrap_cases t; rw [e]
@[simp] theorem State.takeTrap_class_ (t : Trap) : (s.takeTrap t).class_ = s.class_ := by obtain ⟨_, _, _, _, _, _, _, _, _, _, e⟩ := s.takeTrap_cases t; rw [e]
@[simp] theorem State.takeTrap_shadow (t : Trap) : (s.takeTrap t).shadow = s.shadow := by obtain ⟨_, _, _, _, _, _, _, _, _, _, e⟩ := s.takeTrap_cases t; rw [e]
@[simp] theorem State.takeTrap_stores (t : Trap) : (s.takeTrap t).stores = s.stores := by obtain ⟨_, _, _, _, _, _, _, _, _, _, e⟩ := s.takeTrap_cases t; rw [e]
@[simp] theorem State.takeTrap_views (t : Trap) : (s.takeTrap t).views = s.views := by obtain ⟨_, _, _, _, _, _, _, _, _, _, e⟩ := s.takeTrap_cases t; rw [e]
@[simp] theorem State.takeTrap_holders (t : Trap) : (s.takeTrap t).holders = s.holders := by obtain ⟨_, _, _, _, _, _, _, _, _, _, e⟩ := s.takeTrap_cases t; rw [e]
@[simp] theorem State.takeTrap_bits (t : Trap) : (s.takeTrap t).bits = s.bits := by obtain ⟨_, _, _, _, _, _, _, _, _, _, e⟩ := s.takeTrap_cases t; rw [e]
@[simp] theorem State.takeTrap_poison (t : Trap) : (s.takeTrap t).poison = s.poison := by obtain ⟨_, _, _, _, _, _, _, _, _, _, e⟩ := s.takeTrap_cases t; rw [e]
@[simp] theorem State.takeTrap_bad (t : Trap) : (s.takeTrap t).bad = s.bad := by obtain ⟨_, _, _, _, _, _, _, _, _, _, e⟩ := s.takeTrap_cases t; rw [e]
@[simp] theorem State.takeTrap_partials (t : Trap) : (s.takeTrap t).partials = s.partials := by obtain ⟨_, _, _, _, _, _, _, _, _, _, e⟩ := s.takeTrap_cases t; rw [e]
@[simp] theorem State.takeTrap_counters (t : Trap) : (s.takeTrap t).counters = s.counters := by obtain ⟨_, _, _, _, _, _, _, _, _, _, e⟩ := s.takeTrap_cases t; rw [e]
@[simp] theorem State.takeTrap_subs (t : Trap) : (s.takeTrap t).subs = s.subs := by obtain ⟨_, _, _, _, _, _, _, _, _, _, e⟩ := s.takeTrap_cases t; rw [e]
@[simp] theorem State.takeTrap_subGens (t : Trap) : (s.takeTrap t).subGens = s.subGens := by obtain ⟨_, _, _, _, _, _, _, _, _, _, e⟩ := s.takeTrap_cases t; rw [e]
@[simp] theorem State.takeTrap_tiles (t : Trap) : (s.takeTrap t).tiles = s.tiles := by obtain ⟨_, _, _, _, _, _, _, _, _, _, e⟩ := s.takeTrap_cases t; rw [e]
@[simp] theorem State.takeTrap_inbound (t : Trap) : (s.takeTrap t).inbound = s.inbound := by obtain ⟨_, _, _, _, _, _, _, _, _, _, e⟩ := s.takeTrap_cases t; rw [e]
@[simp] theorem State.takeTrap_permits (t : Trap) : (s.takeTrap t).permits = s.permits := by obtain ⟨_, _, _, _, _, _, _, _, _, _, e⟩ := s.takeTrap_cases t; rw [e]
@[simp] theorem State.takeTrap_shards (t : Trap) : (s.takeTrap t).shards = s.shards := by obtain ⟨_, _, _, _, _, _, _, _, _, _, e⟩ := s.takeTrap_cases t; rw [e]
@[simp] theorem State.takeTrap_shoots (t : Trap) : (s.takeTrap t).shoots = s.shoots := by obtain ⟨_, _, _, _, _, _, _, _, _, _, e⟩ := s.takeTrap_cases t; rw [e]
@[simp] theorem State.takeTrap_msgs (t : Trap) : (s.takeTrap t).msgs = s.msgs := by obtain ⟨_, _, _, _, _, _, _, _, _, _, e⟩ := s.takeTrap_cases t; rw [e]
@[simp] theorem State.takeTrap_links (t : Trap) : (s.takeTrap t).links = s.links := by obtain ⟨_, _, _, _, _, _, _, _, _, _, e⟩ := s.takeTrap_cases t; rw [e]
@[simp] theorem State.takeTrap_keys (t : Trap) : (s.takeTrap t).keys = s.keys := by obtain ⟨_, _, _, _, _, _, _, _, _, _, e⟩ := s.takeTrap_cases t; rw [e]
@[simp] theorem State.takeTrap_part (t : Trap) : (s.takeTrap t).part = s.part := by obtain ⟨_, _, _, _, _, _, _, _, _, _, e⟩ := s.takeTrap_cases t; rw [e]
@[simp] theorem State.takeTrap_pkgid (t : Trap) : (s.takeTrap t).pkgid = s.pkgid := by obtain ⟨_, _, _, _, _, _, _, _, _, _, e⟩ := s.takeTrap_cases t; rw [e]
@[simp] theorem State.takeTrap_pkgs (t : Trap) : (s.takeTrap t).pkgs = s.pkgs := by obtain ⟨_, _, _, _, _, _, _, _, _, _, e⟩ := s.takeTrap_cases t; rw [e]
@[simp] theorem State.takeTrap_everPkgs (t : Trap) : (s.takeTrap t).everPkgs = s.everPkgs := by obtain ⟨_, _, _, _, _, _, _, _, _, _, e⟩ := s.takeTrap_cases t; rw [e]
@[simp] theorem State.takeTrap_deadPkgs (t : Trap) : (s.takeTrap t).deadPkgs = s.deadPkgs := by obtain ⟨_, _, _, _, _, _, _, _, _, _, e⟩ := s.takeTrap_cases t; rw [e]
@[simp] theorem State.takeTrap_outcast (t : Trap) : (s.takeTrap t).outcast = s.outcast := by obtain ⟨_, _, _, _, _, _, _, _, _, _, e⟩ := s.takeTrap_cases t; rw [e]
@[simp] theorem State.takeTrap_pkgGen (t : Trap) : (s.takeTrap t).pkgGen = s.pkgGen := by obtain ⟨_, _, _, _, _, _, _, _, _, _, e⟩ := s.takeTrap_cases t; rw [e]
@[simp] theorem State.takeTrap_epoch (t : Trap) : (s.takeTrap t).epoch = s.epoch := by obtain ⟨_, _, _, _, _, _, _, _, _, _, e⟩ := s.takeTrap_cases t; rw [e]
@[simp] theorem State.takeTrap_pkgSeq (t : Trap) : (s.takeTrap t).pkgSeq = s.pkgSeq := by obtain ⟨_, _, _, _, _, _, _, _, _, _, e⟩ := s.takeTrap_cases t; rw [e]
@[simp] theorem State.takeTrap_domSeq (t : Trap) : (s.takeTrap t).domSeq = s.domSeq := by obtain ⟨_, _, _, _, _, _, _, _, _, _, e⟩ := s.takeTrap_cases t; rw [e]
@[simp] theorem State.takeTrap_misses (t : Trap) : (s.takeTrap t).misses = s.misses := by obtain ⟨_, _, _, _, _, _, _, _, _, _, e⟩ := s.takeTrap_cases t; rw [e]
@[simp] theorem State.takeTrap_lqWait (t : Trap) : (s.takeTrap t).lqWait = s.lqWait := by obtain ⟨_, _, _, _, _, _, _, _, _, _, e⟩ := s.takeTrap_cases t; rw [e]
@[simp] theorem State.takeTrap_boot (t : Trap) : (s.takeTrap t).boot = s.boot := by obtain ⟨_, _, _, _, _, _, _, _, _, _, e⟩ := s.takeTrap_cases t; rw [e]
@[simp] theorem State.takeTrap_images (t : Trap) : (s.takeTrap t).images = s.images := by obtain ⟨_, _, _, _, _, _, _, _, _, _, e⟩ := s.takeTrap_cases t; rw [e]
@[simp] theorem State.takeTrap_minVer (t : Trap) : (s.takeTrap t).minVer = s.minVer := by obtain ⟨_, _, _, _, _, _, _, _, _, _, e⟩ := s.takeTrap_cases t; rw [e]
@[simp] theorem State.takeTrap_romKey (t : Trap) : (s.takeTrap t).romKey = s.romKey := by obtain ⟨_, _, _, _, _, _, _, _, _, _, e⟩ := s.takeTrap_cases t; rw [e]
@[simp] theorem State.takeTrap_measure (t : Trap) : (s.takeTrap t).measure = s.measure := by obtain ⟨_, _, _, _, _, _, _, _, _, _, e⟩ := s.takeTrap_cases t; rw [e]
@[simp] theorem State.takeTrap_hot (t : Trap) : (s.takeTrap t).hot = s.hot := by obtain ⟨_, _, _, _, _, _, _, _, _, _, e⟩ := s.takeTrap_cases t; rw [e]
@[simp] theorem State.takeTrap_tick (t : Trap) : (s.takeTrap t).tick = s.tick := by obtain ⟨_, _, _, _, _, _, _, _, _, _, e⟩ := s.takeTrap_cases t; rw [e]
@[simp] theorem State.takeTrap_clock (t : Trap) : (s.takeTrap t).clock = s.clock := by obtain ⟨_, _, _, _, _, _, _, _, _, _, e⟩ := s.takeTrap_cases t; rw [e]
@[simp] theorem State.takeTrap_order (t : Trap) : (s.takeTrap t).order = s.order := by obtain ⟨_, _, _, _, _, _, _, _, _, _, e⟩ := s.takeTrap_cases t; rw [e]
@[simp] theorem State.takeTrap_next (t : Trap) : (s.takeTrap t).next = s.next := by obtain ⟨_, _, _, _, _, _, _, _, _, _, e⟩ := s.takeTrap_cases t; rw [e]
@[simp] theorem State.takeTrap_inputs (t : Trap) : (s.takeTrap t).inputs = s.inputs := by obtain ⟨_, _, _, _, _, _, _, _, _, _, e⟩ := s.takeTrap_cases t; rw [e]

@[simp] theorem State.returnFromTrap_rest : (s.returnFromTrap).rest = s.rest := rfl
@[simp] theorem State.returnFromTrap_sel : (s.returnFromTrap).sel = s.sel := rfl
@[simp] theorem State.returnFromTrap_word : (s.returnFromTrap).word = s.word := rfl
@[simp] theorem State.returnFromTrap_folios : (s.returnFromTrap).folios = s.folios := rfl
@[simp] theorem State.returnFromTrap_volumes : (s.returnFromTrap).volumes = s.volumes := rfl
@[simp] theorem State.returnFromTrap_colls : (s.returnFromTrap).colls = s.colls := rfl
@[simp] theorem State.returnFromTrap_saved : (s.returnFromTrap).saved = s.saved := rfl
@[simp] theorem State.returnFromTrap_remaps : (s.returnFromTrap).remaps = s.remaps := rfl
@[simp] theorem State.returnFromTrap_dies : (s.returnFromTrap).dies = s.dies := rfl
@[simp] theorem State.returnFromTrap_mem : (s.returnFromTrap).mem = s.mem := rfl
@[simp] theorem State.returnFromTrap_lineKey : (s.returnFromTrap).lineKey = s.lineKey := rfl
@[simp] theorem State.returnFromTrap_class_ : (s.returnFromTrap).class_ = s.class_ := rfl
@[simp] theorem State.returnFromTrap_shadow : (s.returnFromTrap).shadow = s.shadow := rfl
@[simp] theorem State.returnFromTrap_stores : (s.returnFromTrap).stores = s.stores := rfl
@[simp] theorem State.returnFromTrap_hist : (s.returnFromTrap).hist = s.hist := rfl
@[simp] theorem State.returnFromTrap_views : (s.returnFromTrap).views = s.views := rfl
@[simp] theorem State.returnFromTrap_backs : (s.returnFromTrap).backs = s.backs := rfl
@[simp] theorem State.returnFromTrap_holders : (s.returnFromTrap).holders = s.holders := rfl
@[simp] theorem State.returnFromTrap_bits : (s.returnFromTrap).bits = s.bits := rfl
@[simp] theorem State.returnFromTrap_poison : (s.returnFromTrap).poison = s.poison := rfl
@[simp] theorem State.returnFromTrap_bad : (s.returnFromTrap).bad = s.bad := rfl
@[simp] theorem State.returnFromTrap_partials : (s.returnFromTrap).partials = s.partials := rfl
@[simp] theorem State.returnFromTrap_counters : (s.returnFromTrap).counters = s.counters := rfl
@[simp] theorem State.returnFromTrap_subs : (s.returnFromTrap).subs = s.subs := rfl
@[simp] theorem State.returnFromTrap_subGens : (s.returnFromTrap).subGens = s.subGens := rfl
@[simp] theorem State.returnFromTrap_copies : (s.returnFromTrap).copies = s.copies := rfl
@[simp] theorem State.returnFromTrap_tiles : (s.returnFromTrap).tiles = s.tiles := rfl
@[simp] theorem State.returnFromTrap_inbound : (s.returnFromTrap).inbound = s.inbound := rfl
@[simp] theorem State.returnFromTrap_matops : (s.returnFromTrap).matops = s.matops := rfl
@[simp] theorem State.returnFromTrap_permits : (s.returnFromTrap).permits = s.permits := rfl
@[simp] theorem State.returnFromTrap_shards : (s.returnFromTrap).shards = s.shards := rfl
@[simp] theorem State.returnFromTrap_shoots : (s.returnFromTrap).shoots = s.shoots := rfl
@[simp] theorem State.returnFromTrap_msgs : (s.returnFromTrap).msgs = s.msgs := rfl
@[simp] theorem State.returnFromTrap_links : (s.returnFromTrap).links = s.links := rfl
@[simp] theorem State.returnFromTrap_keys : (s.returnFromTrap).keys = s.keys := rfl
@[simp] theorem State.returnFromTrap_part : (s.returnFromTrap).part = s.part := rfl
@[simp] theorem State.returnFromTrap_pkgid : (s.returnFromTrap).pkgid = s.pkgid := rfl
@[simp] theorem State.returnFromTrap_pkgs : (s.returnFromTrap).pkgs = s.pkgs := rfl
@[simp] theorem State.returnFromTrap_everPkgs : (s.returnFromTrap).everPkgs = s.everPkgs := rfl
@[simp] theorem State.returnFromTrap_deadPkgs : (s.returnFromTrap).deadPkgs = s.deadPkgs := rfl
@[simp] theorem State.returnFromTrap_outcast : (s.returnFromTrap).outcast = s.outcast := rfl
@[simp] theorem State.returnFromTrap_pkgGen : (s.returnFromTrap).pkgGen = s.pkgGen := rfl
@[simp] theorem State.returnFromTrap_epoch : (s.returnFromTrap).epoch = s.epoch := rfl
@[simp] theorem State.returnFromTrap_pkgSeq : (s.returnFromTrap).pkgSeq = s.pkgSeq := rfl
@[simp] theorem State.returnFromTrap_domSeq : (s.returnFromTrap).domSeq = s.domSeq := rfl
@[simp] theorem State.returnFromTrap_misses : (s.returnFromTrap).misses = s.misses := rfl
@[simp] theorem State.returnFromTrap_lqWait : (s.returnFromTrap).lqWait = s.lqWait := rfl
@[simp] theorem State.returnFromTrap_boot : (s.returnFromTrap).boot = s.boot := rfl
@[simp] theorem State.returnFromTrap_images : (s.returnFromTrap).images = s.images := rfl
@[simp] theorem State.returnFromTrap_minVer : (s.returnFromTrap).minVer = s.minVer := rfl
@[simp] theorem State.returnFromTrap_romKey : (s.returnFromTrap).romKey = s.romKey := rfl
@[simp] theorem State.returnFromTrap_measure : (s.returnFromTrap).measure = s.measure := rfl
@[simp] theorem State.returnFromTrap_hot : (s.returnFromTrap).hot = s.hot := rfl
@[simp] theorem State.returnFromTrap_tick : (s.returnFromTrap).tick = s.tick := rfl
@[simp] theorem State.returnFromTrap_clock : (s.returnFromTrap).clock = s.clock := rfl
@[simp] theorem State.returnFromTrap_order : (s.returnFromTrap).order = s.order := rfl
@[simp] theorem State.returnFromTrap_next : (s.returnFromTrap).next = s.next := rfl
@[simp] theorem State.returnFromTrap_inputs : (s.returnFromTrap).inputs = s.inputs := rfl

@[simp] theorem State.freeEntry_q (d i : Nat) : (s.freeEntry d i).q = s.q := rfl
@[simp] theorem State.freeEntry_rest (d i : Nat) : (s.freeEntry d i).rest = s.rest := rfl
@[simp] theorem State.freeEntry_sel (d i : Nat) : (s.freeEntry d i).sel = s.sel := rfl
@[simp] theorem State.freeEntry_word (d i : Nat) : (s.freeEntry d i).word = s.word := rfl
@[simp] theorem State.freeEntry_folios (d i : Nat) : (s.freeEntry d i).folios = s.folios := rfl
@[simp] theorem State.freeEntry_volumes (d i : Nat) : (s.freeEntry d i).volumes = s.volumes := rfl
@[simp] theorem State.freeEntry_colls (d i : Nat) : (s.freeEntry d i).colls = s.colls := rfl
@[simp] theorem State.freeEntry_saved (d i : Nat) : (s.freeEntry d i).saved = s.saved := rfl
@[simp] theorem State.freeEntry_remaps (d i : Nat) : (s.freeEntry d i).remaps = s.remaps := rfl
@[simp] theorem State.freeEntry_mem (d i : Nat) : (s.freeEntry d i).mem = s.mem := rfl
@[simp] theorem State.freeEntry_lineKey (d i : Nat) : (s.freeEntry d i).lineKey = s.lineKey := rfl
@[simp] theorem State.freeEntry_class_ (d i : Nat) : (s.freeEntry d i).class_ = s.class_ := rfl
@[simp] theorem State.freeEntry_shadow (d i : Nat) : (s.freeEntry d i).shadow = s.shadow := rfl
@[simp] theorem State.freeEntry_stores (d i : Nat) : (s.freeEntry d i).stores = s.stores := rfl
@[simp] theorem State.freeEntry_hist (d i : Nat) : (s.freeEntry d i).hist = s.hist := rfl
@[simp] theorem State.freeEntry_views (d i : Nat) : (s.freeEntry d i).views = s.views := rfl
@[simp] theorem State.freeEntry_backs (d i : Nat) : (s.freeEntry d i).backs = s.backs := rfl
@[simp] theorem State.freeEntry_holders (d i : Nat) : (s.freeEntry d i).holders = s.holders := rfl
@[simp] theorem State.freeEntry_bits (d i : Nat) : (s.freeEntry d i).bits = s.bits := rfl
@[simp] theorem State.freeEntry_poison (d i : Nat) : (s.freeEntry d i).poison = s.poison := rfl
@[simp] theorem State.freeEntry_bad (d i : Nat) : (s.freeEntry d i).bad = s.bad := rfl
@[simp] theorem State.freeEntry_partials (d i : Nat) : (s.freeEntry d i).partials = s.partials := rfl
@[simp] theorem State.freeEntry_counters (d i : Nat) : (s.freeEntry d i).counters = s.counters := rfl
@[simp] theorem State.freeEntry_subs (d i : Nat) : (s.freeEntry d i).subs = s.subs := rfl
@[simp] theorem State.freeEntry_subGens (d i : Nat) : (s.freeEntry d i).subGens = s.subGens := rfl
@[simp] theorem State.freeEntry_copies (d i : Nat) : (s.freeEntry d i).copies = s.copies := rfl
@[simp] theorem State.freeEntry_tiles (d i : Nat) : (s.freeEntry d i).tiles = s.tiles := rfl
@[simp] theorem State.freeEntry_inbound (d i : Nat) : (s.freeEntry d i).inbound = s.inbound := rfl
@[simp] theorem State.freeEntry_matops (d i : Nat) : (s.freeEntry d i).matops = s.matops := rfl
@[simp] theorem State.freeEntry_permits (d i : Nat) : (s.freeEntry d i).permits = s.permits := rfl
@[simp] theorem State.freeEntry_shards (d i : Nat) : (s.freeEntry d i).shards = s.shards := rfl
@[simp] theorem State.freeEntry_shoots (d i : Nat) : (s.freeEntry d i).shoots = s.shoots := rfl
@[simp] theorem State.freeEntry_msgs (d i : Nat) : (s.freeEntry d i).msgs = s.msgs := rfl
@[simp] theorem State.freeEntry_links (d i : Nat) : (s.freeEntry d i).links = s.links := rfl
@[simp] theorem State.freeEntry_keys (d i : Nat) : (s.freeEntry d i).keys = s.keys := rfl
@[simp] theorem State.freeEntry_part (d i : Nat) : (s.freeEntry d i).part = s.part := rfl
@[simp] theorem State.freeEntry_pkgid (d i : Nat) : (s.freeEntry d i).pkgid = s.pkgid := rfl
@[simp] theorem State.freeEntry_pkgs (d i : Nat) : (s.freeEntry d i).pkgs = s.pkgs := rfl
@[simp] theorem State.freeEntry_everPkgs (d i : Nat) : (s.freeEntry d i).everPkgs = s.everPkgs := rfl
@[simp] theorem State.freeEntry_deadPkgs (d i : Nat) : (s.freeEntry d i).deadPkgs = s.deadPkgs := rfl
@[simp] theorem State.freeEntry_outcast (d i : Nat) : (s.freeEntry d i).outcast = s.outcast := rfl
@[simp] theorem State.freeEntry_pkgGen (d i : Nat) : (s.freeEntry d i).pkgGen = s.pkgGen := rfl
@[simp] theorem State.freeEntry_epoch (d i : Nat) : (s.freeEntry d i).epoch = s.epoch := rfl
@[simp] theorem State.freeEntry_pkgSeq (d i : Nat) : (s.freeEntry d i).pkgSeq = s.pkgSeq := rfl
@[simp] theorem State.freeEntry_domSeq (d i : Nat) : (s.freeEntry d i).domSeq = s.domSeq := rfl
@[simp] theorem State.freeEntry_misses (d i : Nat) : (s.freeEntry d i).misses = s.misses := rfl
@[simp] theorem State.freeEntry_lqWait (d i : Nat) : (s.freeEntry d i).lqWait = s.lqWait := rfl
@[simp] theorem State.freeEntry_boot (d i : Nat) : (s.freeEntry d i).boot = s.boot := rfl
@[simp] theorem State.freeEntry_images (d i : Nat) : (s.freeEntry d i).images = s.images := rfl
@[simp] theorem State.freeEntry_minVer (d i : Nat) : (s.freeEntry d i).minVer = s.minVer := rfl
@[simp] theorem State.freeEntry_romKey (d i : Nat) : (s.freeEntry d i).romKey = s.romKey := rfl
@[simp] theorem State.freeEntry_measure (d i : Nat) : (s.freeEntry d i).measure = s.measure := rfl
@[simp] theorem State.freeEntry_hot (d i : Nat) : (s.freeEntry d i).hot = s.hot := rfl
@[simp] theorem State.freeEntry_tick (d i : Nat) : (s.freeEntry d i).tick = s.tick := rfl
@[simp] theorem State.freeEntry_clock (d i : Nat) : (s.freeEntry d i).clock = s.clock := rfl
@[simp] theorem State.freeEntry_order (d i : Nat) : (s.freeEntry d i).order = s.order := rfl
@[simp] theorem State.freeEntry_next (d i : Nat) : (s.freeEntry d i).next = s.next := rfl
@[simp] theorem State.freeEntry_inputs (d i : Nat) : (s.freeEntry d i).inputs = s.inputs := rfl

/-! ## What the plain updates write -/

@[simp] theorem State.modDie_dies (d : Nat) (f : Die → Die) : (s.modDie d f).dies = s.dies.mapIdx (fun i x => if i = d then f x else x) := rfl
@[simp] theorem State.modFolio_folios (i : Nat) (f : Folio → Folio) :
    (s.modFolio i f).folios = s.folios.map (fun x => if x.fid = i then f x else x) := rfl
@[simp] theorem State.modVolume_volumes (i : Nat) (f : Volume → Volume) :
    (s.modVolume i f).volumes = s.volumes.map (fun x => if x.vid = i then f x else x) := rfl
@[simp] theorem State.modQuire_q (i : Nat) (f : Quire → Quire) : (s.modQuire i f).q = if s.q.uid = i then f s.q else s.q := rfl
@[simp] theorem State.modQuire_rest (i : Nat) (f : Quire → Quire) :
    (s.modQuire i f).rest = s.rest.map (fun x => if x.uid = i then f x else x) := rfl
@[simp] theorem State.setS_q (n : Nat) (v : DWord) : (s.setS n v).q = s.q.setS n v := rfl
@[simp] theorem State.setK_q (n : Nat) (b : Bool) : (s.setK n b).q = s.q.setK n b := rfl
@[simp] theorem State.startTok_q (n : Nat) : (s.startTok n).q = s.q.setTok n (s.q.tok n).start := rfl
@[simp] theorem State.mapFibres_q (g : Fibre → Fibre) : (s.mapFibres g).q = { s.q with fibres := s.q.fibres.map g } := rfl
@[simp] theorem State.move_q (xs : List (Nat × DWord)) : (s.move xs).q = s.q.move xs := rfl
@[simp] theorem State.unblocked_q : s.unblocked.q = s.q.unblock s.sel.1 s.sel.2 := rfl
@[simp] theorem State.putByte_mem (a : Nat) (b : Byte) : (s.putByte a b).mem = Sparse.set 0 a b s.mem := rfl
@[simp] theorem State.putBytes_mem (a : Nat) (bs : List Byte) :
    (s.putBytes a bs).mem = Sparse.setAll 0 (bs.mapIdx (fun i b => (a + i, b))) s.mem := rfl

end Sys2Proof.Machine
end

