-- ==== Sys2Proof/Laws/Memory.lean ====
section
/-! SUPPORT. Memory: a byte read after a write, and the canonical form, which every operation that writes memory keeps (R1, R188). -/

namespace Sys2Proof.Machine

/-! ## Bytes -/

theorem State.byte_putByte_self {s : State} (h : Memory.wf s.mem = true) (loc : Nat) (v : Byte) : (s.putByte loc v).byte loc = v :=
  Sparse.get_set_self _ _ _ _ h

theorem State.byte_putByte_ne {s : State} (h : Memory.wf s.mem = true) {loc a : Nat} (v : Byte) (ha : a ≠ loc) :
    (s.putByte loc v).byte a = s.byte a := Sparse.get_set_ne _ _ _ _ _ h ha

/-- The pairs that `putBytes` writes, one by one from the front. -/
theorem putPairs_cons (loc : Nat) (b : Byte) (bs : List Byte) :
    (b :: bs).mapIdx (fun i x => (loc + i, x)) = (loc, b) :: bs.mapIdx (fun i x => (loc + 1 + i, x)) := by
  simp [List.mapIdx_cons, Nat.add_assoc, Nat.add_comm 1]

theorem State.putBytes_nil (s : State) (loc : Nat) : s.putBytes loc [] = s := rfl
theorem State.putBytes_cons (s : State) (loc : Nat) (b : Byte) (bs : List Byte) :
    s.putBytes loc (b :: bs) = (s.putByte loc b).putBytes (loc + 1) bs := by
  unfold State.putBytes; rw [putPairs_cons]; rfl

theorem leBytes_length (n v : Nat) : (leBytes n v).length = n := by
  induction n generalizing v with
  | zero => rfl
  | succ n ih => simp [leBytes, ih]

/-- The number of the bytes of a number (R1). -/
theorem leNat_leBytes (n v : Nat) : leNat (leBytes n v) = v % 256 ^ n := by
  induction n generalizing v with
  | zero => simp [leBytes, leNat, Nat.mod_one]
  | succ n ih =>
    rw [leBytes, leNat, ih, Nat.pow_succ, Nat.mul_comm (256 ^ n), Nat.mod_mul]
    simp

/-! ## The canonical form -/

/-- The canonical form holds in a state. -/
abbrev State.Canon (s : State) : Prop := Memory.wf s.mem = true

theorem State.putByte_canon {s : State} (h : s.Canon) (loc : Nat) (v : Byte) : (s.putByte loc v).Canon := Sparse.wf_set _ _ _ _ h
theorem State.putBytes_canon {s : State} (h : s.Canon) (loc : Nat) (bs : List Byte) : (s.putBytes loc bs).Canon :=
  Sparse.wf_setAll _ _ _ h

/-- A byte outside written ones reads as before. -/
theorem State.byte_putBytes_out {s : State} (h : s.Canon) {loc a : Nat} {bs : List Byte} (ha : a < loc ∨ loc + bs.length ≤ a) :
    (s.putBytes loc bs).byte a = s.byte a := by
  induction bs generalizing s loc with
  | nil => rfl
  | cons b bs ih =>
    simp only [List.length_cons] at ha
    rw [State.putBytes_cons, ih (State.putByte_canon h _ _) (by omega), State.byte_putByte_ne h _ (by omega)]

/-- A written byte reads as it was written. -/
theorem State.byte_putBytes_in {s : State} (h : s.Canon) {loc k : Nat} {bs : List Byte} (hk : k < bs.length) :
    (s.putBytes loc bs).byte (loc + k) = bs[k] := by
  induction bs generalizing s loc k with
  | nil => cases hk
  | cons b bs ih =>
    rw [State.putBytes_cons]
    cases k with
    | zero =>
      rw [State.byte_putBytes_out (State.putByte_canon h _ _) (.inl (by omega))]
      exact State.byte_putByte_self h _ _
    | succ k =>
      have := ih (State.putByte_canon h loc b) (loc := loc + 1) (k := k) (by simpa using hk)
      rw [show loc + (k + 1) = loc + 1 + k by omega, this]; rfl

/-- What every step of a fold keeps, the fold keeps. -/
theorem State.foldl_canon {α : Type} {f : State → α → State} (hf : ∀ s x, s.Canon → (f s x).Canon) (xs : List α) {s : State}
    (h : s.Canon) : (xs.foldl f s).Canon := by
  induction xs generalizing s with
  | nil => exact h
  | cons x xs ih => exact ih (hf s x h)

/-- Dropping bytes keeps the form. -/
theorem wfFrom_filter (p : Host.Cell → Bool) (m : List Host.Cell) (lo : Nat) (h : Sparse.wfFrom (0 : Byte) lo m = true) :
    Sparse.wfFrom (0 : Byte) lo (m.filter p) = true := by
  induction m generalizing lo with
  | nil => rfl
  | cons x m ih =>
    obtain ⟨a, v⟩ := x
    simp only [Sparse.wfFrom, Bool.and_eq_true, decide_eq_true_eq] at h
    rw [List.filter_cons]
    split
    · simp only [Sparse.wfFrom, Bool.and_eq_true, decide_eq_true_eq]; exact ⟨h.1, ih _ h.2⟩
    · exact ih _ (Sparse.wfFrom_mono _ (by omega) _ h.2)

theorem Memory.wf_filter (p : Host.Cell → Bool) (m : List Host.Cell) (h : Memory.wf m = true) : Memory.wf (m.filter p) = true :=
  wfFrom_filter p m 0 h

variable {s : State}

/-- A state that differs from a canonical one outside memory is canonical. -/
theorem State.canon_of_mem {t : State} (h : s.Canon) (ht : t.mem = s.mem) : t.Canon := by unfold State.Canon; rw [ht]; exact h

theorem State.write_canon (h : s.Canon) (loc : Nat) (bs : List Byte) : (s.write loc bs).Canon :=
  State.canon_of_mem (State.putBytes_canon h loc bs) rfl

theorem State.rekey_canon (h : s.Canon) (kid pa : Nat) : (s.rekey kid pa).Canon := by
  unfold State.rekey; dsimp only; split
  · exact h
  · generalize (List.range 64).map _ = bs
    exact State.canon_of_mem (State.putBytes_canon h (pa / 64 * 64) bs) rfl

theorem State.putRaw_canon (h : s.Canon) (kid pa : Nat) (bs : List Byte) : (s.putRaw kid pa bs).Canon := by
  unfold State.putRaw; dsimp only
  have h1 := State.write_canon (State.rekey_canon h kid pa) pa bs
  split
  · refine State.write_canon (State.rekey_canon ?_ _ _) _ _
    exact State.canon_of_mem h1 rfl
  · exact State.canon_of_mem h1 rfl

theorem State.putLong_canon (h : s.Canon) (kid pa : Nat) (bs : List Byte) : (s.putLong kid pa bs).Canon :=
  State.foldl_canon (fun _ _ ht => State.putRaw_canon ht _ _ _) _ h

@[simp] theorem State.tagged_mem (s : State) (key : Nat) (bs : List Byte) (d : Nat) (rs : List Rel) : (s.tagged key bs d rs).mem = s.mem := rfl
@[simp] theorem State.forget_mem (s : State) (key n : Nat) : (s.forget key n).mem = s.mem := rfl
@[simp] theorem State.dropPartials_mem (s : State) (sel : Partial → Bool) : (s.dropPartials sel).mem = s.mem := rfl
@[simp] theorem State.leaveL1_mem (s : State) (d core line : Nat) : (s.leaveL1 d core line).mem = s.mem := by
  unfold State.leaveL1; split <;> rfl

/-- Bytes that are noted as what a `dsc` may leave stand as they were. -/
theorem State.keepShadows_canon (h : s.Canon) (pa : Nat) (xs : List Nat) :
    (xs.foldl (fun (t : State) i => t.keepShadow (pa + i)) s).Canon :=
  State.foldl_canon (fun t i ht => State.canon_of_mem ht (State.keepShadow_mem t (pa + i))) xs h

theorem State.combine_canon (h : s.Canon) (p : Partial) : (s.combine p).Canon := by
  unfold State.combine; dsimp only
  exact State.canon_of_mem (State.putRaw_canon (State.keepShadows_canon h p.pa _) p.kid p.pa _) rfl
theorem State.combineAll_canon (h : s.Canon) (ps : List Partial) : (s.combineAll ps).Canon :=
  State.foldl_canon (fun _ p h => State.combine_canon h p) ps h
theorem State.addPartial_mem (s : State) (p : Partial) : (s.addPartial p).mem = s.mem := rfl

theorem State.evictPartial_canon (h : s.Canon) (die core line : Nat) : (s.evictPartial die core line).Canon := by
  unfold State.evictPartial; dsimp only
  replace h := State.canon_of_mem h (State.leaveL1_mem s die core line)
  split
  · exact State.combineAll_canon h _
  · refine State.foldl_canon (fun t p ht => ?_) _ h
    refine State.canon_of_mem (s := if _ then _ else _) ?_ (State.addPartial_mem _ _)
    split
    · exact State.combineAll_canon ht _
    · exact ht

theorem State.redUpdate_canon (h : s.Canon) (p : Partial) : (s.redUpdate p).Canon := by
  unfold State.redUpdate
  split
  · exact State.evictPartial_canon h _ _ _
  · exact h

theorem State.recallLine_canon (h : s.Canon) (line : Nat) : (s.recallLine line).Canon := by
  unfold State.recallLine; split
  · exact h
  · dsimp only
    refine State.foldl_canon (fun t d ht => ?_) _ (State.foldl_canon (fun t c ht => State.evictPartial_canon ht _ _ _) _ h)
    exact State.combineAll_canon (State.foldl_canon (fun t c ht => State.evictPartial_canon ht _ _ _) _ ht) _

theorem State.putHome_canon (h : s.Canon) (kid pa : Nat) (bs : List Byte) : (s.putHome kid pa bs).Canon :=
  State.putRaw_canon (State.recallLine_canon h _) _ _ _

/-! ## Copies -/

@[simp] theorem State.addCopy_mem (s : State) (d : Nat) (x : Attr) (line : Nat) : (s.addCopy d x line).mem = s.mem := rfl

theorem State.storeBytes_canon (h : s.Canon) (d : Nat) (x : Attr) (pa : Nat) (bs : List Byte) (rels : List Rel) (by_ : Option Nat) :
    (s.storeBytes d x pa bs rels by_).Canon := by
  unfold State.storeBytes; dsimp only
  split
  · have h1 := State.putHome_canon (State.keepShadows_canon (State.recallLine_canon h (pa / 64)) pa (List.range bs.length)) x.kid pa bs
    split
    · exact State.canon_of_mem h1 (State.tagged_mem _ _ _ _ _)
    · exact State.canon_of_mem h1 (State.tagged_mem _ _ _ _ _)
  · split
    · exact State.canon_of_mem h (State.tagged_mem _ _ _ _ _)
    · exact State.canon_of_mem h (State.tagged_mem _ _ _ _ _)

theorem State.mergeLine_canon (h : s.Canon) (d : Nat) (c : Copy) (pa : Nat) : (s.mergeLine d c pa).Canon := by
  refine State.foldl_canon (fun t i ht => ?_) _ h
  split
  · exact State.canon_of_mem (State.putHome_canon (State.canon_of_mem ht (State.keepShadow_mem t (pa + i))) c.kid (pa + i) [lineByte c.bytes i])
      rfl
  · exact ht

theorem State.writeBack_canon (h : s.Canon) (d line : Nat) (drop : Bool) : (s.writeBack d line drop).Canon := by
  have keep : ∀ (t : State) (c : Copy), t.Canon → (if drop = true then t.dropCopies d (fun y => y.line = line)
      else t.modDie d (fun z => { z with copies := z.copies.map (fun y => if y.line = line then c else y) })).Canon := by
    intro t c ht; split <;> exact ht
  unfold State.writeBack; split
  · exact h
  · dsimp only; split
    · exact keep _ _ h
    · split
      · split
        · exact keep _ _ h
        · exact keep _ _ (State.canon_of_mem (State.mergeLine_canon h d _ _) rfl)
      · exact keep _ _ h
      · exact h

theorem State.writeAt_canon (h : s.Canon) (d : Nat) (t : Target) (n v : Nat) (rels : List Rel) : (s.writeAt d t n v rels).Canon := by
  unfold State.writeAt; split
  · exact State.storeBytes_canon h _ _ _ _ _ _
  · exact State.canon_of_mem (State.write_canon h _ _) (State.tagged_mem _ _ _ _ _)
  · exact h

@[simp] theorem State.cacheLeaf_mem (s : State) (d asid : Nat) (ps : List TlbPlace) (x : Leaf) : (s.cacheLeaf d asid ps x).mem = s.mem :=
  State.foldl_keeps (·.mem) (fun t p => by dsimp only; split <;> rfl) ps s
@[simp] theorem State.cacheTarget_mem (s : State) (fid : Nat) (p : Path) (t : Target) : (s.cacheTarget fid p t).mem = s.mem := by
  unfold State.cacheTarget; split
  · exact State.cacheLeaf_mem _ _ _ _ _
  · exact State.cacheLeaf_mem _ _ _ _ _
  · rfl
@[simp] theorem State.touch_mem (s : State) (d core : Nat) (l : Level) (w : Bool) (t : Target) : (s.touch d core l w t).mem = s.mem := by
  unfold State.touch; split
  · dsimp only; split
    · rfl
    · unfold State.pinLine; dsimp only; split <;> rfl
  · rfl
@[simp] theorem State.touchCore_mem (s : State) (l : Level) (w : Bool) (t : Target) : (s.touchCore l w t).mem = s.mem := State.touch_mem _ _ _ _ _ _
@[simp] theorem State.cacheAll_mem (s : State) (xs : List Access) : (s.cacheAll xs).mem = s.mem :=
  State.foldl_keeps (·.mem) (fun t _ => State.cacheTarget_mem t _ _ _) xs s

theorem State.flushCopies_canon (h : s.Canon) (d : Nat) (pick : Nat → Bool) (drop : Bool) : (s.flushCopies d pick drop).Canon :=
  State.foldl_canon (fun _ _ ht => State.writeBack_canon ht _ _ _) _ h

theorem State.releaseOn_canon (h : s.Canon) (d scope : Nat) : (s.releaseOn d scope).Canon := by
  unfold State.releaseOn; split
  · exact h
  · exact State.flushCopies_canon h _ _ _

@[simp] theorem State.acquireOn_mem (s : State) (d scope : Nat) : (s.acquireOn d scope).mem = s.mem := by
  unfold State.acquireOn; split <;> rfl
@[simp] theorem State.joinSeen_mem (s : State) (uid scope : Nat) (x : Seen) : (s.joinSeen uid scope x).mem = s.mem := by
  have h := State.foldl_keeps (·.mem) (f := fun (t : State) r => t.joinRel uid r) (fun t r => rfl)
    (x.rels.filter (fun r => s.within (min r.scope scope) r uid)) s
  unfold State.joinSeen; dsimp only
  generalize (if scope = 4 then x.die else if 5 ≤ scope then x.pkg else 0) = k
  by_cases hk : k = 0
  · rw [if_pos hk]; exact h
  · rw [if_neg hk]; exact h
@[simp] theorem State.acquireOver_mem (s : State) (uid d scope : Nat) (x : Seen) : (s.acquireOver uid d scope x).mem = s.mem := by
  unfold State.acquireOver; dsimp only; split
  · exact State.joinSeen_mem _ _ _ _
  · rw [State.acquireOn_mem]; exact State.joinSeen_mem _ _ _ _
@[simp] theorem State.acquireAll_mem (s : State) (uid d scope : Nat) : (s.acquireAll uid d scope).mem = s.mem := State.acquireOn_mem _ _ _

theorem State.keepCoherent_mem (s : State) (uid d : Nat) (t : Target) (plan : List (Nat × Nat × Nat)) (p : Path) :
    (s.keepCoherent uid d t plan p).mem = s.mem := by unfold State.keepCoherent; split <;> rfl
theorem State.keepNow_mem (s : State) (uid d : Nat) (t : Target) (n : Nat) : (s.keepNow uid d t n).mem = s.mem :=
  State.keepCoherent_mem _ _ _ _ _ _

/-! ## Writes on their way, subscriptions (R211, R251) -/

theorem State.countLate_mem (s : State) (die core : Nat) : (s.countLate die core).mem = s.mem := rfl
theorem State.markPoison_mem (s : State) (bad : Bool) (loc n : Nat) : (s.markPoison bad loc n).mem = s.mem := by
  unfold State.markPoison; split <;> rfl
theorem State.wroteNow_mem (s : State) (uid d : Nat) (t : Target) (n : Nat) (p : Path) : (s.wroteNow uid d t n p).mem = s.mem := by
  unfold State.wroteNow; dsimp only; split
  · exact State.keepCoherent_mem _ _ _ _ _ _
  · exact State.keepCoherent_mem _ _ _ _ _ _
theorem State.wroteStore_mem (s : State) (uid id die : Nat) (t : Target) (n : Nat) : (s.wroteStore uid id die t n).mem = s.mem := by
  unfold State.wroteStore
  rw [State.foldl_keeps (·.mem) (fun z u => State.keepNow_mem z u die t n)]
  exact State.wroteNow_mem _ _ _ _ _ _

theorem State.scratchWrite_canon (h : s.Canon) (fid off : Nat) (bs : List Byte) (rels : List Rel) (by_ : Option Nat) :
    (s.scratchWrite fid off bs rels by_).Canon := by
  unfold State.scratchWrite; split
  · exact State.foldl_canon (fun _ _ ht => State.putRaw_canon ht _ _ _) _ h
  · exact State.canon_of_mem (State.write_canon h _ _) (State.tagged_mem _ _ _ _ _)

theorem State.land_canon (h : s.Canon) (w : Inbound) : (s.land w).Canon := by
  unfold State.land; split
  · dsimp only
    have h1 := State.canon_of_mem (State.scratchWrite_canon h w.fid w.off w.bytes w.rels (w.sub.map (fun _ => 10)))
      (State.markPoison_mem _ w.bad (s.scratchHome w.fid w.off) w.bytes.length)
    split
    · exact h1
    · exact State.canon_of_mem h1 (State.wroteStore_mem _ _ _ _ _ _)
  · exact h

theorem State.settle_canon (h : s.Canon) (pick : Inbound → Bool) : (s.settle pick).Canon :=
  State.foldl_canon (fun _ w ht => State.land_canon ht w) _ h

theorem inboundWrite_canon (h : s.Canon) (idx : Nat) : (inboundWrite idx s).Canon := by
  unfold inboundWrite; split
  · split
    · exact h
    · split
      · exact State.land_canon (s := { s with inbound := s.inbound.set idx _ }) h _
      · exact State.land_canon (s := { s with inbound := s.inbound.eraseIdx idx }) h _
  · exact h

theorem State.send_mem (s : State) (uid fid off : Nat) (bs : List Byte) (sub : Option Nat) (rels : List Rel) :
    (s.send uid fid off bs sub rels).mem = s.mem := rfl
theorem State.sendBad_mem (s : State) (bad : Bool) : (s.sendBad bad).mem = s.mem := by unfold State.sendBad; split <;> rfl
theorem State.modSub_mem (s : State) (id : Nat) (f : Sub → Sub) : (s.modSub id f).mem = s.mem := rfl

/-- A flush of a buffer sends; it writes nothing. -/
@[simp] theorem State.flushSub_mem (s : State) (x : Sub) : (s.flushSub x).mem = s.mem := by
  unfold State.flushSub
  rw [State.foldl_keeps (·.mem) (fun t g => by rw [State.sendBad_mem, State.send_mem])]; rfl

@[simp] theorem State.forwardGranule_mem (s : State) (uid id off : Nat) : (s.forwardGranule uid id off).mem = s.mem := by
  unfold State.forwardGranule; split
  · rfl
  · dsimp only; split
    · rfl
    · rw [State.modSub_mem]; split
      · exact State.flushSub_mem _ _
      · rfl

@[simp] theorem State.forward_mem (s : State) (uid fid off n : Nat) : (s.forward uid fid off n).mem = s.mem :=
  State.foldl_keeps (·.mem) (fun t _ => State.foldl_keeps (·.mem) (fun t _ => State.forwardGranule_mem t _ _ _) _ t) _ s

theorem State.settleSubs_canon (h : s.Canon) (sel : Sub → Bool) : (s.settleSubs sel).Canon :=
  State.settle_canon (State.canon_of_mem h (State.foldl_keeps (·.mem) (fun t _ => State.flushSub_mem t _) _ s)) _

theorem State.endSubs_canon (h : s.Canon) (fid : Nat) : (s.endSubs fid).Canon := State.settleSubs_canon h _

/-! ## Stores (R290) -/

theorem State.perform_canon (h : s.Canon) (x : Store) {t : State} (ht : s.perform x = some t) : t.Canon := by
  unfold State.perform at ht
  split at ht
  · split at ht <;> cases ht
    · exact State.canon_of_mem (State.storeBytes_canon h _ _ _ _ _ _) (State.wroteStore_mem _ _ _ _ _ _)
    · exact h
  · cases ht
    split
    · refine State.canon_of_mem (State.canon_of_mem (State.scratchWrite_canon h _ _ _ _ _) (State.wroteStore_mem _ _ _ _ _ _))
        (State.forward_mem _ _ _ _ _)
    · exact h

theorem performAll_canon (pick : Store → Bool) (xs : List Store) (h : s.Canon) : (performAll pick xs s).Canon := by
  induction xs generalizing s with
  | nil => exact h
  | cons x xs ih =>
    unfold performAll; dsimp only
    split
    · split
      · next t ht => exact ih (State.perform_canon h x ht)
      · exact ih (s := { s with stores := _ }) h
    · exact ih (s := { s with stores := _ }) h

theorem State.performStores_canon (h : s.Canon) (pick : Store → Bool) : (s.performStores pick).Canon := by
  unfold State.performStores; split
  · exact performAll_canon (s := { s with stores := [] }) _ _ h
  · exact h

theorem State.settleFrom_canon (h : s.Canon) (uid : Nat) : (s.settleFrom uid).Canon :=
  State.settle_canon (State.performStores_canon h _) _

theorem State.settleOwed_canon (h : s.Canon) (uid : Nat) : (s.settleOwed uid).Canon := by
  unfold State.settleOwed; dsimp only; split
  · exact h
  · exact State.settle_canon (State.performStores_canon h _) _

theorem State.releaseFor_canon (h : s.Canon) (uid d scope : Nat) : (s.releaseFor uid d scope).Canon := by
  unfold State.releaseFor; dsimp only
  have h1 : (if 5 ≤ scope then s.settleOwed uid else s).Canon := by
    split
    · exact State.settleOwed_canon h _
    · exact h
  refine State.releaseOn_canon ?_ _ _
  by_cases h4 : 4 ≤ scope
  · rw [if_pos h4]; exact State.settleFrom_canon h1 _
  · rw [if_neg h4]; exact h1
theorem State.releaseAt_canon (h : s.Canon) (scope : Nat) : (s.releaseAt scope).Canon := State.releaseFor_canon h _ _ _

theorem State.owedStores_canon (h : s.Canon) (t : Target) (n : Nat) : (s.owedStores t n).Canon := by
  unfold State.owedStores; dsimp only; split
  · exact h
  · exact State.performStores_canon h _
theorem State.settleOwedAt_canon (h : s.Canon) (t : Target) (n : Nat) : (s.settleOwedAt t n).Canon := by
  unfold State.settleOwedAt; dsimp only; split
  · split
    · exact h
    · exact State.settle_canon h _
  · exact h

/-- A store is at first seen by its quire alone: it writes nothing, but those that must come before it are performed. -/
theorem State.storeTo_canon (h : s.Canon) (t : Target) (n v lane : Nat) (rel : Option Nat) : (s.storeTo t n v lane rel).Canon := by
  unfold State.storeTo; dsimp only
  refine State.foldl_canon (fun z e hz => ?_) _ (State.settleOwedAt_canon (State.owedStores_canon h t n) t n)
  split
  · exact hz
  · split
    · exact hz
    · exact State.canon_of_mem hz (State.send_mem _ _ _ _ _ _ _)
  · exact hz

@[simp] theorem State.fill_mem (s : State) (d : Nat) (x : Attr) (pa : Nat) : (s.fill d x pa).mem = s.mem := by
  unfold State.fill; dsimp only; split
  · rfl
  · exact State.addCopy_mem _ _ _ _

theorem State.recallFor_canon (h : s.Canon) (d : Nat) (t : Target) : (s.recallFor d t).Canon := by
  unfold State.recallFor; split
  · split
    · exact State.canon_of_mem (State.recallLine_canon h _) (State.fill_mem _ _ _ _)
    · exact h
  · exact h

theorem State.before_canon (h : s.Canon) (t : Target) (n : Nat) : (s.before t n).Canon := by
  unfold State.before; dsimp only; split
  · exact State.settle_canon h _
  · exact State.recallFor_canon h _ _

theorem State.ownStores_canon (h : s.Canon) (t : Target) (n : Nat) : (s.ownStores t n).Canon :=
  State.performStores_canon (State.owedStores_canon h t n) _
theorem State.beforeRmw_canon (h : s.Canon) (t : Target) (n : Nat) : (s.beforeRmw t n).Canon :=
  State.before_canon (State.ownStores_canon h t n) t n
theorem State.fellowStores_canon (h : s.Canon) (t : Target) (n lane : Nat) : (s.fellowStores t n lane).Canon :=
  State.performStores_canon (State.owedStores_canon h t n) _

theorem State.observe_mem (s : State) (uid d : Nat) (t : Target) (plan : List (Nat × Nat × Nat)) : (s.observe uid d t plan).mem = s.mem := by
  unfold State.observe; split <;> rfl
theorem State.startReads_mem (s : State) (uid : Nat) : (s.startReads uid).mem = s.mem := by unfold State.startReads; split <;> rfl
@[simp] theorem State.readFor_mem (s : State) (t : Target) (n salt : Nat) : (s.readFor t n salt).2.mem = s.mem :=
  (State.keepCoherent_mem _ _ _ _ _ _).trans (State.observe_mem _ _ _ _ _)
@[simp] theorem State.engineRead_mem (s : State) (uid d : Nat) (p : Path) (t : Target) (n salt : Nat) :
    (s.engineRead uid d p t n salt).2.mem = s.mem := State.keepCoherent_mem _ _ _ _ _ _

theorem State.loadOne_canon (h : s.Canon) (n hint : Nat) (x : Access) : (s.loadOne n hint x).2.Canon := by
  unfold State.loadOne; split
  · split <;> exact h
  · exact State.canon_of_mem (State.before_canon (State.fellowStores_canon (State.canon_of_mem h (State.touchCore_mem _ _ _ _)) _ _ _) _ _)
      (State.readFor_mem _ _ _ _)

theorem State.loads_canon (h : s.Canon) (n hint : Nat) (xs : List Access) : (s.loads n hint xs).2.Canon := by
  unfold State.loads
  suffices ∀ (r : List (Nat × Nat) × State), r.2.Canon → (xs.foldl (fun (r : List (Nat × Nat) × State) x =>
      let y := r.2.loadOne n hint x
      (r.1 ++ [(x.lane, y.1)], y.2)) r).2.Canon from this _ (State.canon_of_mem h (State.startReads_mem _ _))
  induction xs with
  | nil => exact fun _ h => h
  | cons x xs ih => intro r hr; exact ih _ (State.loadOne_canon hr n hint x)

theorem State.setMgmt_mem (s : State) (d n : Nat) (v : DWord) : (s.setMgmt d n v).mem = s.mem := rfl
theorem State.mgmtWrite_mem (s : State) (d n : Nat) (v : DWord) : (s.mgmtWrite d n v).mem = s.mem := by
  have key : ∀ e, (s.keyCommand d e).mem = s.mem := by
    intro e; unfold State.keyCommand; dsimp only; split
    · rfl
    · exact State.foldl_keeps (·.mem) (fun t i => State.setMgmt_mem t _ _ _) _ _
  unfold State.mgmtWrite; split
  · rfl
  · split
    · split
      · exact key _
      · split
        · exact key _
        · rfl
    · split <;> rfl
    · rfl
    · rfl
    · rfl
theorem State.deviceWrite_mem (s : State) (uid d n : Nat) (v : DWord) : (s.deviceWrite uid d n v).mem = s.mem := by
  unfold State.deviceWrite; split
  · rfl
  · split
    · rfl
    · exact State.mgmtWrite_mem _ _ _ _

theorem State.storeOne_canon (h : s.Canon) (n hint : Nat) (x : Access) (v : Nat) (rel : Option Nat) : (s.storeOne n hint x v rel).Canon := by
  unfold State.storeOne; split
  · split
    · exact State.canon_of_mem h (State.deviceWrite_mem _ _ _ _ _)
    · exact h
  · exact State.storeTo_canon (State.canon_of_mem h (State.touchCore_mem _ _ _ _)) _ _ _ _ _

theorem State.storeAll_canon (h : s.Canon) (n hint : Nat) (xs : List Access) (v : Nat → Nat) (rel : Option Nat) :
    (s.storeAll n hint xs v rel).Canon := State.foldl_canon (fun _ x ht => State.storeOne_canon ht n hint x (v x.lane) rel) xs h

theorem State.discardLine_canon (h : s.Canon) (t : Target) : (s.discardLine t).Canon := by
  unfold State.discardLine; split
  · split
    · exact h
    · dsimp only; split
      · refine State.canon_of_mem (State.foldl_canon (fun z i hz => ?_) _ (State.recallLine_canon (State.ownStores_canon h _ _) _))
          (State.wroteNow_mem _ _ _ _ _ _)
        exact State.canon_of_mem (State.write_canon (s := z.keepShadow _) hz _ _) (State.tagged_mem _ _ _ _ _)
      · exact State.ownStores_canon h _ _
  · exact h

theorem State.cleanLine_canon (h : s.Canon) (t : Target) : (s.cleanLine t).Canon := by
  unfold State.cleanLine; split
  · split
    · exact h
    · rename_i x pa _
      have h0 := State.ownStores_canon h (.mem x pa) 64
      have h1 : (if (s.ownStores (.mem x pa) 64).readsHome s.fol.die x.attr.home pa = true then (s.ownStores (.mem x pa) 64).recallLine (pa / 64)
          else s.ownStores (.mem x pa) 64).Canon := by
        split
        · exact State.recallLine_canon h0 _
        · exact h0
      exact State.canon_of_mem (State.canon_of_mem (State.writeBack_canon h1 s.fol.die (pa / 64) false) (State.wroteNow_mem _ s.q.uid s.fol.die
        (.mem x pa) 64 .core)) rfl
  · exact h

end Sys2Proof.Machine
end

