-- ==== Sys2Proof/Laws/Effects.lean ====
section
/-! SUPPORT. The canonical form of memory under the operations of the later chapters that write memory (R229 to R416). -/

namespace Sys2Proof.Machine

variable {s : State}

theorem State.observeRmw_mem (s : State) (uid d : Nat) (t : Target) (n : Nat) : (s.observeRmw uid d t n).mem = s.mem := by
  unfold State.observeRmw; dsimp only; split
  · exact State.observe_mem _ _ _ _ _
  · exact State.observe_mem _ _ _ _ _

theorem State.rmw_canon (h : s.Canon) (t : Target) (n : Nat) (f : Nat → Option Nat) (rel : Option Nat) : (s.rmw t n f rel).2.Canon := by
  have h0 := State.beforeRmw_canon h t n
  unfold State.rmw; dsimp only
  split
  · rename_i x pa
    have h1 : (if (s.beforeRmw (.mem x pa) n).isHome s.fol.die pa = true then s.beforeRmw (.mem x pa) n
        else (s.beforeRmw (.mem x pa) n).writeBack s.fol.die (pa / 64) true).Canon := by
      split
      · exact h0
      · exact State.writeBack_canon h0 _ _ _
    have h2 := State.canon_of_mem (State.recallLine_canon (State.canon_of_mem h1 (State.touchCore_mem _ .l2 true (.mem x pa))) (pa / 64))
      (State.observeRmw_mem _ s.q.uid s.fol.die (.mem x pa) n)
    split
    · exact State.canon_of_mem (State.canon_of_mem (State.putHome_canon (State.keepShadows_canon h2 _ _) _ _ _) (State.tagged_mem _ _ _ _ _))
        (State.wroteNow_mem _ _ _ _ _ _)
    · exact State.canon_of_mem h2 (State.keepNow_mem _ _ _ _ _)
  · rename_i fid off
    have h2 := State.canon_of_mem h0 (State.observeRmw_mem _ s.q.uid s.fol.die (.scratch fid off) n)
    split
    · refine State.canon_of_mem (s := if _ then _ else _) ?_ (State.wroteNow_mem _ _ _ _ _ _)
      split
      · exact State.canon_of_mem (State.writeAt_canon h2 _ _ _ _ _) (State.forward_mem _ _ _ _ _)
      · exact State.writeAt_canon h2 _ _ _ _ _
    · exact State.canon_of_mem h2 (State.keepNow_mem _ _ _ _ _)
  · exact h0
  · exact h0

theorem State.rmwAll_canon (h : s.Canon) (n : Nat) (xs : List Access) (g : Nat → Nat → Option Nat × Exc × Bool) (rel : Option Nat) :
    (s.rmwAll n xs g rel).2.Canon := by
  unfold State.rmwAll
  suffices ∀ (acc : List AtomRes × State), acc.2.Canon → (xs.foldl (fun (acc : List AtomRes × State) x =>
      let (old, t) := acc.2.rmw x.t n (fun old => (g x.lane old).1) rel
      let r := g x.lane old
      (acc.1 ++ [{ lane := x.lane, old := old, exc := r.2.1, ok := r.2.2 }], t)) acc).2.Canon from
    this _ (State.canon_of_mem h (State.startReads_mem _ _))
  induction xs with
  | nil => intro acc ha; exact ha
  | cons x xs ih => intro acc ha; exact ih _ (State.rmw_canon ha _ _ _ _)

theorem State.putCounter_canon (h : s.Canon) (c : Counter) : (s.putCounter c).Canon :=
  State.canon_of_mem (State.putHome_canon (s := { s with counters := s.counters.map (fun x => if x.pa = c.pa && !x.gone then c else x) }) h
    c.kid c.pa (leBytes 64 (c.image 0xC7))) (State.forget_mem _ _ _)

theorem State.answer_mem (s : State) (pa : Nat) (r : CReq) (k : Option Bool) : (s.answer pa r k).mem = s.mem := rfl
theorem State.giveBack_mem (s : State) (pa : Nat) (r : CReq) : (s.giveBack pa r).mem = s.mem := by
  unfold State.giveBack; split <;> rfl

theorem State.serveWaiters_mem (pa n : Nat) (s : State) (c : Counter) : (State.serveWaiters pa n s c).1.mem = s.mem := by
  induction n generalizing s c with
  | zero => rfl
  | succ n ih =>
    unfold State.serveWaiters
    split
    · rfl
    · split
      · exact ih _ _
      · split
        · rw [ih, State.answer_mem]
        · rfl

theorem State.settleCounter_canon (h : s.Canon) (c : Counter) : (s.settleCounter c).Canon :=
  State.putCounter_canon (State.canon_of_mem h (State.serveWaiters_mem _ _ _ _)) _

theorem State.legWrite_canon (h : s.Canon) (c : CopyOp) (x : Leg) (bs : List Byte) : (s.legWrite c x bs).Canon := by
  unfold State.legWrite; dsimp only; split
  · refine State.foldl_canon (fun z e hz => ?_) _ (State.canon_of_mem h (State.cacheTarget_mem _ _ _ _))
    exact State.canon_of_mem (State.foldl_canon (fun t b ht => State.storeBytes_canon ht _ _ _ _ _ _) _ (State.canon_of_mem hz (State.touch_mem _ _ _ _ _ _)))
      (State.wroteNow_mem _ _ _ _ _ _)
  · exact State.canon_of_mem h (State.cacheTarget_mem _ _ _ _)
  · rename_i fid core off _
    have h1 : (bs.zipIdx.foldl (fun (t : State) b => if s.copyKeeps c fid (c.phys c.swd (off + b.2))
        then (t.scratchWrite fid (c.phys c.swd (off + b.2)) [b.1] c.rels (some 9)).wroteNow c.quire (s.folio c.fid).die
          (.scratch fid (c.phys c.swd (off + b.2))) 1 (.copy c.engine) else t) s).Canon := by
      refine State.foldl_canon (fun t b ht => ?_) _ h
      split
      · exact State.canon_of_mem (State.scratchWrite_canon ht _ _ _ _ _) (State.wroteNow_mem _ _ _ _ _ _)
      · exact ht
    split
    · exact h1
    · exact State.canon_of_mem h1 rfl
  · exact h

theorem State.putQdesc_canon (h : s.Canon) (fid off : Nat) (q : QDesc) : (s.putQdesc fid off q).Canon := State.putBytes_canon h _ _
theorem State.qPush_canon (h : s.Canon) (owner off folio quire : Nat) (v : DWord) (rels : List Rel) :
    (s.qPush owner off folio quire v rels).Canon :=
  State.putQdesc_canon (State.putBytes_canon (State.canon_of_mem (State.putBytes_canon h _ _) (State.tagged_mem _ _ _ _ _)) _ _) _ _ _
theorem State.qPop_canon (h : s.Canon) (owner off uid : Nat) : (s.qPop owner off uid).2.Canon :=
  State.foldl_canon (f := fun (t : State) r => t.joinRel uid r) (fun t r ht => State.canon_of_mem ht rfl) _ (State.putQdesc_canon h _ _ _)

theorem State.clearBitmap_canon (h : s.Canon) (d asid : Nat) (super : Bool) (r : BitVec 2048) : (s.clearBitmap d asid super r).Canon := by
  unfold State.clearBitmap; split
  · exact h
  · refine State.foldl_canon (fun t i ht => ?_) _ h
    split
    · exact State.putHome_canon ht _ _ _
    · exact ht

theorem State.orBit_canon (h : s.Canon) (d asid : Nat) (super : Bool) (ea bit : Nat) (rels : List Rel) :
    (s.orBit d asid super ea bit rels).Canon := by
  unfold State.orBit; split
  · exact State.canon_of_mem (State.putHome_canon h _ _ _) (State.tagged_mem _ _ _ _ _)
  · exact h
  · exact h

theorem State.setBit_canon (h : s.Canon) (x : Folio) (rels : List Rel) : (s.setBit x rels).Canon := by
  unfold State.setBit; dsimp only; split
  · split
    · exact h
    · exact State.orBit_canon h _ _ _ _ _ _
  · exact h

theorem State.drainBits_canon (h : s.Canon) : s.drainBits.Canon :=
  State.foldl_canon (fun _ _ ht => State.orBit_canon ht _ _ _ _ _ _) _ (s := { s with bits := [] }) h

theorem State.zeroFrame_canon (h : s.Canon) (d kid pa size : Nat) : (s.zeroFrame d kid pa size).Canon := by
  unfold State.zeroFrame; dsimp only
  refine State.canon_of_mem (s := List.foldl _ _ _) (State.foldl_canon (fun t e ht => State.canon_of_mem ht (State.dropCopies_mem _ _ _)) _
    (State.foldl_canon (fun t i ht => ?_) _ h)) rfl
  split
  · exact State.putHome_canon (s := t.direct _ 384 .l2 true _) (State.canon_of_mem ht rfl) _ _ _
  · exact ht

theorem State.writeLines_canon (h : s.Canon) (d : Nat) (ts : List Target) (bs : List Byte) : (s.writeLines d ts bs).Canon :=
  State.foldl_canon (fun _ _ ht => State.writeAt_canon ht _ _ _ _ _) _ h

theorem State.ckWrite_canon (h : s.Canon) (d pa : Nat) (bs : List Byte) {t : State} (ht : s.ckWrite d pa bs = some t) : t.Canon := by
  unfold State.ckWrite at ht
  suffices ∀ (ys : List (Byte × Nat)) (acc : Option State), (∀ u, acc = some u → u.Canon) → ∀ u,
      ys.foldl (fun (acc : Option State) b =>
        match acc with
        | none => none
        | some t => match t.reach d (pa + b.2) with
          | .at x => some (t.putHome 0 x [b.1])
          | _ => none) acc = some u → u.Canon from this _ _ (fun u hu => by cases hu; exact h) t ht
  intro ys
  induction ys with
  | nil => intro acc ha u hu; exact ha u hu
  | cons y ys ih =>
    intro acc ha u hu
    refine ih _ (fun v hv => ?_) u hu
    cases acc with
    | none => cases hv
    | some a =>
      dsimp only at hv
      split at hv
      · cases hv; exact State.putHome_canon (ha a rfl) _ _ _
      · cases hv

end Sys2Proof.Machine
end

