-- ==== Sys2Proof/Laws/Lanes.lean ====
section
/-! SUPPORT. What moving a batch and writing a destination can do to fibres and frames: each is one map over the list, with what it
leaves of a member (R5, R30, R35, R48, R328). -/

namespace Sys2Proof.Machine

/-! ## Moving fibres -/

/-- A fibre that has moved on, and of which nothing else has changed. -/
def Fibre.Moved (f g : Fibre) : Prop := g = { f with pc := g.pc, gather := g.gather, parked := g.parked }

theorem Fibre.Moved.refl (f : Fibre) : f.Moved f := rfl
theorem Fibre.Moved.trans {f g h : Fibre} (a : f.Moved g) (b : g.Moved h) : f.Moved h := by
  unfold Fibre.Moved at *; rw [b, a]
theorem Fibre.moved_arrive (f : Fibre) (pc : DWord) : f.Moved (Fibre.arrive { f with pc := pc }) := by
  unfold Fibre.Moved Fibre.arrive; split <;> rfl

/-- What `Quire.move` does to one fibre before it joins a parked batch. -/
def goTo (tos : List (Nat × DWord)) (f : Fibre) : Fibre :=
  match tos.find? (fun x => x.1 = f.lane) with
  | some x => Fibre.arrive { f with pc := x.2 }
  | none => f
/-- What `Quire.move` does to one fibre. -/
def Quire.moveOne (q : Quire) (tos : List (Nat × DWord)) (f : Fibre) : Fibre :=
  if (tos.any (fun x => x.1 = (goTo tos f).lane))
    ∧ (q.fibres.map (goTo tos)).any (fun g => g.parked ∧ g.pc = (goTo tos f).pc ∧ g.frame = (goTo tos f).frame)
  then { goTo tos f with parked := true } else goTo tos f

theorem Quire.move_eq (q : Quire) (tos : List (Nat × DWord)) : q.move tos = { q with fibres := q.fibres.map (q.moveOne tos) } := by
  unfold Quire.move; simp only [List.map_map]; rfl

theorem goTo_moved (tos : List (Nat × DWord)) (f : Fibre) : f.Moved (goTo tos f) := by
  unfold goTo; split
  · exact Fibre.moved_arrive _ _
  · exact .refl _

theorem Quire.moveOne_moved (q : Quire) (tos : List (Nat × DWord)) (f : Fibre) : f.Moved (q.moveOne tos f) := by
  unfold Quire.moveOne; split
  · exact (goTo_moved tos f).trans rfl
  · exact goTo_moved tos f

theorem goTo_other {tos : List (Nat × DWord)} {f : Fibre} (h : ¬ f.lane ∈ tos.map (·.1)) : goTo tos f = f := by
  have hf : tos.find? (fun x => x.1 = f.lane) = none := by
    rw [List.find?_eq_none]; intro x hx he
    exact h (List.mem_map.mpr ⟨x, hx, by simpa using he⟩)
  simp [goTo, hf]

theorem Quire.moveOne_other (q : Quire) (tos : List (Nat × DWord)) (f : Fibre) (h : ¬ f.lane ∈ tos.map (·.1)) : q.moveOne tos f = f := by
  have ha : tos.any (fun x => x.1 = f.lane) = false := by
    rw [List.any_eq_false]; intro x hx he
    exact h (List.mem_map.mpr ⟨x, hx, by simpa using he⟩)
  unfold Quire.moveOne; rw [goTo_other h, ha]; simp

theorem State.advance_q (s : State) (ms : List Fibre) (len : Nat) : s.advance ms len = { s with q := (s.advance ms len).q } := rfl

/-- A completed instruction moves its members, and changes nothing else. -/
theorem State.advance_fibres (s : State) (ms : List Fibre) (len : Nat) :
    ∃ h : Fibre → Fibre, s.advance ms len = { s with q := { s.q with fibres := s.q.fibres.map h } }
      ∧ (∀ f : Fibre, f.Moved (h f)) ∧ (∀ f : Fibre, ¬ f.lane ∈ ms.map (·.lane) → h f = f) := by
  refine ⟨s.q.moveOne (ms.map (fun f => (f.lane, f.pc + BitVec.ofNat 64 len))), ?_, fun f => Quire.moveOne_moved _ _ f, fun f hf => ?_⟩
  · unfold State.advance State.move; rw [Quire.move_eq]
  · refine Quire.moveOne_other _ _ _ ?_
    simpa [List.map_map, Function.comp_def] using hf

/-! ## Writing a destination -/

/-- Writing registers of a frame: the keys written, and the tags. -/
theorem Frame.writeReg_sets (fr : Frame) (ms : List Nat) (r : Nat) (vs : List (Nat × Word)) :
    ∃ tags, fr.writeReg ms r vs = { fr with
      regs := Sparse.setAll 0 (vs.map (fun x => (r * 32 + x.1, x.2))) fr.regs
      tags := Sparse.setAll (.u 0) tags fr.tags } ∧ ∀ x ∈ tags, x.1 = r := by
  refine ⟨if vs.isEmpty then [] else
    [(r, tagOf (ms.map (fun l => (l, Sparse.get 0 (r * 32 + l) (vs.foldl (fun m x => Sparse.set 0 (r * 32 + x.1) x.2 m) fr.regs)))))], ?_, ?_⟩
  · unfold Frame.writeReg Sparse.setAll
    cases vs <;> simp [List.foldl_map]
  · cases vs <;> simp

theorem Sparse.setAll_append {β : Type} [DecidableEq β] (d : β) (xs ys m : List (Nat × β)) :
    Sparse.setAll d ys (Sparse.setAll d xs m) = Sparse.setAll d (xs ++ ys) m := by
  simp [Sparse.setAll, List.foldl_append]

/-- Writing `k` registers of a frame. -/
theorem Frame.writeRegs_sets (ms : List Nat) (r k : Nat) (vs : Nat → List (Nat × Word)) (fr : Frame) :
    ∃ (kvs : List (Nat × Word)) (tags : List (Nat × Tag)),
      (List.range k).foldl (fun fr i => fr.writeReg ms (r + i) (vs i)) fr
        = { fr with regs := Sparse.setAll 0 kvs fr.regs, tags := Sparse.setAll (.u 0) tags fr.tags }
      ∧ (∀ x ∈ kvs, ∃ i < k, ∃ y ∈ vs i, x.1 = (r + i) * 32 + y.1) ∧ (∀ x ∈ tags, r ≤ x.1 ∧ x.1 < r + k) := by
  induction k with
  | zero => exact ⟨[], [], rfl, by simp, by simp⟩
  | succ k ih =>
    obtain ⟨kvs, tags, he, hk, ht⟩ := ih
    rw [List.range_succ, List.foldl_append, he]
    obtain ⟨tag, hw, htag⟩ := Frame.writeReg_sets
      { fr with regs := Sparse.setAll 0 kvs fr.regs, tags := Sparse.setAll (.u 0) tags fr.tags } ms (r + k) (vs k)
    refine ⟨kvs ++ (vs k).map (fun x => ((r + k) * 32 + x.1, x.2)), tags ++ tag, ?_, ?_, ?_⟩
    · simp only [List.foldl_cons, List.foldl_nil]
      rw [hw]
      simp only [Sparse.setAll_append]
    · intro x hx
      rcases List.mem_append.mp hx with hx | hx
      · obtain ⟨i, hi, h⟩ := hk x hx; exact ⟨i, by omega, h⟩
      · obtain ⟨y, hy, rfl⟩ := List.mem_map.mp hx; exact ⟨k, by omega, y, hy, rfl⟩
    · intro x hx
      rcases List.mem_append.mp hx with hx | hx
      · have := ht x hx; omega
      · have := htag x hx; omega

/-- What a write of `k` registers leaves of a fibre. -/
structure Fibre.Wrote (act : List Nat) (d : Name) (k : Nat) (l : Option Latch) (f g : Fibre) : Prop where
  other : ¬ f.lane ∈ act → g = f
  frame : g = { f with o := g.o, lint := g.lint, lfp := g.lfp, lmem := g.lmem, lsfu := g.lsfu }
  latch : ∀ m, l ≠ some m → g.latch m = f.latch m
  keeps : (∀ r, d ≠ .o r) → g.o = f.o
  sets  : ∀ r, d = .o r → ∃ kvs : List (Nat × Word), (∀ x ∈ kvs, r ≤ x.1 ∧ x.1 < r + k) ∧ g.o = Sparse.setAll 0 kvs f.o

/-- What it leaves of the current frame. -/
structure Frame.Wrote (act : List Nat) (d : Name) (k : Nat) (a b : Frame) : Prop where
  frame : b = { a with regs := b.regs, tags := b.tags }
  keeps : (∀ r, d ≠ .v r) → b = a
  sets  : ∀ r, d = .v r → ∃ (kvs : List (Nat × Word)) (tags : List (Nat × Tag)),
    (∀ x ∈ kvs, ∃ i < k, ∃ lane ∈ act, x.1 = (r + i) * 32 + lane) ∧ b.regs = Sparse.setAll 0 kvs a.regs
    ∧ (∀ x ∈ tags, r ≤ x.1 ∧ x.1 < r + k) ∧ b.tags = Sparse.setAll (.u 0) tags a.tags

theorem Fibre.wrote_o (rs : List (Nat × Nat)) (r k : Nat) (f : Fibre) :
    Fibre.Wrote (rs.map (·.1)) (.o r) k none f (match rs.find? (fun x => x.1 = f.lane) with
      | some x => { f with o := (List.range k).foldl (fun m i => Sparse.set 0 (r + i) (wordAt x.2 i) m) f.o }
      | none => f) := by
  cases h : rs.find? (fun x => x.1 = f.lane) with
  | none =>
    exact ⟨fun _ => rfl, rfl, fun _ _ => rfl, fun _ => rfl, fun r' h => ⟨[], by simp, rfl⟩⟩
  | some x =>
    have hx : x.1 = f.lane := by simpa using List.find?_some h
    refine ⟨fun hn => absurd (List.mem_map.mpr ⟨x, List.mem_of_find?_eq_some h, hx⟩) hn, rfl, fun m _ => by cases m <;> rfl,
      fun hn => absurd rfl (hn r), fun r' hr => ?_⟩
    cases hr
    refine ⟨(List.range k).map (fun i => (r + i, wordAt x.2 i)), ?_, ?_⟩
    · intro y hy; obtain ⟨i, hi, rfl⟩ := List.mem_map.mp hy; simp only [List.mem_range] at hi; dsimp only; omega
    · simp [Sparse.setAll, List.foldl_map]

theorem Fibre.wrote_latch (rs : List (Nat × Nat)) (d : Name) (k : Nat) (l : Latch) (f g : Fibre) (h : Fibre.Wrote (rs.map (·.1)) d k none f g) :
    Fibre.Wrote (rs.map (·.1)) d k (some l) f (match rs.find? (fun x => x.1 = g.lane) with
      | some x => g.setLatch l (BitVec.ofNat 64 x.2)
      | none => g) := by
  have hl : g.lane = f.lane := by rw [h.frame]
  cases hf : rs.find? (fun x => x.1 = g.lane) with
  | none => exact ⟨h.other, h.frame, fun m hm => h.latch m (by simp), h.keeps, h.sets⟩
  | some x =>
    have hx : x.1 = g.lane := by simpa using List.find?_some hf
    refine ⟨fun hn => absurd (List.mem_map.mpr ⟨x, List.mem_of_find?_eq_some hf, hx.trans hl⟩) hn, ?_, fun m hm => ?_, fun hn => ?_, fun r hr => ?_⟩
    · rw [h.frame]; cases l <;> rfl
    · rw [← h.latch m (by simp)]
      cases l <;> cases m <;> first | rfl | exact absurd rfl hm
    · rw [← h.keeps hn]; cases l <;> rfl
    · obtain ⟨kvs, a, b⟩ := h.sets r hr
      exact ⟨kvs, a, by rw [← b]; cases l <;> rfl⟩

/-- Everything that writing a destination can do: one map over the fibres, one over the frames, and fewer bad cells (R36, R375). -/
theorem State.writeLanes_only (s : State) (d : Name) (w : Nat) (l : Option Latch) (rs : List (Nat × Nat)) :
    ∃ (h : Fibre → Fibre) (g : Frame → Frame) (bad : List BadCell),
      s.writeLanes d w l rs = { s with
        bad := bad, q := { s.q with fibres := s.q.fibres.map h, frames := s.q.frames.map g } }
      ∧ (∀ c ∈ bad, c ∈ s.bad) ∧ (∀ f, Fibre.Wrote (rs.map (·.1)) d (w / 32) l f (h f))
      ∧ (∀ a, a.id ≠ s.sel.2 → g a = a) ∧ (∀ a, a.id = s.sel.2 → Frame.Wrote (rs.map (·.1)) d (w / 32) a (g a)) := by
  have key : ∃ (h : Fibre → Fibre) (g : Frame → Frame) (bad : List BadCell),
      s.writeLanes d w none rs = { s with
        bad := bad, q := { s.q with fibres := s.q.fibres.map h, frames := s.q.frames.map g } }
      ∧ (∀ c ∈ bad, c ∈ s.bad) ∧ (∀ f, Fibre.Wrote (rs.map (·.1)) d (w / 32) none f (h f))
      ∧ (∀ a, a.id ≠ s.sel.2 → g a = a) ∧ (∀ a, a.id = s.sel.2 → Frame.Wrote (rs.map (·.1)) d (w / 32) a (g a)) := by
    have same : ∀ {d : Name}, (∀ r, d ≠ .v r) → (∀ r, d ≠ .o r) → s.writeLanes d w none rs = s →
        ∃ (h : Fibre → Fibre) (g : Frame → Frame) (bad : List BadCell),
        s.writeLanes d w none rs = { s with
          bad := bad, q := { s.q with fibres := s.q.fibres.map h, frames := s.q.frames.map g } }
        ∧ (∀ c ∈ bad, c ∈ s.bad) ∧ (∀ f, Fibre.Wrote (rs.map (·.1)) d (w / 32) none f (h f))
        ∧ (∀ a, a.id ≠ s.sel.2 → g a = a) ∧ (∀ a, a.id = s.sel.2 → Frame.Wrote (rs.map (·.1)) d (w / 32) a (g a)) := by
      intro d hv ho he
      refine ⟨id, id, s.bad, by rw [he]; simp, fun _ h => h, fun f => ⟨fun _ => rfl, rfl, fun _ _ => rfl, fun _ => rfl, fun r h => absurd h (ho r)⟩,
        fun _ _ => rfl, fun a _ => ⟨rfl, fun _ => rfl, fun r h => absurd h (hv r)⟩⟩
    cases d with
    | v r =>
      let vs := fun i => rs.map (fun x => (x.1, wordAt x.2 i))
      refine ⟨id, fun a => if a.id = s.sel.2 then (List.range (w / 32)).foldl (fun fr i => fr.writeReg (s.q.memberLanes s.sel.2) (r + i) (vs i)) a else a,
        s.bad.filter (fun c => rs.isEmpty || !(List.range (w / 32)).any (fun i => c == .reg s.q.uid s.sel.2 (r + i))), ?_, ?_, ?_, ?_, ?_⟩
      · simp [State.writeLanes, Quire.modFrame, vs]
      · intro c hc; exact (List.mem_filter.mp hc).1
      · intro f; exact ⟨fun _ => rfl, rfl, fun _ _ => rfl, fun _ => rfl, fun r h => by cases h⟩
      · intro a ha; dsimp only; rw [if_neg ha]
      · intro a ha; dsimp only; rw [if_pos ha]
        obtain ⟨kvs, tags, he, hk, ht⟩ := Frame.writeRegs_sets (s.q.memberLanes s.sel.2) r (w / 32) vs a
        rw [he]
        refine ⟨rfl, fun hn => absurd rfl (hn r), fun r' hr => ?_⟩
        cases hr
        refine ⟨kvs, tags, fun x hx => ?_, rfl, ht, rfl⟩
        obtain ⟨i, hi, y, hy, he⟩ := hk x hx
        obtain ⟨z, hz, rfl⟩ := List.mem_map.mp hy
        exact ⟨i, hi, z.1, List.mem_map.mpr ⟨z, hz, rfl⟩, he⟩
    | o r =>
      refine ⟨_, id, s.bad.filter (fun c => !rs.any (fun x => (List.range (w / 32)).any (fun i => c == .oreg s.q.uid x.1 (r + i)))), ?_,
        fun c hc => (List.mem_filter.mp hc).1, fun f => Fibre.wrote_o rs r (w / 32) f, fun _ _ => rfl,
        fun a _ => ⟨rfl, fun _ => rfl, fun r h => by cases h⟩⟩
      rw [List.map_id]; rfl
    | latch m => exact same (by simp) (by simp) rfl
    | lane => exact same (by simp) (by simp) rfl
    | s n => exact same (by simp) (by simp) rfl
    | zero => exact same (by simp) (by simp) rfl
    | reserved => exact same (by simp) (by simp) rfl
  cases l with
  | none => exact key
  | some l =>
    obtain ⟨h, g, bad, he, hb, hf, h1, h2⟩ := key
    refine ⟨fun f => match rs.find? (fun x => x.1 = (h f).lane) with | some x => (h f).setLatch l (BitVec.ofNat 64 x.2) | none => h f, g, bad,
      ?_, hb, fun f => Fibre.wrote_latch rs d (w / 32) l f (h f) (hf f), h1, h2⟩
    have : s.writeLanes d w (some l) rs = (s.writeLanes d w none rs).mapFibres (fun f =>
        match rs.find? (fun x => x.1 = f.lane) with | some x => f.setLatch l (BitVec.ofNat 64 x.2) | none => f) := rfl
    rw [this, he]
    simp [State.mapFibres, Function.comp_def]

end Sys2Proof.Machine
end

