-- ==== Sys2Proof/Laws/Signature.lean ====
section
/-! SUPPORT. An ML-DSA-65 signature that verifies (R15): under the key of zeros the challenge does not enter the equation, so that a
signature of any image can be written down. -/

set_option Elab.async false

namespace Sys2Proof.Machine

/-- Five polynomials of zeros, as a signature encodes them, and no hints. -/
def zPart : List Byte := (List.replicate 640 [(0x00 : Byte), 0x00, 0x08, 0x00, 0x80]).flatten ++ List.replicate 61 0
/-- The key of zeros. -/
def zeroKey : List Byte := List.replicate 1952 0

theorem ntt_length (n : Nat) : ∀ (m k : Nat) (xs : List Nat), xs.length = 2 ^ n * k → (ntt n m xs).length = xs.length := by
  induction n with
  | zero => intro m k xs _; rfl
  | succ n ih =>
    intro m k xs h
    have hh : xs.length / 2 = 2 ^ n * k := by rw [h, Nat.pow_succ, Nat.mul_right_comm]; omega
    have hx : xs.length - 2 ^ n * k = 2 ^ n * k := by rw [h, Nat.pow_succ, Nat.mul_right_comm]; omega
    have hl : (xs.take (xs.length / 2)).length = 2 ^ n * k := by rw [List.length_take, hh]; omega
    have hr : (xs.drop (xs.length / 2)).length = 2 ^ n * k := by rw [List.length_drop, hh, hx]
    unfold ntt
    rw [List.length_append, ih _ k, ih _ k]
    all_goals simp only [List.length_map, List.length_zip, hl, hr, Nat.min_self]
    omega

theorem sampleBall_length (c : List Byte) : (sampleBall c).length = 256 := by
  unfold sampleBall
  dsimp only
  suffices ∀ (ks : List Nat) (a : List Nat × List Byte) (s : Nat), a.1.length = 256 → (ks.foldl (fun (a : List Nat × List Byte) k =>
      let i := 207 + k
      let rest := a.2.dropWhile (fun b => i < b.toNat)
      let j := (rest.headD 0).toNat
      ((a.1.set i (a.1.getD j 0)).set j (if s.testBit k then dsaQ - 1 else 1), rest.drop 1)) a).1.length = 256 from
    this _ _ _ List.length_replicate
  intro ks
  induction ks with
  | nil => intro a s h; exact h
  | cons k ks ih => intro a s h; exact ih _ s (by simpa using h)

theorem polyMul_zeros (n : Nat) : ∀ x : List Nat, x.length = n → polyMul x (List.replicate n 0) = List.replicate n 0 := by
  induction n with
  | zero => intro x h; rw [List.length_eq_zero_iff.mp h]; rfl
  | succ n ih =>
    intro x h
    cases x with
    | nil => cases h
    | cons a x => simpa [polyMul, List.replicate_succ] using ih x (by simpa using h)

theorem challenge_out (c : List Byte) : polyMul (nttOf (sampleBall c)) (List.replicate 256 0) = List.replicate 256 0 :=
  polyMul_zeros 256 _ (by unfold nttOf; rw [ntt_length 8 1 1 _ (sampleBall_length c), sampleBall_length])

theorem zero_key_row : ∀ r ∈ List.range 6,
    nttOf ((bitFields 10 256 ((zeroKey.drop (32 + 320 * r)).take 320)).map (fun x => x * 8192 % dsaQ)) = List.replicate 256 0 := by
  decide +kernel

theorem zPart_polys : (List.range 5).map (fun i => bitFields 20 256 ((zPart.drop (640 * i)).take 640)) = List.replicate 5 (List.replicate 256 524288) := by
  decide +kernel

theorem zPart_hints : hintRows (zPart.drop 3200) = some (List.replicate 6 []) := by decide +kernel

theorem zero_key_w1 (zs hs : List (List Nat)) (a b : List Byte) : dsaW1 zeroKey zs hs (sampleBall a) = dsaW1 zeroKey zs hs (sampleBall b) := by
  unfold dsaW1; dsimp only
  refine congrArg _ (List.map_congr_left (fun r hr => ?_))
  rw [zero_key_row r hr, challenge_out, challenge_out]

theorem zPart_length : zPart.length = 3261 := by decide +kernel
theorem zeroKey_length : zeroKey.length = 1952 := by decide +kernel
theorem zPart_bound : (List.replicate 5 (List.replicate 256 524288)).all (fun z => z.all (fun x => decide (196 < x ∧ x < 1048380))) = true := by
  decide +kernel

/-- What the signature equation says under the key of zeros. -/
theorem dsaVerify_zero (msg c : List Byte) (hc : c.length = 48) :
    dsaVerify zeroKey msg (c ++ zPart) = (shake256 (shake256 (shake256 zeroKey 64 ++ [0, 0] ++ msg) 64
      ++ dsaW1 zeroKey (List.replicate 5 (List.replicate 256 524288)) (List.replicate 6 []) (sampleBall [])) 48 == c) := by
  have hd : ∀ i, (c ++ zPart).drop (48 + i) = zPart.drop i := fun i => by rw [← hc, List.drop_length_add_append]
  have hz : (List.range 5).map (fun i => bitFields 20 256 (((c ++ zPart).drop (48 + 640 * i)).take 640))
      = List.replicate 5 (List.replicate 256 524288) := by
    rw [← zPart_polys]; exact List.map_congr_left (fun i _ => by rw [hd])
  have hn : ¬ (zeroKey.length ≠ 1952 ∨ (c ++ zPart).length ≠ 3309) := by rw [List.length_append, hc, zPart_length, zeroKey_length]; simp
  have ht : (c ++ zPart).take 48 = c := by rw [← hc, List.take_left]
  have hh : hintRows ((c ++ zPart).drop 3248) = some (List.replicate 6 []) := (congrArg hintRows (hd 3200)).trans zPart_hints
  unfold dsaVerify
  rw [if_neg hn, hh]
  dsimp only
  rw [hz, ht, zPart_bound, Bool.true_and, zero_key_w1 _ _ c []]

theorem shake256_length (bs : List Byte) (n : Nat) : (shake256 bs n).length = n := by
  have : ∀ (k : Nat) (x : BitVec 1600), (squeeze 136 k x).length = 136 * k := by
    intro k
    induction k with
    | zero => intro x; rfl
    | succ k ih => intro x; rw [squeeze, List.length_append, ih]; simp; omega
  unfold shake256 Sponge.output
  rw [List.length_take, this]; omega

/-- A signature of an image that the key of zeros verifies. -/
def zeroSig (msg : List Byte) : List Byte :=
  shake256 (shake256 (shake256 zeroKey 64 ++ [0, 0] ++ msg) 64
      ++ dsaW1 zeroKey (List.replicate 5 (List.replicate 256 524288)) (List.replicate 6 []) (sampleBall [])) 48 ++ zPart

theorem zeroSig_verifies (msg : List Byte) : dsaVerify zeroKey msg (zeroSig msg) = true :=
  (dsaVerify_zero msg _ (shake256_length _ _)).trans (beq_self_eq_true _)

end Sys2Proof.Machine
end

