-- ==== Sys2Proof/Safety.lean ====
section
/-! DEFINITION. What a run is, and when it is safe: no step of it stops. -/

namespace Sys2Proof

open Sys2Proof.Machine

/-- The states that steps lead to from a state. -/
inductive Reaches (s : State) : State → Prop where
  | here : Reaches s s
  | next {t u : State} : Reaches s t → step t = .next u → Reaches s u

/-- A run from a state never ends in a fault or a refusal. -/
def Safe (s : State) : Prop := ∀ t, Reaches s t → ∃ u, step t = .next u

end Sys2Proof
end

