-- ==== Sys2Proof/Tests/Slice0.lean ====
section
/-! SUPPORT. Checks of this package's own work, in three parts. The words: for every constructor that is an
instruction word, one word written out from the encoding maps of spec/ (R60, R61) reads as that instruction,
is well formed, and is what the encoder writes; ill-formed terms, one for each modifier check, which `wf`
refuses. The witnesses: for every statement of Certificates/Slice0/Obligations.lean that has hypotheses, a
state and operands that meet all of them. The steps: single effects on a small state. -/

namespace Sys2Proof.Tests
set_option Elab.async false
open Sys2Proof Sys2Proof.Machine Sys2Proof.Claims

/-- Fields of a short form with guard 2 negated. -/
def sf (d a b : Nat) : SF := ⟨2, true, BitVec.ofNat 6 d, BitVec.ofNat 6 a, BitVec.ofNat 6 b⟩
def s567 : SF := sf 5 6 7
def s000 : SF := sf 0 0 0
/-- Fields of a long form with guard 2 negated. -/
def lf (modh modl d a b c : Nat) : LF :=
  ⟨2, true, BitVec.ofNat 8 modh, BitVec.ofNat 7 modl, BitVec.ofNat 8 d, BitVec.ofNat 8 a, BitVec.ofNat 8 b, BitVec.ofNat 8 c⟩
def l5678 : LF := lf 0 0 5 6 7 8
/-- Fields of a long-immediate form with guard 2 negated. -/
def lim (d a modi imm : Nat) : IF := ⟨2, true, BitVec.ofNat 6 d, BitVec.ofNat 6 a, BitVec.ofNat 4 modi, BitVec.ofNat 32 imm⟩
def i56 : IF := lim 5 6 0 0x1234

/-- Every word of a list reads as the instruction beside it, which is well formed, and is the word the encoder writes. -/
noncomputable def allRead (xs : List (Word × Word × Instr)) : Bool :=
  xs.all (fun x => decide (parse x.1 x.2.1 = some x.2.2) && x.2.2.wf
    && decide (encode x.2.2 = some (x.1, if isLong x.1 then some x.2.1 else none)))


theorem test_words_integer_short : allRead
    [(0x0051461C, 0, .addLS s567), (0x0251461C, 0, .subLS s567), (0x0451461C, 0, .mulLS s567), (0x0851461C, 0, .divLS s567),
     (0x0A51461C, 0, .remLS s567), (0x0C51461C, 0, .minLS s567), (0x0E51461C, 0, .maxLS s567), (0x1051461C, 0, .andLS s567),
     (0x1051461D, 0, .orLS s567), (0x1051461E, 0, .xorLS s567), (0x1051461F, 0, .andnLS s567), (0x1251461C, 0, .notLS s567),
     (0x1251461D, 0, .negLS s567), (0x1251461E, 0, .absLS s567), (0x1451461C, 0, .shlLS s567), (0x1451461D, 0, .shrLS s567),
     (0x1451461E, 0, .sarLS s567), (0x1451461F, 0, .rotLS s567), (0x1651461C, 0, .clzLS s567), (0x1651461D, 0, .ctzLS s567)] = true
    ∧ allRead [(0x1651461E, 0, .popcLS s567), (0x1651461F, 0, .brevLS s567), (0x1851461C, 0, .bfxLS s567), (0x1A51461C, 0, .cmpLS s567),
     (0x1E51461C, 0, .movLS s567)] = true := by decide +kernel

theorem test_words_integer_long : allRead
    [(0x01500000, 0x05060708, .addLL l5678), (0x03500000, 0x05060708, .subLL l5678),
     (0x05500104, 0x05060708, .mulLL (lf 1 4 5 6 7 8)), (0x07500000, 0x05060708, .madLL l5678),
     (0x09500000, 0x05060708, .divLL l5678), (0x0B500000, 0x05060708, .remLL l5678), (0x0D500000, 0x05060708, .minLL l5678),
     (0x0F500000, 0x05060708, .maxLL l5678), (0x11500000, 0x05060708, .andLL l5678), (0x11510000, 0x05060708, .orLL l5678),
     (0x11520000, 0x05060708, .xorLL l5678), (0x11530000, 0x05060708, .andnLL l5678), (0x13500000, 0x05060708, .notLL l5678),
     (0x13510008, 0x05060708, .negLL (lf 0 8 5 6 7 8)), (0x13520000, 0x05060708, .absLL l5678),
     (0x15500000, 0x05060708, .shlLL l5678), (0x15510000, 0x05060708, .shrLL l5678), (0x15520000, 0x05060708, .sarLL l5678),
     (0x15530000, 0x05060708, .rotLL l5678), (0x17500000, 0x05060708, .clzLL l5678)] = true
    ∧ allRead [(0x17510000, 0x05060708, .ctzLL l5678), (0x17520000, 0x05060708, .popcLL l5678), (0x17530000, 0x05060708, .brevLL l5678),
     (0x19500000, 0x05060708, .bfxLL l5678), (0x19510000, 0x05060708, .bfiLL l5678),
     (0x1B500101, 0x05060708, .cmpLL (lf 1 1 5 6 7 8)), (0x1D500000, 0x05060708, .selLL l5678),
     (0x1F500000, 0x05060708, .movLL l5678)] = true := by decide +kernel

theorem test_words_integer_imm : allRead (
    [(0x01514689, 0x00001234, .addLI (lim 5 6 9 0x1234)), (0x03514680, 0x00001234, .subLI i56),
     (0x05514680, 0x00001234, .mulLI i56), (0x09514680, 0x00001234, .divLI i56), (0x0B514680, 0x00001234, .remLI i56),
     (0x0D514680, 0x00001234, .minLI i56), (0x0F514680, 0x00001234, .maxLI i56), (0x11514680, 0x00001234, .andLI i56),
     (0x11514690, 0x00001234, .orLI i56), (0x115146A0, 0x00001234, .xorLI i56), (0x115146B0, 0x00001234, .andnLI i56),
     (0x15514680, 0x00001234, .shlLI i56), (0x15514690, 0x00001234, .shrLI i56), (0x155146A0, 0x00001234, .sarLI i56),
     (0x155146B0, 0x00001234, .rotLI i56), (0x19514680, 0x00001234, .bfxLI i56),
     (0x1B514682, 0x00001234, .cmpLI (lim 5 6 2 0x1234)), (0x1F514693, 0x00001234, .moviLI (lim 5 6 3 0x1234))]) = true := by decide +kernel

theorem test_words_float_short : allRead
    [(0x2051461C, 0, .faddLS s567), (0x2251461C, 0, .fsubLS s567), (0x2451461C, 0, .fmulLS s567),
     (0x2851461C, 0, .fdivLS s567), (0x2A51461C, 0, .fsqrtLS s567), (0x2C51461C, 0, .fminLS s567),
     (0x2C51461D, 0, .fmaxLS s567), (0x2C51461E, 0, .fminnLS s567), (0x2C51461F, 0, .fmaxnLS s567),
     (0x2E51461C, 0, .fabsLS s567), (0x2E51461D, 0, .fnegLS s567), (0x2E51461E, 0, .fcpysLS s567),
     (0x3051461C, 0, .fcmpLS s567), (0x3251461C, 0, .fclassLS s567), (0x3651461C, 0, .fcvtiLS s567),
     (0x3651461D, 0, .icvtfLS s567), (0x3851461C, 0, .frintLS s567), (0x3A51461C, 0, .fexpiLS s567),
     (0x3A51461D, 0, .fexpxLS s567), (0x3C51461C, 0, .fexp2fLS s567)] = true
    ∧ allRead [(0x3C51461D, 0, .flog2fLS s567), (0x3C51461E, 0, .fsinpifLS s567), (0x3C51461F, 0, .fcospifLS s567),
     (0x3E51461C, 0, .fseedrLS s567), (0x3E51461D, 0, .fseedqLS s567)] = true := by decide +kernel

theorem test_words_float_long : allRead
    [(0x21500000, 0x05060708, .faddLL l5678), (0x23500000, 0x05060708, .fsubLL l5678),
     (0x25500000, 0x05060708, .fmulLL l5678), (0x27500310, 0x05060708, .fmaLL (lf 3 16 5 6 7 8)),
     (0x29500000, 0x05060708, .fdivLL l5678), (0x2B500000, 0x05060708, .fsqrtLL l5678),
     (0x2D500000, 0x05060708, .fminLL l5678), (0x2D510000, 0x05060708, .fmaxLL l5678),
     (0x2D520000, 0x05060708, .fminnLL l5678), (0x2D530000, 0x05060708, .fmaxnLL l5678),
     (0x2D540000, 0x05060708, .fminmLL l5678), (0x2D550000, 0x05060708, .fmaxmLL l5678),
     (0x2F500000, 0x05060708, .fabsLL l5678), (0x2F510000, 0x05060708, .fnegLL l5678),
     (0x2F520000, 0x05060708, .fcpysLL l5678), (0x31500501, 0x05060708, .fcmpLL (lf 5 1 5 6 7 8)),
     (0x33500000, 0x05060708, .fclassLL l5678), (0x35503008, 0x05060708, .fcvtLL (lf 48 8 5 6 7 8)),
     (0x37500428, 0x05060708, .fcvtiLL (lf 4 40 5 6 7 8)), (0x37510000, 0x05060708, .icvtfLL l5678)] = true
    ∧ allRead [(0x39500102, 0x05060708, .frintLL (lf 1 2 5 6 7 8)), (0x3B500000, 0x05060708, .fexpiLL l5678),
     (0x3B510000, 0x05060708, .fexpxLL l5678), (0x3D500000, 0x05060708, .fexp2fLL l5678),
     (0x3D510000, 0x05060708, .flog2fLL l5678), (0x3D520000, 0x05060708, .fsinpifLL l5678),
     (0x3D530000, 0x05060708, .fcospifLL l5678), (0x3F500000, 0x05060708, .fseedrLL l5678),
     (0x3F510000, 0x05060708, .fseedqLL l5678)] = true := by decide +kernel

theorem test_words_float_imm : allRead (
    [(0x21514688, 0x3F800000, .faddLI (lim 5 6 8 0x3F800000)), (0x23514680, 0x00001234, .fsubLI i56),
     (0x25514680, 0x00001234, .fmulLI i56), (0x2D514680, 0x00001234, .fminLI i56), (0x2D514690, 0x00001234, .fmaxLI i56),
     (0x2D5146A0, 0x00001234, .fminnLI i56), (0x2D5146B0, 0x00001234, .fmaxnLI i56), (0x2D5146C0, 0x00001234, .fminmLI i56),
     (0x2D5146D0, 0x00001234, .fmaxmLI i56), (0x31514680, 0x00001234, .fcmpLI i56), (0x3B514680, 0x00001234, .fexpiLI i56)]) = true := by decide +kernel

theorem test_words_memory_and_exchange : allRead
    [(0x4051461D, 0, .ldLS s567 1), (0x41500D4B, 0x05060708, .ldLL (lf 13 75 5 6 7 8)),
     (0x41514685, 0x00001234, .ldLI (lim 5 6 5 0x1234)), (0x4251461D, 0, .stLS s567 1), (0x43500000, 0x05060708, .stLL l5678),
     (0x43514680, 0x00001234, .stLI i56), (0x4451461D, 0, .ldsLS s567 1), (0x4550100C, 0x05060708, .ldsLL (lf 16 12 5 6 7 8)),
     (0x45514680, 0x00001234, .ldsLI i56), (0x4651461D, 0, .stsLS s567 1), (0x47500000, 0x05060708, .stsLL l5678),
     (0x47514680, 0x00001234, .stsLI i56), (0x4851461C, 0, .prefLS s567),
     (0x49500368, 0x05060708, .prefLL (lf 3 104 5 6 7 8)), (0x4851461D, 0, .dscLS s567),
     (0x49510000, 0x05060708, .dscLL l5678), (0x4851461E, 0, .cwbLS s567), (0x49520060, 0x05060708, .cwbLL (lf 0 96 5 6 7 8)),
     (0x4B500340, 0x05060708, .atomLL (lf 3 64 5 6 7 8)), (0x4D502460, 0x05060708, .casLL (lf 36 96 5 6 7 8))] = true
    ∧ allRead [(0x4F500244, 0x05060708, .redLL (lf 2 68 5 6 7 8)), (0x5051461D, 0, .shflLS s567 1),
     (0x51500032, 0x05060708, .shflLL (lf 0 50 5 6 7 8)), (0x51514686, 0x00001234, .shflLI (lim 5 6 6 0x1234)),
     (0x53500000, 0x05060708, .voteLL l5678), (0x5251461D, 0, .bcastLS s567), (0x53510000, 0x05060708, .bcastLL l5678),
     (0x5451461C, 0, .lidLS s567), (0x55500000, 0x05060708, .lidLL l5678), (0x5451461D, 0, .vtagLS s567),
     (0x55510000, 0x05060708, .vtagLL l5678), (0x5651461D, 0, .addrLS s567 1), (0x57500000, 0x05060708, .addrLL l5678),
     (0x57514680, 0x00001234, .addrLI i56)] = true := by decide +kernel

theorem test_words_control_and_bands : allRead (
    [(0x59514680, 0xFFFFFFE8, .braLI (lim 5 6 0 0xFFFFFFE8)), (0x5B514680, 0x00000018, .gatherLI (lim 5 6 0 0x18)),
     (0x5D514680, 0x00000040, .fspawnLI (lim 5 6 0 0x40)), (0x5E500000, 0, .fexitLS s000),
     (0x61514680, 0x00000080, .callLI (lim 5 6 0 0x80)), (0x62500000, 0, .retLS s000),
     (0x65514680, 0x00000020, .fmarkLI (lim 5 6 0 0x20)), (0x64500001, 0, .unwindLS s000), (0x66500600, 0, .brxLS (sf 0 6 0)),
     (0x67500000, 0x00060000, .brxLL (lf 0 0 0 6 0 0)), (0x69502A03, 0x05060708, .icvtLL (lf 42 3 5 6 7 8)),
     (0x69514680, 0x00000905, .icvtLI (lim 5 6 0 0x905)), (0x6B501320, 0x05060000, .mreadLL (lf 19 32 5 6 0 0)),
     (0x6D502F00, 0x05060000, .mwriteLL (lf 47 0 5 6 0 0)), (0x6F50000B, 0x05060000, .mtkreadLL (lf 0 11 5 6 0 0))]) = true := by decide +kernel

theorem test_words_uniform_short : allRead
    [(0x8051461C, 0, .saddUS s567), (0x8251461C, 0, .ssubUS s567), (0x8451461C, 0, .smulUS s567),
     (0x8651461C, 0, .sdivUS s567), (0x8651461D, 0, .sremUS s567), (0x8851461C, 0, .sminUS s567),
     (0x8851461D, 0, .smaxUS s567), (0x8A51461C, 0, .sandUS s567), (0x8A51461D, 0, .sorUS s567),
     (0x8A51461E, 0, .sxorUS s567), (0x8A51461F, 0, .sandnUS s567), (0x8C51461C, 0, .sshlUS s567),
     (0x8C51461D, 0, .sshrUS s567), (0x8C51461E, 0, .ssarUS s567), (0x8C51461F, 0, .srotUS s567),
     (0x8E51461C, 0, .sclzUS s567), (0x8E51461D, 0, .sctzUS s567), (0x8E51461E, 0, .spopcUS s567),
     (0x9051461C, 0, .scmpUS s567), (0x9451461C, 0, .smovUS s567)] = true
    ∧ allRead [(0x9651461C, 0, .sgetUS s567), (0x9651461D, 0, .sbfxUS s567), (0x9851461C, 0, .sfaddUS s567),
     (0x9851461D, 0, .sfsubUS s567), (0x9A51461C, 0, .sfmulUS s567), (0x9C51461C, 0, .sfcmpUS s567),
     (0x9E51461C, 0, .sfdivUS s567), (0x9E51461D, 0, .sfsqrtUS s567)] = true := by decide +kernel

theorem test_words_uniform_long : allRead
    [(0x81500000, 0x05060708, .saddUL l5678), (0x83500000, 0x05060708, .ssubUL l5678),
     (0x85500000, 0x05060708, .smulUL l5678), (0x87500000, 0x05060708, .sdivUL l5678),
     (0x87510000, 0x05060708, .sremUL l5678), (0x89500000, 0x05060708, .sminUL l5678),
     (0x89510000, 0x05060708, .smaxUL l5678), (0x8B500000, 0x05060708, .sandUL l5678), (0x8B510000, 0x05060708, .sorUL l5678),
     (0x8B520000, 0x05060708, .sxorUL l5678), (0x8B530000, 0x05060708, .sandnUL l5678),
     (0x8D500000, 0x05060708, .sshlUL l5678), (0x8D510000, 0x05060708, .sshrUL l5678),
     (0x8D520000, 0x05060708, .ssarUL l5678), (0x8D530000, 0x05060708, .srotUL l5678),
     (0x8F500000, 0x05060708, .sclzUL l5678), (0x8F510000, 0x05060708, .sctzUL l5678),
     (0x8F520000, 0x05060708, .spopcUL l5678), (0x91500000, 0x05060708, .scmpUL l5678),
     (0x93500000, 0x05060708, .sselUL l5678)] = true
    ∧ allRead [(0x95500000, 0x05060708, .smovUL l5678), (0x97500000, 0x05060708, .sgetUL l5678),
     (0x97510000, 0x05060708, .sbfxUL l5678), (0x99500000, 0x05060708, .sfaddUL l5678),
     (0x99510000, 0x05060708, .sfsubUL l5678), (0x9B500000, 0x05060708, .sfmulUL l5678),
     (0x9B510000, 0x05060708, .sfmaUL l5678), (0x9D500000, 0x05060708, .sfcmpUL l5678),
     (0x9D510110, 0x05060708, .sfcvtUL (lf 1 16 5 6 7 8)), (0x9F500000, 0x05060708, .sfdivUL l5678),
     (0x9F510000, 0x05060708, .sfsqrtUL l5678)] = true := by decide +kernel

theorem test_words_uniform_imm : allRead
    [(0x81514680, 0x00001234, .saddUI i56), (0x83514680, 0x00001234, .ssubUI i56), (0x85514680, 0x00001234, .smulUI i56),
     (0x87514680, 0x00001234, .sdivUI i56), (0x87514690, 0x00001234, .sremUI i56), (0x89514680, 0x00001234, .sminUI i56),
     (0x89514690, 0x00001234, .smaxUI i56), (0x8B514680, 0x00001234, .sandUI i56), (0x8B514690, 0x00001234, .sorUI i56),
     (0x8B5146A0, 0x00001234, .sxorUI i56), (0x8B5146B0, 0x00001234, .sandnUI i56), (0x8D514680, 0x00001234, .sshlUI i56),
     (0x8D514690, 0x00001234, .sshrUI i56), (0x8D5146A0, 0x00001234, .ssarUI i56), (0x8D5146B0, 0x00001234, .srotUI i56),
     (0x91514680, 0x00001234, .scmpUI i56), (0x95514698, 0x00001234, .smoviUI (lim 5 6 8 0x1234)),
     (0x97514690, 0x00001234, .sbfxUI i56), (0x99514680, 0x00001234, .sfaddUI i56), (0x99514690, 0x00001234, .sfsubUI i56)] = true
    ∧ allRead [(0x9B514680, 0x00001234, .sfmulUI i56), (0x9D514680, 0x00001234, .sfcmpUI i56)] = true := by decide +kernel

theorem test_words_uniform_memory_and_engines : allRead
    [(0xA051461D, 0, .sldUS s567 1), (0xA1500000, 0x05060708, .sldUL l5678), (0xA1514680, 0x00001234, .sldUI i56),
     (0xA251461D, 0, .sstUS s567 1), (0xA3500000, 0x05060708, .sstUL l5678), (0xA3514680, 0x00001234, .sstUI i56),
     (0xA5506340, 0x05060708, .satomUL (lf 99 64 5 6 7 8)), (0xA5510000, 0x05060708, .scasUL l5678),
     (0xA750EA20, 0x00060700, .cpUL (lf 234 32 0 6 7 0)), (0xA9500300, 0x00060708, .cpmUL (lf 3 0 0 6 7 8)),
     (0xAA500600, 0, .twaitUS (sf 0 6 0)), (0xAB514680, 0x00000006, .twaitUI (lim 5 6 0 0x6)), (0xAA51461D, 0, .ttestUS s567),
     (0xAB514690, 0x00000006, .ttestUI (lim 5 6 0 0x6)), (0xAC51461C, 0, .cconnUS s567),
     (0xAD510200, 0x05060000, .tsendUL (lf 2 0 5 6 0 0)), (0xAD520000, 0x05060000, .trecvUL (lf 0 0 5 6 0 0)),
     (0xAE534000, 0, .fenceUS (sf 13 0 0)), (0xAE514601, 0, .xfenceUS (sf 5 6 0)), (0xB0500600, 0, .sgangUS (sf 0 6 0))] = true
    ∧ allRead [(0xB3500A6A, 0x05060708, .mmaUL (lf 10 106 5 6 7 8)), (0xB5500000, 0x05060708, .mdistUL l5678),
     (0xB750001B, 0x05060700, .mtopkUL (lf 0 27 5 6 7 0)), (0xB8514000, 0, .mzeroUS (sf 5 0 0)),
     (0xBA514001, 0, .mflagUS (sf 5 0 0) 1)] = true := by decide +kernel

theorem test_words_uniform_sync : allRead
    [(0xC0500001, 0, .barUS s000 1), (0xC2514000, 0, .barriveUS (sf 5 0 0)), (0xC2514001, 0, .bwaitUS (sf 5 0 0)),
     (0xC4500600, 0, .qinitUS (sf 0 6 0)), (0xC450061D, 0, .qallowUS (sf 0 6 7)), (0xC650061D, 0, .qpushUS (sf 0 6 7) 1),
     (0xC8514601, 0, .qpopUS (sf 5 6 0) 1), (0xCB500001, 0x00060000, .cinitUL (lf 0 1 0 6 0 0)),
     (0xCA51461D, 0, .cdropUS s567), (0xCC51461C, 0, .ctakeUS s567), (0xCD500001, 0x05060708, .ctakeUL (lf 0 1 5 6 7 8)),
     (0xCD514681, 0x00001234, .ctakeUI (lim 5 6 1 0x1234)), (0xCC51461D, 0, .cgiveUS s567),
     (0xCD510000, 0x05060708, .cgiveUL l5678), (0xCD514690, 0x00001234, .cgiveUI i56), (0xCE51461C, 0, .cexactUS s567),
     (0xD051461C, 0, .subscribeUS s567), (0xD1500000, 0x05060708, .subscribeUL l5678), (0xD0500601, 0, .unsubUS (sf 0 6 0)),
     (0xD2500600, 0, .sflushUS (sf 0 6 0))] = true
    ∧ allRead [(0xD4500600, 0, .carveUS (sf 0 6 0))] = true := by decide +kernel

theorem test_words_uniform_control_and_system : allRead
    [(0xD9514680, 0xFFFFFFF0, .sbrUI (lim 5 6 0 0xFFFFFFF0)), (0xDA500600, 0, .sjmpUS (sf 0 6 0)),
     (0xDA50061D, 0, .sbrxUS (sf 0 6 7)), (0xDD500100, 0x05060708, .slaunchUL (lf 1 0 5 6 7 8)),
     (0xDC500001, 0, .ssignalUS s000), (0xDE51461C, 0, .nopUS s567), (0xDE500001, 0, .pauseUS s000),
     (0xDE500002, 0, .yieldUS s000), (0xDE51461F, 0, .haltUS s567), (0xE050C000, 0, .sysUS (sf 3 0 0)),
     (0xE0504001, 0, .trapUS (sf 1 0 0)), (0xE2504600, 0, .fresumeUS (sf 1 6 0)), (0xE2508601, 0, .fkillUS (sf 2 6 0)),
     (0xE4514600, 0, .pmapUS (sf 5 6 0)), (0xE6515400, 0, .rdsrUS (sf 5 20 0)), (0xE6515201, 0, .wrsrUS (sf 5 18 0)),
     (0xE8500000, 0, .eretUS s000), (0xEA514600, 0, .msendUS (sf 5 6 0)), (0xEA514605, 0, .mrecvUS (sf 5 6 1)),
     (0xEC500600, 0, .ckbeginUS (sf 0 6 0))] = true
    ∧ allRead [(0xED510500, 0x00060000, .ckshardUL (lf 5 0 0 6 0 0)), (0xEC514602, 0, .ckcommitUS (sf 5 6 0)),
     (0xEE514600, 0, .linkctlStatus (sf 5 6 0)), (0xEE504601, 0, .tlbctlUS (sf 1 6 0))] = true := by decide +kernel

/-- No term of a list is well formed. -/
noncomputable def noneFormed (xs : List Instr) : Bool := xs.all (fun i => !i.wf)

/-! ## An ill-formed term for each check of WellFormed -/

theorem test_ill_formed_integer_long : noneFormed
    [.remLL (lf 1 0 5 6 7 8), .remLL (lf 0 8 5 6 7 8), .addLL (lf 1 0 5 6 7 8), .addLL (lf 0 16 5 6 7 8), .mulLL (lf 2 0 5 6 7 8),
     .mulLL (lf 0 64 5 6 7 8), .mulLL (lf 1 8 5 6 7 8), .negLL (lf 0 1 5 6 7 8), .absLL (lf 0 16 5 6 7 8), .cmpLL (lf 3 0 5 6 7 8),
     .cmpLL (lf 4 0 5 6 7 8), .cmpLL (lf 0 8 5 6 7 8), .cmpLL (lf 0 0 0x38 6 7 8), .selLL (lf 0 1 5 6 7 8), .movLL (lf 0 3 5 6 7 8),
     .shflLL (lf 0 8 5 6 7 8), .shflLL (lf 0 64 5 6 7 8), .shflLL (lf 0 4 5 6 7 8), .voteLL (lf 1 0 5 6 7 8), .lidLL (lf 0 1 5 6 7 8)] = true
    ∧ noneFormed [.icvtLL (lf 0 16 5 6 7 8), .icvtLL (lf 0x40 0 5 6 7 8), .icvtLL (lf 0x30 0 5 6 7 8), .icvtLL (lf 0x38 0 5 6 7 8)] = true := by
  decide +kernel

theorem test_ill_formed_float_long : noneFormed
    [.faddLL (lf 1 0 5 6 7 8), .faddLL (lf 0 64 5 6 7 8), .faddLL (lf 0 4 5 6 7 8), .faddLL (lf 0 0x28 5 6 7 8), .faddLL (lf 0 0x30 5 6 7 8),
     .fmaLL (lf 4 0 5 6 7 8), .fmaLL (lf 0 64 5 6 7 8), .fmaLL (lf 0 5 5 6 7 8), .fmaLL (lf 0 0x30 5 6 7 8), .fminLL (lf 0 6 5 6 7 8),
     .fminLL (lf 0 8 5 6 7 8), .fexpxLL (lf 0 4 5 6 7 8), .fseedrLL (lf 0 8 5 6 7 8), .fcmpLL (lf 8 0 5 6 7 8), .fcmpLL (lf 3 0 5 6 7 8),
     .fcmpLL (lf 0 8 5 6 7 8), .fcmpLL (lf 0 6 5 6 7 8), .sfcmpUL (lf 0 4 5 6 7 8), .frintLL (lf 2 0 5 6 7 8), .frintLL (lf 0 64 5 6 7 8)] = true
    ∧ noneFormed [.frintLL (lf 0 4 5 6 7 8), .frintLL (lf 0 0x28 5 6 7 8), .fcvtiLL (lf 8 0 5 6 7 8), .fcvtiLL (lf 0 64 5 6 7 8),
     .fcvtiLL (lf 0 4 5 6 7 8), .fcvtiLL (lf 0 0x38 5 6 7 8), .icvtfLL (lf 0 0x30 5 6 7 8), .fcvtLL (lf 0 1 5 6 7 8),
     .fcvtLL (lf 0 64 5 6 7 8), .fcvtLL (lf 8 0 5 6 7 8), .fcvtLL (lf 0x80 0 5 6 7 8), .fcvtLL (lf 0 0x30 5 6 7 8),
     .fcvtLL (lf 0x20 0x38 5 6 7 8), .sfcvtUL (lf 6 0 5 6 7 8)] = true := by
  decide +kernel

theorem test_ill_formed_memory_long : noneFormed
    [.ldLL (lf 0x10 0 5 6 7 8), .ldLL (lf 0x0F 0 5 6 7 8), .stLL (lf 1 0 5 6 7 8), .ldsLL (lf 0x20 0 5 6 7 8), .ldsLL (lf 8 0 5 6 7 8),
     .stsLL (lf 0 0x20 5 6 7 8), .addrLL (lf 1 0 5 6 7 8), .addrLL (lf 0 1 5 6 7 8), .addrLL (lf 0 0x20 5 6 7 8), .prefLL (lf 4 0 5 6 7 8),
     .prefLL (lf 0 1 5 6 7 8), .dscLL (lf 1 0 5 6 7 8), .dscLL (lf 0 8 5 6 7 8), .cwbLL (lf 1 0 5 6 7 8), .cwbLL (lf 0 1 5 6 7 8),
     .cwbLL (lf 0 8 5 6 7 8), .atomLL (lf 8 0 5 6 7 8), .atomLL (lf 1 0 5 6 7 8), .atomLL (lf 0 7 5 6 7 8), .atomLL (lf 0 6 5 6 7 8)] = true
    ∧ noneFormed [.atomLL (lf 0x30 4 5 6 7 8), .atomLL (lf 0x70 0 5 6 7 8), .atomLL (lf 0x90 0 5 6 7 8), .casLL (lf 0x80 0 5 6 7 8),
     .casLL (lf 8 0 5 6 7 8), .casLL (lf 2 0 5 6 7 8), .casLL (lf 0 4 5 6 7 8), .redLL (lf 8 0 5 6 7 8), .redLL (lf 1 0 5 6 7 8),
     .redLL (lf 0x60 0 5 6 7 8), .redLL (lf 0 6 5 6 7 8), .redLL (lf 0x30 5 5 6 7 8), .redLL (lf 1 0x20 5 6 7 8), .satomUL (lf 7 0x20 5 6 7 8),
     .cpUL (lf 0 1 0 6 7 0), .cpUL (lf 0 0 5 6 7 0), .cpUL (lf 0x20 0 0 6 7 0), .cpUL (lf 0 0 0 6 7 8), .tsendUL (lf 8 0 5 6 0 0),
     .tsendUL (lf 0 1 5 6 0 0), .trecvUL (lf 0 0 5 6 7 0), .trecvUL (lf 0 0 5 6 0 8)] = true := by
  decide +kernel

theorem test_ill_formed_engines_and_counters : noneFormed
    [.mmaUL (lf 0x10 0 5 6 7 8), .mtopkUL (lf 1 0 5 6 7 0), .mtopkUL (lf 0 0x20 5 6 7 0), .mtopkUL (lf 0 0 5 6 7 8), .mtopkUL (lf 0 0 5 5 7 0),
     .mreadLL (lf 0xC0 0 5 6 0 0), .mreadLL (lf 0 0x28 5 6 0 0), .mreadLL (lf 0 1 5 6 0 0), .mreadLL (lf 0 0 5 6 7 0),
     .mreadLL (lf 0 0 5 6 0 8), .mreadLL (lf 0 0x40 5 6 0 0), .mreadLL (lf 0xB0 8 5 6 0 0), .mwriteLL (lf 0xC0 0 5 6 0 0),
     .mwriteLL (lf 0 1 5 6 0 0), .mwriteLL (lf 0 0 5 6 7 0), .mtkreadLL (lf 1 0 5 6 0 0), .mtkreadLL (lf 0 16 5 6 0 0),
     .mtkreadLL (lf 0 0 5 6 7 0), .mzeroUS (sf 5 6 0), .mflagUS (sf 5 0 0) 2] = true
    ∧ noneFormed [.cinitUL (lf 1 0 0 6 0 0), .cinitUL (lf 0 2 0 6 0 0), .cinitUL (lf 0 0 5 6 0 0), .ctakeUL (lf 1 0 5 6 7 8), .ctakeUL (lf 0 2 5 6 7 8),
     .ctakeUI (lim 5 6 2 0), .cgiveUI (lim 5 6 1 0), .cgiveUL (lf 0 1 5 6 7 8), .subscribeUL (lf 1 0 5 6 7 8), .slaunchUL (lf 8 0 5 6 7 8),
     .ckshardUL (lf 0 0 5 6 0 0), .ckshardUL (lf 8 0 0 6 0 0), .brxLL (lf 0 0 5 6 0 0), .sselUL (lf 0 1 5 6 7 8)] = true := by
  decide +kernel

theorem test_ill_formed_immediate : noneFormed
    [.remLI (lim 5 6 8 0), .cmpLI (lim 5 6 8 0), .cmpLI (lim 0x38 6 0 0), .moviLI (lim 5 6 1 0), .moviLI (lim 5 6 8 0), .icvtLI (lim 5 6 0 0x4000),
     .icvtLI (lim 5 6 0 0x40), .icvtLI (lim 5 6 0 0x3000), .faddLI (lim 5 6 4 0), .faddLI (lim 5 6 2 0x10000), .fminLI (lim 5 6 6 0),
     .fminLI (lim 5 6 8 0), .fminLI (lim 5 6 4 0x100), .fexpiLI (lim 5 6 4 0), .addrLI (lim 5 6 1 0), .braLI (lim 5 6 1 0), .braLI (lim 5 6 0 2),
     .callLI (lim 0x21 6 0 0), .callLI (lim 0 6 0 0), .callLI (lim 1 6 1 0)] = true
    ∧ noneFormed [.fmarkLI (lim 5 6 2 0), .fmarkLI (lim 5 6 1 4), .fmarkLI (lim 5 6 0 1), .smoviUI (lim 5 6 2 0), .smoviUI (lim 5 6 9 0),
     .sfaddUI (lim 5 6 4 0), .sfcmpUI (lim 5 6 8 0), .twaitUI (lim 5 6 1 0), .ttestUI (lim 5 6 0 0x100)] = true := by
  decide +kernel

theorem test_ill_formed_short : noneFormed
    [.cmpLS (sf 0x38 6 7), .fexitLS (sf 1 0 0), .retLS (sf 0 1 0), .unwindLS (sf 0 0 1), .brxLS (sf 1 6 0), .brxLS (sf 0 6 1), .scmpUS (sf 0x38 6 7),
     .twaitUS (sf 1 6 0), .fenceUS (sf 0x20 0 0), .fenceUS (sf 7 0 0), .fenceUS (sf 0x18 0 0), .fenceUS (sf 0 1 0), .xfenceUS (sf 0x20 1 0),
     .xfenceUS (sf 1 0x20 0), .xfenceUS (sf 0 1 0), .xfenceUS (sf 1 0 0), .xfenceUS (sf 1 1 1), .sgangUS (sf 1 6 0), .barUS (sf 1 0 0) 0,
     .barUS s000 2] = true
    ∧ noneFormed [.barriveUS (sf 8 0 0), .bwaitUS (sf 8 0 0), .qinitUS (sf 1 6 0), .qallowUS (sf 1 6 7), .qpushUS (sf 1 6 7) 0, .qpushUS (sf 0 6 7) 2,
     .qpopUS (sf 5 6 1) 0, .unsubUS (sf 1 6 0), .sflushUS (sf 0 6 1), .carveUS (sf 1 6 0), .sjmpUS (sf 1 6 0), .sbrxUS (sf 1 6 7),
     .ssignalUS (sf 1 0 0), .pauseUS (sf 0 1 0), .yieldUS (sf 0 0 1)] = true
    ∧ noneFormed [.sysUS (sf 16 0 0), .sysUS (sf 3 1 0), .trapUS (sf 3 0 1), .fresumeUS (sf 2 6 0), .fkillUS (sf 3 6 0), .fkillUS (sf 4 6 0), .pmapUS s567,
     .rdsrUS (sf 5 9 0), .wrsrUS (sf 5 0x3F 0), .eretUS (sf 1 0 0), .msendUS s567, .mrecvUS (sf 5 6 2), .ckbeginUS (sf 1 6 0), .ckcommitUS s567,
     .linkctlPause s567, .tlbctlUS (sf 4 6 0)] = true := by
  decide +kernel


/-! ## Witnesses: states and operands that meet the hypotheses of the statements -/

/-- A machine with one supervisor folio, one quire and one fibre at address 0, on which a word is about to run. -/
def lab : State := State.reset.loaded (0, 0)

/-- A trap of a division by zero. -/
def aTrap : Trap := { code := 8, epc := 0 }

/-- Fields of a short form without a guard. -/
def sp (d a b : Nat) : SF := ⟨0, false, BitVec.ofNat 6 d, BitVec.ofNat 6 a, BitVec.ofNat 6 b⟩
def s246 : SF := sp 2 4 6
/-- Of a long form. -/
def lp (modh modl d a b c : Nat) : LF :=
  ⟨0, false, BitVec.ofNat 8 modh, BitVec.ofNat 7 modl, BitVec.ofNat 8 d, BitVec.ofNat 8 a, BitVec.ofNat 8 b, BitVec.ofNat 8 c⟩
def l2468 : LF := lp 0 0 2 4 6 8
/-- Of a long-immediate form. -/
def ip (d a modi imm : Nat) : IF := ⟨0, false, BitVec.ofNat 6 d, BitVec.ofNat 6 a, BitVec.ofNat 4 modi, BitVec.ofNat 32 imm⟩
def i24 : IF := ip 2 4 0 3

/-- What the checks of the statements' shapes look at, for given operands. -/
abbrev dArith (op : Nat) (third : Bool) (x : LArgs) : Desc :=
  laneWord op x (([.dst x.d 32, .src x.a 32] : List Use) ++ x.b.use 32 ++ (if third then [.src x.c 32] else []))
abbrev dBitwise (x : LArgs) : Desc := laneWord 0x08 x (([.dst x.d 32, .src x.a 32] : List Use) ++ x.b.use 32)
abbrev dUnary (x : LArgs) : Desc := laneWord 0x09 x [.dst x.d 32, .src x.a 32]
abbrev dShift (x : LArgs) : Desc := laneWord 0x0A x (([.dst x.d 32, .src x.a 32] : List Use) ++ x.b.use 32)
abbrev dCount (x : LArgs) : Desc := laneWord 0x0B x [.dst x.d 32, .src x.a 32]
abbrev dExtracts (x : LArgs) : Desc := laneWord 0x0C x (([.dst x.d 32, .src x.a 32] : List Use) ++ x.b.use 32)
abbrev dShuffles (x : LArgs) : Desc := laneWord 0x28 x (([.dst x.d 32, .src x.a 32] : List Use) ++ x.b.use 32)
abbrev dCompares (x : LArgs) : Desc := laneWord 0x0D x (([.below x.dn 64, .src x.a 32] : List Use) ++ x.b.use 32)
abbrev dArithU (op : Nat) (x : UArgs) : Desc := uniWord op x (([.sreg x.d, .sreg x.a] : List Use) ++ x.b.use 64)
abbrev dBitwiseU (x : UArgs) : Desc := uniWord 0x05 x (([.sreg x.d, .sreg x.a] : List Use) ++ x.b.use 64)
abbrev dShiftU (x : UArgs) : Desc := uniWord 0x06 x (([.sreg x.d, .sreg x.a] : List Use) ++ x.b.use 32)
abbrev dCountU (x : UArgs) : Desc := uniWord 0x07 x [.sreg x.d, .sreg x.a]
abbrev dExtractsU (x : UArgs) : Desc := uniWord 0x0B x (([.sreg x.d, .sreg x.a] : List Use) ++ x.b.use 32)
abbrev dComparesU (x : UArgs) : Desc := uniWord 0x08 x (([.below x.d 64, .sreg x.a] : List Use) ++ x.b.use 64)
abbrev dFloatWord (op : Nat) (k : FloatOp) (x : LArgs) : Desc :=
  { laneWord op x (([.dst x.d 32, .src x.a 32] : List Use) ++ (if k.binary then x.b.use 32 else [])
      ++ (match k with | .fma _ _ => [.src x.c 32] | _ => [])) with dyn := lab.dynOk 0 }
abbrev dFloatCompare (x : LArgs) : Desc := laneWord 0x18 x (([.below x.dn 64, .src x.a 32] : List Use) ++ x.b.use 32)
abbrev dFloatWordU (op : Nat) (k : FloatOp) (x : UArgs) : Desc :=
  { uniWord op x (([.sreg x.d, .sreg x.a] : List Use) ++ (if k.binary then x.b.use 64 else [])
      ++ (match k with | .fma _ _ => [.sreg x.c] | _ => [])) with dyn := lab.dynOk 0 }
abbrev dFloatCompareU (x : UArgs) : Desc := uniWord 0x0E x (([.below x.d 64, .sreg x.a] : List Use) ++ x.b.use 64)

/-- Every word of a list passes the checks beside it. -/
noncomputable def allPass (s : State) (xs : List (Instr × Desc)) : Bool := xs.all (fun x => decide (Passes x.1 x.2 s))


/-- LaneIntegers: its words pass their checks. -/
theorem witness_lane_integers : allPass lab
    [(.addLS s246, dArith 0x00 false (lsArgs s246)), (.subLS s246, dArith 0x01 false (lsArgs s246)),
     (.mulLS s246, dArith 0x02 false (lsArgs s246)), (.minLS s246, dArith 0x06 false (lsArgs s246)),
     (.maxLS s246, dArith 0x07 false (lsArgs s246)), (.addLL l2468, dArith 0x00 false (llArgs l2468)),
     (.subLL l2468, dArith 0x01 false (llArgs l2468)), (.mulLL l2468, dArith 0x02 false (llArgs l2468)),
     (.madLL l2468, dArith 0x03 true (llArgs l2468)), (.minLL l2468, dArith 0x06 false (llArgs l2468)),
     (.maxLL l2468, dArith 0x07 false (llArgs l2468)), (.addLI i24, dArith 0x00 false (liArgs i24)),
     (.subLI i24, dArith 0x01 false (liArgs i24)), (.mulLI i24, dArith 0x02 false (liArgs i24)),
     (.minLI i24, dArith 0x06 false (liArgs i24)), (.maxLI i24, dArith 0x07 false (liArgs i24))] = true
    ∧ allPass lab [(.andLS s246, dBitwise (lsArgs s246)), (.orLS s246, dBitwise (lsArgs s246)), (.xorLS s246, dBitwise (lsArgs s246)),
     (.andnLS s246, dBitwise (lsArgs s246)), (.notLS s246, dUnary (lsArgs s246)), (.negLS s246, dUnary (lsArgs s246)),
     (.absLS s246, dUnary (lsArgs s246)), (.andLL l2468, dBitwise (llArgs l2468)), (.orLL l2468, dBitwise (llArgs l2468)),
     (.xorLL l2468, dBitwise (llArgs l2468)), (.andnLL l2468, dBitwise (llArgs l2468)), (.notLL l2468, dUnary (llArgs l2468)),
     (.negLL l2468, dUnary (llArgs l2468)), (.absLL l2468, dUnary (llArgs l2468)), (.andLI i24, dBitwise (liArgs i24)),
     (.orLI i24, dBitwise (liArgs i24))] = true
    ∧ allPass lab [(.xorLI i24, dBitwise (liArgs i24)), (.andnLI i24, dBitwise (liArgs i24)), (.shlLS s246, dShift (lsArgs s246)),
     (.shrLS s246, dShift (lsArgs s246)), (.sarLS s246, dShift (lsArgs s246)), (.rotLS s246, dShift (lsArgs s246)),
     (.shlLL l2468, dShift (llArgs l2468)), (.shrLL l2468, dShift (llArgs l2468)), (.sarLL l2468, dShift (llArgs l2468)),
     (.rotLL l2468, dShift (llArgs l2468)), (.shlLI i24, dShift (rawImm (liArgs i24) i24)),
     (.shrLI i24, dShift (rawImm (liArgs i24) i24)), (.sarLI i24, dShift (rawImm (liArgs i24) i24)),
     (.rotLI i24, dShift (rawImm (liArgs i24) i24))] = true := by decide +kernel

/-- LaneFieldsAndCompares: its words pass their checks. -/
theorem witness_lane_fields_and_compares : allPass lab (
    [(.clzLS s246, dCount (lsArgs s246)), (.ctzLS s246, dCount (lsArgs s246)), (.popcLS s246, dCount (lsArgs s246)),
     (.bfxLS s246, dExtracts (lsArgs s246)), (.clzLL l2468, dCount (llArgs l2468)), (.ctzLL l2468, dCount (llArgs l2468)),
     (.popcLL l2468, dCount (llArgs l2468)), (.bfxLL l2468, dExtracts (llArgs l2468)),
     (.bfxLI i24, dExtracts (rawImm (liArgs i24) i24)), (.cmpLS s246, dCompares (lsArgs s246)),
     (.cmpLL l2468, dCompares (llArgs l2468)), (.cmpLI i24, dCompares (liArgs i24)),
     (.brevLS s246, laneWord 0x0B (lsArgs s246) [.dst (.v 2) 32, .src (.v 4) 32]),
     (.brevLL l2468, laneWord 0x0B (llArgs l2468) [.dst (.v 2) 32, .src (.v 4) 32]),
     (.bfiLL l2468, laneWord 0x0C (llArgs l2468) [.dst (.v 2) 32, .src (.v 4) 32, .src (.v 6) 32, .src (.v 8) 32])]) = true := by decide +kernel

/-- LaneMovement: its words pass their checks. -/
theorem witness_lane_movement : allPass lab (
    [(.shflLS s246 1, dShuffles (lsArgs s246)), (.shflLL l2468, dShuffles (llArgs l2468)),
     (.shflLI i24, dShuffles (rawImm (liArgs i24) i24)),
     (.movLS s246, laneWord 0x0F (lsArgs s246) [.dst (.v 2) 32, .src (.v 4) 32]),
     (.lidLS s246, laneWord 0x2A (lsArgs s246) [.dst (.v 2) 32]),
     (.vtagLS s246, laneWord 0x2A (lsArgs s246) [.dst (.v 2) 32, .src (.v 4) 32]),
     (.movLL l2468, laneWord 0x0F (llArgs l2468) [.dst (.v 2) 32, .src (.v 4) 32]),
     (.selLL l2468, laneWord 0x0E (llArgs l2468) [.dst (.v 2) 32, .src (.v 4) 32, .src (.v 6) 32, .below 8 16]),
     (.lidLL l2468, laneWord 0x2A (llArgs l2468) [.dst (.v 2) 32]),
     (.vtagLL l2468, laneWord 0x2A (llArgs l2468) [.dst (.v 2) 32, .src (.v 4) 32]),
     (.icvtLL l2468, laneWord 0x34 (llArgs l2468) [.dst (.v 2) 32, .src (.v 4) 32, .src (.v 6) 32]),
     (.moviLI i24, laneWord 0x0F (liArgs i24) [.dst (.v 2) 32]),
     (.icvtLI i24, laneWord 0x34 (liArgs i24) [.dst (.v 2) 32, .src (.v 4) 32]),
     (.bcastLS s246, laneWord 0x29 (lsArgs s246) [.dst (.v 2) 32, .src (.v 4) 32]),
     (.bcastLL l2468, laneWord 0x29 (llArgs l2468) [.dst (.v 2) 32, .src (.v 4) 32]),
     (.voteLL l2468, laneWord 0x29 (llArgs l2468) [.dst (.v 2) 32, .src (.v 4) 32])]) = true := by decide +kernel

/-- UniformIntegers: its words pass their checks. -/
theorem witness_uniform_integers : allPass lab
    [(.saddUS s246, dArithU 0x00 (usArgs s246)), (.ssubUS s246, dArithU 0x01 (usArgs s246)),
     (.smulUS s246, dArithU 0x02 (usArgs s246)), (.sminUS s246, dArithU 0x04 (usArgs s246)),
     (.smaxUS s246, dArithU 0x04 (usArgs s246)), (.sandUS s246, dBitwiseU (usArgs s246)),
     (.sorUS s246, dBitwiseU (usArgs s246)), (.sxorUS s246, dBitwiseU (usArgs s246)),
     (.sandnUS s246, dBitwiseU (usArgs s246)), (.saddUL l2468, dArithU 0x00 (ulArgs l2468)),
     (.ssubUL l2468, dArithU 0x01 (ulArgs l2468)), (.smulUL l2468, dArithU 0x02 (ulArgs l2468)),
     (.sminUL l2468, dArithU 0x04 (ulArgs l2468)), (.smaxUL l2468, dArithU 0x04 (ulArgs l2468)),
     (.sandUL l2468, dBitwiseU (ulArgs l2468)), (.sorUL l2468, dBitwiseU (ulArgs l2468))] = true
    ∧ allPass lab [(.sxorUL l2468, dBitwiseU (ulArgs l2468)), (.sandnUL l2468, dBitwiseU (ulArgs l2468)),
     (.saddUI i24, dArithU 0x00 (uiArgs i24)), (.ssubUI i24, dArithU 0x01 (uiArgs i24)),
     (.smulUI i24, dArithU 0x02 (uiArgs i24)), (.sminUI i24, dArithU 0x04 (uiArgs i24)),
     (.smaxUI i24, dArithU 0x04 (uiArgs i24)), (.sandUI i24, dBitwiseU (uiArgs i24)), (.sorUI i24, dBitwiseU (uiArgs i24)),
     (.sxorUI i24, dBitwiseU (uiArgs i24)), (.sandnUI i24, dBitwiseU (uiArgs i24)), (.sshlUS s246, dShiftU (usArgs s246)),
     (.sshrUS s246, dShiftU (usArgs s246)), (.ssarUS s246, dShiftU (usArgs s246)), (.srotUS s246, dShiftU (usArgs s246)),
     (.sclzUS s246, dCountU (usArgs s246))] = true
    ∧ allPass lab [(.sctzUS s246, dCountU (usArgs s246)), (.spopcUS s246, dCountU (usArgs s246)), (.sbfxUS s246, dExtractsU (usArgs s246)),
     (.sshlUL l2468, dShiftU (ulArgs l2468)), (.sshrUL l2468, dShiftU (ulArgs l2468)),
     (.ssarUL l2468, dShiftU (ulArgs l2468)), (.srotUL l2468, dShiftU (ulArgs l2468)),
     (.sclzUL l2468, dCountU (ulArgs l2468)), (.sctzUL l2468, dCountU (ulArgs l2468)),
     (.spopcUL l2468, dCountU (ulArgs l2468)), (.sbfxUL l2468, dExtractsU (ulArgs l2468)),
     (.sshlUI i24, dShiftU (rawImmU (uiArgs i24) i24)), (.sshrUI i24, dShiftU (rawImmU (uiArgs i24) i24)),
     (.ssarUI i24, dShiftU (rawImmU (uiArgs i24) i24)), (.srotUI i24, dShiftU (rawImmU (uiArgs i24) i24)),
     (.sbfxUI i24, dExtractsU (rawImmU (uiArgs i24) i24))] = true
    ∧ allPass lab [(.scmpUS s246, dComparesU (usArgs s246)), (.scmpUL l2468, dComparesU (ulArgs l2468)),
     (.scmpUI i24, dComparesU (uiArgs i24)), (.smovUS s246, uniWord 0x0A (usArgs s246) [.sreg 2, .sreg 4]),
     (.smovUL l2468, uniWord 0x0A (ulArgs l2468) [.sreg 2, .sreg 4]),
     (.sselUL l2468, uniWord 0x09 (ulArgs l2468) [.sreg 2, .sreg 4, .sreg 6, .below 8 16]),
     (.smoviUI i24, uniWord 0x0A (uiArgs i24) [.sreg 2]),
     (.sgetUS s246, uniWord 0x0B (usArgs s246) [.sreg 2, .src (.v 4) 32]),
     (.sgetUL l2468, uniWord 0x0B (ulArgs l2468) [.sreg 2, .src (.v 4) 32])] = true := by decide +kernel

/-- FloatWords: its words pass their checks. -/
theorem witness_float_words : allPass lab
    [(.faddLS s246, dFloatWord 0x10 .add (lsArgs s246)), (.fsubLS s246, dFloatWord 0x11 .sub (lsArgs s246)),
     (.fmulLS s246, dFloatWord 0x12 .mul (lsArgs s246)), (.fdivLS s246, dFloatWord 0x14 .div (lsArgs s246)),
     (.fsqrtLS s246, dFloatWord 0x15 .sqrt (lsArgs s246)), (.faddLL l2468, dFloatWord 0x10 .add (llArgs l2468)),
     (.fsubLL l2468, dFloatWord 0x11 .sub (llArgs l2468)), (.fmulLL l2468, dFloatWord 0x12 .mul (llArgs l2468)),
     (.fmaLL l2468, dFloatWord 0x13 (.fma false false) (llArgs l2468)), (.fdivLL l2468, dFloatWord 0x14 .div (llArgs l2468)),
     (.fsqrtLL l2468, dFloatWord 0x15 .sqrt (llArgs l2468)), (.faddLI i24, dFloatWord 0x10 .add (lfArgs .add i24)),
     (.fsubLI i24, dFloatWord 0x11 .sub (lfArgs .sub i24)), (.fmulLI i24, dFloatWord 0x12 .mul (lfArgs .mul i24)),
     (.fminLS s246, dFloatWord 0x16 (.minmax .min) (lsArgs s246)),
     (.fmaxLS s246, dFloatWord 0x16 (.minmax .max) (lsArgs s246))] = true
    ∧ allPass lab [(.fminnLS s246, dFloatWord 0x16 (.minmax .minn) (lsArgs s246)),
     (.fmaxnLS s246, dFloatWord 0x16 (.minmax .maxn) (lsArgs s246)), (.fabsLS s246, dFloatWord 0x17 .abs (lsArgs s246)),
     (.fnegLS s246, dFloatWord 0x17 .neg (lsArgs s246)), (.fcpysLS s246, dFloatWord 0x17 .cpys (lsArgs s246)),
     (.fclassLS s246, dFloatWord 0x19 .fclass (lsArgs s246)), (.fminLL l2468, dFloatWord 0x16 (.minmax .min) (llArgs l2468)),
     (.fmaxLL l2468, dFloatWord 0x16 (.minmax .max) (llArgs l2468)),
     (.fminnLL l2468, dFloatWord 0x16 (.minmax .minn) (llArgs l2468)),
     (.fmaxnLL l2468, dFloatWord 0x16 (.minmax .maxn) (llArgs l2468)),
     (.fminmLL l2468, dFloatWord 0x16 (.minmax .minm) (llArgs l2468)),
     (.fmaxmLL l2468, dFloatWord 0x16 (.minmax .maxm) (llArgs l2468)), (.fabsLL l2468, dFloatWord 0x17 .abs (llArgs l2468)),
     (.fnegLL l2468, dFloatWord 0x17 .neg (llArgs l2468)), (.fcpysLL l2468, dFloatWord 0x17 .cpys (llArgs l2468)),
     (.fclassLL l2468, dFloatWord 0x19 .fclass (llArgs l2468))] = true
    ∧ allPass lab [(.fminLI i24, dFloatWord 0x16 (.minmax .min) (lfArgs (.minmax .min) i24)),
     (.fmaxLI i24, dFloatWord 0x16 (.minmax .max) (lfArgs (.minmax .max) i24)),
     (.fminnLI i24, dFloatWord 0x16 (.minmax .minn) (lfArgs (.minmax .minn) i24)),
     (.fmaxnLI i24, dFloatWord 0x16 (.minmax .maxn) (lfArgs (.minmax .maxn) i24)),
     (.fminmLI i24, dFloatWord 0x16 (.minmax .minm) (lfArgs (.minmax .minm) i24)),
     (.fmaxmLI i24, dFloatWord 0x16 (.minmax .maxm) (lfArgs (.minmax .maxm) i24)),
     (.frintLS s246, dFloatWord 0x1C (.rint false) (lsArgs s246)), (.fexpiLS s246, dFloatWord 0x1D .expi (lsArgs s246)),
     (.fexpxLS s246, dFloatWord 0x1D .expx (lsArgs s246)), (.fexp2fLS s246, dFloatWord 0x1E (.frac .exp2) (lsArgs s246)),
     (.flog2fLS s246, dFloatWord 0x1E (.frac .log2) (lsArgs s246)),
     (.fsinpifLS s246, dFloatWord 0x1E (.frac .sinpi) (lsArgs s246)),
     (.fcospifLS s246, dFloatWord 0x1E (.frac .cospi) (lsArgs s246)), (.fseedrLS s246, dFloatWord 0x1F .seedr (lsArgs s246)),
     (.fseedqLS s246, dFloatWord 0x1F .seedq (lsArgs s246)), (.frintLL l2468, dFloatWord 0x1C (.rint false) (llArgs l2468))] = true
    ∧ allPass lab [(.fexpiLL l2468, dFloatWord 0x1D .expi (llArgs l2468)), (.fexpxLL l2468, dFloatWord 0x1D .expx (llArgs l2468)),
     (.fexp2fLL l2468, dFloatWord 0x1E (.frac .exp2) (llArgs l2468)),
     (.flog2fLL l2468, dFloatWord 0x1E (.frac .log2) (llArgs l2468)),
     (.fsinpifLL l2468, dFloatWord 0x1E (.frac .sinpi) (llArgs l2468)),
     (.fcospifLL l2468, dFloatWord 0x1E (.frac .cospi) (llArgs l2468)),
     (.fseedrLL l2468, dFloatWord 0x1F .seedr (llArgs l2468)), (.fseedqLL l2468, dFloatWord 0x1F .seedq (llArgs l2468)),
     (.fexpiLI i24, dFloatWord 0x1D .expi (lfArgs .expi i24))] = true := by decide +kernel

/-- FloatConversions: its words pass their checks. -/
theorem witness_float_conversions : allPass lab (
    [(.fcmpLS s246, dFloatCompare (lsArgs s246)), (.fcmpLL l2468, dFloatCompare (llArgs l2468)),
     (.fcmpLI i24, dFloatCompare (lfArgs .add i24)),
     (.fcvtiLS s246, laneWord 0x1B (lsArgs s246) [.dst (.v 2) 32, .src (.v 4) 32]),
     (.icvtfLS s246, laneWord 0x1B (lsArgs s246) [.dst (.v 2) 32, .src (.v 4) 32]),
     (.fcvtLL l2468, laneWord 0x1A (llArgs l2468) [.dst (.v 2) 32, .src (.v 4) 32]),
     (.fcvtiLL l2468, laneWord 0x1B (llArgs l2468) [.dst (.v 2) 32, .src (.v 4) 32]),
     (.icvtfLL l2468, laneWord 0x1B (llArgs l2468) [.dst (.v 2) 32, .src (.v 4) 32])]) = true := by decide +kernel

/-- UniformFloat: its words pass their checks. -/
theorem witness_uniform_float : allPass lab
    [(.sfaddUS s246, dFloatWordU 0x0C .add (usArgs s246)), (.sfsubUS s246, dFloatWordU 0x0C .sub (usArgs s246)),
     (.sfmulUS s246, dFloatWordU 0x0D .mul (usArgs s246)), (.sfdivUS s246, dFloatWordU 0x0F .div (usArgs s246)),
     (.sfsqrtUS s246, dFloatWordU 0x0F .sqrt (usArgs s246)), (.sfcmpUS s246, dFloatCompareU (usArgs s246)),
     (.sfaddUL l2468, dFloatWordU 0x0C .add (ulArgs l2468)), (.sfsubUL l2468, dFloatWordU 0x0C .sub (ulArgs l2468)),
     (.sfmulUL l2468, dFloatWordU 0x0D .mul (ulArgs l2468)),
     (.sfmaUL l2468, dFloatWordU 0x0D (.fma false false) (ulArgs l2468)),
     (.sfdivUL l2468, dFloatWordU 0x0F .div (ulArgs l2468)), (.sfsqrtUL l2468, dFloatWordU 0x0F .sqrt (ulArgs l2468)),
     (.sfcmpUL l2468, dFloatCompareU (ulArgs l2468)), (.sfaddUI i24, dFloatWordU 0x0C .add (ufArgs i24)),
     (.sfsubUI i24, dFloatWordU 0x0C .sub (ufArgs i24)), (.sfmulUI i24, dFloatWordU 0x0D .mul (ufArgs i24))] = true
    ∧ allPass lab [(.sfcmpUI i24, dFloatCompareU (ufArgs i24)), (.sfcvtUL l2468, uniWord 0x0E (ulArgs l2468) [.sreg 2, .sreg 4])] = true := by decide +kernel

/-- The machine with one v register of its fibre set. -/
def labV (r v : Nat) (s : State) : State := s.writeLanes (.v r) 32 none [(0, v)]
/-- With an s register set. -/
def labS (n : Nat) (v : DWord) (s : State) : State := s.setS n v
/-- With some enabled exceptions. -/
def labTrap (m : BitVec 5) (s : State) : State := { s with q := { s.q with ftrap := m } }
/-- With a 64 MiB page that user and supervisor may read and write at virtual address 0. -/
def labRW : State := lab.putBytes 0xC000 (leBytes 8 (0x4000 * 16 + 2))
/-- In user mode. -/
def labUser : State := lab.modFolio 2 (fun f => { f with sup := false })

/-- Divisions: the least value by -1, and by zero. -/
theorem witness_divides : let s := labV 6 0xFFFFFFFF (labV 4 0x80000000 lab)
    (∀ x ∈ [(0x04, Instr.divLS s246), (0x05, .remLS s246)], Passes x.2 (dArith x.1 false (lsArgs s246)) s)
    ∧ (∀ x ∈ [(0x04, Instr.divLL l2468), (0x05, .remLL l2468)], Passes x.2 (dArith x.1 false (llArgs l2468)) s)
    ∧ (∀ x ∈ [(0x04, Instr.divLI i24), (0x05, .remLI i24)], Passes x.2 (dArith x.1 false (liArgs i24)) s)
    ∧ (∀ g ∈ s.active 0 false, patVal ⟨32, true⟩ (s.arg g (.name (.v 6)) 32) ≠ 0)
    ∧ (∀ g ∈ s.active 0 false, patVal ⟨32, true⟩ (s.arg g (liArgs i24).b 32) ≠ 0) := by decide +kernel

theorem witness_division_by_zero :
    (∀ x ∈ [(0x04, Instr.divLS s246), (0x05, .remLS s246)], Passes x.2 (dArith x.1 false (lsArgs s246)) lab)
    ∧ (∀ x ∈ [(0x04, Instr.divLL l2468), (0x05, .remLL l2468)], Passes x.2 (dArith x.1 false (llArgs l2468)) lab)
    ∧ (∀ x ∈ [(0x04, Instr.divLI (ip 2 4 0 0)), (0x05, .remLI (ip 2 4 0 0))], Passes x.2 (dArith x.1 false (liArgs (ip 2 4 0 0))) lab)
    ∧ (lab.active 0 false).filter (fun f => patVal ⟨32, true⟩ (lab.arg f (.name (.v 6)) 32) = 0) ≠ []
    ∧ (lab.active 0 false).filter (fun f => patVal ⟨32, true⟩ (lab.arg f (liArgs (ip 2 4 0 0)).b 32) = 0) ≠ [] := by decide +kernel

theorem witness_uniform_division : allPass lab (
    [(.sdivUS s246, dArithU 0x03 (usArgs s246)), (.sremUS s246, dArithU 0x03 (usArgs s246)), (.sdivUL l2468, dArithU 0x03 (ulArgs l2468)),
     (.sremUL l2468, dArithU 0x03 (ulArgs l2468)), (.sdivUI i24, dArithU 0x03 (uiArgs i24)), (.sremUI i24, dArithU 0x03 (uiArgs i24))]) = true
    ∧ lab.kActive 0 false = true ∧ patVal (uniTy 0) (lab.uarg (.sreg 6) 64) = 0 ∧ patVal (uniTy 0) ((labS 6 3 lab).uarg (.sreg 6) 64) ≠ 0
    ∧ patVal (uniTy 0) (lab.uarg (uiArgs (ip 2 4 0 0)).b 64) = 0 ∧ patVal (uniTy 0) (lab.uarg (uiArgs i24).b 64) ≠ 0 := by decide +kernel

/-- A machine of two fibres, whose values of v4 are 0 in both or differ. -/
def lab2 : State := { lab with q := newQuire 3 2 0 0 0 28 2 0 }
def lab2A : State := lab2.writeLanes (.v 4) 32 none [(0, 1), (1, 6)]

/-- UniformIntegers: `sget` of a value that the batch agrees on, of one that it does not, and of the lane index. -/
theorem witness_sget : Passes (.sgetUS (sp 2 4 0)) (uniWord 0x0B (usArgs (sp 2 4 0)) [.sreg 2, .src (.v 4) 32]) lab2
    ∧ lab2.encv ≠ 1 ∧ lab2.frm.tag 4 = .u 0
    ∧ Passes (.sgetUS (sp 2 4 0)) (uniWord 0x0B (usArgs (sp 2 4 0)) [.sreg 2, .src (.v 4) 32]) lab2A
    ∧ lab2A.frm.tag 4 = .a 1 5 ∧ lab2A.kActive 0 false = true
    ∧ Passes (.sgetUS (sp 2 53 0)) (uniWord 0x0B (usArgs (sp 2 53 0)) [.sreg 2, .src .lane 32]) lab ∧ lab.batch.length = 1 := by
  decide +kernel

/-- FloatWords: 1 / 0 with no exception enabled, and with DZ enabled. -/
theorem witness_float_exceptions : let s := labV 4 0x3F800000 lab
    (∀ t ∈ [s, labTrap 0x1F s], Passes (.fdivLS s246) (dFloatWord 0x14 .div (lsArgs s246)) t)
    ∧ (∀ f ∈ s.active 0 false, (floatRes .div 0 (lsArgs s246) s f).2 &&& s.q.ftrap = 0)
    ∧ (∃ f ∈ s.active 0 false, ((floatRes .div 0 (lsArgs s246) (labTrap 0x1F s) f).2 &&& 0x1F).getLsbD 1 = true)
    ∧ (∀ f ∈ s.active 0 false, ((floatRes .div 0 (lsArgs s246) (labTrap 0x1F s) f).2 &&& 0x1F).getLsbD 0 = false) := by decide +kernel

/-- FloatConversions: a signalling NaN against 0 with no exception enabled, and with NV enabled; 2^31 to an integer. -/
theorem witness_conversion_exceptions : let s := labV 4 0x7F800001 lab
    (∀ f ∈ s.active 0 false, let r := fCmp 0 false ((fpar .f32).read (s.rd f (.v 4) 32)) ((fpar .f32).read (s.rd f (.v 6) 32))
      r.2 &&& s.q.ftrap = 0 ∧ (r.2 &&& (labTrap 1 s).q.ftrap).getLsbD 0 = true)
    ∧ Passes (.fcmpLS s246) (dFloatCompare (lsArgs s246)) s ∧ Passes (.fcmpLS s246) (dFloatCompare (lsArgs s246)) (labTrap 1 s)
    ∧ (fToInt ⟨32, true⟩ 0 ((fpar .f32).read 0x4F000000)).2.getLsbD 0 = true := by decide +kernel

/-- UniformFloat: under a false predicate, and 1 / 0 with no exception enabled and with DZ enabled. -/
theorem witness_uniform_float_exceptions : let s := labS 4 0x3FF0000000000000 lab
    let e := (FloatOp.div.apply (uniFt 0) (s.mode 0) s.ufTrap (s.q.sreg 4).toNat (s.q.sreg 6).toNat 0).2
    lab.kActive 1 false = false ∧ s.kActive 0 false = true ∧ e &&& s.q.ftrap = 0 ∧ (e &&& 0x1F).getLsbD 1 = true ∧ (e &&& 0x1F).getLsbD 0 = false
    ∧ Passes (.sfdivUS s246) (dFloatWordU 0x0F .div (usArgs s246)) s
    ∧ Passes (.sfdivUS s246) (dFloatWordU 0x0F .div (usArgs s246)) (labTrap 0x1F s) := by decide +kernel

/-- NanOperands: the quiet and the signalling NaN of binary32, and an addend that is one while the product operands are numbers. -/
theorem witness_nan_operands : ((fpar .f32).read 0x7FC00000).isNan = true ∧ ((fpar .f32).read 0x7F800001).isNan = true
    ∧ (∀ a, (fpar .f32).read 0x7F7FFFFF ≠ .inf a) := by
  refine ⟨by decide +kernel, by decide +kernel, fun a => ?_⟩
  cases a <;> decide +kernel

/-- RoundingModes: an exact quotient, and quotients below, above and at the middle of two integers. -/
theorem witness_rounding : 0 < 3 ∧ 6 % 3 = 0 ∧ 1 % 3 ≠ 0 ∧ 2 * (1 % 3) < 3 ∧ 3 < 2 * (2 % 3) ∧ 2 * (1 % 2) = 2 := by decide

/-- RepresentableIsExact: the least subnormal and the greatest number of F8A. -/
theorem witness_representable : (fpar .f8a).read 0x01 = .fin false 1 (-9) ∧ (fpar .f8a).read 0x77 = .fin false 15 4
    ∧ 0x77 < 2 * (fpar .f8a).signBit := by decide +kernel


/-- Some accesses of a word pass: their checks give a list that nothing hinders. -/
noncomputable def reaches (s : State) (eas : List (Nat × Nat)) (check : Nat → Except Nat Target) (n : Nat) (reads : Bool) : Bool :=
  match checkAll eas check with
  | .ok xs => decide (xs ≠ [] ∧ (s.hindrance xs n reads).isNone = true)
  | .error _ => false

theorem reaches_gives {s : State} {eas : List (Nat × Nat)} {check : Nat → Except Nat Target} {n : Nat} {reads : Bool}
    (h : reaches s eas check n reads = true) : ∃ xs, Claims.Reaches s eas check n reads xs := by
  unfold reaches at h
  split at h
  · rename_i xs hx
    exact ⟨xs, hx, (of_decide_eq_true h).2⟩
  · cases h

theorem witness_load_results :
    (∀ x ∈ [(Instr.ldLS s246 1, lsMem s246 1), (.ldLL l2468, llMem l2468), (.ldLI (ip 2 4 0 4), liMem (ip 2 4 0 4))],
      Passes x.1 (memWord 0x20 x.2 (.dst x.2.d 32 :: x.2.uses 64)) lab
      ∧ reaches lab (laneEas x.2 lab 64) (fun ea => lab.memCheck 2 ea 4 .read) 4 true = true)
    ∧ (∀ x ∈ [(Instr.ldsLS s246 1, lsMem s246 1), (.ldsLL l2468, llMem l2468), (.ldsLI (ip 2 4 0 0xFFFC), liMem (ip 2 4 0 0xFFFC))],
      Passes x.1 (memWord 0x22 x.2 (.dst x.2.d 32 :: x.2.uses 32)) lab
      ∧ reaches lab (laneEas x.2 lab 32) (lab.offsetCheck x.2.rem 4) 4 true = true) := by decide +kernel

theorem witness_uniform_load_results :
    (∀ x ∈ [(Instr.sldUS s246 1, usMem s246 1), (.sldUL l2468, ulMem l2468), (.sldUI (ip 2 4 0 8), uiMem (ip 2 4 0 8))],
      Passes x.1 (memWordU 0x10 x.2 (x.2.data :: x.2.uses)) lab
      ∧ reaches lab [(0, uniEa x.2 lab)] (fun ea => lab.memCheck 2 ea 8 .read) 8 true = true)
    ∧ lab.kActive 0 false = true ∧ lab.kActive 1 false = false := by decide +kernel

theorem witness_store_results :
    (∀ x ∈ [(Instr.stLS s246 1, lsMem s246 1), (.stLL (lp 0x0C 0 2 4 6 8), llMem (lp 0x0C 0 2 4 6 8)), (.stLI (ip 2 4 0 4), liMem (ip 2 4 0 4))],
      Passes x.1 (memWord 0x21 x.2 (.src x.2.d 32 :: x.2.uses 64)) labRW
      ∧ reaches labRW (laneEas x.2 labRW 64) (fun ea => labRW.memCheck 2 ea 4 .write) 4 false = true)
    ∧ (∀ x ∈ [(Instr.stsLS s246 1, lsMem s246 1), (.stsLL l2468, llMem l2468), (.stsLI (ip 2 4 0 0xFFFC), liMem (ip 2 4 0 0xFFFC))],
      Passes x.1 (memWord 0x23 x.2 (.src x.2.d 32 :: x.2.uses 32)) labRW
      ∧ reaches labRW (laneEas x.2 labRW 32) (labRW.offsetCheck x.2.rem 4) 4 false = true) := by decide +kernel

theorem witness_uniform_store_results :
    (∀ x ∈ [(Instr.sstUS s246 1, usMem s246 1), (.sstUL l2468, ulMem l2468), (.sstUI (ip 2 4 0 8), uiMem (ip 2 4 0 8))],
      Passes x.1 (memWordU 0x11 x.2 (x.2.data :: x.2.uses)) labRW
      ∧ reaches labRW [(0, uniEa x.2 labRW)] (fun ea => labRW.memCheck 2 ea 8 .write) 8 false = true) := by decide +kernel

/-- With a store of the quire whose home, a failed die, cannot be reached: a release cannot complete. -/
def labHeld (s : State) : State :=
  { s.modDie 1 (fun z => { z with admitted := true, failed := true }) with
    stores := [{ from_ := 3, die := 0, dest := .mem { home := 0, kid := 0, repl := false, asid := 0, va := 0 } (2 ^ 38), bytes := [0] }] }

/-- Behind: a release that can complete, and one that cannot, of a word with a release and of one without. -/
theorem witness_release : (∀ n ∈ [4, 5, 6], labRW.releaseBlocked 3 0 n = false ∧ (labHeld labRW).releaseBlocked 3 0 n = true)
    ∧ (∀ n ∈ [1, 2, 3], (labHeld labRW).releaseBlocked 3 0 n = false) ∧ (labHeld labRW).q.uid = 3 ∧ (labHeld labRW).fol.die = 0
    ∧ reaches (labHeld labRW) [(0, 0)] (fun ea => (labHeld labRW).memCheck 2 ea 4 .write) 4 false = true := by decide +kernel

/-- The targets of a range of one line. -/
noncomputable def lineRange (s : State) (acc : Acc) (ea len : Nat) : Bool :=
  match s.rangeCheck ea len acc with
  | .ok ts => decide (ts.length = len / 64
      ∧ (s.hindrance (ts.map (fun t => ({ lane := 0, ea := 0, t := t } : Access))) 64 false).isNone = true)
  | .error _ => false

theorem witness_address_instructions : let s := labV 6 64 labRW
    (∀ x ∈ [(Instr.addrLS s246 1, lsMem s246 1), (.addrLL l2468, llMem l2468), (.addrLI (ip 2 4 0 4), liMem (ip 2 4 0 4))],
      Passes x.1 (memWord 0x2B x.2 (.dst x.2.d 64 :: x.2.uses 64)) s)
    ∧ (∀ x ∈ [(Instr.prefLS s246, lsMem s246 0), (.prefLL l2468, llMem l2468)], Passes x.1 (memWord 0x24 x.2 (x.2.uses 64)) s)
    ∧ (∀ i ∈ [Instr.dscLS s246, .cwbLS s246], Passes i (memWord 0x24 (lsMem s246 0) [.base (.v 4) 64, .src (.v 6) 32]) s)
    ∧ (∀ i ∈ [Instr.dscLL l2468, .cwbLL l2468], Passes i (memWord 0x24 (llMem l2468) [.base (.v 4) 64, .src (.v 6) 32]) s)
    ∧ (∀ acc ∈ [Acc.read, .write], ∀ f ∈ s.active 0 false, lineRange s acc 0 (s.rd f (.v 6) 32) = true)
    ∧ lineRange s .write 0 0 = true := by decide +kernel

theorem witness_atomics :
    (Passes (.atomLL (lp 0x53 0x60 2 4 6 8)) (memWord 0x25 (atomMem (lp 0x53 0x60 2 4 6 8)) (.group (.v 2) 32 :: (atomMem l2468).uses 64)) labRW
      ∧ Passes (.casLL l2468) (memWord 0x26 (atomMem l2468) (.group (.v 2) 64 :: (atomMem l2468).uses 64)) labRW
      ∧ Passes (.redLL l2468) (memWord 0x27 (atomMem l2468) (.src (.v 2) 32 :: (atomMem l2468).uses 64)) labRW
      ∧ ∀ r ∈ [true, false], reaches labRW (laneEas (atomMem l2468) labRW 64) (fun ea => labRW.memCheck 2 ea 4 .write) 4 r = true)
    ∧ (Passes (.satomUL l2468) (memWordU 0x12 (satomMem l2468) (.sreg 2 :: (satomMem l2468).uses)) labRW
      ∧ Passes (.satomUL (lp 0x60 6 2 4 6 0)) (memWordU 0x12 (satomMem (lp 0x60 6 2 4 6 0)) (.sgroup 2 2 :: (satomMem l2468).uses)) labRW
      ∧ Passes (.scasUL l2468) (memWordU 0x12 (satomMem l2468) (.sgroup 2 2 :: (satomMem l2468).uses)) labRW
      ∧ reaches labRW [(0, uniEa (satomMem l2468) labRW)] (fun ea => labRW.memCheck 2 ea 8 .write) 8 true = true
      ∧ labRW.kActive 0 false = true ∧ labRW.kActive 1 false = false) := by decide +kernel

/-- A copy of 2 rows of 64 bytes from memory to a scratchpad, with the side registers at s4. -/
def labCopy : State := labS 8 (64 + 2 * 2 ^ 32) (labS 7 64 (labS 6 64 (labS 5 (BitVec.ofNat 64 windowBase) (labS 4 0 labRW))))

theorem witness_copy_issue :
    (Passes (.cpUL (lp 0 0 0 4 8 0)) { ulWord 0x13 (lp 0 0 0 4 8 0) [.sgroup 4 4, .sreg 8] with legal := true } labCopy
      ∧ labCopy.cpCheck ⟨0, 64⟩ ⟨BitVec.ofNat 64 windowBase, 64⟩ 64 2 = none)
    ∧ (Passes (.cpmUL (lp 0 0 0 4 8 9)) { ulWord 0x14 (lp 0 0 0 4 8 9) [.sgroup 4 4, .sreg 8, .sreg 9] with legal := true } (labS 9 1 labCopy)
      ∧ (labS 9 1 labCopy).cpmCheck ⟨0, 64⟩ ⟨0, 64⟩ 64 2 1 = none)
    ∧ (labCopy.q.tok 0).count ≠ 63 ∧ labCopy.clusterBusy = false ∧ labCopy.kActive 0 false = true := by decide +kernel

/-- A connection of slot 0 to the same die, with nothing posted. -/
def labConn : State := lab.modFolio 2 (fun f => { f with conns := [(0, some { asid := 0, chan := 0, die := 0, pkg := 0, incarn := 1 })] })

theorem witness_connections :
    Passes (.cconnUS (sp 15 4 0)) (usWord 0x16 (sp 15 4 0) [.below 15 16, .sreg 4]) lab
    ∧ (fieldOf (lab.q.sreg 4) 63 24 = 0 ∧ lab.endpointHeld 0 0 = false)
    ∧ fieldOf ((labS 4 0x1000000 lab).q.sreg 4) 63 24 ≠ 0 ∧ ({ labConn with folios := { labConn.fol with fid := 9 } :: labConn.folios } : State).endpointHeld 0 0 = true := by decide +kernel

theorem witness_tiles : let s := labS 4 (0x10000 * 2 ^ 32) labConn
    (∀ x ∈ [Instr.tsendUL (lp 0 0 0 4 0 0), .trecvUL (lp 0 0 0 4 0 0)], Passes x (ulWord 0x16 (lp 0 0 0 4 0 0) [.below 0 16, .sreg 4]) s)
    ∧ s.fol.conn 0 = some { asid := 0, chan := 0, die := 0, pkg := 0, incarn := 1 }
    ∧ s.connGone { asid := 0, chan := 0, die := 0, pkg := 0, incarn := 1 } = false
    ∧ fieldOf (s.q.sreg 4) 31 0 + fieldOf (s.q.sreg 4) 63 32 ≤ s.fol.scratchBytes ∧ fieldOf (s.q.sreg 4) 63 32 = 65536
    ∧ (s.q.tok 0).count ≠ 63 := by decide +kernel

/-- With a token of count n and a status. -/
def labTok (n : Nat) (st : BitVec 2) (r : Option Trap) : State :=
  { lab with q := { lab.q with toks := [(0, { count := n, status := st, record := r })] } }

theorem witness_tokens :
    allPass lab [(.twaitUS (sp 0 4 0), usWord 0x15 (sp 0 4 0) [.sreg 4]), (.ttestUS (sp 5 4 0), usWord 0x15 (sp 5 4 0) [.sreg 5, .sreg 4]),
      (.twaitUI (ip 0 0 0 0xFF), uiWord 0x15 (ip 0 0 0 0xFF) [.sreg 0]), (.ttestUI (ip 5 0 0 0xFF), uiWord 0x15 (ip 5 0 0 0xFF) [.sreg 5])] = true
    ∧ (labTok 1 0 none).q.tokensDone 0xFF = false ∧ lab.q.tokensDone 0xFF = true ∧ lab.q.lostToken 0xFF = none
    ∧ (labTok 0 3 none).q.tokensDone 0xFF = true ∧ ((labTok 0 3 none).q.lostToken 0xFF).isSome = true := by decide +kernel

theorem witness_fences :
    allPass lab [(.fenceUS (sp 0x06 0 0), usWord 0x17 (sp 0x06 0 0) []), (.fenceUS (sp 0x0E 0 0), usWord 0x17 (sp 0x0E 0 0) []),
      (.fenceUS (sp 0x16 0 0), usWord 0x17 (sp 0x16 0 0) []), (.xfenceUS (sp 1 2 0), usWord 0x17 (sp 1 2 0) [])] = true
    ∧ fieldOf (sp 0x06 0 0).d 4 3 = 0 ∧ fieldOf (sp 0x0E 0 0).d 4 3 = 1 ∧ fieldOf (sp 0x16 0 0).d 4 3 = 2 := by decide +kernel


/-- With slot 0 of the folio's palette set to 32-bit signed integers or to binary32. -/
def labSlot (fmt : Nat) : State := lab.modFolio 2 (fun f => { f with record := f.record ||| BitVec.ofNat 2048 (fmt * 2 ^ 1024) })
/-- Of two quires, so that a gang may form. -/
def labGang : State := (labSlot 1).modFolio 2 (fun f => { f with qcnt := 2 })

theorem witness_matrix_issue : let s := labS 8 0 (labSlot 1)
    (∀ i ∈ [Instr.mmaUL (lp 0 0x40 3 4 8 9), .mdistUL (lp 0 0x40 3 4 8 9)],
      i.wf = true ∧ (s.engineBusy s.q.uid = false ∧ matCheck (slotFmt (s.slot 0)) (slotFmt (s.slot 0)) (s.q.sreg 4) (s.q.sreg 5) (s.q.sreg 6)
        (s.q.sreg 7) 1048576 = none ∧ (s.q.tok 0).count ≠ 63 ∧ s.q.gang = 0))
    ∧ (∀ x ∈ [(0x19, Instr.mmaUL (lp 0 0x40 3 4 8 9)), (0x1A, .mdistUL (lp 0 0x40 3 4 8 9))],
      Passes x.2 { ulWord x.1 (lp 0 0x40 3 4 8 9) [.band 3, .sgroup 4 4, .sreg 8, .sreg 9] with
        unit := s.matUnit (slotFmt (s.slot 0)), legal := decide (s.slot 0 ≠ 0) } s)
    ∧ ({ labGang with q := { labGang.q with gang := 3 } } : State).q.gang ≠ 0 := by decide +kernel

theorem witness_gang : Passes (.sgangUS (sp 0 4 0)) (usWord 0x18 (sp 0 4 0) [.sreg 4]) labGang
    ∧ (let m : Word := ((labS 4 3 labGang).q.sreg 4).setWidth 32; m.getLsbD 0 = true ∧ popcOf 32 m.toNat ≤ 6 ∧ m.toNat < 2 ^ labGang.fol.qcnt)
    ∧ (let m : Word := ((labS 4 6 labGang).q.sreg 4).setWidth 32; m ≠ 0 ∧ m ≠ 1 ∧ ¬ m.getLsbD 0 = true) := by decide +kernel

theorem witness_bands :
    allPass lab [(.mtopkUL (lp 0 7 3 4 6 0), ulWord 0x1B (lp 0 7 3 4 6 0) [.band 3, .band 4, .sreg 6]),
      (.mzeroUS (sp 15 0 0), usWord 0x1C (sp 15 0 0) [.band 15]), (.mflagUS (sp 5 0 0) 1, usWord 0x1D (sp 5 0 0) [.sreg 5]),
      (.mreadLL (lp 0x0F 0 2 4 0 0), { llWord 0x35 (lp 0x0F 0 2 4 0 0) [.dst (.v 2) 64, .band 4] with unit := lab.matUnit .f64, dyn := lab.dynOk 0 }),
      (.mwriteLL (lp 0x1F 0 3 4 0 0), { llWord 0x36 (lp 0x1F 0 3 4 0 0) [.band 3, .src (.v 4) 32] with unit := lab.matUnit .f32 }),
      (.mtkreadLL (lp 0 0x0F 2 4 0 0), llWord 0x37 (lp 0 0x0F 2 4 0 0) [.dst (.v 2) 64, .band 4])] = true
    ∧ lab.engineBusy 3 = false ∧ lab.badBand 3 (fun _ => true) = false ∧ lab.bandBusy 3 4 = false
    ∧ lab.badCells (lab.active 0 false) (fun f => cellKey 4 15 f.lane) = 0 := by decide +kernel

/-- With the folio's split barrier 1 entered (P), at a generation. -/
def labSplit (gen : Nat) : State :=
  ({ lab with q := { lab.q with splitP := 0x02 } } : State).modFolio 2 (fun f => { f with splits := [(1, { gen := gen, arrived := [] })] })

theorem witness_barriers :
    allPass lab [(.barUS (sp 0 0 0) 0, usWord 0x20 (sp 0 0 0) []), (.barUS (sp 0 0 0) 1, usWord 0x20 (sp 0 0 0) []),
      (.barriveUS (sp 5 0 0), usWord 0x21 (sp 5 0 0) []), (.bwaitUS (sp 5 0 0), usWord 0x21 (sp 5 0 0) []), (.bwaitUS (sp 1 0 0), usWord 0x21 (sp 1 0 0) [])] = true
    ∧ (∀ v ∈ [true, false], (lab.barrier 2 ⟨v, none⟩).arrived.contains 3 = false)
    ∧ lab.q.splitP.getLsbD 1 = false ∧ (∀ n ∈ [0, 1], (labSplit n).q.splitP.getLsbD 1 = true ∧ Sparse.get 0 1 (labSplit n).q.splitG = 0
        ∧ ((labSplit n).barrier 2 (splitOf (sp 1 0 0).d)).gen = n) := by
  decide +kernel

/-- Blocked at it in generation 0. -/
def labSplitBlocked (gen : Nat) : State := (labSplit gen).block (.split 1 0) 4 aTrap

theorem witness_split_wait : (∀ n ∈ [0, 1], (labSplitBlocked n).splitWait = some 0 ∧ ((labSplitBlocked n).barrier 2 (splitOf (sp 1 0 0).d)).gen = n)
    ∧ lab.splitWait = none ∧ (labSplit 1).splitWait = none := by decide +kernel

/-- A queue of two entries at offset 0 of the scratchpad, whose ring lies at 64; `n` of them are taken. -/
def labQueue (n : Nat) : State :=
  (labS 8 (BitVec.ofNat 64 windowBase) lab).putQdesc 2 0 (BitVec.ofNat 256 (n + 64 * 2 ^ 64 + 1 * 2 ^ 96 + 2 * 2 ^ 104 + 0x51 * 2 ^ 120))

/-- A check gave this value. -/
def isOk {ε α : Type} [DecidableEq α] (x : Except ε α) (y : α) : Bool := match x with | .ok z => decide (z = y) | .error _ => false

theorem ok_of {ε α : Type} [DecidableEq α] {x : Except ε α} {y : α} (h : isOk x y = true) : x = .ok y := by
  unfold isOk at h
  cases x with
  | ok z => exact congrArg _ (of_decide_eq_true h)
  | error e => cases h

theorem witness_queue_setup : let s := labS 5 (64 + 1 * 2 ^ 32 + 2 * 2 ^ 40) (labS 4 (BitVec.ofNat 64 windowBase) lab)
    Passes (.qinitUS (sp 0 4 0)) (usWord 0x22 (sp 0 4 0) [.sgroup 4 2]) s
    ∧ fieldOf (s.q.sreg 5) 39 32 = 1 ∧ fieldOf (s.q.sreg 5) 42 40 = 2
    ∧ fieldOf (s.q.sreg 5) 18 0 + 18 ≤ (s.folio 2).scratchBytes ∧ ringOverlaps 64 2 0 = false ∧ (s.ownQueue 2 0).qWaiters (scratchLoc 2 0) = []
    ∧ isOk (s.qAddr 2 (s.q.sreg 4)) (2, 0) = true := by
  decide +kernel

theorem witness_queue_at : ∀ n ∈ [0, 1, 2], QueueAt (labQueue n) ((labQueue n).q.sreg 8) 2 0 := by
  intro n hn
  have h1 : isOk ((labQueue n).qAddr (labQueue n).q.fid ((labQueue n).q.sreg 8)) (2, 0) = true := by
    revert n; decide +kernel
  have h2 : ((labQueue n).ownQueue 2 0).queueHurt 2 0 = none ∧ ((labQueue n).ownQueue 2 0).qValid (labQueue n).q.fid 2 0 (((labQueue n).ownQueue 2 0).qdesc 2 0) = true := by
    revert n; decide +kernel
  exact ⟨ok_of h1, h2⟩

theorem witness_queue_allow : let s := labQueue 0
    allPass s [(.qallowUS (sp 0 8 6), usWord 0x22 (sp 0 8 6) [.sreg 8, .sreg 6])] = true
    ∧ qFind (s.qdesc 2 0) 0 0 = none ∧ fieldOf ((labS 6 1 s).q.sreg 6) 7 0 ≠ 0 ∧ fieldOf (s.q.sreg 6) 7 0 = 0
    ∧ (List.range 4).find? (fun i => !(qSlot (s.qdesc 2 0) i).getLsbD 26) = some 0
    ∧ qFind (qSetSlot (s.qdesc 2 0) 3 (BitVec.ofNat 32 (2 ^ 26))) 0 0 = some 3 := by decide +kernel

/-- Blocked on a descriptor of a folio that has gone. -/
def labBroken : State :=
  { lab with q := { lab.q with waits := [{ pc := 0, frame := 0, kind := .queue (scratchLoc 9 0) false 5 0, seq := 0, len := 4 }] } }

theorem witness_queue_transfer : let at_ := fun n => (labQueue n).ownQueue 2 0
    (∀ n ∈ [0, 1, 2], (at_ n).unblocked.qWaiters (scratchLoc 2 0) = [])
    ∧ Accepts (at_ 1) 0 0 2 0 ∧ ¬ Accepts (at_ 2) 0 0 2 0 ∧ qCount ((at_ 0).qdesc 2 0) = 0 ∧ qCount ((at_ 2).qdesc 2 0) ≠ 0
    ∧ fieldOf ((at_ 1).qdesc 2 0) 106 104 = 2
    ∧ labBroken.rest = [] ∧ labBroken.q.held = none ∧ labBroken.q.pend = none ∧ scratchLoc 9 0 ≠ 0
    ∧ labBroken.queueBroken labBroken.q.fid (scratchLoc 9 0) = true
    ∧ (∀ m ∈ [(0 : BitVec 2), 1], allPass (labQueue 1) [(.qpushUS (sp 0 8 6) m, usWord 0x23 (sp 0 8 6) [.sreg 8, .sreg 6]),
        (.qpopUS (sp 5 8 0) m, usWord 0x24 (sp 5 8 0) [.sreg 5, .sreg 8])] = true) := by decide +kernel

theorem witness_carve_and_pause :
    allPass lab [(.carveUS (sp 0 4 0), usWord 0x2A (sp 0 4 0) [.sreg 4]), (.pauseUS (sp 0 0 0), usWord 0x2F (sp 0 0 0) [])] = true
    ∧ (labS 4 (2 ^ 18 - 1) lab).q.sreg 4 = 0x3FFFF ∧ 2 ^ 18 ≤ ((labS 4 (2 ^ 18) lab).q.sreg 4).toNat ∧ lab.fol.carveRq.isSome = false
    ∧ (lab.barrier 2 ⟨false, none⟩).arrived.contains 3 = false
    ∧ (let t := lab.block .pause 4 aTrap; t.q.waits.map (·.kind) = [.pause] ∧ t.rest = [] ∧ t.saved = []) := by decide +kernel

/-- A counter at address 64 of memory with an allowance of 5 in the cluster of core 0 and 3 in RESERVE, and a request if one is given. -/
def labCounter (r : List CReq) : State :=
  let s := labRW
  let t : State := { s with counters := [{ pa := 0x4000040, kid := 0, w64 := false, init := 8, cmask := 1, share := 5, cap := 6, reserve := 3
                                           allow := [(0, 5)], known := [(0, 5)], reqs := r }] }
  labS 8 64 t
/-- The translation of the descriptor's page. -/
noncomputable def counterTrans (s : State) (acc : Acc) : Option Nat :=
  match s.counterAt 64 acc with | .ok (some (_, pa)) => some pa | _ => none

theorem witness_counters : let s := labCounter []
    counterTrans s .read = some 0x4000040 ∧ counterTrans s .write = some 0x4000040
    ∧ (s.counter 0x4000040).isSome = true ∧ s.holderBit = 0
    ∧ allPass s [(.ctakeUS (sp 0 8 6), usWord 0x26 (sp 0 8 6) [.sreg 8, .sreg 6]), (.cgiveUS (sp 0 8 6), usWord 0x26 (sp 0 8 6) [.sreg 8, .sreg 6]),
        (.ctakeUL (lp 0 1 0 8 6 0), ulWord 0x26 (lp 0 1 0 8 6 0) [.sreg 8, .sreg 6]),
        (.cgiveUL (lp 0 0 0 8 6 0), ulWord 0x26 (lp 0 0 0 8 6 0) [.sreg 8, .sreg 6]),
        (.ctakeUI (ip 0 8 1 6), uiWord 0x26 (ip 0 8 1 6) [.sreg 8]), (.cgiveUI (ip 0 8 0 6), uiWord 0x26 (ip 0 8 0 6) [.sreg 8])] = true
    ∧ (∀ c ∈ s.counters, c.cmask.getLsbD 0 = true ∧ c.allowance 0 = 5 ∧ ¬ 6 ≤ c.allowance 0 ∧ c.width = 32
        ∧ (5 + 1 ≤ c.cap ∧ c.cap < 5 + 2 ∧ ¬ 7 ≤ c.cap) ∧ c.waiters = []) := by decide +kernel

theorem witness_counter_init : let s := labS 3 4 (labS 2 1 (labS 1 4 (labS 0 0 labRW)))
    let t := labS 7 4 (labS 6 1 (labS 5 4 (labS 4 128 s)))
    Passes (.cinitUL (lp 0 0 0 4 0 0)) (ulWord 0x25 (lp 0 0 0 4 0 0) [.sgroup 4 4]) t
    ∧ (match t.counterAt 128 .write with | .ok (some (_, pa)) => decide (pa = 0x4000080) | _ => false) = true
    ∧ t.cinitBad 0x4000080 4 1 4 32 = false := by decide +kernel

/-- A request that the issuing batch waits for. -/
def ask (k : CAsk) (n : Nat) : CReq := { quire := 3, pc := 0, frame := 0, ask := k, holder := 0, amount := n }
/-- The machine in which it waits. -/
def labAsk (k : CAsk) (n : Nat) : State := (labCounter [ask k n]).block (.counter 0x4000040) 4 aTrap

theorem witness_counter_home :
    (∀ k ∈ [CAsk.take true, .take false, .give, .exact 5, .drop 5], ∀ n ∈ [8, 9],
      (∀ c ∈ (labAsk k n).counters, c.reqs.filter ((labAsk k n).asking 0x4000040) = [ask k n] ∧ c.waiters = [] ∧ c.recallAll.waiters = []))
    ∧ (∀ c ∈ (labAsk .give 1).counters, (({ c with reqs := [] } : Counter).takeHome 0 8).2 = true ∧ (({ c with reqs := [] } : Counter).takeHome 0 9).2 = false)
    ∧ allPass (labCounter []) [(.cexactUS (sp 5 8 0), usWord 0x27 (sp 5 8 0) [.sreg 5, .sreg 8]),
        (.cdropUS (sp 5 8 0), usWord 0x25 (sp 5 8 0) [.sreg 5, .sreg 8])] = true := by decide +kernel

/-- A volume of two folios on one die; the other is member 1. -/
def labPair : State :=
  { lab with folios := lab.folios ++ [{ lab.fol with fid := 9, folioid := 1, core := 1 }]
             volumes := [{ vid := 1, members := [(0, 2), (1, 9)] }] }
/-- With a subscription of the issuing folio to member 1. -/
def labSub : State := { labPair with subs := [{ id := 1, src := 9, entry := 0, gen := 1, dst := 2, soff := 0, doff := 0, len := 64, glog := 6 }] }

theorem witness_subscriptions : let s := labS 5 (6 * 2 ^ 24 + 1 * 2 ^ 19) (labS 4 (0x10000 * 2 ^ 32) labPair)
    Subscribable s 4 9 ∧ (List.range 16).find? (fun e => !(s.subEntries (s.folio 9).die (s.folio 9).core).contains e) = some 0
    ∧ allPass s [(.subscribeUS (sp 6 4 0), usWord 0x28 (sp 6 4 0) [.sreg 6, .sgroup 4 2]),
        (.subscribeUL (lp 0 0 6 4 0 0), ulWord 0x28 (lp 0 0 6 4 0 0) [.sreg 6, .sgroup 4 2]), (.unsubUS (sp 0 4 0), usWord 0x28 (sp 0 4 0) [.sreg 4]),
        (.sflushUS (sp 0 4 0), usWord 0x29 (sp 0 4 0) [.sreg 4]), (.sflushUS (sp 0 0 0), usWord 0x29 (sp 0 0 0) [.sreg 0])] = true := by
  unfold Subscribable
  decide +kernel

theorem witness_subscription_handles : let h := subHandle 1 1 0
    lab.subOf h = none ∧ (labSub.subOf h).isSome = true
    ∧ (∀ x ∈ labSub.subs, x.dst = labSub.q.fid ∧ x.dst ≠ 9 ∧ (x.src = 9 ∨ x.dst = 9) ∧ ¬ (x.src = 4 ∨ x.dst = 4)) := by decide +kernel


theorem witness_branches :
    allPass lab [(.braLI (ip 0 0 0 0xFFFFFFE8), liWord 0x2C (ip 0 0 0 0xFFFFFFE8) []), (.sbrUI (ip 0 0 0 8), uiWord 0x2C (ip 0 0 0 8) []),
      (.brxLS (sp 0 4 0), lsWord 0x33 (sp 0 4 0) [.src (.v 4) 64]), (.brxLL (lp 0 0 0 4 0 0), llWord 0x33 (lp 0 0 0 4 0 0) [.src (.v 4) 64]),
      (.sjmpUS (sp 0 4 0), usWord 0x2D (sp 0 4 0) [.sreg 4]), (.sbrxUS (sp 0 4 6), usWord 0x2D (sp 0 4 6) [.sreg 4, .sreg 6])] = true
    ∧ (lab.active 0 false).filter (fun f => (BitVec.ofNat 64 (lab.rd f (.v 4) 64)).extractLsb' 0 2 ≠ 0) = []
    ∧ ((labV 4 2 lab).active 0 false).filter (fun f => (BitVec.ofNat 64 ((labV 4 2 lab).rd f (.v 4) 64)).extractLsb' 0 2 ≠ 0) ≠ []
    ∧ (lab.q.sreg 4).extractLsb' 0 2 = 0 ∧ ((labS 4 1 lab).q.sreg 4).extractLsb' 0 2 ≠ 0 := by decide +kernel

theorem witness_fibres :
    allPass lab [(.gatherLI (ip 0 0 0 0x18), liWord 0x2D (ip 0 0 0 0x18) []), (.fspawnLI (ip 0 0 0 8), liWord 0x2E (ip 0 0 0 8) []),
      (.fexitLS (sp 0 0 0), lsWord 0x2F (sp 0 0 0) []), (.haltUS (sp 0 0 0), usWord 0x2F (sp 0 0 0) [])] = true := by decide +kernel

/-- With the depth of every fibre set. -/
def labDepth (n : Nat) : State := lab.mapFibres (fun f => { f with depth := n })

theorem witness_calls :
    (∀ u ∈ [1, 28, 29], Passes (.callLI (ip u 0 0 0x80)) (liWord 0x30 (ip u 0 0 0x80) []) lab)
    ∧ 28 < fieldOf (ip 29 0 0 0x80).d 4 0 ∧ lab.encv = 3 ∧ 28 ≤ lab.fol.frameUnits ∧ lab.active 1 false = []
    ∧ (∃ f ∈ (labDepth 65535).active 0 false, f.depth = 65535) ∧ (∀ f ∈ (labDepth 65534).active 0 false, f.depth ≠ 65535)
    ∧ lab.q.frames.length < 65535 ∧ (match lab.runFor lab.q 0 28 with | .run _ => true | _ => false) = true := by decide +kernel

/-- Inside a call from frame 0, whose frame is marked or not. -/
def labIn (handler : DWord) : State :=
  match lab.q.frames with
  | f0 :: _ => { labDepth 1 with q := { (labDepth 1).q with
      frames := [{ f0 with handler := handler, refs := 0, owned := 0 }, { f0 with id := 1, caller := 0, depth := 1, retpc := 8, base := 28 }]
      fibres := (labDepth 1).q.fibres.map (fun f => { f with frame := 1 }) }, sel := (0, 1) }
  | [] => lab

theorem witness_returns :
    allPass lab [(.retLS (sp 0 0 0), lsWord 0x31 (sp 0 0 0) []), (.unwindLS (sp 0 0 0), lsWord 0x32 (sp 0 0 0) []),
      (.fmarkLI (ip 0 0 0 0x20), liWord 0x32 (ip 0 0 0 0x20) []), (.fmarkLI (ip 0 0 1 0), liWord 0x32 (ip 0 0 1 0) [])] = true
    ∧ allPass (labIn 64) [(.retLS (sp 0 0 0), lsWord 0x31 (sp 0 0 0) []), (.unwindLS (sp 0 0 0), lsWord 0x32 (sp 0 0 0) [])] = true
    ∧ (∃ f ∈ lab.active 0 false, unwindTarget lab.q f = none)
    ∧ (∀ f ∈ (labIn 64).active 0 false, unwindTarget (labIn 64).q f = some ([1], 0)) ∧ (labIn 64).active 0 false ≠ [] := by decide +kernel

/-- In a frame of 28 units whose caller is archived, below a resident frame; with a slice of `k` KiB. Another lane, where `other`, is in the
same frame. -/
def labReturn (k : Nat) (other : Bool) : State :=
  let t := lab.modFolio 2 (fun f => { f with carve := BitVec.ofNat 29 (2 + 4 * 2 ^ 6 + 16 * 2 ^ 18 + 16 * 2 ^ 24)
                                             record := f.record ||| BitVec.ofNat 2048 (k * 12582912 * 2 ^ 704) })
  let at2 := fun (l : Nat) (pc : DWord) => ({ lane := l, pc := pc, frame := 2, depth := 2 } : Fibre)
  let refs : Word := if other then 3 else 1
  { t with
    mem := labRW.mem, sel := (0, 2)
    q := { t.q with
      fibres := if other then [at2 0 0, at2 1 4] else [at2 0 0]
      frames := [{ id := 0, caller := 0xFFFF, retpc := 0, depth := 0, size8 := 4, refs := refs, owned := refs, base := 0 },
                 { id := 1, caller := 0, retpc := 8, depth := 1, size8 := 1, refs := refs, owned := refs, base := 0, arch := some (0, 0) },
                 { id := 2, caller := 1, retpc := 8, depth := 2, size8 := 28, refs := refs, owned := refs, base := 4 }] } }

/-- What a return into frame 1 finds. -/
noncomputable def returnRun (s : State) : RunFor := s.runFor s.q 2 1 (s.q.freedBy 2 1 1)

theorem witness_return_to_archive :
    (∀ s ∈ [labReturn 8 false, labReturn 8 true, labReturn 2 true], allPass s [(.retLS (sp 0 0 0), lsWord 0x31 (sp 0 0 0) [])] = true
      ∧ s.active 0 false ≠ [] ∧ (s.q.frame 1).arch = some (0, 0)
      ∧ (match s.routeLines 2 (s.fol.sliceAt 0 + 0) (s.q.frame 1).recordBytes .read with | .ok ts => (waitsAt ts).isNone | .error _ => false) = true)
    ∧ returnRun (labReturn 8 false) = .run 4 ∧ returnRun (labReturn 8 true) = .waits
    ∧ (match returnRun (labReturn 2 true) with | .overflow _ => true | _ => false) = true := by decide +kernel

/-- A word that ends fibres and with them its folio, behind a release that cannot complete and behind one that can; so for `ssignal`. -/
theorem witness_ends : let s := labHeld lab
    (s.active 0 false ≠ [] ∧ s.endScope (s.active 0 false) = 5 ∧ s.folioBlocked s.q.fid = true)
    ∧ lab.endScope (lab.active 0 false) = 5 ∧ lab.folioBlocked lab.q.fid = false := by decide +kernel

/-- With a launch record at address 0x1000: the loaded one without a dependence. -/
def labRecord : State := labS 5 1 (labS 4 0x1000 (lab.putBytes 0x4001000 (leBytes 256 (loadedRecord.toNat + 0xFF * 2 ^ 184))))

theorem witness_launching :
    allPass labRecord [(.slaunchUL (lp 1 0 2 4 5 6), ulWord 0x2E (lp 1 0 2 4 5 6) [.sreg 2, .sreg 4, .sreg 5, .sreg 6]),
      (.ssignalUS (sp 0 0 0), usWord 0x2E (sp 0 0 0) []), (.nopUS (sp 1 2 3), usWord 0x2F (sp 1 2 3) []),
      (.yieldUS (sp 0 0 0), usWord 0x2F (sp 0 0 0) [])] = true
    ∧ labRecord.launchCode 0 0 0 = some 3 ∧ labRecord.launchCode 65 0 0 = some 3 ∧ labRecord.launchCode 1 0 1 = some 9
    ∧ labRecord.launchCode 1 0 (launchTarget 0 0 false) = none ∧ (labRecord.q.tok 1).count ≠ 63 ∧ (labRecord.queueOf 0).length < 64 := by
  decide +kernel

/-- The lines that a launch reads, and what its checks say of the records there. -/
noncomputable def recordCheck (s : State) (addr : Nat) : Option (Option (Nat × ShelfCheck)) :=
  match s.routeLines 2 addr 256 .read with
  | .ok ts =>
    let xs := ts.map (fun t => ({ lane := 0, ea := addr, t := t } : Access))
    if (s.hindrance xs 64 true).isNone = true then some (s.checkShelves (fun ea => s.route s.q.fid ea .write) 0 (s.readRecords 0 ts 1)) else none
  | .error _ => none

theorem witness_launch_records : recordCheck labRecord 0x1000 = some none ∧ recordCheck labRecord 0x2000 = some (some (0, .code 1)) := by
  decide +kernel

theorem witness_system_calls : 16 ≤ (sp 16 0 0).d.toNat ∧ (sp 15 0 0).d.toNat < 16 ∧ lab.kActive 0 false = true ∧ lab.kActive 1 false = false
    ∧ (let r : Trap := { code := 0x123, epc := 4, skip := .sys }
       ∃ f ∈ (({ lab.q with held := some 0 } : Quire).resume r true 4).fibres, f.lane ∈ (lab.q.at r.pc r.frame).map (·.lane) ∧ f.pc = 4) := by
  decide +kernel

/-- With a fault held under entry 0: a quire's or an engine's. -/
def labFault (eng : Bool) (h : Holder) : State :=
  lab.modDie 0 (fun z => { z with held := [{ index := 0, gen := 1, holder := h, trap := { code := 8, epc := 0, eng := eng }, fid := 2 }] })
/-- The handle of that entry at generation 1, in the upper half of a register. -/
def handle1 : DWord := BitVec.ofNat 64 (handleOf 0 1 * 2 ^ 32)

theorem witness_held_faults :
    allPass lab ([0, 1].map (fun d => (.fresumeUS (sp d 4 0), usWord 0x31 (sp d 4 0) [.sreg 4]))
      ++ [0, 1, 2].map (fun d => (.fkillUS (sp d 4 0), usWord 0x31 (sp d 4 0) [.sreg 4]))) = true
    ∧ lab.entryFor (handle1.toNat / 2 ^ 32) = none ∧ ((labFault true (.copy 7)).entryFor (handle1.toNat / 2 ^ 32)).isSome = true
    ∧ (∀ x ∈ ((labFault true (.copy 7)).die 0).held, x.trap.eng = true) ∧ (∀ x ∈ ((labFault false (.quire 3)).die 0).held, x.trap.eng = false)
    ∧ ((labFault false (.quire 3)).folio 2).kind = .normal ∧ handle1.toNat / 2 ^ 32 ≠ 0
    ∧ (let s : State := { lab with colls := [{ uid := 5, die := 0, number := 0, asid := 0, sup := true, prio := 0, order := 0,
                                                qent := 3, shelves := [{ record := loadedRecord }] }] }
       s.super = true ∧ ((s.queueOf 0).find? (fun c => c.qent = 3 && 0 < c.shelves.length)).isSome = true) := by decide +kernel

/-- With a pool of `n` pages of 64 MiB, the first of them taken, for ASID 0, and the page at the second 64 MiB to map. -/
def labPool (n : Nat) : State :=
  labS 5 3 (labS 4 0x4000000 (((lab.modDie 0 (fun z => { z with mgmt := Sparse.set 0 0x802 0x200000 z.mgmt })).putBytes 0x200000
    (leBytes 32 (1 + 8 * 2 ^ 40 + 1 * 2 ^ 44 + n * 2 ^ 60 + 0x8000000 * 2 ^ 76)))))
/-- The pool record. -/
def poolOf (s : State) : PoolRec := BitVec.ofNat 256 (leNat ((List.range 32).map (fun i => s.homeByte 0 (0x200000 + i))))

theorem witness_page_map :
    Passes (.pmapUS (sp 2 4 0)) (usWord 0x32 (sp 2 4 0) [.sreg 2, .sgroup 4 2]) (labPool 2)
    ∧ fieldOf ((labPool 2).q.sreg 5) 31 3 = 0 ∧ fieldOf ((labPool 2).q.sreg 5) 63 48 = 0 ∧ fieldOf ((labPool 2).q.sreg 5) 1 0 = 3
    ∧ (labPool 2).super = true ∧ 0x4000000 % szcBytes 8 = 0
    ∧ (match (labPool 2).reach 0 0x200000 with | .at a => decide (a = 0x200000) | _ => false) = true
    ∧ poolBad (poolOf (labPool 2)) = false ∧ fieldOf (poolOf (labPool 2)) 59 44 < fieldOf (poolOf (labPool 2)) 75 60
    ∧ fieldOf (poolOf (labPool 1)) 75 60 ≤ fieldOf (poolOf (labPool 1)) 59 44 ∧ poolBad (poolOf lab) = true
    ∧ (match (labPool 2).pageGroup 0 0 0x4000000 8 with | .at ps => decide (ps ≠ []) | _ => false) = true := by decide +kernel

/-- With a full launch queue of die 0. -/
def labFullQueue (s : State) : State :=
  { s with colls := List.replicate 64 { uid := 9, die := 0, number := 0, asid := 0, sup := true, prio := 0, order := 0, shelves := [] } }

theorem witness_system_registers :
    allPass lab [(.rdsrUS (sp 5 0x24 0), srWord (sp 5 0x24 0) true), (.rdsrUS (sp 5 3 0x21), srWord (sp 5 3 0x21) true),
      (.wrsrUS (sp 6 0x10 0), srWord (sp 6 0x10 0) true), (.wrsrUS (sp 6 0x11 0), srWord (sp 6 0x11 0) true),
      (.wrsrUS (sp 6 0x12 0), srWord (sp 6 0x12 0) true), (.wrsrUS (sp 6 0x13 0), srWord (sp 6 0x13 0) true),
      (.wrsrUS (sp 6 0 0x20), srWord (sp 6 0 0x20) true), (.wrsrUS (sp 6 4 0x20), srWord (sp 6 4 0x20) true),
      (.wrsrUS (sp 6 1 0x21), srWord (sp 6 1 0x21) true)] = true
    ∧ (sp 6 0x11 0).sysnum.toNat = 0x011 ∧ (sp 6 0 0x20).sysnum.toNat = 0x800 ∧ (sp 6 1 0x21).sysnum.toNat = 0x841
    ∧ fieldOf ((labS 6 5 lab).q.sreg 6) 2 0 < 6 ∧ 6 ≤ fieldOf ((labS 6 6 lab).q.sreg 6) 2 0
    ∧ mgmtBad 0x804 384 = false ∧ mgmtBad 0x804 385 = true ∧ mgmtBad 0x800 8 = false ∧ mgmtBad 0x800 4 = true ∧ mgmtBad 0x841 1 = false ∧ mgmtBad 0x841 0 = true
    ∧ (lab.lqctl 3 0 1).isSome = true ∧ ((labFullQueue lab).lqctl 3 0 1).isSome = false := by decide +kernel

theorem witness_shoot_downs : let o := sp 3 8 0
    Passes (.tlbctlUS o) (usWord 0x37 o [.sgroup 8 2]) lab ∧ (lab.q.sreg 8).toNat % 4096 = 0 ∧ fieldOf (lab.q.sreg 9) 47 0 % 4096 = 0
    ∧ ((labS 8 4095 lab).q.sreg 8).toNat % 4096 ≠ 0 ∧ fieldOf ((labS 9 1 lab).q.sreg 9) 47 0 % 4096 ≠ 0 := by decide +kernel

/-- With a message in the receive queue of die 0. -/
def labMsg : State := (labS 4 0x80 labRW).modDie 0 (fun z => { z with recv := [{ dom := true, type := 0x80, pkg := 0, die := 1, incarn := 1 }] })

theorem witness_messages :
    Passes (.msendUS (sp 2 8 0)) (usWord 0x35 (sp 2 8 0) [.sreg 2, .sgroup 8 2]) (labS 9 0x1FF labRW)
    ∧ Passes (.msendUS (sp 2 8 0)) (usWord 0x35 (sp 2 8 0) [.sreg 2, .sgroup 8 2]) (labS 9 0x7F labRW)
    ∧ fieldOf ((labS 9 0x1FF labRW).q.sreg 9) 63 9 = 0 ∧ 0x80 ≤ fieldOf ((labS 9 0x1FF labRW).q.sreg 9) 7 0
    ∧ fieldOf ((labS 9 0x7F labRW).q.sreg 9) 7 0 < 0x80
    ∧ Passes (.mrecvUS (sp 2 4 1)) (usWord 0x35 (sp 2 4 1) [.sreg 2, .sreg 4]) labMsg
    ∧ (lab.die 0).recv = [] ∧ (labMsg.die 0).recv ≠ []
    ∧ reaches labRW [(0, 0)] (fun ea => labRW.memCheck 2 ea 64 .read) 64 true = true
    ∧ reaches labMsg [(0, 0x80)] (fun ea => labMsg.memCheck 2 ea 64 .write) 64 false = true
    ∧ (sp 2 4 1).b.getLsbD 0 = true ∧ (sp 2 4 0).b.getLsbD 0 = false := by decide +kernel

/-- With generation 1 open on die 0. -/
def labCkpt (fail : Option Nat) : State := lab.modDie 0 (fun z => { z with ckpt := some { gen := 1, asid := 0, dies := [0], fail := fail } })

theorem witness_checkpoints :
    allPass (labS 8 1 lab) [(.ckbeginUS (sp 0 8 0), { usWord 0x36 (sp 0 8 0) [.sgroup 8 2] with unit := lab.part.ckpt })] = true
    ∧ allPass (labS 8 1 (labCkpt none)) [(.ckcommitUS (sp 5 8 0), { usWord 0x36 (sp 5 8 0) [.sreg 5, .sreg 8] with unit := lab.part.ckpt }),
        (.ckshardUL (lp 1 0 0 8 0 0), { ulWord 0x36 (lp 1 0 0 8 0 0) [.sgroup 8 2] with unit := lab.part.ckpt })] = true
    ∧ fieldOf ((labS 8 1 lab).q.sreg 9) 63 16 = 0 ∧ fieldOf ((labS 9 0x10000 lab).q.sreg 9) 63 16 ≠ 0
    ∧ (lab.die 0).ckpt = none ∧ ((labCkpt none).die 0).ckpt.isSome = true ∧ lab.mgmt 0 0x817 + 1 = 1
    ∧ (lab.ckWrite 0 (lab.ckSlot 0 1) [0]).isSome = true
    ∧ (∀ f ∈ [none, some 1, some 2], ∃ k ∈ ((labCkpt f).die 0).ckpt, k.gen = 1 ∧ k.commit = none ∧ k.fail = f)
    ∧ (lab.q.sreg 8).toNat % 4096 = 0 ∧ ((labS 8 1 lab).q.sreg 8).toNat % 4096 ≠ 0 ∧ (lab.q.tok 1).count ≠ 63 := by decide +kernel

/-- With a UCIe link of die 0 in a state. -/
def labLink (state : Nat) : State := { lab with links := [{ die := 0, port := 0, peer := some 1, state := state }] }

theorem witness_link_values :
    ∀ v ∈ [0x4000000, 0x18, 4], Passes (.linkctlPause (sp 5 6 0)) (usWord 0x37 (sp 5 6 0) [.sreg 5, .sreg 6])
      (labS 6 (BitVec.ofNat 64 v) lab) := by decide +kernel

theorem witness_link_control :
    (∀ op ∈ [0, 1, 2, 3, 4], Passes (.linkctlPause (sp 5 6 0)) (usWord 0x37 (sp 5 6 0) [.sreg 5, .sreg 6])
        (labS 6 (BitVec.ofNat 64 (256 * op)) lab) ∧ fieldOf ((labS 6 (BitVec.ofNat 64 (256 * op)) lab).q.sreg 6) 10 8 = op)
    ∧ lab.linkAt 0 0 = none ∧ ((labLink 1).linkAt 0 0).isSome = true ∧ fieldOf ((labS 6 (BitVec.ofNat 64 (63 * 2 ^ 16)) lab).q.sreg 6) 22 16 ≤ 63
    ∧ 63 < fieldOf ((labS 6 (BitVec.ofNat 64 (64 * 2 ^ 16)) lab).q.sreg 6) 22 16 := by decide +kernel


/-- An image at a source, with a signature that the key of zeros verifies, or none. -/
def image (ok : Bool) : Image := { sig := if ok then zeroSig [1] else [], bytes := [1] }
/-- Before power-on with such images, and a ROM that holds the key of zeros. -/
def labOff (b : Boot) (xs : List Image) : State := { State.reset with boot := b, images := xs, romKey := zeroKey }

theorem witness_boot_good (b : Boot) (xs : List Image) : (labOff b xs).imageGood (image true) = true := by
  have h : (labOff b xs).minVer = 0 := by rfl
  have : (labOff b xs).imageGood (image true) = (dsaVerify zeroKey [1] (zeroSig [1]) && decide ((labOff b xs).minVer ≤ 0)) := rfl
  rw [this, zeroSig_verifies, h]; rfl

theorem witness_boot : (labOff .off [image false]).imageGood (image false) = false
    ∧ (∀ ok : Bool, (labOff .off [image ok]).images.head? = some (image ok)
      ∧ (labOff (.refetch 0) [image ok, image ok]).images[(labOff (.refetch 0) [image ok]).fetchSource 0]? = some (image ok))
    ∧ (labOff .off []).images.head? = none ∧ ({ lab with hot := true } : State).hot = true :=
  ⟨by decide +kernel, fun ok => ⟨rfl, by cases ok <;> rfl⟩, rfl, rfl⟩

/-- A copy in flight from memory to the folio's scratchpad. -/
def copyOp (started : Bool) : CopyOp :=
  { id := 7, quire := 3, fid := 2, members := [(0, 2, 0)], src := 0, dst := BitVec.ofNat 64 windowBase, spitch := 64, dpitch := 64, rowBytes := 64
    rows := 1, sws := false, swd := false, slot := 0, hint := 0, mask := none, tok := 1, epc := 0, elanes := 1, permit := started, started := started }
/-- With such a copy, which waits for its permit or has started. -/
def labCp (started : Bool) : State := { labRW with copies := [copyOp started], permits := if started then [] else [.copy 7] }
/-- A matrix operation of the issuing quire. -/
def matOp (permit : Bool) : MatOp :=
  { id := 7, fid := 2, mask := 0, latch := false, dist := false, clr := false, aslot := 0, bslot := 0, k := 4, bbase := 0, bstride := 64, rowB := 0
    kblk := 0, permit := permit
    members := [{ quire := 3, quireid := 0, band := 0, abase := 0, astride := 64, rowA := 0, tok := 1, saved := {}, trap := { code := 0, epc := 0 } }] }
/-- With it in flight. -/
def labMat (permit : Bool) : State := { labSlot 1 with matops := [matOp permit], permits := if permit then [] else [.matrix 7] }
/-- With a shard that waits for its permit. -/
def labShard : State :=
  let x : ShardOp := { id := 7, die := 0, quire := 3, asid := 0, start := 0, len := 4096, tok := 1 }
  ({ lab with shards := [x], permits := [.shard 7] } : State).block (.permit 7) 8 aTrap

theorem witness_permits :
    (Grantable (labCp false) (.copy 7) ∧ (labCp false).copies.find? (fun x => x.id = 7) = some (copyOp false) ∧ (copyOp false).started = false
      ∧ ((labCp false).q.tok 1).count ≠ 63)
    ∧ (let s : State := { labCp true with permits := [.copy 7] }
       Grantable s (.copy 7) ∧ s.copies.find? (fun x => x.id = 7) = some (copyOp true) ∧ (copyOp true).started = true)
    ∧ (Grantable (labMat false) (.matrix 7) ∧ (labMat false).matops.find? (fun x => x.id = 7) = some (matOp false))
    ∧ (Grantable labShard (.shard 7) ∧ (labShard.shards.find? (fun y => y.id = 7)).isSome = true
      ∧ (labShard.quire 3).waits.any (fun w => w.kind = .permit 7) = true ∧ ((labShard.quire 3).tok 1).count ≠ 63) := by decide +kernel

theorem witness_register_events : (lab.mgmt 0 0x820).toNat % 64 = 0 ∧ 0 < lab.part.dies
    ∧ (let s := lab.modDie 0 (fun z => { z with mgmt := Sparse.set 0 0x820 63 z.mgmt }); (s.mgmt 0 0x820).toNat % 64 = 63)
    ∧ mgmtBad 0x841 1 = false ∧ lab.lqWait = [] ∧ ((({ lab with lqWait := [(0, 1, 0)] } : State).lqctl 0 0 1).isSome = true)
    ∧ sysregKnown (BitVec.ofNat 12 0x801) = true ∧ mgmtBad 0x801 1 = true ∧ mgmtBad 0x801 0 = false
    ∧ sysregKnown (BitVec.ofNat 12 0x843) = true := by decide +kernel

/-- With a collection of one shelf in the launch queue. -/
def labColl : State :=
  { lab with colls := [{ uid := 9, die := 0, number := 0, asid := 0, sup := true, prio := 0, order := 0
                         shelves := [{ record := loadedRecord ||| BitVec.ofNat 2048 (0xFF * 2 ^ 184) }] }], next := 10 }
/-- Bound to core 1, as group 7. -/
def labBound : State :=
  { labColl.modDie 0 (fun z => { z with slots := [{ coll := 9, shelf := 0, volIdx := 0, folioid := 0, qbase := 0, qcnt := 1, core := 1, vgid := 7
                                                    state := 1, carve := loadedCarve }] }) with
    colls := labColl.colls.map (fun c => c.modShelf 0 (fun x => { x with vols := [(0, .bound 7)] })) }
/-- Started. -/
noncomputable def labStarted : State := startVolume 0 32 labBound
/-- Its folio. -/
noncomputable def started : Nat := match labStarted.folios with | [_, f] => f.fid | _ => 0
/-- Asked to be saved. -/
noncomputable def labAsked : State := labStarted.modDie 0 (fun z => { z with slots := z.slots.map (fun b => { b with state := 2 }) })
/-- A unit of one folio that has been saved, with its image. -/
def savedUnit : Saved :=
  { folios := [{ lab.fol with fid := 9, core := 3, vid := 5 }], quires := [newQuire 8 9 0 0 0 28 1 0], volume := { vid := 5, members := [(0, 9)] }
    coll := 0, images := [(9, 0x8000000, 0)] }
/-- With it. -/
def labSaved : State := { lab with saved := [savedUnit], next := 10 }

/-- A group number is free where the slot table is empty. -/
theorem vgid_free (s : State) (d coll shelf : Nat) (h : (s.die d).slots = []) : ∃ vg, s.newVgid d coll shelf = some vg := by
  unfold State.newVgid State.choose
  rw [h]
  have hl : ((List.range 512).filter (fun g => !([] : List Bind).any (fun b => b.group = (coll, shelf, g)))).length = 512 :=
    (congrArg List.length (List.filter_eq_self.mpr (fun _ _ => rfl))).trans List.length_range
  exact ⟨_, List.getElem?_eq_getElem (by rw [hl]; exact Nat.mod_lt _ (by decide))⟩

theorem witness_bind : (match labColl.nextUnit 0 with
      | some (c, u) => decide (u.coll = 9 ∧ u.shelf = 0 ∧ u.vol = 0) && labColl.placeOk 0 c u [1] [0] && (labColl.savedUnit u).isNone
          && (labColl.assignTargets 0 u).placeOk 0 c u [1] [0] && !(labColl.assignTargets 0 u).placeOk 0 c u [0] [0]
      | none => false) = true
    ∧ (labColl.die 0).slots = []
    ∧ (match labBound.groupAt 0 32, labBound.colls.find? (fun c => c.uid = 9) with
      | b :: rest, some c => labBound.groupOk 0 c (b :: rest) && labBound.depsReady c 0 0
          && decide (Sparse.get .waiting 0 (c.shelves.getD 0 { record := 0 }).vols = .bound 7)
      | _, _ => false) = true := by decide +kernel

theorem witness_save_and_restore :
    (labAsked.folios.any (fun y => y.fid = started) = true ∧ (labAsked.folio started).kind = .normal
      ∧ labAsked.saveAsked (labAsked.folio started) = true ∧ labAsked.isSaved started = false
      ∧ (labAsked.volume (labAsked.folio started).vid).members.any (fun m => m.2 = started) = true
      ∧ labAsked.saveBlocked 0 (labAsked.quires.filter (fun q => q.uid ≠ 0 && q.fid = started)) = false ∧ labAsked.remaps = [])
    ∧ labSaved.saved.find? (fun v => v.folios.any (fun y => y.fid = 9)) = some savedUnit
    ∧ (labSaved.restorePlaces savedUnit 9 0 2 0).isSome = true ∧ labSaved.mayRestore savedUnit 0 2 = true ∧ (labSaved.die 0).slots = []
    ∧ (savedUnit.folios.map (·.fid)).Nodup ∧ (∀ x ∈ labSaved.folios, x.fid < labSaved.next) ∧ (∀ y ∈ savedUnit.folios, y.ended = false)
    ∧ lab.saved = [] := by decide +kernel

/-- Parked at a gather point at 8, in frame 0. -/
def labParked : State := lab.mapFibres (fun f => { f with pc := 8, parked := true, gather := [(8, 0)] })

theorem witness_gather : labParked.q.released 8 0 = true ∧ (∀ x ∈ labParked.rest, x.uid ≠ 3) ∧ labParked.saved = [] := by decide +kernel

/-- In a small frame pool with an archive area: the frame of the caller is 8 registers, a call waits for 5 units; `arch` says that
the current frame is in the archive. -/
def labPool2 (arch : Option (Nat × Nat)) : State :=
  let t := (labIn 0).modFolio 2 (fun f => { f with carve := BitVec.ofNat 29 (2 + 4 * 2 ^ 6 + 16 * 2 ^ 18 + 16 * 2 ^ 24)
                                                   record := f.record ||| BitVec.ofNat 2048 (25165824 * 2 ^ 704) })
  let s : State := { t with mem := labRW.mem, q := { t.q with frames := t.q.frames.map (fun fr =>
    if fr.id = 0 then { fr with size8 := 1, base := 0, arch := none } else { fr with size8 := if arch = none then 28 else 1, base := 1, arch := arch }) } }
  if arch = none then s.block (.frameRun 5) 8 aTrap else s

theorem witness_frames :
    (match (labPool2 none).archiveFor 2 with | some (n, u, i) => decide (n.uid = 3 ∧ u = 3 ∧ i = 0) | none => false) = true
    ∧ (labPool2 none).fits ((labPool2 none).quire 3) 3 0 = true
    ∧ (match (labPool2 none).routeLines 2 ((labPool2 none).archiveAddr ((labPool2 none).quire 3)) (((labPool2 none).quire 3).frame 0).recordBytes
        .write with
        | .ok ts => (waitsAt ts).isNone | .error _ => false) = true
    ∧ (let s := labPool2 (some (0, 0))
       ((s.quire 3).frame 1).arch = some (0, 0) ∧ ((s.quire 3).frame 1).size8 = 1 ∧ (s.frameRun 2 1).isSome = true
       ∧ ((s.needsRefill (s.quire 3)).find? (fun p => p.2 = 1)).isSome = true
       ∧ (match s.routeLines 2 ((s.folio 2).sliceAt 0 + 0) 1152 .read with
          | .ok ts => (waitsAt ts).isNone | .error _ => false) = true) := by decide +kernel

/-- A carve request of the only quire, which has arrived. -/
def labCarve : State := lab.modFolio 2 (fun f => { f with carveRq := some (0, 3), bar := { gen := 0, arrived := [3] } })

theorem witness_carve_apply : (labCarve.folio 2).carveRq = some (0, 3) ∧ labCarve.folios.any (fun y => y.fid = 2) = true
    ∧ labCarve.allArrived 2 ⟨false, none⟩ = true ∧ labCarve.writesBeyond 2 0 = false := by decide +kernel


/-- Some rows of a chunk were read. -/
noncomputable def rowsRead (s : State) (o : MatOp) : Bool :=
  ((s.chunkRows o).1 ++ (s.chunkRows o).2).all (fun r => (r.es ++ r.sc).all (fun e => match e.2 with | .bytes _ => true | _ => false))
/-- What the next segment of a copy is. -/
noncomputable def segmentKind (s : State) (c : CopyOp) : Nat :=
  match s.segment c with
  | (n, .mem t pa run, tos) =>
    if (tos.all (fun y => match y with | .mem _ _ _ => true | .scratch _ _ _ _ => true | _ => false)) && !s.badSource c (.mem t pa run) n then 1 else 2
  | (_, .fault _, _) => 3
  | _ => 4

theorem witness_chunks_and_segments :
    (let s := labMat true
     s.matops.find? (fun o => o.id = 7) = some (matOp true) ∧ (matOp true).latch = false ∧ (matOp true).held = none ∧ (matOp true).pend = none ∧ s.isSaved 2 = false ∧ (matOp true).members ≠ []
     ∧ rowsRead s (matOp true) = true ∧ (∀ m ∈ (matOp true).members, s.badBand m.quire (fun k => k / 512 = m.band) = false))
    ∧ lab.matops.find? (fun o => o.id = 7) = none
    ∧ (labCp true).copies.find? (fun x => x.id = 7) = some (copyOp true) ∧ segmentKind (labCp true) (copyOp true) = 1
    ∧ (copyOp true).resumed = false
    ∧ segmentKind (labCp true) { copyOp true with src := 0x4000000 } = 3 := by decide +kernel

/-- A tile on its way from the issuing folio to itself. -/
def tile (id : Nat) (send : Bool) (len : Nat) : TileOp :=
  { id := id, send := send, quire := 3, fid := 2, die := 0, conn := { asid := 0, chan := 0, die := 0, pkg := 0, incarn := 1 }, index := 0, off := 0, len := len, tok := 1 }
/-- Both sides posted, of the given lengths. -/
def labTiles (m n : Nat) : State := { lab with tiles := [tile 7 true m, tile 8 false n] }

theorem witness_tile_delivery : (∀ n ∈ [8, 16],
      (labTiles 8 n).tiles.find? (fun t => t.id = 7) = some (tile 7 true 8) ∧ (labTiles 8 n).tiles.find? (fun t => t.id = 8) = some (tile 8 false n)
      ∧ (labTiles 8 n).tilesMatch (tile 7 true 8) (tile 8 false n) = true)
    ∧ (labTiles 8 8).isSaved 2 = false ∧ (labTiles 8 8).isSaved 9 = false ∧ (labTiles 8 8).takesWrites 2 = true
    ∧ (labTiles 8 8).takesWrites 9 = false ∧ (labTiles 8 8).tilesMatch (tile 7 true 8) { tile 8 false 8 with fid := 9 } = true := by decide +kernel

/-- A write on its way to an allocation. -/
def inbound (fid : Nat) : Inbound := { id := 7, from_ := 3, fid := fid, die := 0, core := 0, off := 0xFFFF, bytes := [1] }

theorem witness_inbound_writes : (∀ fid ∈ [2, 9], ({ lab with inbound := [inbound fid] } : State).inbound[0]? = some (inbound fid)
      ∧ mayLand [] (inbound fid) = true)
    ∧ lab.takesWrites 2 = true ∧ 0xFFFF + 1 = (lab.folio 2).scratchBytes ∧ lab.takesWrites 9 = false := by decide +kernel

/-- With a line of another die that a cached leaf covers, and a partial of a line. -/
def labLine : State :=
  { (lab.modDie 0 (fun z => { z with tlb := [{ place := .cluster 0, asid := 0, va := 0x4000000, size := 67108864, entry := BitVec.ofNat 64 (2 ^ 26 * 16 + 3) }] })).modDie 1
      (fun z => { z with admitted := true }) with partials := [{ die := 0, core := 0, pa := 64, kid := 0, aop := 0, aty := 0, val := 1 }] }

theorem witness_lines : let line := 2 ^ 38 / 64
    (labLine.fillLeaf 0 line).isSome = true ∧ labLine.isHome 0 (line * 64) = false ∧ labLine.liveLine line = false
    ∧ (labLine.die 0).copyOf line = none ∧ (match labLine.reach 0 (line * 64) with | .at a => decide (a = line * 64) | _ => false) = true
    ∧ labLine.partials[0]?.isSome = true ∧ (∀ p ∈ labLine.partials, p.pa / 64 ≠ 2)
    ∧ (∀ p < 16, p ≠ 0 → Sparse.get 0 (lineKeyOf p line) (labLine.die 0).filt = 0) := by decide +kernel

/-- With the issuing quire waiting for an entry of the table. -/
def labPend : State := { lab with q := { lab.q with pend := some aTrap } }
/-- With a fault that waits for its handler folio. -/
def labHandler : State :=
  lab.modDie 0 (fun z => { z with handlers := [{ index := 0, gen := 1, holder := .quire 3, trap := aTrap, fid := 2 }] })
/-- With the issuing quire as curator 0 of die 0, and asynchronous causes pending. -/
def labCurator (inFlag : Bool) : State :=
  { (lab.modFolio 2 (fun f => { f with kind := .curator 0 })).modDie 0 (fun z => { z with pend130 := true, pend131 := [0] }) with
    q := { lab.q with inFlag := inFlag } }

theorem witness_fault_events :
    (∃ x ∈ labPend.everyQuire, x.pend = some aTrap ∧ (labPend.die (labPend.folio x.fid).die).freeEntry.isSome = true)
    ∧ (∃ h ∈ (labHandler.die 0).handlers, handleOf h.index h.gen < 2 ^ 32 ∧ labHandler.coreFits 0 383 0 1 0x41 = true)
    ∧ (∃ q ∈ (labCurator false).curator 0 0, q.inFlag = false ∧ q.readyBatch = some (0, 0)) ∧ ((labCurator false).die 0).asyncCause 0 = some 0x130
    ∧ (({ (labCurator false).die 0 with pend130 := false } : Die).asyncCause 0 = some 0x131)
    ∧ ¬ 5 ∈ lab.poison ∧ lab.bad = [] := by decide +kernel

theorem witness_rv64 : (∀ n ∈ [1, 2, 4, 8], rv64Size n = true) ∧ paSpace 0x10000 = 0 ∧ lab.backed 0x10000 = true ∧ lab.liveLine (0x10000 / 64) = false
    ∧ (match lab.reach 4 0x10000 with | .at a => decide (a = 0x10000) | _ => false) = true
    ∧ paSpace (2 * 2 ^ 40) ≠ 0 ∧ ¬ paSpace (2 * 2 ^ 40) = 1 ∧ ¬ ((4 : Nat) = 8) := by decide +kernel

/-- With a failed link to die 1, while dies 1 and 2 are admitted. -/
def labFailed : State :=
  { (lab.modDie 1 (fun z => { z with admitted := true })).modDie 2 (fun z => { z with admitted := true }) with
    links := [{ die := 0, port := 0, peer := some 1, state := 3 }] }
/-- With a message of the issuing quire, or of the hardware. -/
def labSent (b : MsgBody) (incarn : Nat) : State :=
  { lab with msgs := [{ dom := false, type := 0x80, pkg := 0, die := 0, incarn := incarn, body := b, sender := some (3, 0, 0, 5) }] }

theorem witness_links_and_messages :
    (∀ l ∈ labFailed.links, labFailed.detours l ≠ []) ∧ (∀ l ∈ (labLink 0).links, (labLink 0).detours l = [])
    ∧ ((labSent .kernel 1).msgs.find? (fun m => match m.sender with | some x => x.1 = 3 | none => false)).isSome = true
    ∧ ((labSent .kernel 1).modDie 0 (fun z => { z with failed := true })).sequencerUp false 0 .kernel = false
    ∧ (lab.quires.find? (fun q => q.uid = 3)).isSome = true
    ∧ (∀ m ∈ (labSent .kernel 1).msgs, (labSent .kernel 1).headOfSender 0 m = true ∧ (labSent .kernel 1).msgStale m = false)
    ∧ (∀ m ∈ (labSent .kernel 0).msgs, (labSent .kernel 0).msgStale m = true)
    ∧ (∀ m ∈ (labSent .kernel 1).msgs, (labSent .kernel 1).msgMoot m = false ∧ (labSent .kernel 1).holdsBack m.die = false)
    ∧ (∀ m ∈ (labSent (.admission 0) 1).msgs, (labSent (.admission 0) 1).msgMoot m = true)
    ∧ (∀ d ∈ [true, false], (labSent .kernel 1).sequencerUp d 0 .kernel = true) ∧ (labSent .kernel 1).queuesOpen = true
    ∧ (let t := (labSent .kernel 1).block .msend 4 aTrap
       t.q.waits.any (fun w => w.pc = 0 && w.frame = 0 && w.kind = .msend) = true) := by decide +kernel

/-- Die 0 waits for a link to die 1 that has a detour over the third die of a small package. -/
theorem witness_link_detour : (let s : State := { labFailed with links := labFailed.links.take 1 }
    s.links.length = 1 ∧ ∀ l ∈ s.links, s.detours l ≠ []) := by decide +kernel

/-- Of a domain of two packages whose fabric has failed, with a page of package 1 at the second 64 MiB, for which a batch waits. -/
def labFar : State :=
  ({ lab.putBytes 0xC008 (leBytes 8 (2 ^ 28 * 16 + 3)) with pkgs := 3, everPkgs := 3 } : State).block (.reach 0x4000000) 4 aTrap

theorem witness_time_outs : labFar.quires.any (fun q => q.uid = 3 && q.uid ≠ 0) = true
    ∧ (labFar.q.reachWait 0x4000000).isSome = true ∧ labFar.farWait 2 0x4000000 = true := by decide +kernel

/-- A shoot-down that die 0 owes an answer. -/
def labShoot : State := { lab with shoots := [{ id := 7, seq := 5, die := 0, asid := none, lo := 0, len := 4096, wb := false, todo := [0], acks := [] }] }

/-- An EVICT of die 1, which has been admitted once. -/
def labEvict : State :=
  { lab.modDie 1 (fun z => { z with admitted := true, incarn := 1 }) with msgs := (labSent (.evict 1 1) 1).msgs }

theorem witness_eviction_and_admission :
    ((labFailed.die 1).admitted = true ∧ (labFailed.die 1).failed = false ∧ labFailed.isMember 2 = true ∧ Sparse.get 0 (1 * 256 + 2) labFailed.misses < 2)
    ∧ (∀ m ∈ labEvict.msgs, labEvict.msgStale m = false) ∧ labEvict.evictable 1 1 = true
    ∧ lab.msgs = [] ∧ (lab.die 1).admitted = false ∧ 1 < lab.part.dies ∧ lab.sequencer = some 0 ∧ lab.live 0 = true
    ∧ lab.sequencerUp false 0 (.admission 1) = true ∧ lab.queuesOpen = true
    ∧ ((labSent .kernel 1).die 1).admitted = false ∧ (labSent .kernel 1).sequencer = some 0 ∧ (labSent .kernel 1).live 0 = true
    ∧ (∀ m ∈ (labSent .kernel 1).msgs, m.die = 0 ∧ m.dom = false ∧ m.body ≠ .admission 1)
    ∧ labEvict.holdsBack 0 = false ∧ labEvict.sequencerUp false 0 (.evict 1 1) = true ∧ labEvict.queuesOpen = true
    ∧ (∃ x ∈ labShoot.shoots, x.todo.contains 0 = true ∧ x.wb = false ∧ labShoot.shoots.any (fun y => y.seq < x.seq && y.todo.contains 0) = false
        ∧ labShoot.shootBlocked 0 x = false ∧ (labShoot.die 0).failed = false)
    ∧ (∃ x ∈ ({ labShard with shards := labShard.shards.map (fun x => { x with permit := true }) } : State).shards, x.permit = true) := by
  decide +kernel


/-- LaneFrames, UniformFrames and LoadFrames: a word of each kind answers a next state. -/
noncomputable def nexts (s : State) (i : Instr) : Bool := match exec i s with | .next _ => true | _ => false

theorem witness_frames_of_words : (∀ i ∈ [Instr.addLS s246, .fdivLS s246, .cmpLS s246, .fcmpLS s246, .saddUS s246, .sfdivUS s246, .scmpUS s246,
    .sfcmpUS s246, .nopUS s246, .sjmpUS (sp 0 4 0), .addLL l2468, .clzLL l2468, .fmaLL l2468, .saddUL l2468, .sfmaUL l2468, .brxLL (lp 0 0 0 4 0 0),
    .addLI i24, .faddLI (ip 2 4 0 0), .saddUI i24, .sfaddUI (ip 2 4 0 0), .braLI (ip 0 0 0 8), .ldLS s246 1, .ldsLI (ip 2 4 0 4)],
      nexts lab i = true)
    ∧ lab.partials = [] ∧ lab.inbound = [] := by decide +kernel

/-- StoreFrames: the accesses of a store in memory stand under key 0, in a line without a partial. -/
theorem witness_store_frames : Canonical labRW ∧ labRW.partials = []
    ∧ (match checkAll (laneEas (lsMem s246 1) labRW 64) (fun ea => labRW.memCheck 2 ea 4 .write) with
      | .ok xs => xs.all (fun x => match x.t with | .mem a _ => a.attr.kid = 0 | _ => false)
      | .error _ => false) = true := by decide +kernel

/-- StoreFrames, ReadAfterWrite: a store of the quire at the start of its memory. -/
def aStore (pa : Nat) : Store :=
  { from_ := 3, die := 0, dest := .mem { home := 0, kid := 0, repl := false, asid := 0, va := 0 } pa, bytes := [1, 2] }

theorem witness_perform : Canonical labRW ∧ Sparse.wf 0 labRW.lineKey = true ∧ labRW.partials = []
    ∧ (∀ w ∈ [aStore 0x4000000, { aStore 0 with dest := .scratch 2 8 }], (labRW.perform w).isSome = true)
    ∧ ((labHeld labRW).perform (aStore (2 ^ 38))).isSome = false ∧ lab.sameCore 2 = true := by decide +kernel

/-- ReadAfterWrite: memory of die 0 up to the end of a line. -/
theorem witness_read_after_write : Canonical lab ∧ lab.isHome 0 60 = true ∧ lab.partials = [] ∧ lab.replicaOf 60 = none ∧ 60 % 64 + 4 ≤ 64 := by
  decide +kernel

/-- WriteDestination: two lanes of two fibres, at both ends of the lanes. -/
theorem witness_write_destination : (lab2.q.frames.find? (fun x => x.id = lab2.sel.2)).isSome = true
    ∧ (∀ fr ∈ lab2.q.frames, Sparse.wf (0 : Word) fr.regs = true ∧ Sparse.wf (Tag.u 0) fr.tags = true)
    ∧ ([(0, 1), (31, 2)].map (·.1) : List Nat).Nodup ∧ (∀ x ∈ [((0 : Nat), (1 : Nat)), (31, 2)], x.1 < 32) ∧ (∀ f ∈ lab2.q.fibres, f.lane < 32) := by
  decide +kernel

/-- HardWired: registers, a free lane for a child, and a misaligned group. -/
theorem witness_hard_wired : Sparse.wf (0 : DWord) lab.q.s = true ∧ lab.q.freeSlot = some 1
    ∧ (∀ f ∈ lab.q.fibres, lab.q.fibres.find? (fun g => g.lane = f.lane) = some f)
    ∧ (let D := usWord 0x32 (sp 2 3 0) [.sreg 2, .sgroup 3 2]
       Use.sgroup 3 2 ∈ D.uses ∧ 3 % 2 ≠ 0 ∧ opInVersion lab.encv D.uni D.op = true ∧ lab.super = true ∧ D.uses.any Use.illegal = false) := by
  decide +kernel

/-- TagRule: members at both ends, with one value, two that a stride fits, and three that none does. -/
theorem witness_tag_rule : (∀ vs ∈ ([[(0, 5), (31, 5)], [(0, 1), (31, 32)], [(0, 0), (1, 1), (2, 3)]] : List (List (Nat × Word))),
      vs ≠ [] ∧ (vs.map (·.1)).Pairwise (· < ·) ∧ (∀ x ∈ vs, x.1 < 32))
    ∧ tagOf [(0, 5), (31, 5)] = .u 5 ∧ tagOf [(0, 1), (31, 32)] = .a 1 1 ∧ tagOf [(0, 0), (1, 1), (2, 3)] = .g := by decide +kernel

/-- TrapHoldsQuire: with a free entry and without one, and with and without a handler. -/
def heldAt (i : Nat) : HeldFault := { index := i, gen := 1, holder := .copy i, trap := aTrap, fid := 9 }
def labFull : State := lab.modDie 0 (fun z => { z with held := (List.range 1024).map heldAt })
/-- In user mode, with a handler entry in the launch record. -/
def labUserHandler : State := lab.modFolio 2 (fun f => { f with sup := false, record := f.record ||| BitVec.ofNat 2048 (64 * 2 ^ 448) })

theorem witness_trap_holds : (∀ k < 4, lab.fol.kind ≠ .curator k) ∧ lab.fol.kind = .normal ∧ lab.fol.die < lab.dies.length ∧ lab.q.fid = lab.fol.fid
    ∧ (lab.die 0).freeEntry = some 0 ∧ toHandler labUserHandler.fol aTrap = true ∧ toHandler lab.fol aTrap = false := by decide +kernel

theorem witness_trap_record : lab.fol.die < 4 ∧ Canonical lab ∧ Sparse.wf 0 lab.lineKey = true ∧ (aTrap.record (handleOf 0 1)).length = 2112 := by decide +kernel

theorem witness_table_full : (labFull.die 0).freeEntry = none := by
  have h : ∀ (s : State) (f : Die → Die), 0 < s.dies.length → (s.modDie 0 f).die 0 = f (s.die 0) := by
    intro s f h; simp [State.die, State.modDie, h]
  rw [labFull, h lab _ (by decide +kernel)]
  simp [Die.freeEntry, heldAt]
  exact fun x hx => ⟨x, hx, by simp⟩

/-- TrapEntersCurator: a curator with IN 0 and 1, `eret` in it and in user mode. -/
theorem witness_curator : (labCurator true).fol.kind = .curator 0
    ∧ (∃ q ∈ (labCurator true).curator 0 0, q.inFlag = true) ∧ (labCurator false).q.inFlag = false ∧ labUser.super = false := by decide +kernel

theorem witness_eret : allPass (labCurator true) [(.eretUS (sp 0 0 0), usWord 0x34 (sp 0 0 0) [])] = true
    ∧ allPass lab [(.eretUS (sp 0 0 0), usWord 0x34 (sp 0 0 0) [])] = true := by decide +kernel

/-- WordChecks: a destination that may not be written, a misaligned pair, and a register outside the frame. -/
theorem witness_word_checks : labUser.super = false ∧ 0x800 ≤ (sp 5 0 0x20).sysnum.toNat ∧ lab.encv = 3
    ∧ longName (BitVec.ofNat 8 0xE8) = .latch .int ∧ (Instr.addLL (lp 0 0 0xE8 4 6 0)).wf = true
    ∧ (Instr.addLL (lp 0 2 5 4 6 0)).wf = true ∧ 5 % (wrOf (laneTy 2) / 32) ≠ 0
    ∧ 223 + 1 = 8 * lab.frm.size8 ∧ wrOf (laneTy 0) / 32 = 1 ∧ longName 0xDF = .v 223 := by decide +kernel

theorem witness_word_checks_outside : let s : State := { lab with q := { lab.q with frames := lab.q.frames.map (fun f => { f with size8 := 1 }) } }
    8 * s.frm.size8 < 8 + wrOf (laneTy 0) / 32 ∧ 4 + 2 ≤ 8 * s.frm.size8 ∧ (Instr.movLL (lp 0 0 8 4 6 0)).wf = true := by decide +kernel

/-- AccessFaults: an unaligned address, one beyond the windows, one in a window, and one that no page maps. -/
theorem witness_access_faults : 2 % 4 ≠ 0 ∧ 2 ^ 56 ≤ 2 ^ 56 ∧ 2 ^ 56 % 4 = 0 ∧ windowBase % 4 = 0 ∧ windowBase < 2 ^ 56
    ∧ (match lab.translate 0 0 true 0x4000000 .read with | .error c => decide (c ≠ 0x142) | .ok _ => false) = true
    ∧ [(2 : Nat), 0x4000000].all (fun d => match checkAll (laneEas (liMem (ip 2 4 0 d)) lab 64) (fun ea => lab.memCheck 2 ea 4 .read) with
        | .error _ => true | .ok _ => false) = true
    ∧ Passes (.ldLI (ip 2 4 0 2)) (memWord 0x20 (liMem (ip 2 4 0 2)) (.dst (.v 2) 32 :: (liMem (ip 2 4 0 2)).uses 64)) lab
    ∧ Passes (.stLI (ip 2 4 0 2)) (memWord 0x21 (liMem (ip 2 4 0 2)) (.src (.v 2) 32 :: (liMem (ip 2 4 0 2)).uses 64)) lab
    ∧ Passes (.sldUI (ip 2 4 0 2)) (memWordU 0x10 (uiMem (ip 2 4 0 2)) (.sreg 2 :: (uiMem (ip 2 4 0 2)).uses)) lab
    ∧ Passes (.sstUI (ip 2 4 0 2)) (memWordU 0x11 (uiMem (ip 2 4 0 2)) (.sreg 2 :: (uiMem (ip 2 4 0 2)).uses)) lab
    ∧ (match lab.memCheck 2 2 8 .read, lab.memCheck 2 2 8 .write with | .error a, .error b => decide (a = 0x060 ∧ b = 0x060) | _, _ => false) = true := by
  decide +kernel

/-- DecodeEncode. -/
theorem witness_decode_encode : (Instr.addLS s246).wf = true ∧ (encode (.addLS s246)).isSome = true := by decide +kernel

/-- StepRunsDecoded and StepKeepsMemory: the loaded machine issues the word at address 0. -/
theorem witness_step : lab.boot ≠ .tripped ∧ (match lab.pick with | some (.issue u p f) => decide (u = 3 ∧ p = 0 ∧ f = 0) | _ => false) = true ∧ Canonical lab
    ∧ (match (lab.prepare 3 0 0).fetch 2 0 with | .words w0 w1 _ => decide (w0 = 0 ∧ (parse w0 w1).isSome = true) | _ => false) = true := by
  decide +kernel


/-- On a Q920. -/
def labQ920 : State := { lab with part := .q920 }

/-- ReservedWords: a conversion from L8 with a reserved SUB, on a part without that format and on one that has it; an opcode that is not listed, one of a
later version, and a supervisor one in user mode. -/
theorem witness_reserved_words : labQ920.wordUnit 0x35017600 0x02040000 = false ∧ lab.wordUnit 0x35017600 0x02040000 = true
    ∧ (parse 0x35017600 0x02040000).isNone = true ∧ opListed (isUniform 0x35017600) (opOf 0x35017600) = true
    ∧ (∃ op < 64, opListed true op = false) ∧ opInVersion 1 true 0x25 = false ∧ opSupervisor true 0x34 = true ∧ labUser.super = false := by
  decide +kernel

/-- DestinationChecks: a latch, a misaligned pair and a register outside the frame as the destination of a word, and sources that pass. -/
theorem witness_destination_checks :
    (∀ n ∈ [Name.v 0, .v 4, .v 6], SourceOk lab n ∧ nameLate n = false)
    ∧ (∀ i ∈ [Instr.addLS (sp 48 4 6), .fdivLS (sp 48 4 6), .addLL (lp 0 0 0xE8 4 6 0), .clzLL (lp 0 0 0xE8 4 6 0), .fmaLL (lp 0 1 0xE9 4 6 0),
        .addLI (ip 48 4 0 3), .faddLI (ip 48 4 0 3)], i.wf = true)
    ∧ shortName (sp 48 4 6).d = .latch .int ∧ longName (lp 0 0 0xE8 4 6 0).d = .latch .int ∧ longName (lp 0 1 0xE9 4 6 0).d = .latch .fp := by
  decide +kernel

theorem witness_destination_pairs : let o := lp 0 2 5 4 6 0
    (Instr.addLL o).wf = true ∧ longName o.d = .v 5 ∧ 5 % (wrOf (laneTy o.ty) / 32) ≠ 0
    ∧ (let p := lp 0 1 0xE1 4 6 0; (Instr.faddLL p).wf = true ∧ longName p.d = .o 1 ∧ 1 % ((FloatOp.add).width (laneFt p.ty) / 32) ≠ 0)
    ∧ (let p := ip 5 4 2 3; (Instr.addLI p).wf = true ∧ shortName p.d = .v 5 ∧ 5 % (wrOf (laneTy p.ty) / 32) ≠ 0) := by decide +kernel

/-- With frames of one unit: 8 registers. -/
def labSmallFrame : State := { lab with q := { lab.q with frames := lab.q.frames.map (fun f => { f with size8 := 1 }) } }

theorem witness_destination_outside : (∀ n ∈ [Name.v 0, .v 4, .v 6], SourceOk labSmallFrame n) ∧ 8 % (32 / 32) = 0
    ∧ 8 * labSmallFrame.frm.size8 < 8 + 32 / 32 ∧ shortName (sp 8 4 6).d = .v 8 ∧ longName (lp 0 0 8 4 6 0).d = .v 8
    ∧ (Instr.subLS (sp 8 4 6)).wf = true ∧ (Instr.popcLL (lp 0 0 8 4 6 0)).wf = true := by decide +kernel

/-- PrivilegedWords: a read-only register, written in user mode and in supervisor mode, and read in both. -/
theorem witness_read_only_registers : sysRO (sp 6 0 0).sysnum.toNat = true ∧ (sp 6 0 0).sysnum.toNat < 0x800
    ∧ allPass lab [(.wrsrUS (sp 6 0 0), srWord (sp 6 0 0) true), (.rdsrUS (sp 6 0 0), srWord (sp 6 0 0) true)] = true
    ∧ allPass labUser [(.rdsrUS (sp 6 0 0), srWord (sp 6 0 0) true)] = true ∧ lab.super = true ∧ labUser.super = false := by decide +kernel

/-- StoreFrames and LoadFrames: a quire that owes nothing, and stores of another quire that this one does not owe. -/
theorem witness_owes_nothing : OwesNothing labRW ∧ OwesNothing (labRW.cacheAll []) ∧ labRW.stores = []
    ∧ (let s : State := { labRW with stores := [{ from_ := 9, die := 0, dest := .scratch 2 8, bytes := [1] }] }
       s.partials = [] ∧ s.inbound = [] ∧ ∀ w ∈ s.stores, w.from_ ≠ s.q.uid ∧ (s.view s.q.uid).owes w.from_ w.id = false) := by
  unfold OwesNothing
  decide +kernel

theorem witness_loads_with_acquire : (∀ i ∈ [Instr.sldUS s246 1, .sldUL l2468, .sldUI (ip 2 4 0 8), .ldLL (lp 0 4 2 4 6 8)], nexts lab i = true)
    ∧ (∃ n < 128, (llMem (lp n 0 2 4 6 8)).ord = true ∧ (Instr.ldLL (lp n 0 2 4 6 8)).wf = true) := by decide +kernel

/-- EngineEvents: chunks that stop at an A row that no page maps or whose bytes a window hides, and a copy that has been resumed. -/
def labMatAt (base : DWord) : State :=
  { labMat true with matops := [{ matOp true with members := (matOp true).members.map (fun m => { m with abase := base }) }] }

theorem witness_chunk_stops :
    (match (labMatAt 0x4000000).matops with
     | [o] => (match chunkStop ((labMatAt 0x4000000).chunkRows o) with | some (_, .fault _) => true | _ => false) | _ => false) = true
    ∧ (let c : CopyOp := { copyOp true with resumed := true }
       ({ labRW with copies := [c] } : State).copies.find? (fun x => x.id = 7) = some c ∧ c.permit = true ∧ c.started = true) := by decide +kernel

/-- A cluster that holds no copy of a line, where another holds it, and where none does. -/
def labPeer : State := lab.modDie 0 (fun z => { z with clines := Sparse.set 0 (lineKeyOf 2 5) 1 z.clines })

theorem witness_peers : (∀ p < 16, p ≠ 1 → Sparse.get 0 (lineKeyOf p 5) (lab.die 0).clines ≠ 1)
    ∧ Sparse.get 0 (lineKeyOf 2 5) (labPeer.die 0).clines ≠ 0 ∧ Sparse.get 0 (lineKeyOf 1 5) (labPeer.die 0).clines = 0
    ∧ Sparse.get 0 (lineKeyOf 2 5) (labPeer.die 0).clines = 1 := by decide +kernel

/-- PackageEvents: a package that its domain has evicted while none of its ports worked. -/
def labOutcast : State := { lab with outcast := true, dies := lab.dies.map (fun z => { z with admitted := false }) }

theorem witness_own_package : labOutcast.outcast = true ∧ (∀ z ∈ labOutcast.dies, z.admitted = false)
    ∧ ({ lab with outcast := true, links := [{ die := 0, port := 16, peer := none, state := 0 }] } : State).castOut = true ∧ ({ lab with pkgs := 3, everPkgs := 3 } : State).cutOff = true ∧ lab.cutOff = false := by decide +kernel

/-- BootAndPower: curators of an image. -/
theorem witness_curators : (labOff .running [image true]).images.head? = some (image true) := rfl

/-- StepRunsDecoded: a batch that goes on in the instruction it was fetched with. -/
def labKept : State := lab.block .pause 4 aTrap

theorem witness_kept : (lab.prepare 3 0 0).q.kept 0 0 = none ∧ (labKept.q.kept 0 0).isSome = true := by decide +kernel

/-! ## Steps: the worked examples of spec/, and a few corners worked by hand -/

/-- A property of the next state of an instruction. -/
noncomputable def after (i : Instr) (s : State) (p : State → Bool) : Bool := match exec i s with | .next t => p t | _ => false
/-- A v register in every fibre of the quire. -/
def vs (t : State) (r : Nat) : List Nat := t.q.fibres.map (fun f => t.rd f (.v r) 32)
/-- The instruction leaves a list in a v register. -/
noncomputable def puts (i : Instr) (s : State) (r : Nat) (xs : List Nat) : Bool := after i s (fun t => decide (vs t r = xs))
/-- The flags that stick in the fibres. -/
def flagsOf (t : State) : List Nat := t.q.fibres.map (fun f => f.fflags.toNat)
/-- The instruction leaves a list in a v register and flags in the fibres. -/
noncomputable def putsF (i : Instr) (s : State) (r : Nat) (xs fl : List Nat) : Bool :=
  after i s (fun t => decide (vs t r = xs) && decide (flagsOf t = fl))
/-- The machine with one quire of `n` fibres. -/
def labN (n : Nat) : State := { lab with q := newQuire 3 2 0 0 0 28 n 0 }

/-- Spec 05: `add.i8` of 100 and 50 with and without `sat`, `sub.n8` of 3 and 5. -/
theorem test_narrow_results :
    puts (.addLL (lp 0 6 2 4 6 0)) (labV 6 50 (labV 4 100 lab)) 2 [0xFFFFFF96] ∧ puts (.addLL (lp 0 14 2 4 6 0)) (labV 6 50 (labV 4 100 lab)) 2 [0x7F]
    ∧ puts (.subLL (lp 0 7 2 4 6 0)) (labV 6 5 (labV 4 3 lab)) 2 [0xFE] ∧ puts (.subLL (lp 0 15 2 4 6 0)) (labV 6 5 (labV 4 3 lab)) 2 [0] := by
  decide +kernel

/-- Spec 05, R116: 3000 / 2^4 as i8 and i32. -/
theorem test_icvt :
    puts (.icvtLI (ip 2 4 14 4)) (labV 4 3000 lab) 2 [0x7F] ∧ puts (.icvtLI (ip 2 4 6 4)) (labV 4 3000 lab) 2 [0xFFFFFFBC]
    ∧ puts (.icvtLI (ip 2 4 0 (4 + 2 * 2048))) (labV 4 3000 lab) 2 [187] := by decide +kernel

/-- Spec 05, R112: a rotation by one lane, and lane 3 of every segment of four. -/
theorem test_shuffles :
    puts (.shflLI (ip 2 53 1 1)) (labN 32) 2 ((List.range 32).map (fun l => (l + 1) % 32)) ∧
    puts (.shflLI (ip 2 53 2 0x1A)) (labN 32) 2 ((List.range 32).map (fun l => l / 4 * 4 + 3)) := by decide +kernel

/-- Spec 06, R134: the three F32 values to F8A under .rne, .rtz, .rup, and .rto. -/
theorem test_fcvt :
    putsF (.fcvtLL (lp 0x41 0 2 4 0 0)) (labV 4 0x3E99999A lab) 2 [0x2A] [16] ∧ putsF (.fcvtLL (lp 0x41 16 2 4 0 0)) (labV 4 0x3E99999A lab) 2 [0x29] [16]
    ∧ putsF (.fcvtLL (lp 0x41 24 2 4 0 0)) (labV 4 0x3E99999A lab) 2 [0x2A] [16] ∧ putsF (.fcvtLL (lp 0x41 40 2 4 0 0)) (labV 4 0x437A0000 lab) 2 [0x77] [16]
    ∧ putsF (.fcvtLL (lp 0x41 0 2 4 0 0)) (labV 4 0x437A0000 lab) 2 [0x78] [20] ∧ putsF (.fcvtLL (lp 0x41 16 2 4 0 0)) (labV 4 0x437A0000 lab) 2 [0x77] [16]
    ∧ putsF (.fcvtLL (lp 0x41 0 2 4 0 0)) (labV 4 0x3A83126F lab) 2 [1] [24] ∧ putsF (.fcvtLL (lp 0x41 16 2 4 0 0)) (labV 4 0x3A83126F lab) 2 [0] [24] := by
  decide +kernel

/-- Spec 06, R135: L8 0x1B to L6 under .rne. -/
theorem test_fcvt_log : putsF (.fcvtLL (lp 0x76 0 2 4 0 0)) (labV 4 0x1B lab) 2 [0x0D] [16] := by decide +kernel

/-- Spec 06, R136: -200.5 to i8, and 70000 to F16. -/
theorem test_fcvti_and_icvtf : putsF (.fcvtiLL (lp 6 0 2 4 0 0)) (labV 4 0xC3488000 lab) 2 [0xFFFFFF80] [1]
    ∧ putsF (.icvtfLL (lp 1 2 2 4 0 0)) (labV 4 70000 lab) 2 [0x7C00] [20] := by decide +kernel

/-- Spec 06, R140: the seed of the reciprocal of 3. -/
theorem test_fseedr : puts (.fseedrLS (sp 2 4 0)) (labV 4 0x40400000 lab) 2 [0x3EAAA700] := by decide +kernel

/-- By hand: 1 / 3 and the square root of 2 to nearest, and 1 + 2^-24, a tie that goes to the even 1. -/
theorem test_fdiv_and_fsqrt : putsF (.fdivLS s246) (labV 6 0x40400000 (labV 4 0x3F800000 lab)) 2 [0x3EAAAAAB] [16]
    ∧ putsF (.fsqrtLS (sp 2 4 0)) (labV 4 0x40000000 lab) 2 [0x3FB504F3] [16]
    ∧ putsF (.faddLS s246) (labV 6 0x33800000 (labV 4 0x3F800000 lab)) 2 [0x3F800000] [16] := by decide +kernel

/-- Spec 19: `fmul v3, v1, v2` in four lanes with OF enabled. -/
def labMul (trap : BitVec 5) : State :=
  let s := (labN 4).writeLanes (.v 1) 32 none [(0, 0x40000000), (1, 0x40400000), (2, 0x7F000000), (3, 0x3EAAAAAB)]
  labTrap trap (s.writeLanes (.v 2) 32 none [(0, 0x40000000), (1, 0x40000000), (2, 0x40000000), (3, 0x40400000)])
/-- In user mode with a handler at 4096. -/
def labHandled (s : State) : State := s.modFolio 2 (fun f => { f with sup := false, record := 1 <<< 460 })
/-- What the machine holds of a trap: its cause and lanes. -/
def heldOf (t : State) : List (Nat × Nat) := (t.die 0).held.map (fun h => (h.trap.code, h.trap.elanes.toNat))
/-- The entry of a lane in a held record: A, B, DEF, EXC, SETF, and WR. -/
def laneOf (t : State) (l : Nat) : List (List Nat) :=
  (t.die 0).held.flatMap (fun h => (h.trap.lanes.filter (fun x => x.1 = l)).map (fun x =>
    [x.2.a.toNat, x.2.b.toNat, x.2.dflt.toNat, x.2.exc.toNat, x.2.setf.toNat, x.2.wr.toNat]))

theorem test_fmul_trap : parse 0x2400C108 0 = some (.fmulLS (sp 3 1 2))
    ∧ after (.fmulLS (sp 3 1 2)) (labHandled (labMul 4)) (fun t => decide (heldOf t = [(3, 4)]) && decide (vs t 3 = [0, 0, 0, 0]) && decide (flagsOf t = [0, 0, 0, 0]))
    ∧ after (.fmulLS (sp 3 1 2)) (labHandled (labMul 4)) (fun t => decide (laneOf t 2 = [[0x7F000000, 0x40000000, 0x7F800000, 0x14, 0, 1]])
        && decide (((laneOf t 3).map (fun x => x.drop 4)) = [[0x10, 1]]))
    ∧ putsF (.fmulLS (sp 3 1 2)) (labMul 0) 3 [0x40800000, 0x40C00000, 0x7F800000, 0x3F800000] [0, 0, 20, 16] := by decide +kernel

/-- Spec 11, R235: four fibres compare and swap one word that holds 7. -/
def labCas : State :=
  let s := (labN 4).writeLanes (.v 4) 32 none [(0, 3), (1, 7), (2, 7), (3, 7)]
  (labS 4 0x100 (((s.writeLanes (.v 5) 32 none [(0, 50), (1, 7), (2, 60), (3, 70)])).putBytes 0xC000 (leBytes 8 (0x4000 * 16 + 2)))).putBytes 0x4000100 [7]

theorem test_cas : after (.casLL (lp 0x20 1 4 0xF4 0xEC 0)) labCas (fun t =>
    decide (vs t 4 = [7, 7, 7, 60]) && decide (t.q.fibres.map (fun f => f.pred 2) = [false, true, true, false]) && decide (t.homeByte 0 0x4000100 = 60)) := by
  decide +kernel

/-- Spec 02, R30: member lanes 0 and 2 that hold 0 and 2 tag base 0 and stride 1. -/
theorem test_tag : tagOf [(0, 0), (2, 2)] = .a 0 1 := by decide +kernel

/-- Spec 19, R376: `sys #3` and `trap #1`. -/
theorem test_sys : parse 0xE000C000 0 = some (.sysUS (sp 3 0 0)) ∧ parse 0xE0004001 0 = some (.trapUS (sp 1 0 0))
    ∧ after (.sysUS (sp 3 0 0)) (labCurator false) (fun t => decide (t.q.tregs.cause.toNat % 65536 = 0x123 ∧ t.q.tregs.elanes = 1 ∧ t.q.inFlag = true))
    ∧ after (.trapUS (sp 1 0 0)) (labHandled lab) (fun t => decide (heldOf t = [(0xA1, 1)])) := by
  decide +kernel

/-- Spec 19, R382: the words of `rdsr` and `wrsr` that it writes out. -/
theorem test_rdsr_words : parse 0xE6014000 0 = some (.rdsrUS (sp 5 0 0)) ∧ (parse 0xE6020100 0).isSome ∧ (parse 0xE601F000 0).isSome
    ∧ (parse 0xE6019201 0).isSome := by decide +kernel

/-- Spec 04, R87: the logical offset 404 of the descriptor 0x8760. -/
theorem test_swizzle : swizzle 0x8760 404 = 420 := by decide +kernel

/-- Spec 07, R173: three entries and the candidates 4.0, 0.5, a NaN, and 100.0, with N = 3 and base 32. -/
def labTopk : Quire :=
  let q := [((0 : Nat), (1 : Nat), (0x3FF0000000000000 : Nat), (7 : Nat)), (0, 2, 0x4010000000000000, 3), (0, 3, 0x4022000000000000, 12)].foldl
    (fun (z : Quire) x => z.setCell 1 0 (x.2.1 - 1) (BitVec.ofNat 128 (x.2.2.1 + x.2.2.2 * 2 ^ 64 + 2 ^ 96))) lab.q
  (List.range 32).foldl (fun (z : Quire) j => z.setCell 2 0 j (cellOf (match j with
    | 0 => 0x4010000000000000 | 1 => 0x3FE0000000000000 | 2 => 0x7FF8000000000000 | _ => 0x4059000000000000) 0)) q

theorem test_mtopk : (List.range 4).map (fun j => ((labTopk.topkRow 1 2 3 32 false false 0).cell 1 0 j).toNat) =
    [0x3FE0000000000000 + 33 * 2 ^ 64 + 2 ^ 96, 0x3FF0000000000000 + 7 * 2 ^ 64 + 2 ^ 96, 0x4010000000000000 + 3 * 2 ^ 64 + 2 ^ 96, 0] := by
  decide +kernel

end Sys2Proof.Tests
end

section
/-! The parties: performing stores and letting writes arrive moves bytes, copies, views and subscriptions, and leaves every quire and
folio as it is (R211, R238, R290). -/

namespace Sys2Proof.Machine

/-- The issuing quire, the other quires, the folios and the saved units. -/
def State.parties (s : State) : Quire × List Quire × List Folio × List Saved := (s.q, s.rest, s.folios, s.saved)

variable {s : State}

theorem State.parties_eq_iff {t : State} :
    t.parties = s.parties ↔ t.q = s.q ∧ t.rest = s.rest ∧ t.folios = s.folios ∧ t.saved = s.saved := by
  simp [State.parties]

/-- The issuing folio is of the parties, and so is where a folio's core lies. -/
theorem State.sameCore_of_parties {t : State} (h : t.parties = s.parties) (fid : Nat) : t.sameCore fid = s.sameCore fid := by
  obtain ⟨hq, -, hf, hs⟩ := State.parties_eq_iff.mp h
  have folio : ∀ i, t.folio i = s.folio i := fun i => by simp [State.folio, hf, hs]
  unfold State.sameCore State.fol
  rw [hq, folio fid, folio s.q.fid]

/-! ## Bytes at a home, in copies and in scratchpads -/

@[simp] theorem State.putRaw_parties (s : State) (kid pa : Nat) (bs : List Byte) : (s.putRaw kid pa bs).parties = s.parties := by
  simp [State.parties]

@[simp] theorem State.keepShadows_parties (s : State) (pa : Nat) (xs : List Nat) :
    (xs.foldl (fun (t : State) i => t.keepShadow (pa + i)) s).parties = s.parties :=
  State.foldl_keeps State.parties (f := fun (t : State) i => t.keepShadow (pa + i)) (fun _ _ => rfl) xs s

@[simp] theorem State.tagged_parties (s : State) (key : Nat) (bs : List Byte) (d : Nat) (rs : List Rel) :
    (s.tagged key bs d rs).parties = s.parties := rfl

@[simp] theorem State.combine_parties (s : State) (p : Partial) : (s.combine p).parties = s.parties :=
  (State.putRaw_parties _ _ _ _).trans (State.keepShadows_parties s p.pa _)

@[simp] theorem State.combineAll_parties (s : State) (ps : List Partial) : (s.combineAll ps).parties = s.parties :=
  State.foldl_keeps State.parties State.combine_parties ps _

@[simp] theorem State.leaveL1_parties (s : State) (d core line : Nat) : (s.leaveL1 d core line).parties = s.parties := by
  unfold State.leaveL1; split <;> rfl

@[simp] theorem State.evictPartial_parties (s : State) (die core line : Nat) : (s.evictPartial die core line).parties = s.parties := by
  unfold State.evictPartial; dsimp only; split
  · rw [State.combineAll_parties, State.leaveL1_parties]
  · refine (State.foldl_keeps State.parties (fun t p => ?_) _ _).trans (State.leaveL1_parties s die core line)
    refine Eq.trans (b := State.parties (if _ then _ else _)) rfl ?_
    split
    · exact State.combineAll_parties _ _
    · rfl

@[simp] theorem State.recallLine_parties (s : State) (line : Nat) : (s.recallLine line).parties = s.parties := by
  have evicts : ∀ (d : Nat) (cs : List Nat) (t : State),
      (cs.foldl (fun (t : State) c => t.evictPartial d c line) t).parties = t.parties :=
    fun d cs t => State.foldl_keeps State.parties (fun t c => State.evictPartial_parties t d c line) cs t
  unfold State.recallLine; split
  · rfl
  · exact (State.foldl_keeps State.parties (fun t d => (State.combineAll_parties _ _).trans (evicts d _ t)) _ _).trans (evicts _ _ s)

@[simp] theorem State.addCopy_parties (s : State) (d : Nat) (x : Attr) (line : Nat) : (s.addCopy d x line).parties = s.parties := by
  simp [State.parties, State.addCopy]

@[simp] theorem State.storeBytes_parties (s : State) (d : Nat) (x : Attr) (pa : Nat) (bs : List Byte) (rels : List Rel) (by_ : Option Nat) :
    (s.storeBytes d x pa bs rels by_).parties = s.parties := by
  have home : ∀ t : State, (t.putHome x.kid pa bs).parties = t.parties := fun t => by simp [State.putHome]
  unfold State.storeBytes; dsimp only; split
  · have atHome := (home ((List.range bs.length).foldl (fun (t : State) i => t.keepShadow (pa + i)) (s.recallLine (pa / 64)))).trans
      ((State.keepShadows_parties _ pa _).trans (State.recallLine_parties s _))
    generalize State.putHome _ x.kid pa bs = u at atHome
    split
    · exact atHome
    · exact atHome
  · have copied : (if ((s.die d).copyOf (pa / 64)).isSome then s else s.addCopy d x (pa / 64)).parties = s.parties := by
      split
      · rfl
      · exact State.addCopy_parties s d x _
    generalize (if ((s.die d).copyOf (pa / 64)).isSome = true then s else s.addCopy d x (pa / 64)) = u at copied
    exact copied

@[simp] theorem State.scratchWrite_parties (s : State) (fid off : Nat) (bs : List Byte) (rels : List Rel) (by_ : Option Nat) :
    (s.scratchWrite fid off bs rels by_).parties = s.parties := by
  unfold State.scratchWrite; split
  · exact State.foldl_keeps State.parties (fun t _ => State.putRaw_parties t _ _ _) _ s
  · rfl

@[simp] theorem State.markPoison_parties (s : State) (bad : Bool) (loc n : Nat) : (s.markPoison bad loc n).parties = s.parties := by
  unfold State.markPoison; split <;> rfl

/-! ## Views, and writes that arrive -/

@[simp] theorem State.keepNow_parties (s : State) (uid d : Nat) (t : Target) (n : Nat) (p : Path) :
    (s.keepNow uid d t n p).parties = s.parties := by
  unfold State.keepNow State.keepCoherent; split <;> rfl

@[simp] theorem State.wroteNow_parties (s : State) (uid d : Nat) (t : Target) (n : Nat) (p : Path) :
    (s.wroteNow uid d t n p).parties = s.parties := by
  unfold State.wroteNow; dsimp only; split
  · exact State.keepNow_parties s uid d t n p
  · exact State.keepNow_parties s uid d t n p

@[simp] theorem State.wroteStore_parties (s : State) (uid id die : Nat) (t : Target) (n : Nat) :
    (s.wroteStore uid id die t n).parties = s.parties :=
  (State.foldl_keeps State.parties (fun z u => State.keepNow_parties z u die t n .core) _ _).trans (State.wroteNow_parties s uid die t n .core)

@[simp] theorem State.land_parties (s : State) (w : Inbound) : (s.land w).parties = s.parties := by
  unfold State.land; split
  · dsimp only; split
    · rw [State.markPoison_parties, State.scratchWrite_parties]
    · rw [State.wroteStore_parties, State.markPoison_parties, State.scratchWrite_parties]
  · rfl

@[simp] theorem State.settle_parties (s : State) (pick : Inbound → Bool) : (s.settle pick).parties = s.parties :=
  State.foldl_keeps State.parties State.land_parties _ _

/-! ## Subscriptions, and stores that are performed -/

@[simp] theorem State.sendBad_parties (s : State) (bad : Bool) : (s.sendBad bad).parties = s.parties := by
  unfold State.sendBad; split <;> rfl

@[simp] theorem State.flushSub_parties (s : State) (x : Sub) : (s.flushSub x).parties = s.parties :=
  State.foldl_keeps State.parties (fun t _ => State.sendBad_parties (t.send _ _ _ _ _ _) _) x.buf _

@[simp] theorem State.forwardGranule_parties (s : State) (uid id off : Nat) : (s.forwardGranule uid id off).parties = s.parties := by
  unfold State.forwardGranule; split
  · rfl
  · dsimp only; split
    · rfl
    · refine Eq.trans (b := State.parties (if _ then _ else _)) rfl ?_
      split
      · exact State.flushSub_parties s _
      · rfl

@[simp] theorem State.forward_parties (s : State) (uid fid off n : Nat) : (s.forward uid fid off n).parties = s.parties :=
  State.foldl_keeps State.parties
    (fun t _ => State.foldl_keeps State.parties (fun t _ => State.forwardGranule_parties t _ _ _) _ t) _ s

theorem State.perform_parties (x : Store) {t : State} (ht : s.perform x = some t) : t.parties = s.parties := by
  unfold State.perform at ht
  split at ht
  · split at ht
    · cases ht; rw [State.wroteStore_parties, State.storeBytes_parties]
    · cases ht; rfl
    · cases ht
  · cases ht; split
    · rw [State.forward_parties, State.wroteStore_parties, State.scratchWrite_parties]
    · rfl

theorem performAll_parties (pick : Store → Bool) (xs : List Store) (s : State) : (performAll pick xs s).parties = s.parties := by
  induction xs generalizing s with
  | nil => rfl
  | cons x xs ih =>
    unfold performAll; dsimp only; split
    · split
      · next t ht => exact (ih t).trans (State.perform_parties x ht)
      · exact ih _
    · exact ih _

@[simp] theorem State.performStores_parties (s : State) (pick : Store → Bool) : (s.performStores pick).parties = s.parties := by
  unfold State.performStores; split
  · exact performAll_parties pick _ _
  · rfl

@[simp] theorem State.owedStores_parties (s : State) (t : Target) (n : Nat) : (s.owedStores t n).parties = s.parties := by
  unfold State.owedStores; dsimp only; split
  · rfl
  · exact State.performStores_parties s _

@[simp] theorem State.settleOwedAt_parties (s : State) (t : Target) (n : Nat) : (s.settleOwedAt t n).parties = s.parties := by
  unfold State.settleOwedAt; dsimp only; split
  · split
    · rfl
    · exact State.settle_parties s _
  · rfl

end Sys2Proof.Machine
end

section
/-! What a quire has stored and nobody else has seen, it reads back, element by element (R282, R290). -/

namespace Sys2Proof.Machine

variable {s : State}

/-! ## The elements of an access -/

/-- The first `m` elements of an access hold its bytes up to the `m`-th 8-byte boundary. -/
theorem elementParts_take (r n m : Nat) (bs : List Byte) :
    (List.range m).flatMap (fun i => (bs.drop (8 * i - r)).take (min n (8 * (i + 1) - r) - (8 * i - r))) = bs.take (min n (8 * m - r)) := by
  induction m with
  | zero => simp
  | succ m ih =>
    rw [List.range_succ, List.flatMap_append, ih, List.flatMap_singleton]
    rcases Nat.le_total (8 * m - r) n with h | h
    · rw [Nat.min_eq_right h, ← List.take_add]
      congr 1; omega
    · rw [Nat.min_eq_left h, Nat.min_eq_left (by omega), Nat.sub_eq_zero_of_le h]
      simp

/-- The elements of an access of `n` bytes are those bytes, in order (R282). -/
theorem Target.elements_parts (t : Target) {n : Nat} {bs : List Byte} (hn : bs.length = n) :
    (t.elements n).flatMap (fun e => (bs.drop e.1).take e.2) = bs := by
  unfold Target.elements
  rw [List.flatMap_map, elementParts_take, List.take_of_length_le]
  omega

/-- Every byte of an access lies in one of its elements. -/
theorem Target.exists_element (t : Target) {n i : Nat} (hi : i < n) : ∃ e ∈ t.elements n, e.1 ≤ i ∧ i < e.1 + e.2 := by
  refine ⟨_, List.mem_map_of_mem (List.mem_range.mpr (show (t.loc % 8 + i) / 8 < _ by omega)), ?_, ?_⟩
  · dsimp only; omega
  · dsimp only; omega

/-- No element goes beyond the access. -/
theorem Target.element_le {t : Target} {n : Nat} {e : Nat × Nat} (he : e ∈ t.elements n) : e.1 + e.2 ≤ n := by
  obtain ⟨i, hi, rfl⟩ := List.mem_map.mp he
  have := List.mem_range.mp hi
  dsimp only; omega

/-! ## The value of a quire's own stores -/

/-- A store of a quire that holds one element of the bytes `bs` at a target. -/
structure Store.IsPart (x : Store) (uid : Nat) (t : Target) (bs : List Byte) (e : Nat × Nat) : Prop where
  from_eq : x.from_ = uid
  loc_eq : x.dest.loc = t.loc + e.1
  bytes_eq : x.bytes = (bs.drop e.1).take e.2

/-- The latest store decides the bytes that it holds; of the others the earlier ones are asked. -/
theorem State.ownByte_append {z : State} {x : Store} {uid : Nat} {t : Target} {bs : List Byte} {e : Nat × Nat} {y : State}
    (hz : z.stores = y.stores ++ [x]) (hx : x.IsPart uid t bs e) (he : e.1 + e.2 ≤ bs.length) (i : Nat) :
    z.ownByte uid t i = if e.1 ≤ i ∧ i < e.1 + e.2 then some (bs.getD i 0) else y.ownByte uid t i := by
  obtain ⟨hf, hl, hb⟩ := hx
  have len : x.bytes.length = e.2 := by rw [hb, List.length_take, List.length_drop]; omega
  unfold State.ownByte
  rw [hz, List.reverse_append, List.reverse_singleton, List.singleton_append]
  dsimp only; rw [List.find?_cons]
  by_cases hi : e.1 ≤ i ∧ i < e.1 + e.2
  · have covers : (x.from_ = uid && x.dest.loc ≤ t.loc + i && t.loc + i < x.dest.loc + x.bytes.length) = true := by
      simp [hf, hl, len]; omega
    have idx : t.loc + i - x.dest.loc = i - e.1 := by omega
    rw [if_pos hi, covers, Option.map_some, idx, hb]
    simp [List.getD_eq_getElem?_getD, List.getElem?_drop, show i - e.1 < e.2 by omega, show e.1 + (i - e.1) = i by omega]
  · have misses : (x.from_ = uid && x.dest.loc ≤ t.loc + i && t.loc + i < x.dest.loc + x.bytes.length) = false := by
      simp [hf, hl, len]; omega
    rw [if_neg hi, misses]

/-- Once every element has been posted, the quire's own stores hold every byte. -/
theorem State.ownByte_foldl {f : State → Nat × Nat → State} {uid : Nat} {t : Target} {bs : List Byte}
    (hf : ∀ z e, ∃ x : Store, (f z e).stores = z.stores ++ [x] ∧ x.IsPart uid t bs e) {i : Nat} :
    ∀ (es : List (Nat × Nat)) (z : State), (∀ e ∈ es, e.1 + e.2 ≤ bs.length) →
      ((∃ e ∈ es, e.1 ≤ i ∧ i < e.1 + e.2) ∨ z.ownByte uid t i = some (bs.getD i 0)) →
      (es.foldl f z).ownByte uid t i = some (bs.getD i 0)
  | [], _, _, h => by
    rcases h with ⟨e, he, -⟩ | h
    · cases he
    · exact h
  | e :: es, z, hle, h => by
    obtain ⟨x, hx, hp⟩ := hf z e
    have one := State.ownByte_append hx hp (hle e List.mem_cons_self) i
    refine State.ownByte_foldl hf es (f z e) (fun e' he' => hle e' (List.mem_cons_of_mem _ he')) ?_
    by_cases hi : e.1 ≤ i ∧ i < e.1 + e.2
    · exact .inr (by rw [one, if_pos hi])
    · rcases h with ⟨e', he', hi'⟩ | h
      · rcases List.mem_cons.mp he' with rfl | he'
        · exact absurd hi' hi
        · exact .inl ⟨e', he', hi'⟩
      · exact .inr (by rw [one, if_neg hi, h])

/-- A store in memory or in a scratchpad of the issuing core is posted element by element: afterwards the quire's own stores hold its
bytes, whatever they held before (R290). -/
theorem State.ownByte_storeTo (s : State) {t : Target} {n v lane i : Nat}
    (ht : (∃ x pa, t = .mem x pa) ∨ ∃ fid off, t = .scratch fid off ∧ s.sameCore fid = true) (hi : i < n) :
    (s.storeTo t n v lane).ownByte s.q.uid t i = some ((leBytes n v).getD i 0) := by
  have hp : ((s.owedStores t n).settleOwedAt t n).parties = s.parties := by simp
  have hq := (State.parties_eq_iff.mp hp).1
  have hc := State.sameCore_of_parties hp
  unfold State.storeTo; dsimp only
  generalize (s.owedStores t n).settleOwedAt t n = u at hq hc
  rw [hq]
  refine State.ownByte_foldl (fun z e => ?_) _ _ (fun e he => ?_) (.inl (t.exists_element hi))
  · rcases ht with ⟨x, pa, rfl⟩ | ⟨fid, off, rfl, hfid⟩
    · exact ⟨_, rfl, rfl, rfl, rfl⟩
    · dsimp only
      rw [hc, hfid, if_pos rfl]
      exact ⟨_, rfl, rfl, (Nat.add_assoc _ _ _).symm, rfl⟩
  · rw [leBytes_length]; exact Target.element_le he

/-- A read whose every byte the quire's own stores hold gives their number, however old the bytes are that it would have read. -/
theorem State.coreRead_of_ownByte {uid : Nat} {t : Target} {n : Nat} {bs : List Byte} (hn : bs.length = n)
    (own : ∀ i, i < n → s.ownByte uid t i = some (bs.getD i 0)) (d salt : Nat) : s.coreRead uid d t n salt = leNat bs := by
  have part : ∀ e ∈ t.elements n, ∀ time, ((s.pastBytes d t e.1 e.2 time).zipIdx).map (fun b => (s.ownByte uid t (e.1 + b.2)).getD b.1)
      = (bs.drop e.1).take e.2 := by
    intro e he time
    have hle := Target.element_le he
    apply List.ext_getElem
    · simp only [State.pastBytes, List.length_map, List.length_zipIdx, List.length_range, List.length_take, List.length_drop]
      omega
    · intro j h1 h2
      have hj : j < e.2 := by simpa only [State.pastBytes, List.length_map, List.length_zipIdx, List.length_range] using h1
      have hb : e.1 + j < bs.length := by omega
      simp only [List.getElem_map, List.getElem_zipIdx, Nat.zero_add, own (e.1 + j) (by omega), Option.getD_some, List.getElem_take,
        List.getElem_drop, List.getD_eq_getElem?_getD, List.getElem?_eq_getElem hb]
  unfold State.coreRead State.readPlan
  rw [List.flatMap_map, List.flatMap_def, List.map_congr_left (fun e he => part e he _), ← List.flatMap_def, Target.elements_parts t hn]

/-- R290: a quire reads what it has stored, whoever else has seen it. -/
theorem State.coreRead_storeTo (s : State) {t : Target} (n v lane d salt : Nat)
    (ht : (∃ x pa, t = .mem x pa) ∨ ∃ fid off, t = .scratch fid off ∧ s.sameCore fid = true) :
    (s.storeTo t n v lane).coreRead s.q.uid d t n salt = v % 256 ^ n := by
  rw [State.coreRead_of_ownByte (leBytes_length n v) (fun i hi => State.ownByte_storeTo s ht hi), leNat_leBytes]

end Sys2Proof.Machine
end

section
/-! What a store at the home die leaves to read there under its key (R190, R238, R359). -/

namespace Sys2Proof.Machine

variable {s : State}

/-- What memory answers under the key `k` of a byte that was written under the key `k0` (R359). -/
def decrypted (k0 k pa : Nat) (b : Byte) : Byte := if k0 = k then b else Config.recrypt k0 k pa b

theorem decrypted_self (k pa : Nat) (b : Byte) : decrypted k k pa b = b := if_pos rfl

theorem State.plain_eq_decrypted (s : State) (kid pa : Nat) :
    s.plain kid pa = decrypted (Sparse.get 0 (pa / 64) s.lineKey) (s.keyCode kid pa) pa (s.byte pa) := rfl

/-! ## Addresses of one line -/

theorem paPkg_of_line {pa pb : Nat} (h : pb / 64 = pa / 64) : paPkg pb = paPkg pa := by unfold paPkg; omega
theorem paDie_of_line {pa pb : Nat} (h : pb / 64 = pa / 64) : paDie pb = paDie pa := by unfold paDie; omega

theorem State.keyCode_of_line (s : State) (kid : Nat) {pa pb : Nat} (h : pb / 64 = pa / 64) : s.keyCode kid pb = s.keyCode kid pa := by
  simp only [State.keyCode, paPkg_of_line h]

theorem State.isHome_of_line (s : State) (d : Nat) {pa pb : Nat} (h : pb / 64 = pa / 64) : s.isHome d pb = s.isHome d pa := by
  simp only [State.isHome, paPkg_of_line h, paDie_of_line h]

theorem State.keyCode_congr {t : State} (hk : t.keys = s.keys) (hp : t.pkgid = s.pkgid) (kid pa : Nat) : t.keyCode kid pa = s.keyCode kid pa := by
  simp only [State.keyCode, hk, hp]

/-! ## The key of a line -/

/-- The key under which a line stands once it has been brought under a key: that key, where the table of keys is in canonical form or the
key is not the default. In a table with two entries for the line the default key uncovers the second. -/
theorem State.key_rekey (kid pa : Nat) (h : Sparse.wf 0 s.lineKey = true ∨ s.keyCode kid pa ≠ 0) :
    Sparse.get 0 (pa / 64) (s.rekey kid pa).lineKey = s.keyCode kid pa := by
  unfold State.rekey; dsimp only; split
  · assumption
  · rcases h with h | h
    · exact Sparse.get_set_self 0 _ _ _ h
    · simp only [Sparse.set, if_neg h]; exact Sparse.get_insert_self 0 _ _ _

/-- The key that a line comes under does not depend on memory. -/
theorem State.rekey_lineKey_congr {t : State} (hl : t.lineKey = s.lineKey) (hk : t.keys = s.keys) (hp : t.pkgid = s.pkgid) (kid pa : Nat) :
    (t.rekey kid pa).lineKey = (s.rekey kid pa).lineKey := by
  unfold State.rekey
  rw [hl, State.keyCode_congr hk hp]
  dsimp only; split
  · exact hl
  · rfl

/-! ## A store at the home -/

/-- With no partials, a line is as its home holds it. -/
theorem State.recallLine_of_no_partials (h : s.partials = []) (line : Nat) : s.recallLine line = s := by
  unfold State.recallLine; simp [h]

theorem State.putRaw_mem_of_no_replica {pa : Nat} (h : s.replicaOf pa = none) (kid : Nat) (bs : List Byte) :
    (s.putRaw kid pa bs).mem = ((s.rekey kid pa).putBytes pa bs).mem := by
  unfold State.putRaw; rw [h]; rfl

theorem State.putRaw_lineKey_of_no_replica {pa : Nat} (h : s.replicaOf pa = none) (kid : Nat) (bs : List Byte) :
    (s.putRaw kid pa bs).lineKey = (s.rekey kid pa).lineKey := by
  unfold State.putRaw; rw [h]; rfl

/-- Bytes of one line, written at a home without a replica and read there under the same key. -/
theorem State.plain_putRaw (h : s.Canon) {pa k : Nat} {bs : List Byte} (hr : s.replicaOf pa = none) (hk : k < bs.length)
    (hl : (pa + k) / 64 = pa / 64) (kid : Nat) :
    (s.putRaw kid pa bs).plain kid (pa + k) =
      decrypted (Sparse.get 0 (pa / 64) (s.rekey kid pa).lineKey) (s.keyCode kid pa) (pa + k) bs[k] := by
  have hb : (s.putRaw kid pa bs).byte (pa + k) = bs[k] := by
    unfold State.byte; rw [State.putRaw_mem_of_no_replica hr]
    exact State.byte_putBytes_in (State.rekey_canon h kid pa) hk
  rw [State.plain_eq_decrypted, hb, hl, State.putRaw_lineKey_of_no_replica hr, State.keyCode_of_line _ _ hl,
    State.keyCode_congr (State.putRaw_keys s _ _ _) (State.putRaw_pkgid s _ _ _)]

/-- The state in which the values of `n` bytes have joined those that a `dsc` may leave (R214). -/
def State.shadowed (s : State) (pa n : Nat) : State := (List.range n).foldl (fun (t : State) i => t.keepShadow (pa + i)) s

theorem State.shadowed_keeps {β : Type} (g : State → β) (hg : ∀ (t : State) (a : Nat), g (t.keepShadow a) = g t) (s : State) (pa n : Nat) :
    g (s.shadowed pa n) = g s := State.foldl_keeps g (fun t i => hg t (pa + i)) _ s

/-- A store at the home die goes to memory. -/
theorem State.storeBytes_of_home {d pa : Nat} (hd : s.isHome d pa = true) (hp : s.partials = []) (x : Attr) (bs : List Byte) :
    s.storeBytes d x pa bs = ((s.shadowed pa bs.length).putRaw x.kid pa bs).tagged pa bs d [] := by
  have np : (s.shadowed pa bs.length).partials = [] := (s.shadowed_keeps State.partials (fun _ _ => rfl) pa _).trans hp
  unfold State.storeBytes; dsimp only
  rw [if_pos (.inl hd), if_pos (.inl hd), State.recallLine_of_no_partials hp]
  exact congrArg (fun (t : State) => (t.putRaw x.kid pa bs).tagged pa bs d []) (State.recallLine_of_no_partials np _)

/-- A read at the home die is a read of memory. -/
theorem State.seeByte_of_home {d pa : Nat} (hd : s.isHome d pa = true) (hp : s.partials = []) (x : Attr) :
    s.seeByte d x pa = s.plain x.kid pa := by
  unfold State.seeByte State.readsHome State.homeByte
  rw [hd, State.recallLine_of_no_partials hp]; rfl

/-- A byte of a store at the home die reads there under the store's key as it was stored, deciphered from the key that the line has come
under. -/
theorem State.seeByte_storeBytes (h : s.Canon) {d pa k : Nat} {x : Attr} {bs : List Byte} (hd : s.isHome d pa = true) (hp : s.partials = [])
    (hr : s.replicaOf pa = none) (hn : pa % 64 + bs.length ≤ 64) (hk : k < bs.length) :
    (s.storeBytes d x pa bs).seeByte d x (pa + k) =
      decrypted (Sparse.get 0 (pa / 64) (s.rekey x.kid pa).lineKey) (s.keyCode x.kid pa) (pa + k) bs[k] := by
  have hl : (pa + k) / 64 = pa / 64 := by omega
  rw [State.storeBytes_of_home hd hp]
  have keys := s.shadowed_keeps State.keys (fun _ _ => rfl) pa bs.length
  have pkgid := s.shadowed_keeps State.pkgid (fun _ _ => rfl) pa bs.length
  have lineKey := s.shadowed_keeps State.lineKey (fun _ _ => rfl) pa bs.length
  have partials := s.shadowed_keeps State.partials (fun _ _ => rfl) pa bs.length
  have replica := s.shadowed_keeps (fun t => t.replicaOf pa) (fun _ _ => rfl) pa bs.length
  have canon : (s.shadowed pa bs.length).Canon := State.keepShadows_canon h pa _
  generalize s.shadowed pa bs.length = u at keys pkgid lineKey partials replica canon
  have home : ((u.putRaw x.kid pa bs).tagged pa bs d []).isHome d (pa + k) = true := by
    rw [State.isHome_of_line _ d hl, ← hd]
    simp only [State.isHome, State.tagged, State.putRaw_pkgid, pkgid]
  have np : ((u.putRaw x.kid pa bs).tagged pa bs d []).partials = [] := (State.putRaw_partials u _ _ _).trans (partials.trans hp)
  calc ((u.putRaw x.kid pa bs).tagged pa bs d []).seeByte d x (pa + k)
      = (u.putRaw x.kid pa bs).plain x.kid (pa + k) := State.seeByte_of_home home np x
    _ = decrypted (Sparse.get 0 (pa / 64) (u.rekey x.kid pa).lineKey) (u.keyCode x.kid pa) (pa + k) bs[k] :=
        State.plain_putRaw canon (replica.trans hr) hk hl x.kid
    _ = _ := by rw [State.rekey_lineKey_congr lineKey keys pkgid, State.keyCode_congr keys pkgid]

/-- R211, R238: where the table of line keys is in canonical form, a store on the home die is read back there under its key. -/
theorem State.seeByte_storeBytes_of_wf (h : s.Canon) (hw : Sparse.wf 0 s.lineKey = true) {d pa k : Nat} {x : Attr} {bs : List Byte}
    (hd : s.isHome d pa = true) (hp : s.partials = []) (hr : s.replicaOf pa = none) (hn : pa % 64 + bs.length ≤ 64) (hk : k < bs.length) :
    (s.storeBytes d x pa bs).seeByte d x (pa + k) = bs[k] := by
  rw [State.seeByte_storeBytes h hd hp hr hn hk, State.key_rekey x.kid pa (.inl hw), decrypted_self]

/-- Byte `k` of a number (R1). -/
theorem getElem_leBytes (n v k : Nat) (h : k < (leBytes n v).length) : (leBytes n v)[k] = BitVec.ofNat 8 (v / 256 ^ k) := by
  induction n generalizing v k with
  | zero => cases h
  | succ n ih =>
    cases k with
    | zero => simp [leBytes]
    | succ k =>
      have := ih (v / 256) k (by simpa [leBytes] using h)
      simp only [leBytes, List.getElem_cons_succ, this, Nat.div_div_eq_div_mul, Nat.pow_succ, Nat.mul_comm (256 ^ k)]

end Sys2Proof.Machine
end

section
/-! What ReadAfterWrite says as it stands: its hypotheses ask for the canonical form of memory, and not for that of the table of line keys,
so that its third clause also speaks of lines with two keys, which `Config.recrypt` then decides. -/

namespace Sys2Proof.Claims

open Sys2Proof.Machine

/-- The default key reads every byte as it was stored, whatever key its line was written under. -/
def DefaultKeyReadsAll : Prop := ∀ k pa b, k ≠ 0 → Config.recrypt k 0 pa b = b

/-- A machine whose table of line keys has two entries for the line of an address. -/
def twoKeys (pa k : Nat) : State := { pkgid := paPkg pa, lineKey := [(pa / 64, 1), (pa / 64, k)] }

theorem isHome_twoKeys (pa k : Nat) : (twoKeys pa k).isHome (paDie pa) pa = true := by simp [State.isHome, twoKeys]

theorem replicaOf_twoKeys (pa k : Nat) : (twoKeys pa k).replicaOf pa = none := by
  simp [State.replicaOf, State.rlen, State.mgmt, State.die, twoKeys, Sparse.get]

/-- A store under the default key erases the first entry and so brings the second to light. -/
theorem key_rekey_twoKeys (pa k : Nat) : Sparse.get 0 (pa / 64) ((twoKeys pa k).rekey 0 pa).lineKey = k := by
  simp [State.rekey, State.keyCode, twoKeys, Sparse.get, Sparse.set, Sparse.erase]

/-- What a store under the default key leaves to read in that machine. -/
theorem seeByte_twoKeys (pa k : Nat) (b : Byte) :
    ((twoKeys pa k).storeBytes (paDie pa) {} pa [b]).seeByte (paDie pa) {} pa = decrypted k 0 pa b := by
  have see := State.seeByte_storeBytes (s := twoKeys pa k) rfl (x := {}) (bs := [b]) (k := 0) (isHome_twoKeys pa k) rfl (replicaOf_twoKeys pa k)
    (by simp; omega) Nat.one_pos
  rw [key_rekey_twoKeys] at see
  simpa [State.keyCode, twoKeys] using see

/-- If the default key reads all, a store on the home die is read back, whatever the table of line keys holds. -/
theorem seeByte_storeBytes_of_default (H : DefaultKeyReadsAll) {s : State} (h : s.Canon) {d pa k : Nat} {x : Attr} {bs : List Byte}
    (hd : s.isHome d pa = true) (hp : s.partials = []) (hr : s.replicaOf pa = none) (hn : pa % 64 + bs.length ≤ 64) (hk : k < bs.length) :
    (s.storeBytes d x pa bs).seeByte d x (pa + k) = bs[k] := by
  rw [State.seeByte_storeBytes h hd hp hr hn hk]
  by_cases hc : s.keyCode x.kid pa = 0
  · unfold decrypted; split
    · rfl
    · next hne => rw [hc] at hne ⊢; exact H _ _ _ hne
  · rw [State.key_rekey x.kid pa (.inr hc), decrypted_self]

/-- ReadAfterWrite says exactly as much as that the default key reads every byte as it was stored. `Config.recrypt` has no body (log 69),
so that neither the statement nor its negation follows from the model; with a canonical table of line keys its third clause is
`State.seeByte_storeBytes_of_wf`. -/
theorem readAfterWrite_iff_defaultKeyReadsAll : Obligations.ReadAfterWrite ↔ DefaultKeyReadsAll := by
  unfold Obligations.ReadAfterWrite
  constructor
  · intro h k pa b hk
    obtain ⟨-, -, home, -⟩ := h (twoKeys pa k) rfl
    obtain ⟨-, see⟩ := home (paDie pa) pa 1 b.toNat {} (isHome_twoKeys pa k) rfl (replicaOf_twoKeys pa k) (by omega)
    have := see 0 Nat.one_pos
    simpa [leBytes, seeByte_twoKeys, decrypted, hk] using this
  · intro H s hs
    refine ⟨fun loc bs => ?_, fun n v => ⟨leNat_leBytes n v, leBytes_length n v⟩, fun d pa n v x hd hp hr hn => ⟨?_, fun k hk => ?_⟩,
      fun t n v lane d salt ht => State.coreRead_storeTo s n v lane d salt ht⟩
    · exact ⟨State.putBytes_canon hs loc bs, fun k hk => State.byte_putBytes_in hs hk, fun a ha => State.byte_putBytes_out hs ha⟩
    · exact State.storeBytes_canon hs d x pa _ _ _
    · have len := leBytes_length n v
      have hk' : k < (leBytes n v).length := by omega
      rw [seeByte_storeBytes_of_default H hs hd hp hr (by omega) hk', getElem_leBytes]

end Sys2Proof.Claims
end

section
/-! Bring-up and the thermal trip (R15 to R17, R19): what a power-on, a refetch and the start of the curators do. -/

namespace Sys2Proof.Machine

variable {s : State}

/-! ## Curators (R17 step 4; log 25) -/

@[simp] theorem State.addCurator_mem (s : State) (d i : Nat) (e : DWord) : (s.addCurator d i e).mem = s.mem := rfl
@[simp] theorem State.addCurator_boot (s : State) (d i : Nat) (e : DWord) : (s.addCurator d i e).boot = s.boot := rfl
@[simp] theorem State.addCurator_images (s : State) (d i : Nat) (e : DWord) : (s.addCurator d i e).images = s.images := rfl
@[simp] theorem State.addCurator_measure (s : State) (d i : Nat) (e : DWord) : (s.addCurator d i e).measure = s.measure := rfl
@[simp] theorem State.addCurator_epoch (s : State) (d i : Nat) (e : DWord) : (s.addCurator d i e).epoch = s.epoch := rfl

/-- What neither the load of the image nor the start of one curator changes, the start of a die's curators keeps. -/
theorem State.addCurators_keeps {β : Type} (g : State → β) (load : ∀ t k pa bs, g (State.putLong t k pa bs) = g t)
    (start : ∀ t d i e, g (State.addCurator t d i e) = g t) (s : State) (d : Nat) : g (s.addCurators d) = g s :=
  (State.foldl_keeps g (fun t i => start t d i _) _ _).trans (load s _ _ _)

@[simp] theorem State.addCurators_boot (s : State) (d : Nat) : (s.addCurators d).boot = s.boot :=
  State.addCurators_keeps State.boot State.putLong_boot State.addCurator_boot s d
@[simp] theorem State.addCurators_images (s : State) (d : Nat) : (s.addCurators d).images = s.images :=
  State.addCurators_keeps State.images State.putLong_images State.addCurator_images s d
@[simp] theorem State.addCurators_measure (s : State) (d : Nat) : (s.addCurators d).measure = s.measure :=
  State.addCurators_keeps State.measure State.putLong_measure State.addCurator_measure s d
@[simp] theorem State.addCurators_epoch (s : State) (d : Nat) : (s.addCurators d).epoch = s.epoch :=
  State.addCurators_keeps State.epoch State.putLong_epoch State.addCurator_epoch s d

/-- The memory behind the start of a die's curators is the one into which the image was loaded. -/
theorem State.addCurators_mem {x : Image} (hx : s.images.head? = some x) (d : Nat) : (s.addCurators d).mem =
    (s.putLong 0 (s.pkgid * 2 ^ 46 + d * 2 ^ 38 + Config.loadArea d % 2 ^ 25 * 4096) x.bytes).mem := by
  unfold State.addCurators
  rw [hx]
  exact State.foldl_keeps State.mem (fun t i => State.addCurator_mem t d i _) _ _

/-- The one fibre of a new curator stands in lane 0 at the word-aligned entry. -/
theorem newQuire_one_fibre (uid fid quireid slot : Nat) (entry : DWord) (frame8 clock : Nat) :
    (newQuire uid fid quireid slot entry frame8 1 clock).fibres.map (fun f => (f.lane, f.pc)) = [(0, entry)] := rfl

/-- Curators that start one after another add a folio and a quire each, and nothing else to these lists. -/
theorem State.foldl_addCurator (d : Nat) (entry : DWord) (is : List Nat) (s : State) : ∃ fs qs,
    (is.foldl (fun t i => t.addCurator d i entry) s).folios = s.folios ++ fs
      ∧ (is.foldl (fun t i => t.addCurator d i entry) s).rest = s.rest ++ qs
      ∧ fs.map (fun f => (f.die, f.core, f.asid, f.kind)) = is.map (fun i => (d, 384 + i, 0, FolioKind.curator i))
      ∧ ∀ q ∈ qs, q.fibres.map (fun f => (f.lane, f.pc)) = [(0, entry &&& ~~~3)] := by
  induction is generalizing s with
  | nil => exact ⟨[], [], by simp⟩
  | cons i is ih =>
    obtain ⟨fs, qs, hfs, hqs, shape, fibres⟩ := ih (s.addCurator d i entry)
    refine ⟨_ :: fs, _ :: qs, hfs.trans (List.append_assoc ..), hqs.trans (List.append_assoc ..), ?_, ?_⟩
    · simp [shape]
    · rintro q (_ | ⟨_, hq⟩)
      · exact newQuire_one_fibre ..
      · exact fibres q hq

/-- A die's curators: four, on cores 384 to 387, in ASID 0, each at the entry of the image (log 25). -/
theorem State.addCurators_folios {x : Image} (hx : s.images.head? = some x) (d : Nat) : ∃ fs qs,
    (s.addCurators d).folios = s.folios ++ fs ∧ (s.addCurators d).rest = s.rest ++ qs
      ∧ fs.map (fun f => (f.die, f.core, f.asid, f.kind)) = (List.range 4).map (fun i => (d, 384 + i, 0, FolioKind.curator i))
      ∧ ∀ q ∈ qs, q.fibres.map (fun f => (f.lane, f.pc)) = [(0, Config.imageEntry x.bytes &&& ~~~3)] := by
  have start := State.foldl_addCurator d (Config.imageEntry x.bytes) (List.range 4)
    (s.putLong 0 (s.pkgid * 2 ^ 46 + d * 2 ^ 38 + Config.loadArea d % 2 ^ 25 * 4096) x.bytes)
  rw [State.putLong_folios, State.putLong_rest] at start
  unfold State.addCurators
  rw [hx]
  exact start

/-! ## Bring-up (R17) -/

/-- Bring-up resets what it resets, and then starts the curators of every die of the part that passes; the processor die, which has
none, is beyond the dies of every part. -/
theorem State.bringUp_eq (s : State) : ∃ u : State, u.mem = s.mem ∧ u.images = s.images ∧ u.measure = s.measure ∧ u.boot = .running
    ∧ u.epoch = 1 ∧ s.bringUp = ((List.range s.part.dies).filter s.passes).foldl State.addCurators u := by
  have compute : ∀ d ∈ List.range s.part.dies, (if d = 4 then (if s.part = .q940 then s.passes 0 else s.passes 4)
      else d < s.part.dies && s.passes d) = s.passes d := by
    intro d hd
    have hlt := List.mem_range.mp hd
    have hdies : s.part.dies ≤ 4 := by cases s.part <;> decide
    rw [if_neg (by omega), decide_eq_true hlt, Bool.true_and]
  refine ⟨_, ?_, ?_, ?_, ?_, ?_, congrArg (List.foldl State.addCurators _) (List.filter_congr compute)⟩ <;> rfl

@[simp] theorem State.bringUp_boot (s : State) : s.bringUp.boot = .running := by
  obtain ⟨u, -, -, -, hboot, -, hup⟩ := s.bringUp_eq
  rw [hup, State.foldl_keeps State.boot State.addCurators_boot, hboot]
@[simp] theorem State.bringUp_images (s : State) : s.bringUp.images = s.images := by
  obtain ⟨u, -, himages, -, -, -, hup⟩ := s.bringUp_eq
  rw [hup, State.foldl_keeps State.images State.addCurators_images, himages]
@[simp] theorem State.bringUp_measure (s : State) : s.bringUp.measure = s.measure := by
  obtain ⟨u, -, -, hmeasure, -, -, hup⟩ := s.bringUp_eq
  rw [hup, State.foldl_keeps State.measure State.addCurators_measure, hmeasure]
@[simp] theorem State.bringUp_epoch (s : State) : s.bringUp.epoch = 1 := by
  obtain ⟨u, -, -, -, -, hepoch, hup⟩ := s.bringUp_eq
  rw [hup, State.foldl_keeps State.epoch State.addCurators_epoch, hepoch]

/-! ## Power-on and refetch (R15, R16) -/

@[simp] theorem State.measured_images (s : State) (x : Image) : (s.measured x).images = s.images := by simp only [State.measured]
@[simp] theorem State.measured_mem (s : State) (x : Image) : (s.measured x).mem = s.mem := by simp only [State.measured]
@[simp] theorem State.measured_part (s : State) (x : Image) : (s.measured x).part = s.part := by simp only [State.measured]
@[simp] theorem State.measured_tick (s : State) (x : Image) : (s.measured x).tick = s.tick := by simp only [State.measured]
@[simp] theorem State.measured_passes (s : State) (x : Image) : (s.measured x).passes = s.passes := by
  funext d; unfold State.passes State.choose; rw [State.measured_tick]

theorem exec_powerOn (s : State) : exec .powerOn s = .next (powerOn s) := rfl
theorem exec_imageRefetch (s : State) : exec .imageRefetch s = .next (imageRefetch s) := rfl

theorem exec_powerOn_good {x : Image} (hb : s.boot = .off) (hx : s.images.head? = some x) (hg : s.imageGood x = true) :
    exec .powerOn s = .next (s.measured x).bringUp := by
  simp [exec_powerOn, powerOn, hb, hx, hg]
theorem exec_powerOn_bad {x : Image} (hb : s.boot = .off) (hx : s.images.head? = some x) (hg : s.imageGood x = false) :
    exec .powerOn s = .next { s.measured x with boot := .refetch 0 } := by
  simp [exec_powerOn, powerOn, hb, hx, hg]
theorem exec_powerOn_no_image (hb : s.boot = .off) (hx : s.images.head? = none) :
    exec .powerOn s = .next { s with boot := .refetch 0 } := by
  simp [exec_powerOn, powerOn, hb, hx]

theorem exec_imageRefetch_good {n : Nat} {x : Image} (hb : s.boot = .refetch n) (hx : s.images[s.fetchSource n]? = some x)
    (hg : s.imageGood x = true) : exec .imageRefetch s = .next ({ s.measured x with images := x :: s.images.drop 1 } : State).bringUp := by
  simp [exec_imageRefetch, imageRefetch, hb, hx, hg]
theorem exec_imageRefetch_bad {n : Nat} {x : Image} (hb : s.boot = .refetch n) (hx : s.images[s.fetchSource n]? = some x)
    (hg : s.imageGood x = false) : exec .imageRefetch s = .next { s.measured x with boot := .refetch (n + 1) } := by
  simp [exec_imageRefetch, imageRefetch, hb, hx, hg]

/-! ## Heat and power (R18, R19) -/

theorem exec_permitGrant (id : Nat) (s : State) : exec (.permitGrant id) s = .next (permitGrant id s) := rfl

/-- A hot package grants no permit. -/
theorem exec_permitGrant_hot (h : s.hot = true) (id : Nat) : exec (.permitGrant id) s = .next s := by
  rw [exec_permitGrant]; unfold permitGrant
  split
  · rfl
  · simp [h]

/-- A package that has removed its power stops at every step. -/
theorem step_of_tripped (h : s.boot = .tripped) : step s = .fault .powerRemoved := if_pos h

end Sys2Proof.Machine

namespace Sys2Proof.Claims

open Sys2Proof.Machine

/-- Settles O38: bring-up is the curators of the dies that pass, over a state with the memory and images of before, and nothing in the
start of a curator changes the measurement, the epoch or how bring-up stands. -/
theorem bootAndPower : Obligations.BootAndPower := by
  intro s
  refine ⟨fun x hb hx => ⟨fun hg => ?_, exec_powerOn_bad hb hx⟩, exec_powerOn_no_image,
    fun n x hb hx => ⟨fun hg => ?_, exec_imageRefetch_bad hb hx⟩, fun d x hx => ?_, rfl, rfl,
    fun id hot => exec_permitGrant_hot hot id, _, rfl, rfl, step_of_tripped rfl⟩
  · obtain ⟨u, hmem, himages, -, -, -, hup⟩ := (s.measured x).bringUp_eq
    exact ⟨_, exec_powerOn_good hb hx hg, State.bringUp_boot _, State.bringUp_measure _, State.bringUp_epoch _,
      (State.bringUp_images _).trans (s.measured_images x), u, hmem.trans (s.measured_mem x), himages.trans (s.measured_images x),
      by simpa only [State.measured_part, State.measured_passes] using hup⟩
  · exact ⟨_, exec_imageRefetch_good hb hx hg, State.bringUp_boot _, State.bringUp_images _, State.bringUp_measure _⟩
  · obtain ⟨fs, qs, hfolios, hrest, shape, fibres⟩ := State.addCurators_folios hx d
    exact ⟨fs, qs, State.addCurators_mem hx d, hfolios, hrest, shape, fibres⟩

end Sys2Proof.Claims
end

section
/-! The machine after reset (R15, R42, R407; log 1, 2). -/

namespace Sys2Proof.Claims

open Sys2Proof.Machine

/-- Every die of the machine after reset, also one that is not there, holds its reset values. -/
theorem die_reset (d : Nat) : State.reset.die d = {} := by
  unfold State.die State.reset
  rw [List.getD_eq_getElem?_getD]
  match d with
  | 0 | 1 | 2 | 3 | 4 => rfl
  | _ + 5 => rfl

/-- Settles O59: every die after reset holds its reset values, and no byte is listed. -/
theorem resetState : Obligations.ResetState := by
  refine ⟨rfl, rfl, fun d => ?_, fun d n => ?_, fun loc => rfl, rfl, exec_powerOn_no_image rfl rfl⟩
  · rw [die_reset]
  · unfold State.mgmt; rw [die_reset]; rfl

end Sys2Proof.Claims
end

section
/-! Permits (R18, R152, R319): what the grant of a permit starts. -/

namespace Sys2Proof.Claims

open Sys2Proof.Machine

variable {s : State}

/-- Nothing keeps the governor from a grantable operation: the package is not hot, the operation is first at its core, the die runs and the
unit is not saved. -/
theorem Grantable.nothing_holds {h : Heavy} (g : Grantable s h) :
    (s.hot || s.permits.find? (fun x => s.heavyCore x = s.heavyCore h) ≠ some h || !s.live (s.heavyCore h).1
      || s.isSaved (s.heavyFolio h)) = false := by
  obtain ⟨hot, -, first, live, saved⟩ := g
  simp [hot, first, live, saved]

/-- A grantable operation is the one that its name finds among those that wait. -/
theorem Grantable.waits {h : Heavy} (g : Grantable s h) : s.permits.find? (fun x => x.id = h.id) = some h := g.2.1

/-- A copy that has started before, and was held, goes on. -/
theorem exec_permitGrant_copy_held {c : CopyOp} (g : Grantable s (.copy c.id)) (hc : s.copies.find? (fun x => x.id = c.id) = some c)
    (hstarted : c.started = true) :
    exec (.permitGrant c.id) s = .next ((granted s (.copy c.id)).modCopy c.id (fun y => { y with permit := true })) := by
  have free := g.nothing_holds
  have waits : s.permits.find? (fun y => y.id = c.id) = some (.copy c.id) := g.waits
  simp only [exec_permitGrant, permitGrant, waits, free, hc, hstarted, granted, Bool.false_eq_true, if_false, if_true]

/-- A copy that has not started begins on its token, and its batch goes on. -/
theorem exec_permitGrant_copy_new {c : CopyOp} (g : Grantable s (.copy c.id)) (hc : s.copies.find? (fun x => x.id = c.id) = some c)
    (hstarted : c.started = false) (room : ((s.quire c.quire).tok c.tok).count ≠ 63) :
    exec (.permitGrant c.id) s = .next ((((granted s (.copy c.id)).modCopy c.id
      (fun y => { y with permit := true, started := true })).beginOn c.quire c.tok c.id).tryEndCopy c.id) := by
  have free := g.nothing_holds
  have notFull : s.tokFull c.quire c.tok = false := decide_eq_false room
  have waits : s.permits.find? (fun y => y.id = c.id) = some (.copy c.id) := g.waits
  simp only [exec_permitGrant, permitGrant, waits, free, hc, hstarted, notFull, granted, Bool.false_eq_true, if_false]

theorem exec_permitGrant_matrix {o : MatOp} (g : Grantable s (.matrix o.id)) (ho : s.matops.find? (fun x => x.id = o.id) = some o) :
    exec (.permitGrant o.id) s = .next ((granted s (.matrix o.id)).grantMat o) := by
  have free := g.nothing_holds
  have waits : s.permits.find? (fun y => y.id = o.id) = some (.matrix o.id) := g.waits
  simp only [exec_permitGrant, permitGrant, waits, free, ho, granted, Bool.false_eq_true, if_false]

/-- A shard for which its batch still waits begins on its token. -/
theorem exec_permitGrant_shard {x : ShardOp} (g : Grantable s (.shard x.id)) (hx : s.shards.find? (fun y => y.id = x.id) = some x)
    (waiting : (s.quire x.quire).waits.any (fun w => w.kind = .permit x.id) = true) (room : ((s.quire x.quire).tok x.tok).count ≠ 63) :
    exec (.permitGrant x.id) s = .next (({ granted s (.shard x.id) with
      shards := s.shards.map (fun y => if y.id = x.id then { y with permit := true } else y) } : State).beginOn x.quire x.tok x.id) := by
  have free := g.nothing_holds
  have notFull : s.tokFull x.quire x.tok = false := decide_eq_false room
  have waits : s.permits.find? (fun y => y.id = x.id) = some (.shard x.id) := g.waits
  simp only [exec_permitGrant, permitGrant, waits, free, hx, waiting, notFull, granted, Bool.not_true, Bool.false_eq_true, if_false]

/-- R18: each kind of operation starts when its permit is granted. -/
theorem permits : Permits := fun _ =>
  ⟨fun _ g hc => ⟨exec_permitGrant_copy_held g hc, exec_permitGrant_copy_new g hc⟩, fun _ g ho => exec_permitGrant_matrix g ho,
    fun _ g hx waiting room => exec_permitGrant_shard g hx waiting room⟩

end Sys2Proof.Claims
end

section
/-! Chunks of a matrix operation (R164, R171): the first fetch that does not find its bytes decides. -/

namespace Sys2Proof.Machine

variable {s : State}

/-- Fetches that all find their bytes name no stop. -/
theorem firstStop_eq_none {fs : List (FetchAt × MFetch)} (h : ∀ e ∈ fs, ∃ v, e.2 = .bytes v) : firstStop fs = none := by
  unfold firstStop
  induction fs with
  | nil => rfl
  | cons e fs ih =>
    obtain ⟨v, hv⟩ := h e (List.mem_cons_self ..)
    rw [List.foldl_cons, hv]
    exact ih (fun x hx => h x (List.mem_cons_of_mem _ hx))

/-- A row whose elements and scales are all read does not stop its chunk. -/
theorem MRow.stop_eq_none {r : MRow} (h : ∀ e ∈ r.es ++ r.sc, ∃ v, e.2 = .bytes v) : r.stop = none := by
  unfold MRow.stop
  rw [firstStop_eq_none (fun e he => h e (List.mem_append_left _ he)), firstStop_eq_none (fun e he => h e (List.mem_append_right _ he))]
  rfl

theorem chunkStop_eq_none {rows : List MRow × List MRow} (h : ∀ r ∈ rows.1 ++ rows.2, ∀ e ∈ r.es ++ r.sc, ∃ v, e.2 = .bytes v) :
    chunkStop rows = none :=
  List.findSome?_eq_none_iff.mpr (fun r hr => MRow.stop_eq_none (h r hr))

/-- A matrix operation that may do its next chunk: it has its permit, waits for no rendezvous, and no fault holds it, nor is it saved. -/
structure MatOp.Ready (s : State) (op : MatOp) : Prop where
  found  : s.matops.find? (fun o => o.id = op.id) = some op
  permit : op.permit = true
  latch  : op.latch = false
  held   : op.held = none
  pend   : op.pend = none
  saved  : s.isSaved op.fid = false

theorem exec_matrixChunk (id : Nat) (s : State) : exec (.matrixChunk id) s = matrixChunk id s := rfl

theorem exec_matrixChunk_unknown {id : Nat} (h : s.matops.find? (fun o => o.id = id) = none) : exec (.matrixChunk id) s = .next s := by
  simp only [exec_matrixChunk, matrixChunk, h]

theorem MatOp.Ready.nothing_holds {op : MatOp} (h : op.Ready s) :
    (!op.permit || op.latch || op.held.isSome || op.pend.isSome || s.isSaved op.fid) = false := by
  simp [h.permit, h.latch, h.held, h.pend, h.saved]

theorem MatOp.Ready.exec_fault {op : MatOp} (h : op.Ready s) {x : FetchAt} {c : Nat}
    (hstop : chunkStop (s.chunkRows op) = some (x, .fault c)) :
    exec (.matrixChunk op.id) s = .next (s.faultMat op x.mem c x.ea x.side) := by
  simp only [exec_matrixChunk, matrixChunk, h.found, h.nothing_holds, hstop, Bool.false_eq_true, if_false]

theorem MatOp.Ready.exec_waits {op : MatOp} (h : op.Ready s) {x : FetchAt} (hstop : chunkStop (s.chunkRows op) = some (x, .waits)) :
    exec (.matrixChunk op.id) s = .next s := by
  simp only [exec_matrixChunk, matrixChunk, h.found, h.nothing_holds, hstop, Bool.false_eq_true, if_false]

/-- A chunk whose fetches all find their bytes, and whose bands have no bad cell, goes into the band of each member. -/
theorem MatOp.Ready.exec_chunk {op : MatOp} (h : op.Ready s)
    (hread : ∀ r ∈ (s.chunkRows op).1 ++ (s.chunkRows op).2, ∀ e ∈ r.es ++ r.sc, ∃ v, e.2 = .bytes v)
    (hgood : ∀ m ∈ op.members, s.badBand m.quire (fun k => k / 512 = m.band) = false) :
    exec (.matrixChunk op.id) s = .next
      ((((op.members.foldl (fun (t : State) m => t.bandChunk op m (s.memberRows op m (s.chunkRows op)) (s.sharedRows op (s.chunkRows op)))
        (Claims.chunkCached s op)).setMprog op 1 (op.chunk + 1)).modMat op.id (fun o => { o with chunk := o.chunk + 1 })).tryEndMat
        op.id) := by
  have noBad : op.members.find? (fun m => s.badBand m.quire (fun k => k / 512 = m.band)) = none :=
    List.find?_eq_none.mpr (fun m hm => by simp [hgood m hm])
  simp only [exec_matrixChunk, matrixChunk, h.found, h.nothing_holds, chunkStop_eq_none hread, noBad, Bool.false_eq_true, if_false]
  rfl

end Sys2Proof.Machine
end

section
/-! Segments of a copy (R217, R218, R397). -/

/-- The first element that passes a test is also the first to pass a stronger test, if it passes that. -/
theorem List.find?_eq_some_of_imp {α : Type} {p q : α → Bool} {xs : List α} {a : α} (h : xs.find? p = some a) (ha : q a = true)
    (himp : ∀ x, q x = true → p x = true) : xs.find? q = some a := by
  obtain ⟨-, front, back, hxs, before⟩ := List.find?_eq_some_iff_append.mp h
  refine List.find?_eq_some_iff_append.mpr ⟨ha, front, back, hxs, fun x hx => ?_⟩
  have := before x hx
  cases hq : q x
  · rfl
  · simp [himp x hq] at this

namespace Sys2Proof.Machine

variable {s : State}

/-- A copy that may move its next segment: it has its permit, has started, and no fault holds it. -/
structure CopyOp.Ready (s : State) (c : CopyOp) : Prop where
  found   : s.copies.find? (fun x => x.id = c.id) = some c
  permit  : c.permit = true
  started : c.started = true
  held    : c.held = none
  pend    : c.pend = none

theorem exec_copySegment (id : Nat) (s : State) : exec (.copySegment id) s = copySegment id s := rfl

theorem CopyOp.Ready.found_ready {c : CopyOp} (h : c.Ready s) :
    s.copies.find? (fun x => x.id = c.id && x.permit && x.started && x.held.isNone && x.pend.isNone) = some c := by
  refine List.find?_eq_some_of_imp h.found ?_ (fun x hx => ?_)
  · simp [h.permit, h.started, h.held, h.pend]
  · simp only [Bool.and_eq_true] at hx
    obtain ⟨⟨⟨⟨hid, -⟩, -⟩, -⟩, -⟩ := hx
    exact hid

theorem CopyOp.Ready.nothing_holds {c : CopyOp} (h : c.Ready s) : (!c.permit || !c.started || c.held.isSome || c.pend.isSome) = false := by
  simp [h.permit, h.started, h.held, h.pend]

theorem State.resumeCopy_of_not_resumed {c : CopyOp} (h : c.resumed = false) : s.resumeCopy c = s := by simp [State.resumeCopy, h]

theorem State.resumeCopy_of_resumed {c : CopyOp} (h : c.resumed = true) : s.resumeCopy c =
    ((s.acquireOn (s.folio c.fid).die 5).orderPaths c.quire [1]).modCopy c.id (fun y => { y with resumed := false }) := if_pos h

/-- Behind the acquire of a copy that goes on, no copy of its name is one that still has to make it. -/
theorem State.resumeCopy_not_resumed {c x : CopyOp} (hc : c.resumed = true) (hx : x ∈ (s.resumeCopy c).copies) (hid : x.id = c.id) :
    x.resumed = false := by
  simp only [State.resumeCopy, hc, State.modCopy, if_true, List.mem_map] at hx
  obtain ⟨y, -, rfl⟩ := hx
  by_cases hy : y.id = c.id
  · rw [if_pos hy]
  · rw [if_neg hy] at hid
    exact absurd hid hy

/-- A copy that goes on after a fault makes its acquire and then moves its segment as any other. -/
theorem CopyOp.Ready.exec_resumed {c : CopyOp} (h : c.Ready s) (hr : c.resumed = true) :
    exec (.copySegment c.id) s = exec (.copySegment c.id) (s.resumeCopy c) := by
  simp only [exec_copySegment, copySegment, h.found_ready]
  cases hf : (s.resumeCopy c).copies.find? (fun x => x.id = c.id && x.permit && x.started && x.held.isNone && x.pend.isNone) with
  | none => rfl
  | some x =>
    have ready := List.find?_some hf
    simp only [Bool.and_eq_true, decide_eq_true_eq] at ready
    obtain ⟨⟨⟨⟨hid, -⟩, -⟩, -⟩, -⟩ := ready
    simp only [State.resumeCopy_of_not_resumed (State.resumeCopy_not_resumed hr (List.mem_of_find?_eq_some hf) hid)]

theorem CopyOp.Ready.exec_fault {c : CopyOp} (h : c.Ready s) (hr : c.resumed = false) {n k : Nat} {tos : List Leg}
    (hseg : s.segment c = (n, .fault k, tos)) :
    exec (.copySegment c.id) s = .next (s.faultCopy c k (Side.at ⟨c.src, c.spitch⟩ c.rowBytes c.pos)) := by
  simp only [exec_copySegment, copySegment, h.found_ready, State.resumeCopy_of_not_resumed hr, h.found, h.nothing_holds, hseg,
    Bool.false_eq_true, if_false]

/-- A segment of which neither side faults or waits, and whose source is good, is read and then written at every destination. -/
theorem CopyOp.Ready.exec_moves {c : CopyOp} (h : c.Ready s) (hr : c.resumed = false) {n : Nat} {src : Leg} {tos : List Leg}
    (hseg : s.segment c = (n, src, tos)) (hwaits : src ≠ .waits) (hfault : ∀ k, src ≠ .fault k)
    (htos : ∀ y ∈ tos, y ≠ .waits ∧ ∀ k, y ≠ .fault k) (hbad : s.badSource c src n = false) :
    exec (.copySegment c.id) s = .next
      ((((tos.foldl (fun (t : State) y => t.legWrite c y (s.legBytes c src n).1) (s.legBytes c src n).2).spreadPoison c src tos n).modCopy
        c.id (fun y => { y with pos := y.pos + n })).tryEndCopy c.id) := by
  have noWait : tos.any (fun y => y = .waits) = false := by
    simpa using fun y hy => (htos y hy).1
  simp only [exec_copySegment, copySegment, h.found_ready, State.resumeCopy_of_not_resumed hr, h.found, h.nothing_holds, hseg,
    Bool.false_eq_true, if_false]
  generalize found : tos.findSome? _ = bad
  have noFault : bad = none := by
    rw [← found, List.findSome?_eq_none_iff]
    intro y hy
    cases y with
    | fault k => exact absurd rfl ((htos _ hy).2 k)
    | _ => rfl
  subst noFault
  cases src with
  | fault k => exact absurd rfl (hfault k)
  | waits => exact absurd rfl hwaits
  | mem | scratch | device => simp [noWait, hbad]

end Sys2Proof.Machine
end

section
/-! Tiles and writes on their way to a scratchpad (R201, R211, R222, R251). -/

namespace Sys2Proof.Machine

variable {s : State}

theorem exec_tileDelivery (snd rcv : Nat) (s : State) : exec (.tileDelivery snd rcv) s = .next (tileDelivery snd rcv s) := rfl

theorem tileOutcome_eq (m n k : Nat) : tileOutcome (m = n) k = if m = n then (0, none) else (1, some (tileRecord k)) := by
  simp [tileOutcome]

/-- A send and a receive that match: both are posted, and neither folio is saved. -/
structure TileOp.Meets (s : State) (a b : TileOp) : Prop where
  sender   : s.tiles.find? (fun t => t.id = a.id) = some a
  receiver : s.tiles.find? (fun t => t.id = b.id) = some b
  fits     : s.tilesMatch a b = true
  saved    : s.isSaved a.fid = false
  savedTo  : s.isSaved b.fid = false

theorem State.send_of_tilesMatch {a b : TileOp} (h : s.tilesMatch a b = true) : a.send = true ∧ b.send = false := by
  simp only [State.tilesMatch, Bool.and_eq_true, Bool.not_eq_true'] at h
  obtain ⟨⟨⟨⟨⟨⟨⟨sides, -⟩, -⟩, -⟩, -⟩, -⟩, -⟩, -⟩ := h
  exact sides

theorem TileOp.Meets.found_send {a b : TileOp} (h : TileOp.Meets s a b) : s.tiles.find? (fun t => t.id = a.id && t.send) = some a :=
  List.find?_eq_some_of_imp h.sender (by simp [(State.send_of_tilesMatch h.fits).1]) (fun _ hx => (Bool.and_eq_true_iff.mp hx).1)

theorem TileOp.Meets.found_receive {a b : TileOp} (h : TileOp.Meets s a b) : s.tiles.find? (fun t => t.id = b.id && !t.send) = some b :=
  List.find?_eq_some_of_imp h.receiver (by simp [(State.send_of_tilesMatch h.fits).2]) (fun _ hx => (Bool.and_eq_true_iff.mp hx).1)

/-- The receiver still takes writes: the tile is read, written there, and both tokens end. -/
theorem TileOp.Meets.exec_delivers {a b : TileOp} (h : TileOp.Meets s a b) (ht : s.takesWrites b.fid = true) :
    exec (.tileDelivery a.id b.id) s =
      let go : State := { s with tiles := s.tiles.filter (fun t => t.id ≠ a.id ∧ t.id ≠ b.id) }
      let n := min a.len b.len
      let out : BitVec 2 × Option Trap := if a.len = b.len then (0, none) else (1, some (tileRecord n))
      .next (((go.tileBytes a n).2.tileWrite b (go.tileBytes a n).1 out).finishTok a.quire a.tok out.1 out.2) := by
  simp [exec_tileDelivery, tileDelivery, h.found_send, h.found_receive, h.fits, h.saved, h.savedTo, ht, tileOutcome_eq]

/-- The receiver's folio has ended: the tile is a late arrival, and both tokens end with status target ended. -/
theorem TileOp.Meets.exec_late {a b : TileOp} (h : TileOp.Meets s a b) (ht : s.takesWrites b.fid = false) :
    exec (.tileDelivery a.id b.id) s =
      let go : State := { s with tiles := s.tiles.filter (fun t => t.id ≠ a.id ∧ t.id ≠ b.id) }
      .next (((go.countLate b.die (s.folio b.fid).core).finishTok a.quire a.tok 2 none).finishTok b.quire b.tok 2 none) := by
  simp [exec_tileDelivery, tileDelivery, h.found_send, h.found_receive, h.fits, h.saved, h.savedTo, ht]

/-! ## Writes on their way (R211, R251) -/

theorem exec_inboundWrite (k : Nat) (s : State) : exec (.inboundWrite k) s = .next (inboundWrite k s) := rfl

/-- What a write does that arrives in time: its bytes are written, with their poison, and a store of the core path has been performed. -/
def State.arrive (s : State) (w : Inbound) : State :=
  let v := (s.scratchWrite w.fid w.off w.bytes w.rels (w.sub.map (fun _ => 10))).markPoison w.bad (s.scratchHome w.fid w.off) w.bytes.length
  if w.sub.isSome then v else v.wroteStore w.from_ w.id w.die (.scratch w.fid w.off) w.bytes.length

/-- A write is in time: its allocation takes writes and it lies within its limit. -/
def State.inTime (s : State) (w : Inbound) : Prop := s.takesWrites w.fid = true ∧ w.off + w.bytes.length ≤ (s.folio w.fid).scratchBytes

theorem State.land_inTime {w : Inbound} (h : s.inTime w) : s.land w = s.arrive w := if_pos h
theorem State.land_late {w : Inbound} (h : ¬ s.inTime w) : s.land w = s.countLate w.die w.core := if_neg h

/-- The first element of a write in time is in time. -/
theorem State.inTime_head {w : Inbound} (h : s.inTime w) : s.inTime w.head := by
  obtain ⟨takes, fits⟩ := h
  exact ⟨takes, Nat.le_trans (Nat.add_le_add_left (List.length_take_le' 4 w.bytes) _) fits⟩

/-- A write that arrives in part is in time. -/
theorem State.inTime_of_inPart {k : Nat} {w : Inbound} (h : s.inPart k w = true) : s.inTime w := by
  simp only [State.inPart, Bool.and_eq_true, decide_eq_true_eq] at h
  obtain ⟨⟨⟨-, takes⟩, fits⟩, -⟩ := h
  exact ⟨takes, fits⟩

/-- A write in time that may land arrives: of a granule perhaps only its first element, by a free choice (log 49). -/
theorem exec_inboundWrite_inTime {k : Nat} {w : Inbound} (hw : s.inbound[k]? = some w) (hland : mayLand (s.inbound.take k) w = true)
    (h : s.inTime w) : exec (.inboundWrite k) s = .next (if s.inPart k w
      then ({ s with inbound := s.inbound.set k w.tail } : State).arrive w.head
      else ({ s with inbound := s.inbound.eraseIdx k } : State).arrive w) := by
  have whole : ({ s with inbound := s.inbound.eraseIdx k } : State).inTime w := h
  have part : ({ s with inbound := s.inbound.set k w.tail } : State).inTime w.head := State.inTime_head h
  simp only [exec_inboundWrite, inboundWrite, hw, hland, State.land_inTime whole, State.land_inTime part, Bool.not_true,
    Bool.false_eq_true, if_false]

/-- A write whose allocation is gone, or that lies beyond its limit, is dropped and counted. -/
theorem exec_inboundWrite_late {k : Nat} {w : Inbound} (hw : s.inbound[k]? = some w) (hland : mayLand (s.inbound.take k) w = true)
    (h : ¬ s.inTime w) :
    exec (.inboundWrite k) s = .next (({ s with inbound := s.inbound.eraseIdx k } : State).countLate w.die w.core) := by
  have whole : ¬ ({ s with inbound := s.inbound.eraseIdx k } : State).inTime w := h
  have notPart : s.inPart k w = false := Bool.eq_false_iff.mpr (fun hp => h (State.inTime_of_inPart hp))
  simp only [exec_inboundWrite, inboundWrite, hw, hland, notPart, State.land_late whole, Bool.not_true, Bool.false_eq_true, if_false]

end Sys2Proof.Machine
end

section
/-! Partials and lines (R192, R194, R195, R237, R238, R295). -/

namespace Sys2Proof.Machine

variable {s : State}

theorem State.choose_lt (s : State) (salt : Nat) {n : Nat} (h : 0 < n) : s.choose salt n < n := Nat.mod_lt _ h

theorem exec_redPartialEviction {k : Nat} {p : Partial} (h : s.partials[k]? = some p) : exec (.redPartialEviction k) s =
    .next (if s.reach p.die p.pa = .waits then s else s.evictPartial p.die p.core (p.pa / 64)) := by
  show Host.Outcome.next (redPartialEviction k s) = _
  simp only [redPartialEviction, h]

theorem exec_redRecall (line : Nat) (s : State) : exec (.redRecall line) s = .next (s.recallLine line) := rfl

/-- The recall of a line of which there is no partial changes nothing. -/
theorem State.recallLine_of_none_there {line : Nat} (h : ∀ p ∈ s.partials, p.pa / 64 ≠ line) : s.recallLine line = s :=
  if_pos (List.all_eq_true.mpr (fun p hp => decide_eq_true (h p hp)))

/-! ## Peer probes (R192; log 114) -/

/-- What a cluster holds of a line: 0 nothing, 1 a clean and shared copy. -/
def State.clusterHolds (s : State) (d cl line : Nat) : Nat := Sparse.get 0 (lineKeyOf cl line) (s.die d).clines

/-- The peer that a probe asks. -/
def State.probed (s : State) (line : Nat) : Nat := s.choose (5500 + line) 16

/-- There is no such cluster, it is the one that was asked, it has the line, or the peer has no clean copy of it. -/
def State.ProbeMisses (s : State) (d cl line : Nat) : Prop :=
  16 ≤ cl ∨ s.probed line = cl ∨ s.clusterHolds d cl line ≠ 0 ∨ s.clusterHolds d (s.probed line) line ≠ 1

theorem exec_peerProbe_misses {d cl line : Nat} (h : s.ProbeMisses d cl line) : exec (.peerProbe d cl line) s = .next s :=
  congrArg _ (if_pos h)

/-- A probe whose peer holds the line clean brings it from there, and the directory records both. -/
theorem exec_peerProbe_hits {d cl line : Nat} (h : ¬ s.ProbeMisses d cl line) :
    exec (.peerProbe d cl line) s = .next (s.modDie d (fun z =>
      { z with dir := Sparse.set 0 (line / 8) (putBit (putBit (Sparse.get 0 (line / 8) z.dir) cl true) (s.probed line) true) z.dir
               clines := Sparse.set 0 (lineKeyOf cl line) 1 z.clines })) := congrArg _ (if_neg h)

/-- A probe of a cluster that has the line, or whose peers all lack a clean one, changes nothing. -/
theorem exec_peerProbe_nothing {d cl line : Nat}
    (h : s.clusterHolds d cl line ≠ 0 ∨ ∀ p < 16, p ≠ cl → s.clusterHolds d p line ≠ 1) :
    exec (.peerProbe d cl line) s = .next s := by
  apply exec_peerProbe_misses
  rcases h with held | none
  · exact .inr (.inr (.inl held))
  · by_cases hp : s.probed line = cl
    · exact .inr (.inl hp)
    · exact .inr (.inr (.inr (none _ (s.choose_lt _ (by decide)) hp)))

/-- A probe changes nothing, or brings the line from a peer that holds it clean. -/
theorem exec_peerProbe_cases (s : State) (d cl line : Nat) : exec (.peerProbe d cl line) s = .next s
    ∨ ∃ p < 16, p ≠ cl ∧ s.clusterHolds d p line = 1 ∧ exec (.peerProbe d cl line) s = .next (s.modDie d (fun z =>
      { z with dir := Sparse.set 0 (line / 8) (putBit (putBit (Sparse.get 0 (line / 8) z.dir) cl true) p true) z.dir
               clines := Sparse.set 0 (lineKeyOf cl line) 1 z.clines })) := by
  by_cases h : s.ProbeMisses d cl line
  · exact .inl (exec_peerProbe_misses h)
  · have hits := exec_peerProbe_hits h
    simp only [State.ProbeMisses, not_or, Decidable.not_not] at h
    obtain ⟨-, other, -, clean⟩ := h
    exact .inr ⟨s.probed line, s.choose_lt _ (by decide), other, clean, hits⟩

/-! ## Fills and write-backs (R194, R195, R295) -/

/-- A fill brings a line to the die as a clean copy of its home, and to a cluster that a free choice names. -/
theorem exec_lineFill {d line : Nat} {x : TlbEntry} (hleaf : s.fillLeaf d line = some x) (hhome : s.isHome d (line * 64) = false)
    (hlive : s.liveLine line = false) (hcopy : (s.die d).copyOf line = none) (hreach : s.reach d (line * 64) = .at (line * 64)) :
    exec (.lineFill d line) s = .next (((s.recallLine line).addCopy d
      { home := pteHome x.entry, kid := pteKey x.entry, repl := pteRepl x.entry, asid := x.asid
        va := x.va + (line * 64 - pteBase x.entry) } line).direct d (24 * s.choose (5700 + line) 16) .cluster false line) := by
  show Host.Outcome.next (lineFill d line s) = _
  simp [lineFill, hleaf, hhome, hlive, hcopy, hreach]

/-- Whether a write-back drops the line: only one that its set may evict, and then by a free choice. -/
def State.dropsLine (s : State) (d line : Nat) : Bool := s.isVictim d line && s.choose (5000 + line) 2 = 0

theorem State.isVictim_of_dropsLine {d line : Nat} (h : s.dropsLine d line = true) : s.isVictim d line = true :=
  (Bool.and_eq_true_iff.mp h).1

theorem exec_lineWriteBack (d line : Nat) (s : State) : exec (.lineWriteBack d line) s = .next
    (if s.isHome d (line * 64) then (if s.dropsLine d line then s.dropHomeLine d line else s)
      else s.writeBack d line (s.dropsLine d line)) := rfl

end Sys2Proof.Machine

namespace Sys2Proof.Claims

open Sys2Proof.Machine

/-- The events of the engines and of the memory side, each by the lemma that says what it does. -/
theorem engineEvents : EngineEvents := by
  intro s
  refine ⟨fun id => exec_matrixChunk_unknown, fun op found permit latch held pend saved _ => ?_,
    fun c n src tos found permit started held pend hr hseg => ?_, fun c found permit started held pend hr => ?_,
    fun a b sender receiver fits saved savedTo => ?_,
    fun k w hw hland => ⟨fun takes fits => exec_inboundWrite_inTime hw hland ⟨takes, fits⟩, fun late => ?_⟩,
    fun k p => exec_redPartialEviction, fun line => exec_redRecall line s,
    fun line h => (exec_redRecall line s).trans (congrArg _ (State.recallLine_of_none_there h)), fun _ _ => rfl,
    fun d cl line => exec_peerProbe_nothing, fun d cl line _ => exec_peerProbe_cases s d cl line,
    fun d line x hleaf hhome hlive hcopy hreach => ⟨_, s.choose_lt _ (by decide), exec_lineFill hleaf hhome hlive hcopy hreach⟩,
    fun d line => ⟨s.dropsLine d line, State.isVictim_of_dropsLine, exec_lineWriteBack d line s⟩⟩
  · have ready : op.Ready s := ⟨found, permit, latch, held, pend, saved⟩
    exact ⟨fun x c => ready.exec_fault, fun x => ready.exec_waits, ready.exec_chunk⟩
  · have ready : c.Ready s := ⟨found, permit, started, held, pend⟩
    exact ⟨fun k hk => ready.exec_fault hr (hk ▸ hseg), ready.exec_moves hr hseg⟩
  · have ready : c.Ready s := ⟨found, permit, started, held, pend⟩
    rw [ready.exec_resumed hr, State.resumeCopy_of_resumed hr]
  · have meets : TileOp.Meets s a b := ⟨sender, receiver, fits, saved, savedTo⟩
    exact ⟨meets.exec_delivers, meets.exec_late⟩
  · refine exec_inboundWrite_late hw hland ?_
    rintro ⟨takes, fits⟩
    rcases late with gone | beyond
    · simp [gone] at takes
    · omega

/-- Settles O40: what each permit starts, and what each event of the engines and of the memory side does. -/
theorem permitsAndEngines : Obligations.PermitsAndEngines := ⟨permits, engineEvents⟩

end Sys2Proof.Claims
end

section
/-! Rounding a quotient to an integer (R88). -/

namespace Sys2Proof.Machine

theorem roundMag_of_exact {mode : Nat} {neg : Bool} {n d : Nat} (h : n % d = 0) : roundMag mode neg n d = n / d := by
  simp [roundMag, h]

section Inexact

variable {n d : Nat} (h : n % d ≠ 0) (neg : Bool)
include h

theorem roundMag_rne : roundMag 0 neg n d =
    if 2 * (n % d) < d then n / d else if d < 2 * (n % d) then n / d + 1 else n / d + n / d % 2 := by simp [roundMag, h]

theorem roundMag_rna : roundMag 1 neg n d = if 2 * (n % d) < d then n / d else n / d + 1 := by simp [roundMag, h]

theorem roundMag_rtz : roundMag 2 neg n d = n / d := by simp [roundMag, h]

theorem roundMag_rup : roundMag 3 neg n d = if neg then n / d else n / d + 1 := by simp [roundMag, h]

theorem roundMag_rdn : roundMag 4 neg n d = if neg then n / d + 1 else n / d := by simp [roundMag, h]

/-- Every number from 5 up selects RTO, the last arm of `roundMag`. -/
theorem roundMag_rto (k : Nat) : roundMag (k + 5) neg n d = if n / d % 2 = 1 then n / d else n / d + 1 := by simp [roundMag, h]

theorem roundMag_neighbour (mode : Nat) : roundMag mode neg n d = n / d ∨ roundMag mode neg n d = n / d + 1 := by
  match mode with
  | 0 =>
    rw [roundMag_rne h]
    split
    · omega
    · split <;> omega
  | 1 => rw [roundMag_rna h]; split <;> omega
  | 2 => rw [roundMag_rtz h]; omega
  | 3 => rw [roundMag_rup h]; cases neg <;> simp
  | 4 => rw [roundMag_rdn h]; cases neg <;> simp
  | k + 5 => rw [roundMag_rto h]; split <;> omega

end Inexact

end Sys2Proof.Machine

namespace Sys2Proof.Claims

open Sys2Proof.Machine

/-- Settles O10: the equation of each mode, and for every mode the two neighbours. -/
theorem roundingModes : Obligations.RoundingModes := by
  intro mode neg n d _
  refine ⟨roundMag_of_exact, fun h => ⟨roundMag_neighbour h neg mode, roundMag_rtz h neg, roundMag_rup h neg, roundMag_rdn h neg, ?_⟩⟩
  rw [roundMag_rne h, roundMag_rna h, roundMag_rto h neg 0]
  refine ⟨by split <;> omega, fun below => ?_, fun above => ?_, fun tie => ?_⟩
  · simp [below]
  · simp [above, Nat.lt_asymm above]
  · simp [tie]; omega

end Sys2Proof.Claims
end

section
/-! Numbers that a format holds (R74): rounding keeps them (R88, R91). -/

namespace Sys2Proof.Machine

theorem roundAt_of_le {mode : Nat} {neg : Bool} {m : Nat} {e q : Int} (h : q ≤ e) :
    roundAt mode neg m e q = (m * 2 ^ (e - q).toNat, true) := by
  simp [roundAt, h]

/-- m × 2^e is a number other than zero that the format holds, with the significand and the exponent of its own pattern: the significand
has its leading bit at place `fb`, or the exponent is the least one. -/
structure FPar.Holds (p : FPar) (m : Nat) (e : Int) : Prop where
  nonzero : m ≠ 0
  fits    : m < 2 ^ (p.fb + 1)
  least   : p.emin - p.fb ≤ e
  finite  : e + p.fb ≤ p.bias
  own     : e = p.emin - p.fb ∨ 2 ^ p.fb ≤ m

/-- The pattern without sign of m × 2^e: the implicit leading bit of a normal significand adds 1 to the exponent field. -/
def FPar.pattern (p : FPar) (m : Nat) (e : Int) : Nat := (e - (p.emin - p.fb)).toNat * 2 ^ p.fb + m

variable {p : FPar} {m : Nat} {e : Int}

theorem FPar.Holds.log2_le (h : p.Holds m e) : m.log2 ≤ p.fb :=
  Nat.lt_succ_iff.mp ((Nat.log2_lt h.nonzero).mpr h.fits)

/-- Rounded to fb + 1 bits without a bound on the exponent, a number keeps the place of its leading bit. -/
theorem FPar.Holds.roundAt_free (h : p.Holds m e) (mode : Nat) (neg : Bool) :
    (roundAt mode neg m e (m.log2 + e - p.fb)).1 ≠ 2 ^ (p.fb + 1) := by
  have hlog := h.log2_le
  have hq : ((m.log2 : Int) + e - p.fb) ≤ e := by omega
  have hsh : (e - (m.log2 + e - p.fb)).toNat = p.fb - m.log2 := by omega
  rw [roundAt_of_le hq, hsh]
  refine Nat.ne_of_lt ?_
  calc m * 2 ^ (p.fb - m.log2) < 2 ^ (m.log2 + 1) * 2 ^ (p.fb - m.log2) :=
        Nat.mul_lt_mul_of_pos_right Nat.lt_log2_self (Nat.two_pow_pos _)
    _ = 2 ^ (p.fb + 1) := by rw [← Nat.pow_add]; congr 1; omega

/-- The last place that rounding keeps is the last place of the number itself. -/
theorem FPar.Holds.lastPlace (h : p.Holds m e) : max ((m.log2 : Int) + e - p.fb) (p.emin - p.fb) = e := by
  have hlog := h.log2_le
  have hleast := h.least
  rcases h.own with he | hm
  · omega
  · have : p.fb ≤ m.log2 := (Nat.le_log2 h.nonzero).mpr hm
    omega

/-- A number that the format holds is rounded to its own pattern, exactly; it signals UF only where it is tiny and the underflow trap is
enabled (R91). -/
theorem FPar.Holds.roundTo_eq (h : p.Holds m e) (mode : Nat) (uf neg : Bool) :
    p.roundTo mode uf neg m e = (p.signed neg (p.pattern m e), if decide ((m.log2 : Int) + e < p.emin) && uf then excUF else 0) := by
  have hlog := h.log2_le
  have hfin := h.finite
  have hbound : ¬ (p.bias : Int) < m.log2 + e := by omega
  simp [FPar.roundTo, FPar.pattern, h.roundAt_free, hbound, h.lastPlace, roundAt_of_le]

/-! ## Reading a pattern -/

/-- The exponent field of a pattern (R74). -/
def FPar.expField (p : FPar) (a : Nat) : Nat := a / 2 ^ p.fb % 2 ^ p.eb

/-- The fraction of a pattern (R74). -/
def FPar.fraction (p : FPar) (a : Nat) : Nat := a % 2 ^ p.fb

theorem FPar.expField_lt (p : FPar) (a : Nat) : p.expField a < 2 ^ p.eb := Nat.mod_lt _ (Nat.two_pow_pos _)

theorem FPar.fraction_lt (p : FPar) (a : Nat) : p.fraction a < 2 ^ p.fb := Nat.mod_lt _ (Nat.two_pow_pos _)

theorem FPar.fields_eq_mod (p : FPar) (a : Nat) : p.expField a * 2 ^ p.fb + p.fraction a = a % p.signBit := by
  rw [FPar.expField, FPar.fraction, FPar.signBit, Nat.add_comm p.eb, Nat.pow_add, Nat.mod_mul, Nat.mul_comm, Nat.add_comm]

/-- A pattern is its sign, its exponent field and its fraction. -/
theorem FPar.signed_fields (p : FPar) {a : Nat} (h : a < 2 * p.signBit) :
    p.signed (a / p.signBit % 2 = 1) (p.expField a * 2 ^ p.fb + p.fraction a) = a := by
  have hsign : a / p.signBit < 2 := Nat.div_lt_of_lt_mul (by rwa [Nat.mul_comm])
  have hdiv := Nat.div_add_mod a p.signBit
  rw [p.fields_eq_mod, FPar.signed]
  rcases Nat.le_one_iff_eq_zero_or_eq_one.mp (Nat.lt_succ_iff.mp hsign) with h0 | h1
  · rw [h0, Nat.mul_zero, Nat.zero_add] at hdiv
    simp [h0, hdiv]
  · rw [h1, Nat.mul_one] at hdiv
    simp [h1, hdiv]

/-- What a pattern that reads as a finite number stands for: a subnormal or zero, or a normal number. -/
theorem FPar.read_eq_fin {a : Nat} {neg : Bool} (h : p.read a = .fin neg m e) :
    neg = decide (a / p.signBit % 2 = 1) ∧ p.expField a ≠ 2 ^ p.eb - 1 ∧
      ((p.expField a = 0 ∧ m = p.fraction a ∧ e = p.emin - p.fb) ∨
       (p.expField a ≠ 0 ∧ m = 2 ^ p.fb + p.fraction a ∧ e = p.expField a - p.bias - p.fb)) := by
  simp only [FPar.read] at h
  split at h
  · split at h <;> cases h
  next hinf =>
    split at h
    next hsub =>
      cases h
      exact ⟨rfl, hinf, .inl ⟨hsub, rfl, rfl⟩⟩
    next hnorm =>
      cases h
      exact ⟨rfl, hinf, .inr ⟨hnorm, rfl, rfl⟩⟩

theorem FPar.emin_eq (p : FPar) : p.emin = 1 - (p.bias : Int) := rfl

theorem FPar.two_pow_eb (h : p.eb ≠ 0) : 2 ^ p.eb = 2 * (p.bias + 1) := by
  have hpos := Nat.two_pow_pos (p.eb - 1)
  rw [FPar.bias, Nat.sub_add_cancel hpos, ← Nat.pow_succ', Nat.succ_eq_add_one, Nat.sub_one_add_one h]

theorem FPar.one_le_bias (h : 2 ≤ p.eb) : 1 ≤ p.bias := by
  have : 2 ^ 1 ≤ 2 ^ (p.eb - 1) := Nat.pow_le_pow_right (by decide) (by omega)
  unfold FPar.bias
  omega

theorem FPar.pattern_subnormal (p : FPar) (f : Nat) : p.pattern f (p.emin - p.fb) = f := by simp [FPar.pattern]

/-- With the implicit leading bit in the significand, the exponent field comes out as it was. -/
theorem FPar.pattern_normal (p : FPar) {x : Nat} (f : Nat) (hx : x ≠ 0) :
    p.pattern (2 ^ p.fb + f) (x - p.bias - p.fb) = x * 2 ^ p.fb + f := by
  obtain ⟨k, rfl⟩ := Nat.exists_eq_succ_of_ne_zero hx
  have hk : ((k.succ : Int) - p.bias - p.fb - (p.emin - p.fb)).toNat = k := by
    rw [p.emin_eq]
    omega
  rw [FPar.pattern, hk, Nat.succ_mul, Nat.add_assoc]

/-- A pattern that reads as a finite number other than zero stands for a number that the format holds, and is the pattern of that number.
With two exponent bits the bias is positive, so that the exponent of the subnormals is no greater than that of the greatest numbers. -/
theorem FPar.holds_of_read {a : Nat} {neg : Bool} (heb : 2 ≤ p.eb) (ha : a < 2 * p.signBit) (h : p.read a = .fin neg m e) (hm : m ≠ 0) :
    p.Holds m e ∧ p.signed neg (p.pattern m e) = a := by
  obtain ⟨rfl, hinf, hcase⟩ := FPar.read_eq_fin h
  have hfields := p.signed_fields ha
  have hfr := p.fraction_lt a
  have hex := p.expField_lt a
  have hpow : 2 ^ (p.fb + 1) = 2 * 2 ^ p.fb := Nat.pow_succ'
  have hbias := FPar.two_pow_eb (p := p) (by omega)
  have hpos := FPar.one_le_bias heb
  have hemin := p.emin_eq
  rcases hcase with ⟨hsub, rfl, rfl⟩ | ⟨hnorm, rfl, rfl⟩
  · rw [hsub, Nat.zero_mul, Nat.zero_add] at hfields
    exact ⟨⟨hm, by omega, by omega, by omega, .inl rfl⟩, by rw [p.pattern_subnormal, hfields]⟩
  · exact ⟨⟨hm, by omega, by omega, by omega, .inr (Nat.le_add_right _ _)⟩, by rw [p.pattern_normal _ hnorm, hfields]⟩

theorem two_le_fpar_eb (t : Fmt) : 2 ≤ (fpar t).eb := by cases t <;> decide

end Sys2Proof.Machine

namespace Sys2Proof.Claims

open Sys2Proof.Machine

/-- Settles O11: such a number lies at the format's own last place, so that rounding there keeps it. -/
theorem representableIsExact : Obligations.RepresentableIsExact := by
  intro t mode a m neg e _ ha hread hm
  obtain ⟨holds, hpattern⟩ := FPar.holds_of_read (two_le_fpar_eb t) ha hread hm
  simp [holds.roundTo_eq, hpattern]

end Sys2Proof.Claims
end

section
/-! Operations with a NaN operand (R75, R129). -/

namespace Sys2Proof.Machine

variable {p : FPar}

theorem FV.isNan_iff {x : FV} : x.isNan = true ↔ ∃ s, x = .nan s := by cases x <;> simp [FV.isNan]

theorem fFma_nan_addend {mode : Nat} {uf s : Bool} {x y : FV} (hx : ∀ a, x ≠ .inf a) (hy : ∀ a, y ≠ .inf a) :
    fFma p mode uf x y (.nan s) = (p.nan, x.sig ||| y.sig ||| FV.sig (.nan s)) := by
  cases x with
  | inf a => exact absurd rfl (hx a)
  | nan => rfl
  | fin =>
    cases y with
    | inf a => exact absurd rfl (hy a)
    | nan => rfl
    | fin => rfl

end Sys2Proof.Machine

namespace Sys2Proof.Claims

open Sys2Proof.Machine

/-- Settles O9: a NaN among the first two operands is met by the first arm of each operation, and a NaN addend between two finite factors. -/
theorem nanOperands : Obligations.NanOperands := by
  intro p mode uf x y z
  refine ⟨fun h => ?_, fun h => ?_, fun h => ?_, fun h hx hy => ?_⟩
  · rcases Bool.or_eq_true_iff.mp h with h | h <;> obtain ⟨s, rfl⟩ := FV.isNan_iff.mp h
    · exact ⟨rfl, rfl, rfl⟩
    · cases x <;> exact ⟨rfl, rfl, rfl⟩
  · obtain ⟨s, rfl⟩ := FV.isNan_iff.mp h
    rfl
  · rcases Bool.or_eq_true_iff.mp h with h | h <;> obtain ⟨s, rfl⟩ := FV.isNan_iff.mp h
    · rfl
    · cases x <;> rfl
  · obtain ⟨s, rfl⟩ := FV.isNan_iff.mp h
    exact fFma_nan_addend hx hy

end Sys2Proof.Claims
end

section
/-! The shared shapes of the lane and uniform words: one lemma for each says that a word whose checks pass completes (R48, R54, R64). -/

namespace Sys2Proof.Machine

/-- The type of a lane word's integers (R97). -/
abbrev LArgs.ity (x : LArgs) : ITy := laneTy x.ty

/-- The width of a lane word's registers (R98). -/
abbrev LArgs.wr (x : LArgs) : Nat := wrOf x.ity

/-- The destination and the two sources of a lane word, the second of its own width. -/
abbrev LArgs.uses (x : LArgs) (wb : Nat) : List Use := .dst x.d x.wr :: .src x.a x.wr :: x.b.use wb

/-- The type of a uniform word's integers (R97). -/
abbrev UArgs.ity (x : UArgs) : ITy := uniTy x.ty

/-- The destination and the two sources of a uniform word, the second of its own width. -/
abbrev UArgs.uses (x : UArgs) (wb : Nat) : List Use := .sreg x.d :: .sreg x.a :: x.b.use wb

/-- What the checks look at in a word: without what a fault record says of its operands and of its destination. -/
def Desc.checked (D : Desc) : Desc := { D with a := .none, b := .none, c := .none, wa := 32, wb := 32, skip := .nothing }

theorem Desc.checked_clear (D : Desc) (s : State) : D.checked.clear s ↔ D.clear s := Iff.rfl

end Sys2Proof.Machine

namespace Sys2Proof.Claims

open Sys2Proof.Machine

variable {i : Instr} {D : Desc} {op : Nat} {uses : List Use} {s : State}

/-- A word that passes has passed the checks of every description that looks the same to them. -/
theorem Passes.clear {W : Desc} (h : Passes i W s) (legal : W.legal = true) (checks : D.checked = { W with legal := i.wf }) : D.clear s := by
  obtain ⟨hwf, clear⟩ := h
  have hD : D.checked = W := by rw [checks, hwf, ← legal]
  rwa [← hD, D.checked_clear] at clear

/-! ## Lane words -/

/-- A lane word that writes one value for each active lane. -/
theorem moves_of_lanewise {x : LArgs} {w : Nat} {g : Fibre → Nat} (run : exec i s = .next (D.lanewise s x.d w (some .int) g))
    (checks : D.checked = { laneWord op x uses with legal := i.wf }) : Moves i op w uses x g s := by
  intro passes
  have hpr : D.pr = x.pr := congrArg Desc.pr checks
  have hneg : D.neg = x.neg := congrArg Desc.neg checks
  have hlen : D.len = x.len := congrArg Desc.len checks
  rw [Done, run, Desc.lanewise_clear (passes.clear rfl checks), hpr, hneg, hlen, lanesWritten]

/-- The value in each lane may be written in another way. -/
theorem Moves.congr {x : LArgs} {w : Nat} {g g' : Fibre → Nat} (h : Moves i op w uses x g s) (hg : ∀ f, g f = g' f) :
    Moves i op w uses x g' s := funext hg ▸ h

/-! ## Uniform words -/

/-- A uniform word that completes with an effect. -/
theorem doneU_of_runU {x : UArgs} {t : State} (run : exec i s = .next (D.runU s (.done t)))
    (checks : D.checked = { uniWord op x uses with legal := i.wf }) (passes : Passes i (uniWord op x uses) s) :
    DoneU i x.pr x.neg x.len s t := by
  have hpr : D.pr = x.pr := congrArg Desc.pr checks
  have hneg : D.neg = x.neg := congrArg Desc.neg checks
  have hlen : D.len = x.len := congrArg Desc.len checks
  rw [DoneU, Done, run, Desc.runU_done (passes.clear rfl checks), hpr, hneg, hlen]

/-- Under a true predicate a uniform word that passes runs as any other (R54). -/
theorem runs_of_runU {x : UArgs} {b : Res} (run : exec i s = .next (D.runU s b))
    (checks : D.checked = { uniWord op x uses with legal := i.wf }) (passes : Passes i (uniWord op x uses) s)
    (active : s.kActive x.pr x.neg = true) : D.clear s ∧ exec i s = .next (D.run s b) := by
  have hpr : D.pr = x.pr := congrArg Desc.pr checks
  have hneg : D.neg = x.neg := congrArg Desc.neg checks
  exact ⟨passes.clear rfl checks, by rw [run, Desc.runU_active (by rw [hpr, hneg, active])]⟩

/-- A uniform word that writes one s register. -/
theorem scalar_of_scalar {x : UArgs} {v : Nat} (run : exec i s = .next (D.scalar s x.d v))
    (checks : D.checked = { uniWord op x uses with legal := i.wf }) : Scalar i op x uses v s := doneU_of_runU run checks

/-- The value may be written in another way. -/
theorem Scalar.congr {x : UArgs} {v v' : Nat} (h : Scalar i op x uses v s) (hv : v = v') : Scalar i op x uses v' s := hv ▸ h

end Sys2Proof.Claims
end

section
/-! Results on W-bit patterns (R102, R104, R105) as operations on integers and on bit vectors. -/

namespace Sys2Proof.Machine

/-! ## Arithmetic and logic (R102, R104) -/

variable {t : ITy} {hi sat : Bool} {px py pz : Nat}

theorem intPat_min : intPat .min t hi sat px py pz = fit (min (patVal t px) (patVal t py)) t sat := by
  refine congrArg (fit · t sat) ?_
  split <;> omega

theorem intPat_max : intPat .max t hi sat px py pz = fit (max (patVal t px) (patVal t py)) t sat := by
  refine congrArg (fit · t sat) ?_
  split <;> omega

theorem intPat_rem : intPat .rem t hi sat px py pz = fit ((patVal t px).tmod (patVal t py)) t sat := by
  simp only [intPat, Int.tmod_def]

theorem intPat_and : intPat .and t hi sat px py pz = (BitVec.ofNat t.w px &&& BitVec.ofNat t.w py).toNat := by
  simp [intPat, Nat.and_mod_two_pow]

theorem intPat_or : intPat .or t hi sat px py pz = (BitVec.ofNat t.w px ||| BitVec.ofNat t.w py).toNat := by
  simp [intPat, Nat.or_mod_two_pow]

theorem intPat_xor : intPat .xor t hi sat px py pz = (BitVec.ofNat t.w px ^^^ BitVec.ofNat t.w py).toNat := by
  simp [intPat, Nat.xor_mod_two_pow]

/-- The bits of px that py lacks are those in which px differs from px AND py. -/
theorem intPat_andn : intPat .andn t hi sat px py pz = (BitVec.ofNat t.w px &&& ~~~BitVec.ofNat t.w py).toNat := by
  have bit : ∀ a b : Bool, (a ^^ (a && b)) = (a && !b) := by decide
  refine Nat.eq_of_testBit_eq fun k => ?_
  simp only [intPat, Nat.testBit_xor, Nat.testBit_mod_two_pow, Nat.testBit_and, BitVec.testBit_toNat, BitVec.getLsbD_and,
    BitVec.getLsbD_not, BitVec.getLsbD_ofNat]
  by_cases hk : k < t.w
  · simp only [hk, decide_true, Bool.true_and, bit]
  · simp [hk]

theorem intPat_not : intPat .not t hi sat px py pz = (~~~BitVec.ofNat t.w px).toNat := by
  simp [intPat]

/-! ## Shifts (R105) -/

theorem laneTy_w_pos (ty : BitVec 3) : 0 < (laneTy ty).w := by
  revert ty; decide

theorem uniTy_w_pos (ty : BitVec 3) : 0 < (uniTy ty).w := by
  revert ty; decide

/-- The signed value of a pattern is that of its bit vector. -/
theorem patVal_signed {w : Nat} (hw : 0 < w) (p : Nat) : patVal ⟨w, true⟩ p = (BitVec.ofNat w p).toInt := by
  have hpow : 2 ^ w = 2 * 2 ^ (w - 1) := by rw [← Nat.pow_succ']; congr 1; omega
  simp only [patVal, BitVec.toInt_eq_toNat_cond, BitVec.toNat_ofNat, true_and]
  push_cast
  split <;> split <;> omega

theorem shiftPat_shl (w p n : Nat) : shiftPat .shl w p n = (BitVec.ofNat w p <<< n).toNat := by
  simp only [shiftPat, BitVec.toNat_shiftLeft, BitVec.toNat_ofNat, Nat.shiftLeft_eq]
  split
  case isTrue h => exact (Nat.mod_eq_zero_of_dvd (Nat.dvd_mul_left_of_dvd (Nat.pow_dvd_pow 2 h) _)).symm
  case isFalse => rfl

theorem shiftPat_shr (w p n : Nat) : shiftPat .shr w p n = (BitVec.ofNat w p >>> n).toNat := by
  simp only [shiftPat, BitVec.toNat_ushiftRight, BitVec.toNat_ofNat, Nat.shiftRight_eq_div_pow]
  split
  case isTrue h =>
    exact (Nat.div_eq_of_lt (Nat.lt_of_lt_of_le (Nat.mod_lt _ (Nat.two_pow_pos _)) (Nat.pow_le_pow_right (by decide) h))).symm
  case isFalse => rfl

/-- Shifted right by its width or more, a pattern is its sign alone. -/
theorem toInt_shiftRight_min {w : Nat} (v : BitVec w) (n : Nat) : v.toInt / 2 ^ min n w = v.toInt >>> n := by
  rw [Int.shiftRight_eq_div_pow]
  rcases Nat.le_total n w with h | h
  · rw [Nat.min_eq_left h]; norm_cast
  · rw [Nat.min_eq_right h]
    have hlo := @BitVec.le_two_mul_toInt w v
    have hhi := @BitVec.two_mul_toInt_lt w v
    have hpow : (2 : Int) ^ w ≤ 2 ^ n := by exact_mod_cast Nat.pow_le_pow_right (n := 2) (by decide) h
    have hpos : (0 : Int) < 2 ^ w := Int.pow_pos (by decide)
    push_cast
    by_cases hs : 0 ≤ v.toInt
    · rw [Int.ediv_eq_zero_of_lt hs (by omega), Int.ediv_eq_zero_of_lt hs (by omega)]
    · rw [Int.ediv_eq_neg_one_of_neg_of_le (by omega) (by omega), Int.ediv_eq_neg_one_of_neg_of_le (by omega) (by omega)]

theorem shiftPat_sar {w : Nat} (hw : 0 < w) (p n : Nat) : shiftPat .sar w p n = ((BitVec.ofNat w p).sshiftRight n).toNat := by
  have h : BitVec.ofNat w (p % 2 ^ w) = BitVec.ofNat w p := BitVec.eq_of_toNat_eq (by simp)
  simp only [shiftPat, patVal_signed hw, floorShift, h, toInt_shiftRight_min, BitVec.sshiftRight, BitVec.toNat_ofInt]
  norm_cast

/-- The bits that a rotation turns over the top and those that it moves up lie apart. -/
theorem shiftPat_rot {w : Nat} (hw : 0 < w) (p n : Nat) : shiftPat .rot w p n = ((BitVec.ofNat w p).rotateLeft n).toNat := by
  have hlt : n % w < w := Nat.mod_lt _ hw
  have hq : p % 2 ^ w < 2 ^ w := Nat.mod_lt _ (Nat.two_pow_pos _)
  simp only [shiftPat, BitVec.toNat_rotateLeft, BitVec.toNat_ofNat, Nat.shiftLeft_eq, Nat.shiftRight_eq_div_pow]
  generalize n % w = r at hlt
  generalize p % 2 ^ w = q at hq
  have hsplit : 2 ^ w = 2 ^ (w - r) * 2 ^ r := by rw [← Nat.pow_add]; congr 1; omega
  have hdiv : q / 2 ^ (w - r) < 2 ^ r := Nat.div_lt_of_lt_mul (by rwa [← hsplit])
  rw [hsplit, Nat.mul_mod_mul_right, Nat.mul_comm, Nat.two_pow_add_eq_or_of_lt hdiv]

end Sys2Proof.Machine
end

section
/-! The integer arithmetic, logic and shift words of the lanes (R102, R104, R105). -/

namespace Sys2Proof.Claims

open Sys2Proof.Machine

section Words

variable {i : Instr} {op : Nat} {x : LArgs} {s : State}

/-- A word of `laneInt` writes Ext of the pattern of its operation. -/
theorem moves_of_laneInt {k : IntOp} (run : exec i s = .next (laneInt k op i.wf x s)) :
    Moves i op x.wr (x.uses x.wr ++ if k = .mad then [.src x.c x.wr] else []) x
      (fun f => extTo (intPat k x.ity x.hi x.sat (s.rd f x.a x.wr) (s.arg f x.b x.wr) (s.rd f x.c x.wr)) x.ity x.wr) s :=
  moves_of_lanewise run rfl

/-- Arithmetic of two sources. -/
theorem arith_of_laneInt {k : IntOp} {f : Int → Int → Int → Int} (run : exec i s = .next (laneInt k op i.wf x s)) (hk : k ≠ .mad)
    (hf : ∀ px py pz, intPat k x.ity x.hi x.sat px py pz =
      fit (f (patVal x.ity px) (patVal x.ity py) (patVal x.ity pz)) x.ity x.sat) :
    Arith i op f false x s := by
  have moves := moves_of_laneInt run
  rw [if_neg hk] at moves
  exact moves.congr (fun g => by rw [hf])

theorem arith_add (run : exec i s = .next (laneInt .add op i.wf x s)) : Arith i op (fun a b _ => a + b) false x s :=
  arith_of_laneInt run (by decide) (fun _ _ _ => rfl)

theorem arith_sub (run : exec i s = .next (laneInt .sub op i.wf x s)) : Arith i op (fun a b _ => a - b) false x s :=
  arith_of_laneInt run (by decide) (fun _ _ _ => rfl)

theorem arith_mul (run : exec i s = .next (laneInt .mul op i.wf x s)) : Arith i op (product x) false x s :=
  arith_of_laneInt run (by decide) (fun _ _ _ => rfl)

theorem arith_mad (run : exec i s = .next (laneInt .mad op i.wf x s)) : Arith i op (fun a b c => a * b + c) true x s :=
  moves_of_laneInt run

theorem arith_min (run : exec i s = .next (laneInt .min op i.wf x s)) : Arith i op (fun a b _ => min a b) false x s :=
  arith_of_laneInt run (by decide) (fun _ _ _ => intPat_min)

theorem arith_max (run : exec i s = .next (laneInt .max op i.wf x s)) : Arith i op (fun a b _ => max a b) false x s :=
  arith_of_laneInt run (by decide) (fun _ _ _ => intPat_max)

/-- A bitwise word. -/
theorem bitwise_of_laneInt {k : IntOp} {g : (w : Nat) → BitVec w → BitVec w → BitVec w}
    (run : exec i s = .next (laneInt k 0x08 i.wf x s)) (hk : k ≠ .mad)
    (hg : ∀ px py pz, intPat k x.ity x.hi x.sat px py pz = (g _ (BitVec.ofNat x.ity.w px) (BitVec.ofNat _ py)).toNat) :
    Bitwise i g x s := by
  have moves := moves_of_laneInt run
  rw [if_neg hk, List.append_nil] at moves
  exact moves.congr (fun f => by rw [hg])

theorem bitwise_and (run : exec i s = .next (laneInt .and 0x08 i.wf x s)) : Bitwise i (fun _ a b => a &&& b) x s :=
  bitwise_of_laneInt run (by decide) (fun _ _ _ => intPat_and)

theorem bitwise_or (run : exec i s = .next (laneInt .or 0x08 i.wf x s)) : Bitwise i (fun _ a b => a ||| b) x s :=
  bitwise_of_laneInt run (by decide) (fun _ _ _ => intPat_or)

theorem bitwise_xor (run : exec i s = .next (laneInt .xor 0x08 i.wf x s)) : Bitwise i (fun _ a b => a ^^^ b) x s :=
  bitwise_of_laneInt run (by decide) (fun _ _ _ => intPat_xor)

theorem bitwise_andn (run : exec i s = .next (laneInt .andn 0x08 i.wf x s)) : Bitwise i (fun _ a b => a &&& ~~~b) x s :=
  bitwise_of_laneInt run (by decide) (fun _ _ _ => intPat_andn)

/-- A word of one source. -/
theorem unary_of_laneInt1 {k : IntOp} {g : ITy → Nat → Nat} (run : exec i s = .next (laneInt1 k 0x09 i.wf x s))
    (hg : ∀ p, intPat k x.ity false x.sat p 0 0 = g x.ity p) : Unary i g x s :=
  Moves.congr (moves_of_lanewise run rfl) (fun f => by rw [hg])

theorem unary_not (run : exec i s = .next (laneInt1 .not 0x09 i.wf x s)) :
    Unary i (fun t p => (~~~(BitVec.ofNat t.w p)).toNat) x s :=
  unary_of_laneInt1 run (fun _ => intPat_not)

theorem unary_neg (run : exec i s = .next (laneInt1 .neg 0x09 i.wf x s)) :
    Unary i (fun t p => fit (-(patVal t p)) t x.sat) x s :=
  unary_of_laneInt1 run (fun _ => rfl)

theorem unary_abs (run : exec i s = .next (laneInt1 .abs 0x09 i.wf x s)) :
    Unary i (fun t p => fit ((patVal t p).natAbs : Int) t x.sat) x s :=
  unary_of_laneInt1 run (fun _ => rfl)

/-- A shift. -/
theorem shift_of_laneShift {k : ShiftOp} {g : (w : Nat) → BitVec w → Nat → BitVec w}
    (run : exec i s = .next (laneShift k 0x0A i.wf x s))
    (hg : ∀ p n, shiftPat k x.ity.w p n = (g _ (BitVec.ofNat x.ity.w p) n).toNat) : Shift i g x s :=
  Moves.congr (moves_of_lanewise run rfl) (fun f => by rw [hg])

theorem shift_shl (run : exec i s = .next (laneShift .shl 0x0A i.wf x s)) : Shift i (fun _ v n => v <<< n) x s :=
  shift_of_laneShift run (shiftPat_shl _)

theorem shift_shr (run : exec i s = .next (laneShift .shr 0x0A i.wf x s)) : Shift i (fun _ v n => v >>> n) x s :=
  shift_of_laneShift run (shiftPat_shr _)

theorem shift_sar (run : exec i s = .next (laneShift .sar 0x0A i.wf x s)) : Shift i (fun _ v n => v.sshiftRight n) x s :=
  shift_of_laneShift run (shiftPat_sar (laneTy_w_pos _))

theorem shift_rot (run : exec i s = .next (laneShift .rot 0x0A i.wf x s)) : Shift i (fun _ v n => v.rotateLeft n) x s :=
  shift_of_laneShift run (shiftPat_rot (laneTy_w_pos _))

end Words

theorem laneArithmetic : LaneArithmetic := fun _ =>
  ⟨fun _ => ⟨arith_add rfl, arith_sub rfl, arith_mul rfl, arith_min rfl, arith_max rfl⟩,
    fun _ => ⟨arith_add rfl, arith_sub rfl, arith_mul rfl, arith_mad rfl, arith_min rfl, arith_max rfl⟩,
    fun _ => ⟨arith_add rfl, arith_sub rfl, arith_mul rfl, arith_min rfl, arith_max rfl⟩⟩

theorem laneLogic : LaneLogic := fun _ =>
  ⟨fun _ => ⟨bitwise_and rfl, bitwise_or rfl, bitwise_xor rfl, bitwise_andn rfl, unary_not rfl, unary_neg rfl, unary_abs rfl⟩,
    fun _ => ⟨bitwise_and rfl, bitwise_or rfl, bitwise_xor rfl, bitwise_andn rfl, unary_not rfl, unary_neg rfl, unary_abs rfl⟩,
    fun _ => ⟨bitwise_and rfl, bitwise_or rfl, bitwise_xor rfl, bitwise_andn rfl⟩⟩

theorem laneShifts : LaneShifts := fun _ =>
  ⟨fun _ => ⟨shift_shl rfl, shift_shr rfl, shift_sar rfl, shift_rot rfl⟩,
    fun _ => ⟨shift_shl rfl, shift_shr rfl, shift_sar rfl, shift_rot rfl⟩,
    fun _ => ⟨shift_shl rfl, shift_shr rfl, shift_sar rfl, shift_rot rfl⟩⟩

/-- Settles O1: the model's patterns are the exact integer results and the bit-vector operations of R102, R104 and R105. -/
theorem laneIntegers : Obligations.LaneIntegers := ⟨laneArithmetic, laneLogic, laneShifts⟩

end Sys2Proof.Claims
end

section
/-! Counts, reversals, bit fields and compares of W-bit patterns (R106 to R108). -/

namespace Sys2Proof.Machine

open Sys2Proof.Claims

/-! ## Counts (R106) -/

/-- The leading zeros end at the place of the highest bit that is set. -/
theorem clzOf_toNat {w : Nat} (v : BitVec w) : clzOf w v.toNat = leading w v := by
  unfold clzOf leading
  split
  case isTrue h =>
    have zero : v = 0#w := BitVec.eq_of_toNat_eq (by simpa using h)
    have none : (List.range w).find? (fun k => v.getMsbD k) = none := by simp [zero]
    rw [none, Option.getD_none]
  case isFalse h =>
    have hlog : v.toNat.log2 < w := (Nat.log2_lt h).mpr v.isLt
    have found : (List.range w).find? (fun k => v.getMsbD k) = some (w - 1 - v.toNat.log2) := by
      refine List.find?_range_eq_some.mpr ⟨?_, by simp; omega, fun j hj => ?_⟩
      · simp [BitVec.getMsbD, show w - 1 - v.toNat.log2 < w by omega, show w - 1 - (w - 1 - v.toNat.log2) = v.toNat.log2 by omega,
          ← BitVec.testBit_toNat, Nat.testBit_log2 h]
      · have small : v.toNat < 2 ^ (w - 1 - j) := (Nat.log2_lt h).mp (by omega)
        simp [BitVec.getMsbD, ← BitVec.testBit_toNat, Nat.testBit_lt_two_pow small]
    rw [found, Option.getD_some]

/-- Counting from bit `i` on finds the first bit that is set. -/
theorem ctzFrom_eq_find (k i p : Nat) : ctzFrom k i p = ((List.range' i k).find? (fun j => p.testBit j)).getD (i + k) := by
  induction k generalizing i with
  | zero => rfl
  | succ k ih =>
    rw [ctzFrom, List.range'_succ, List.find?_cons]
    cases p.testBit i with
    | true => rfl
    | false => simp only [Bool.false_eq_true, if_false, ih, Nat.add_assoc, Nat.add_comm 1]

theorem ctzOf_toNat {w : Nat} (v : BitVec w) : ctzOf w v.toNat = trailing w v := by
  rw [ctzOf, ctzFrom_eq_find, ← List.range_eq_range', Nat.zero_add]
  rfl

theorem popcOf_eq_length (w p : Nat) : popcOf w p = ((List.range w).filter (fun k => p.testBit k)).length := by
  induction w with
  | zero => rfl
  | succ w ih =>
    rw [popcOf, ih, List.range_succ, List.filter_append, List.length_append, List.filter_cons, List.filter_nil]
    cases p.testBit w with
    | true => exact Nat.add_comm 1 _
    | false => exact Nat.zero_add _

theorem popcOf_eq_ones (w p : Nat) : popcOf w p = ones w (BitVec.ofNat w p) := by
  rw [popcOf_eq_length, ones]
  refine congrArg _ (List.filter_congr fun k hk => ?_)
  simp only [BitVec.getLsbD_ofNat, List.mem_range.mp hk, decide_true, Bool.true_and]

/-! ## A number from its bits -/

/-- The number whose bit `k` is `b k`, for k below `w`. -/
def bitSum (w : Nat) (b : Nat → Bool) : Nat := (List.range w).foldl (fun m k => m + (if b k then 2 ^ k else 0)) 0

theorem bitSum_succ (w : Nat) (b : Nat → Bool) : bitSum (w + 1) b = 2 ^ w * (b w).toNat + bitSum w b := by
  rw [bitSum, List.range_succ, List.foldl_append]
  cases h : b w <;> simp [bitSum, h, Nat.add_comm]

theorem bitSum_lt (w : Nat) (b : Nat → Bool) : bitSum w b < 2 ^ w := by
  induction w with
  | zero => exact Nat.one_pos
  | succ w ih =>
    rw [bitSum_succ, Nat.pow_succ]
    cases b w <;> simp <;> omega

theorem testBit_bitSum (w : Nat) (b : Nat → Bool) (k : Nat) : (bitSum w b).testBit k = (decide (k < w) && b k) := by
  induction w with
  | zero => simp [bitSum]
  | succ w ih =>
    rw [bitSum_succ, Nat.testBit_two_pow_mul_add _ (bitSum_lt w b), Nat.testBit_bool_toNat, ih]
    rcases Nat.lt_trichotomy k w with hk | rfl | hk
    · simp [hk, Nat.lt_succ_of_lt hk]
    · simp
    · simp [show ¬ k < w by omega, show ¬ k < w + 1 by omega, show k - w ≠ 0 by omega]

theorem bitSum_congr {w : Nat} {b b' : Nat → Bool} (h : ∀ k < w, b k = b' k) : bitSum w b = bitSum w b' := by
  refine Nat.eq_of_testBit_eq fun k => ?_
  rw [testBit_bitSum, testBit_bitSum]
  by_cases hk : k < w
  · rw [h k hk]
  · simp [hk]

/-! ## Reversal (R106) -/

theorem brevOf_eq_bitSum (w p : Nat) : brevOf w p = bitSum w (fun k => p.testBit (w - 1 - k)) := by
  induction w generalizing p with
  | zero => rfl
  | succ w ih =>
    have upper : bitSum w (fun k => (p / 2).testBit (w - 1 - k)) = bitSum w (fun k => p.testBit (w + 1 - 1 - k)) :=
      bitSum_congr fun k hk => by rw [← Nat.testBit_succ, show (w - 1 - k).succ = w + 1 - 1 - k by omega]
    rw [brevOf, ih, upper, bitSum_succ, Nat.add_sub_cancel, Nat.sub_self]
    cases p.testBit 0 <;> simp [Nat.add_comm]

theorem brevOf_eq_reverse (w p : Nat) : brevOf w p = (BitVec.ofNat w p).reverse.toNat := by
  refine Nat.eq_of_testBit_eq fun k => ?_
  rw [brevOf_eq_bitSum, testBit_bitSum, BitVec.testBit_toNat, BitVec.getLsbD_reverse, BitVec.getMsbD, BitVec.getLsbD_ofNat]
  by_cases hk : k < w
  · simp only [hk, show w - 1 - k < w by omega, decide_true, Bool.true_and]
  · simp [hk]

/-- Ext of a 32-bit pattern to 32 bits is that pattern. -/
theorem extTo_i32 {p : Nat} (h : p < 2 ^ 32) : extTo p ⟨32, true⟩ 32 = p := by
  simp only [extTo, ext64, patVal, BitVec.toNat_ofInt]
  split <;> omega

/-! ## Bit fields (R107) -/

/-- A number with the bits from pos up to top taken from another one. -/
theorem testBit_splice {pos top : Nat} (h : pos ≤ top) (a c k : Nat) :
    (c % 2 ^ pos + 2 ^ pos * (a % 2 ^ (top - pos)) + 2 ^ top * (c / 2 ^ top)).testBit k =
      if pos ≤ k ∧ k < top then a.testBit (k - pos) else c.testBit k := by
  have low : c % 2 ^ pos < 2 ^ pos := Nat.mod_lt _ (Nat.two_pow_pos _)
  have mid : a % 2 ^ (top - pos) < 2 ^ (top - pos) := Nat.mod_lt _ (Nat.two_pow_pos _)
  have under : 2 ^ pos * (a % 2 ^ (top - pos)) + c % 2 ^ pos < 2 ^ top := by
    calc 2 ^ pos * (a % 2 ^ (top - pos)) + c % 2 ^ pos < 2 ^ pos * (a % 2 ^ (top - pos) + 1) := by rw [Nat.mul_succ]; omega
      _ ≤ 2 ^ pos * 2 ^ (top - pos) := Nat.mul_le_mul_left _ mid
      _ = 2 ^ top := by rw [← Nat.pow_add, Nat.add_sub_cancel' h]
  rw [Nat.add_comm (c % 2 ^ pos), Nat.add_comm _ (2 ^ top * _), Nat.testBit_two_pow_mul_add _ under, Nat.testBit_two_pow_mul_add _ low,
    Nat.testBit_div_two_pow, Nat.testBit_mod_two_pow, Nat.testBit_mod_two_pow]
  rcases Nat.lt_or_ge k pos with below | above
  · simp [below, show k < top by omega, show ¬ pos ≤ k by omega]
  · rcases Nat.lt_or_ge k top with inside | beyond
    · simp [above, inside, show ¬ k < pos by omega, show k - pos < top - pos by omega]
    · simp [show ¬ k < top by omega, show k - top + top = k by omega]

/-- The bits of a `bfi`: between pos and pos + len those of a, elsewhere those of c. -/
theorem testBit_bfiPat (t : ITy) (pa pc q k : Nat) : (bfiPat t pa pc q).testBit k = (decide (k < t.w) &&
    (if fieldPos q ≤ k ∧ k < fieldPos q + fieldLen q t.w then pa.testBit (k - fieldPos q) else pc.testBit k)) := by
  unfold bfiPat
  dsimp only
  split
  case isTrue empty =>
    rw [Nat.testBit_mod_two_pow]
    by_cases hk : k < t.w
    · rw [if_neg (by omega)]
    · simp [hk]
  case isFalse field =>
    rw [testBit_splice (by omega), Nat.testBit_mod_two_pow]
    by_cases hk : k < t.w
    · have inside : k < min (fieldPos q + fieldLen q t.w) t.w ↔ k < fieldPos q + fieldLen q t.w := by omega
      simp only [inside, hk, decide_true, Bool.true_and]
    · rw [if_neg (by omega), decide_eq_false hk, Bool.false_and, Bool.false_and]

theorem bfiPat_eq_bitInsert (t : ITy) (pa pc q : Nat) :
    bfiPat t pa pc q = (bitInsert t.w (BitVec.ofNat t.w pa) (BitVec.ofNat t.w pc) q).toNat := by
  refine Nat.eq_of_testBit_eq fun k => ?_
  have insert : bitInsert t.w (BitVec.ofNat t.w pa) (BitVec.ofNat t.w pc) q = BitVec.ofNat t.w (bitSum t.w (fun k =>
      if fieldPos q ≤ k ∧ k < fieldPos q + fieldLen q t.w then (BitVec.ofNat t.w pa).getLsbD (k - fieldPos q)
      else (BitVec.ofNat t.w pc).getLsbD k)) := rfl
  rw [testBit_bfiPat, insert, BitVec.toNat_ofNat, Nat.testBit_mod_two_pow, testBit_bitSum]
  by_cases hk : k < t.w
  · simp only [BitVec.getLsbD_ofNat, hk, show k - fieldPos q < t.w by omega, decide_true, Bool.true_and]
  · simp [hk]

/-! ## Compares (R108) -/

theorem and_mod_ne_zero (w px py : Nat) :
    decide ((px &&& py) % 2 ^ w ≠ 0) = ((BitVec.ofNat w px &&& BitVec.ofNat w py) != 0) := by
  rw [bne, Bool.eq_iff_iff]
  simp [← BitVec.toNat_inj, Nat.and_mod_two_pow]

theorem cmpHolds_eq (t : ITy) (cond px py : Nat) : cmpHolds t cond px py = (match cond with
    | 0 => patVal t px == patVal t py
    | 1 => patVal t px != patVal t py
    | 2 => decide (patVal t px < patVal t py)
    | 3 => decide (patVal t px ≤ patVal t py)
    | 4 => decide (patVal t px > patVal t py)
    | 5 => decide (patVal t px ≥ patVal t py)
    | _ => (BitVec.ofNat t.w px &&& BitVec.ofNat t.w py) != 0) := by
  match cond with
  | 0 => rfl
  | 1 => exact decide_not
  | 2 => rfl
  | 3 => rfl
  | 4 => rfl
  | 5 => rfl
  | _ + 6 => exact and_mod_ne_zero t.w px py

end Sys2Proof.Machine
end

section
/-! Counts, bit fields and compares of the lanes (R106 to R108). -/

namespace Sys2Proof.Claims

open Sys2Proof.Machine

section Words

variable {i : Instr} {x : LArgs} {s : State}

/-- A word of `laneBits` writes 32 bits, `brev` as many as its source has. -/
theorem moves_of_laneBits {k : BitOp} (run : exec i s = .next (laneBits k 0x0B i.wf x s)) :
    Moves i 0x0B (if k = .brev then x.wr else 32) [.dst x.d (if k = .brev then x.wr else 32), .src x.a x.wr] x
      (fun f => if k = .brev then extTo (bitPat k x.ity.w (s.rd f x.a x.wr)) x.ity x.wr else bitPat k x.ity.w (s.rd f x.a x.wr)) s :=
  moves_of_lanewise run rfl

theorem count_of_laneBits {k : BitOp} {g : (w : Nat) → BitVec w → Nat} (run : exec i s = .next (laneBits k 0x0B i.wf x s))
    (hk : k ≠ .brev) (hg : ∀ p, bitPat k x.ity.w p = g _ (BitVec.ofNat x.ity.w p)) : Count i g x s := by
  have moves := moves_of_laneBits run
  simp only [if_neg hk] at moves
  exact moves.congr (fun f => hg _)

theorem count_clz (run : exec i s = .next (laneBits .clz 0x0B i.wf x s)) : Count i leading x s :=
  count_of_laneBits run (by decide) (fun p => clzOf_toNat (BitVec.ofNat _ p))

theorem count_ctz (run : exec i s = .next (laneBits .ctz 0x0B i.wf x s)) : Count i trailing x s :=
  count_of_laneBits run (by decide) (fun p => ctzOf_toNat (BitVec.ofNat _ p))

theorem count_popc (run : exec i s = .next (laneBits .popc 0x0B i.wf x s)) : Count i ones x s :=
  count_of_laneBits run (by decide) (popcOf_eq_ones _)

theorem moves_brev (run : exec i s = .next (laneBits .brev 0x0B i.wf x s)) :
    Moves i 0x0B x.wr [.dst x.d x.wr, .src x.a x.wr] x
      (fun f => extTo (BitVec.ofNat x.ity.w (s.rd f x.a x.wr)).reverse.toNat x.ity x.wr) s :=
  (moves_of_laneBits run).congr (fun _ => congrArg (extTo · x.ity x.wr) (brevOf_eq_reverse _ _))

theorem extracts_of_laneBfx (run : exec i s = .next (laneBfx 0x0C i.wf x s)) : Extracts i x s :=
  moves_of_lanewise run rfl

theorem moves_bfi (run : exec i s = .next (laneBfi 0x0C i.wf x s)) :
    Moves i 0x0C x.wr (x.uses 32 ++ [.src x.c x.wr]) x
      (fun f => extTo (bitInsert x.ity.w (BitVec.ofNat _ (s.rd f x.a x.wr)) (BitVec.ofNat _ (s.rd f x.c x.wr)) (s.arg f x.b 32)).toNat
        x.ity x.wr) s :=
  Moves.congr (moves_of_lanewise run rfl) (fun f => by rw [bfiPat_eq_bitInsert])

/-- A compare writes a predicate in the active lanes. -/
theorem compares_of_laneCmp {comb : Nat} (run : exec i s = .next (laneCmp 0x0D i.wf comb x s)) : Compares i comb x s := by
  intro passes
  rw [Done, run, laneCmp, Desc.run_done (passes.clear rfl rfl)]
  simp only [cmpHolds_eq, combine]
  rfl

end Words

theorem laneBitFields : LaneBitFields := fun _ =>
  ⟨fun _ => ⟨count_clz rfl, count_ctz rfl, count_popc rfl, (moves_brev rfl).congr (fun _ => extTo_i32 (BitVec.isLt _)),
      extracts_of_laneBfx rfl⟩,
    fun _ => ⟨count_clz rfl, count_ctz rfl, count_popc rfl, moves_brev rfl, extracts_of_laneBfx rfl, moves_bfi rfl⟩,
    fun _ => extracts_of_laneBfx rfl⟩

theorem laneCompare : LaneCompare := fun _ =>
  ⟨fun _ => compares_of_laneCmp rfl, fun _ => compares_of_laneCmp rfl, fun _ => compares_of_laneCmp rfl⟩

/-- Settles O2: the counts, the reversal and the inserted field bit by bit, and each COND of the compares. -/
theorem laneFieldsAndCompares : Obligations.LaneFieldsAndCompares := ⟨laneBitFields, laneCompare⟩

end Sys2Proof.Claims
end

section
/-! Conversions, lanes and votes as R112, R113 and R116 state them. -/

namespace Sys2Proof.Machine

open Sys2Proof.Claims

/-! ## Conversions (R116) -/

theorem laneTy_w_le (ty : BitVec 3) : (laneTy ty).w ≤ 64 := by
  revert ty; decide

theorem patVal_natAbs_lt (t : ITy) (p : Nat) : (patVal t p).natAbs < 2 ^ t.w := by
  have hlt : p % 2 ^ t.w < 2 ^ t.w := Nat.mod_lt _ (Nat.two_pow_pos _)
  have hcast : ((2 ^ t.w : Nat) : Int) = 2 ^ t.w := by push_cast; rfl
  simp only [patVal]
  rw [← hcast]
  split
  case isTrue h =>
    have : 2 ^ (t.w - 1) > 0 := Nat.two_pow_pos _
    omega
  case isFalse => omega

/-- A number of which no bit lies above the one behind the point rounds in the same way whatever its exponent is. -/
theorem roundMag_of_small {n d d' : Nat} (h : 2 * n < d) (h' : 2 * n < d') (mode : Nat) (neg : Bool) :
    roundMag mode neg n d = roundMag mode neg n d' := by
  have quot : ∀ {d}, 2 * n < d → n / d = 0 := fun h => Nat.div_eq_of_lt (by omega)
  have rest : ∀ {d}, 2 * n < d → n % d = n := fun h => Nat.mod_eq_of_lt (by omega)
  simp only [roundMag, quot h, quot h', rest h, rest h', if_pos h, if_pos h']

theorem icvtPat_eq {src : ITy} (hw : src.w ≤ 64) (dst : ITy) (sat : Bool) (rnd p n : Nat) : icvtPat src dst sat rnd p n =
    fit (roundInt rnd (patVal src p < 0) (patVal src p).natAbs (2 ^ n)) dst sat := by
  rcases Nat.le_total n 67 with h | h
  · rw [icvtPat, Nat.min_eq_left h]
  · have small : 2 * (patVal src p).natAbs < 2 ^ 67 := by
      have := patVal_natAbs_lt src p
      have : 2 ^ src.w ≤ 2 ^ 64 := Nat.pow_le_pow_right (by decide) hw
      omega
    have small' : 2 * (patVal src p).natAbs < 2 ^ n := Nat.lt_of_lt_of_le small (Nat.pow_le_pow_right (by decide) h)
    simp only [icvtPat, Nat.min_eq_right h, roundInt, roundMag_of_small small small']

/-! ## Exchanges (R112, R113) -/

theorem sourceLane_eq_shflFrom (mode l y : Nat) : sourceLane mode l y = shflFrom mode l y := by
  match mode with
  | 0 => rfl
  | 1 => rfl
  | 2 =>
    have whole := Nat.div_add_mod' l (2 ^ min (y % 8) 5)
    simp only [sourceLane, shflFrom]
    omega
  | _ + 3 => rfl

/-- What a fibre takes from lane `l` in a `shfl`: the value there where that lane is active, else its own. -/
def State.takenFrom (s : State) (x : LArgs) (w : Nat) (f : Fibre) (l : Nat) : Nat :=
  match (s.active x.pr x.neg).find? (fun g => g.lane = l) with
  | some g => s.rd g x.a w
  | none => s.rd f x.a w

theorem voteVal_eq (mode : Nat) (vs : List (Nat × Nat)) : voteVal mode vs = (match mode with
    | 0 => ((vs.filter (fun x => x.2 ≠ 0)).map (fun x => 2 ^ x.1)).sum
    | 1 => if ∃ x ∈ vs, x.2 ≠ 0 then 1 else 0
    | 2 => if ∀ x ∈ vs, x.2 ≠ 0 then 1 else 0
    | _ => if ∀ x ∈ vs, ∀ y ∈ vs, x.2 = y.2 then 1 else 0) := by
  match mode with
  | 0 => simp only [voteVal, List.sum_eq_foldl, List.foldl_map]
  | 1 => simp only [voteVal, List.any_eq_true, decide_eq_true_eq]
  | 2 => simp only [voteVal, List.all_eq_true, decide_eq_true_eq]
  | _ + 3 => simp only [voteVal, List.all_eq_true, decide_eq_true_eq]

end Sys2Proof.Machine
end

section
/-! Moves, selections and exchanges of the lanes (R109 to R116). -/

namespace Sys2Proof.Claims

open Sys2Proof.Machine

section Words

variable {i : Instr} {x : LArgs} {s : State}

theorem moves_mov (run : exec i s = .next (laneMov 0x0F i.wf x s)) :
    Moves i 0x0F x.wr [.dst x.d x.wr, .src x.a x.wr] x (fun f => s.rd f x.a x.wr) s :=
  moves_of_lanewise run rfl

theorem moves_movi (run : exec i s = .next (laneMovi 0x0F i.wf x s)) :
    Moves i 0x0F x.wr [.dst x.d x.wr] x (fun f => s.arg f x.b x.wr) s :=
  moves_of_lanewise run rfl

theorem moves_sel {o : LF} (run : exec i s = .next (laneSel 0x0E i.wf o s)) :
    Moves i 0x0E (llArgs o).wr [.dst (longName o.d) (llArgs o).wr, .src (longName o.a) (llArgs o).wr, .src (longName o.b) (llArgs o).wr,
        .below o.c.toNat 16] (llArgs o)
      (fun f => if f.pred (o.c.toNat % 8) != o.c.getLsbD 3 then s.rd f (longName o.a) (llArgs o).wr
        else s.rd f (longName o.b) (llArgs o).wr) s :=
  moves_of_lanewise run rfl

theorem moves_lid (run : exec i s = .next (laneLid 0x2A i.wf x s)) :
    Moves i 0x2A 32 [.dst x.d 32] x (fun f => f.lane) s :=
  moves_of_lanewise run rfl

theorem moves_vtag (run : exec i s = .next (laneVtag 0x2A i.wf x s)) :
    Moves i 0x2A 32 [.dst x.d 32, .src x.a 32] x (fun _ => tagCode s.encv s.frm x.a) s :=
  moves_of_lanewise run rfl

theorem converts_of_laneIcvt {srcty : BitVec 3} {rnd : Nat} (run : exec i s = .next (laneIcvt 0x34 i.wf srcty rnd x s)) :
    Converts i srcty rnd x s :=
  Moves.congr (moves_of_lanewise run rfl) (fun _ => congrArg (extTo · x.ity x.wr) (icvtPat_eq (laneTy_w_le srcty) _ _ _ _ _))

theorem shuffles_of_laneShfl {mode w : Nat} (run : exec i s = .next (laneShfl 0x28 i.wf mode w x s)) : Shuffles i mode w x s :=
  Moves.congr (moves_of_lanewise run rfl) (fun f => congrArg (s.takenFrom x w f) (sourceLane_eq_shflFrom _ _ _))

theorem moves_bcast (run : exec i s = .next (laneBcast 0x29 i.wf x s)) :
    Moves i 0x29 x.wr [.dst x.d x.wr, .src x.a x.wr] x
      (fun _ => ((s.active x.pr x.neg).head?.map (fun f => s.rd f x.a x.wr)).getD 0) s :=
  Moves.congr (moves_of_lanewise run rfl) (fun _ => by cases s.active x.pr x.neg <;> rfl)

theorem moves_vote {mode : Nat} (run : exec i s = .next (laneVote 0x29 i.wf mode x s)) :
    Moves i 0x29 32 [.dst x.d 32, .src x.a x.wr] x
      (fun _ => voteVal mode ((s.active x.pr x.neg).map (fun f => (f.lane, s.rd f x.a x.wr)))) s :=
  moves_of_lanewise run rfl

end Words

theorem laneMoves : LaneMoves := fun _ =>
  ⟨fun _ => ⟨moves_mov rfl, moves_lid rfl, moves_vtag rfl⟩,
    fun _ => ⟨moves_mov rfl, moves_sel rfl, moves_lid rfl, moves_vtag rfl, converts_of_laneIcvt rfl⟩,
    fun _ => ⟨moves_movi rfl, converts_of_laneIcvt rfl⟩⟩

theorem laneExchange : LaneExchange := fun _ =>
  ⟨fun _ _ => shuffles_of_laneShfl rfl, fun _ => moves_bcast rfl,
    fun _ => ⟨shuffles_of_laneShfl rfl, moves_bcast rfl, (moves_vote rfl).congr (fun _ => voteVal_eq _ _)⟩,
    fun _ => shuffles_of_laneShfl rfl⟩

/-- Settles O3: the moves copy as they stand; a conversion by 67 places or more rounds as one by 67, and the source lane of `shfl` and the
word of `vote` are those of R112 and R113. -/
theorem laneMovement : Obligations.LaneMovement := ⟨laneMoves, laneExchange⟩

end Sys2Proof.Claims
end

section
/-! Divisions of the lanes and of the uniform words (R103, R117). -/

namespace Sys2Proof.Machine

section Lanes

/-- A lane word of two sources in the width of its registers. -/
abbrev LArgs.binary (x : LArgs) (op : Nat) (legal : Bool) : Desc := x.desc op legal (x.uses x.wr) x.wr x.wr

variable {x : LArgs} {s : State}

/-- Without a zero divisor in an active lane, a division is a word of one value in each lane. -/
theorem laneDiv_nonzero (h : ∀ g ∈ s.active x.pr x.neg, patVal x.ity (s.arg g x.b x.wr) ≠ 0) (k : IntOp) (op : Nat) (legal : Bool) :
    laneDiv k op legal x s = (x.binary op legal).lanewise s x.d x.wr (some .int)
      (fun f => extTo (intPat k x.ity false x.sat (s.rd f x.a x.wr) (s.arg f x.b x.wr) 0) x.ity x.wr) :=
  if_pos (by simpa using h)

/-- With one, it is a word that traps. -/
theorem laneDiv_zero (h : (s.active x.pr x.neg).filter (fun f => patVal x.ity (s.arg f x.b x.wr) = 0) ≠ []) (k : IntOp) (op : Nat)
    (legal : Bool) : ∃ r : Trap, r.code = 0x008 ∧ r.epc = s.pc
      ∧ r.elanes = laneMask ((s.active x.pr x.neg).filter (fun f => patVal x.ity (s.arg f x.b x.wr) = 0)) ∧ r.eaddr = 0
      ∧ laneDiv k op legal x s = (x.binary op legal).run s (.trap r) :=
  ⟨_, rfl, rfl, rfl, rfl, if_neg (by simpa using h)⟩

end Lanes

section Uniform

/-- A uniform word of two sources. -/
abbrev UArgs.binary (x : UArgs) (op : Nat) (legal : Bool) : Desc := x.desc op legal (x.uses 64)

variable {x : UArgs} {s : State}

theorem uniDiv_nonzero (h : patVal x.ity (s.uarg x.b 64) ≠ 0) (k : IntOp) (op : Nat) (legal : Bool) :
    uniDiv k op legal x s = (x.binary op legal).scalar s x.d
      (extTo (intPat k x.ity false x.sat (s.q.sreg x.a).toNat (s.uarg x.b 64) 0) x.ity 64) := if_neg h

theorem uniDiv_zero (h : patVal x.ity (s.uarg x.b 64) = 0) (k : IntOp) (op : Nat) (legal : Bool) :
    ∃ r : Trap, r.code = 0x008 ∧ r.epc = s.pc ∧ r.elanes = laneMask s.batch ∧ r.eaddr = 0
      ∧ uniDiv k op legal x s = (x.binary op legal).runU s (.trap r) :=
  ⟨_, rfl, rfl, rfl, rfl, if_pos h⟩

/-- Under a false predicate a division does the same as any other word. -/
theorem uniDiv_idle (h : s.kActive x.pr x.neg = false) (k : IntOp) (op : Nat) (legal : Bool) (v : Nat) :
    uniDiv k op legal x s = (x.binary op legal).scalar s x.d v := by
  have idle : ∀ b, (x.binary op legal).runU s b = (x.binary op legal).run s (.done s) := Desc.runU_idle h
  rw [Desc.scalar, idle]
  by_cases hz : patVal x.ity (s.uarg x.b 64) = 0
  · obtain ⟨r, -, -, -, -, traps⟩ := uniDiv_zero hz k op legal
    rw [traps, idle]
  · rw [uniDiv_nonzero hz, Desc.scalar, idle]

end Uniform

end Sys2Proof.Machine

namespace Sys2Proof.Claims

open Sys2Proof.Machine

section Lanes

variable {i : Instr} {op : Nat} {x : LArgs} {s : State}

theorem divides_of_laneDiv {k : IntOp} {f : Int → Int → Int} (run : exec i s = .next (laneDiv k op i.wf x s))
    (hf : ∀ px py, intPat k x.ity false x.sat px py 0 = fit (f (patVal x.ity px) (patVal x.ity py)) x.ity x.sat) :
    Divides i op f x s := by
  intro passes nonzero
  rw [laneDiv_nonzero nonzero] at run
  exact (moves_of_lanewise run rfl).congr (fun g => by rw [hf]) passes

theorem divides_div (run : exec i s = .next (laneDiv .div op i.wf x s)) : Divides i op (fun a b => a.tdiv b) x s :=
  divides_of_laneDiv run (fun _ _ => rfl)

theorem divides_rem (run : exec i s = .next (laneDiv .rem op i.wf x s)) : Divides i op (fun a b => a.tmod b) x s :=
  divides_of_laneDiv run (fun _ _ => intPat_rem)

theorem divTraps_of_laneDiv {k : IntOp} (run : exec i s = .next (laneDiv k op i.wf x s)) : DivTraps i op x s := by
  intro passes zero
  obtain ⟨r, code, epc, elanes, eaddr, traps⟩ := laneDiv_zero zero k op i.wf
  rw [traps, Desc.run_trap (passes.clear rfl rfl)] at run
  exact ⟨r, code, epc, elanes, eaddr, run⟩

end Lanes

theorem laneDivision : LaneDivision := fun _ =>
  ⟨fun _ => ⟨divides_div rfl, divides_rem rfl⟩, fun _ => ⟨divides_div rfl, divides_rem rfl⟩,
    fun _ => ⟨divides_div rfl, divides_rem rfl⟩⟩

theorem divisionByZeroTraps : DivisionByZeroTraps := fun _ =>
  ⟨fun _ => ⟨divTraps_of_laneDiv rfl, divTraps_of_laneDiv rfl⟩, fun _ => ⟨divTraps_of_laneDiv rfl, divTraps_of_laneDiv rfl⟩,
    fun _ => ⟨divTraps_of_laneDiv rfl, divTraps_of_laneDiv rfl⟩⟩

section Uniform

variable {i : Instr} {x : UArgs} {s : State}

theorem dividesU_of_uniDiv {k : IntOp} {f : Int → Int → Int} (run : exec i s = .next (uniDiv k 0x03 i.wf x s))
    (hf : ∀ px py, intPat k x.ity false x.sat px py 0 = fit (f (patVal x.ity px) (patVal x.ity py)) x.ity x.sat) :
    DividesU i f x s := by
  intro nonzero
  cases active : s.kActive x.pr x.neg with
  | false => exact scalar_of_scalar (run.trans (congrArg _ (uniDiv_idle active k _ _ _))) rfl
  | true => exact (scalar_of_scalar (run.trans (congrArg _ (uniDiv_nonzero (nonzero active) k _ _))) rfl).congr (by rw [hf])

theorem dividesU_sdiv (run : exec i s = .next (uniDiv .div 0x03 i.wf x s)) : DividesU i (fun a b => a.tdiv b) x s :=
  dividesU_of_uniDiv run (fun _ _ => rfl)

theorem dividesU_srem (run : exec i s = .next (uniDiv .rem 0x03 i.wf x s)) : DividesU i (fun a b => a.tmod b) x s :=
  dividesU_of_uniDiv run (fun _ _ => intPat_rem)

theorem divTrapsU_of_uniDiv {k : IntOp} (run : exec i s = .next (uniDiv k 0x03 i.wf x s)) : DivTrapsU i x s := by
  intro passes active zero
  obtain ⟨r, code, epc, elanes, eaddr, traps⟩ := uniDiv_zero zero k 0x03 i.wf
  rw [traps] at run
  obtain ⟨clear, ran⟩ := runs_of_runU run rfl passes active
  exact ⟨r, code, epc, elanes, eaddr, by rw [ran, Desc.run_trap clear]⟩

end Uniform

theorem uniformDivision : UniformDivision := fun _ =>
  ⟨fun _ => ⟨dividesU_sdiv rfl, dividesU_srem rfl, divTrapsU_of_uniDiv rfl, divTrapsU_of_uniDiv rfl⟩,
    fun _ => ⟨dividesU_sdiv rfl, dividesU_srem rfl, divTrapsU_of_uniDiv rfl, divTrapsU_of_uniDiv rfl⟩,
    fun _ => ⟨dividesU_sdiv rfl, dividesU_srem rfl, divTrapsU_of_uniDiv rfl, divTrapsU_of_uniDiv rfl⟩⟩

/-- Settles O4: where a divisor is zero the word stops before any lane is written, and elsewhere it is a word of one value in each lane. -/
theorem divisions : Obligations.Divisions := ⟨laneDivision, divisionByZeroTraps, uniformDivision⟩

end Sys2Proof.Claims
end

section
/-! The integer words of the s registers (R108 to R110, R114, R115, R117). -/

namespace Sys2Proof.Machine

/-- `smovi` with .hi: the immediate above the low half of the register. -/
theorem append_setWidth_toNat (imm : Word) (v : DWord) : (imm ++ v.setWidth 32).toNat = v.toNat % 2 ^ 32 + imm.toNat * 2 ^ 32 := by
  rw [BitVec.toNat_append, BitVec.toNat_setWidth, Nat.shiftLeft_eq, Nat.mul_comm,
    ← Nat.two_pow_add_eq_or_of_lt (Nat.mod_lt _ (Nat.two_pow_pos _)), Nat.add_comm]

variable {s : State} {r w : Nat} {v u : Word}

/-- A register tagged U gives the value of its tag, and a pair those of both tags (log 101). -/
theorem sgetVal_of_tag_u (version : s.encv ≠ 1) (low : s.frm.tag r = .u v) (high : w = 64 → s.frm.tag (r + 1) = .u u) :
    sgetVal s (.v r) w = some (if w = 64 then v.toNat + 2 ^ 32 * u.toNat else v.toNat) := by
  simp only [sgetVal, if_neg version, low]
  by_cases hw : w = 64
  · simp only [high hw, if_pos hw]
  · simp only [if_neg hw]
    cases s.frm.tag (r + 1) <;> rfl

/-- A register of another tag gives no value. -/
theorem sgetVal_of_tag_not_u (version : s.encv ≠ 1) (other : ∀ v, s.frm.tag r ≠ .u v) : sgetVal s (.v r) w = none := by
  simp only [sgetVal, if_neg version]
  cases tag : s.frm.tag r with
  | u v => exact absurd tag (other v)
  | a b st => rfl
  | g => rfl

/-- The lane index of a batch of one fibre. -/
theorem sgetVal_lane {f : Fibre} (version : s.encv ≠ 1) (one : s.batch = [f]) : sgetVal s .lane w = some f.lane := by
  simp only [sgetVal, if_neg version, one]

end Sys2Proof.Machine

namespace Sys2Proof.Claims

open Sys2Proof.Machine

section Words

variable {i : Instr} {op : Nat} {x : UArgs} {s : State}

/-- A word of `uniInt` writes Ext of the pattern of its operation. -/
theorem scalar_of_uniInt {k : IntOp} {p : Nat} (run : exec i s = .next (uniInt k op i.wf x s))
    (hp : intPat k x.ity x.hi x.sat (s.q.sreg x.a).toNat (s.uarg x.b 64) 0 = p) :
    Scalar i op x (x.uses 64) (extTo p x.ity 64) s :=
  (scalar_of_scalar run rfl).congr (by rw [← hp])

theorem arithU_add (run : exec i s = .next (uniInt .add op i.wf x s)) : ArithU i op (fun a b => a + b) x s :=
  scalar_of_uniInt run rfl

theorem arithU_sub (run : exec i s = .next (uniInt .sub op i.wf x s)) : ArithU i op (fun a b => a - b) x s :=
  scalar_of_uniInt run rfl

theorem arithU_mul (run : exec i s = .next (uniInt .mul op i.wf x s)) : ArithU i op (productU x) x s :=
  scalar_of_uniInt run rfl

theorem arithU_min (run : exec i s = .next (uniInt .min op i.wf x s)) : ArithU i op min x s :=
  scalar_of_uniInt run intPat_min

theorem arithU_max (run : exec i s = .next (uniInt .max op i.wf x s)) : ArithU i op max x s :=
  scalar_of_uniInt run intPat_max

theorem bitwiseU_and (run : exec i s = .next (uniInt .and 0x05 i.wf x s)) : BitwiseU i (fun _ a b => a &&& b) x s :=
  scalar_of_uniInt run intPat_and

theorem bitwiseU_or (run : exec i s = .next (uniInt .or 0x05 i.wf x s)) : BitwiseU i (fun _ a b => a ||| b) x s :=
  scalar_of_uniInt run intPat_or

theorem bitwiseU_xor (run : exec i s = .next (uniInt .xor 0x05 i.wf x s)) : BitwiseU i (fun _ a b => a ^^^ b) x s :=
  scalar_of_uniInt run intPat_xor

theorem bitwiseU_andn (run : exec i s = .next (uniInt .andn 0x05 i.wf x s)) : BitwiseU i (fun _ a b => a &&& ~~~b) x s :=
  scalar_of_uniInt run intPat_andn

theorem shiftU_of_uniShift {k : ShiftOp} {g : (w : Nat) → BitVec w → Nat → BitVec w}
    (run : exec i s = .next (uniShift k 0x06 i.wf x s))
    (hg : ∀ p n, shiftPat k x.ity.w p n = (g _ (BitVec.ofNat x.ity.w p) n).toNat) : ShiftU i g x s :=
  (scalar_of_scalar run rfl).congr (by rw [hg])

theorem shiftU_shl (run : exec i s = .next (uniShift .shl 0x06 i.wf x s)) : ShiftU i (fun _ v n => v <<< n) x s :=
  shiftU_of_uniShift run (shiftPat_shl _)

theorem shiftU_shr (run : exec i s = .next (uniShift .shr 0x06 i.wf x s)) : ShiftU i (fun _ v n => v >>> n) x s :=
  shiftU_of_uniShift run (shiftPat_shr _)

theorem shiftU_sar (run : exec i s = .next (uniShift .sar 0x06 i.wf x s)) : ShiftU i (fun _ v n => v.sshiftRight n) x s :=
  shiftU_of_uniShift run (shiftPat_sar (uniTy_w_pos _))

theorem shiftU_rot (run : exec i s = .next (uniShift .rot 0x06 i.wf x s)) : ShiftU i (fun _ v n => v.rotateLeft n) x s :=
  shiftU_of_uniShift run (shiftPat_rot (uniTy_w_pos _))

theorem countU_of_uniBits {k : BitOp} {g : (w : Nat) → BitVec w → Nat} (run : exec i s = .next (uniBits k 0x07 i.wf x s))
    (hg : ∀ p, bitPat k x.ity.w p = g _ (BitVec.ofNat x.ity.w p)) : CountU i g x s :=
  (scalar_of_scalar run rfl).congr (hg _)

theorem countU_clz (run : exec i s = .next (uniBits .clz 0x07 i.wf x s)) : CountU i leading x s :=
  countU_of_uniBits run (fun p => clzOf_toNat (BitVec.ofNat _ p))

theorem countU_ctz (run : exec i s = .next (uniBits .ctz 0x07 i.wf x s)) : CountU i trailing x s :=
  countU_of_uniBits run (fun p => ctzOf_toNat (BitVec.ofNat _ p))

theorem countU_popc (run : exec i s = .next (uniBits .popc 0x07 i.wf x s)) : CountU i ones x s :=
  countU_of_uniBits run (popcOf_eq_ones _)

theorem extractsU_of_uniBfx (run : exec i s = .next (uniBfx 0x0B i.wf x s)) : ExtractsU i x s := scalar_of_scalar run rfl

/-- A compare writes a quire predicate. -/
theorem comparesU_of_uniCmp {comb : Nat} (run : exec i s = .next (uniCmp 0x08 i.wf comb x s)) : ComparesU i comb x s := by
  intro passes
  have done := doneU_of_runU run rfl passes
  simp only [cmpHolds_eq, combine] at done
  exact done

theorem scalar_smov (run : exec i s = .next (uniMov 0x0A i.wf x s)) :
    Scalar i 0x0A x [.sreg x.d, .sreg x.a] (s.q.sreg x.a).toNat s :=
  scalar_of_scalar run rfl

theorem scalar_ssel {o : LF} (run : exec i s = .next (uniSel 0x09 i.wf o s)) :
    Scalar i 0x09 (ulArgs o) [.sreg o.d.toNat, .sreg o.a.toNat, .sreg o.b.toNat, .below o.c.toNat 16]
      (if s.q.kpred (o.c.toNat % 8) != o.c.getLsbD 3 then (s.q.sreg o.a.toNat).toNat else (s.q.sreg o.b.toNat).toNat) s :=
  (scalar_of_scalar run rfl).congr (by
    have whole : s.uarg (ulArgs o).b 64 = (s.q.sreg o.b.toNat).toNat := Nat.mod_eq_of_lt (BitVec.isLt _)
    rw [whole]; rfl)

theorem scalar_smovi {o : IF} (run : exec i s = .next (uniMovi 0x0A i.wf o s)) :
    Scalar i 0x0A (uiArgs o) [.sreg o.d.toNat]
      (if o.top then (o.imm ++ (s.q.sreg o.d.toNat).setWidth 32).toNat else (immOf (uniTy o.ty) o.imm).toNat) s :=
  (scalar_of_scalar run rfl).congr (by
    have whole : s.uarg (uiArgs o).b 64 = (immOf (uniTy o.ty) o.imm).toNat := Nat.mod_eq_of_lt (BitVec.isLt _)
    rw [whole, append_setWidth_toNat]; rfl)

/-- `sget` of a value that the batch agrees on. -/
theorem scalar_sget {ty : BitVec 3} {n : Name} {v : Nat} (run : exec i s = .next (uniSget 0x0B i.wf ty n x s))
    (hv : sgetVal s n (wrOf (laneTy ty)) = some v) :
    Scalar i 0x0B x [.sreg x.d, .src n (wrOf (laneTy ty))] (extTo (v % 2 ^ (laneTy ty).w) (laneTy ty) 64) s := by
  simp only [uniSget, hv] at run
  exact scalar_of_scalar run rfl

/-- `sget` of one on which it does not agree. -/
theorem traps_sget {ty : BitVec 3} {n : Name} (run : exec i s = .next (uniSget 0x0B i.wf ty n x s))
    (hv : sgetVal s n (wrOf (laneTy ty)) = none) (passes : Passes i (uniWord 0x0B x [.sreg x.d, .src n (wrOf (laneTy ty))]) s)
    (active : s.kActive x.pr x.neg = true) :
    ∃ r : Trap, r.code = 0x043 ∧ r.elanes = laneMask s.batch ∧ exec i s = .next (s.unblocked.takeTrap r) := by
  simp only [uniSget, hv] at run
  obtain ⟨clear, ran⟩ := runs_of_runU run rfl passes active
  exact ⟨_, rfl, rfl, ran.trans (by rw [Desc.run_stop clear])⟩

theorem gets_of_uniSget {ty : BitVec 3} {n : Name} (run : exec i s = .next (uniSget 0x0B i.wf ty n x s)) : Gets i ty n x s := by
  intro passes
  refine ⟨?_, ?_, ?_⟩
  · rintro r v u rfl version low high
    exact scalar_sget run (sgetVal_of_tag_u version low high) passes
  · rintro r rfl version other active
    exact traps_sget run (sgetVal_of_tag_not_u version other) passes active
  · rintro f rfl version one
    exact scalar_sget run (sgetVal_lane version one) passes

end Words

theorem uniformArithmetic : UniformArithmetic := fun _ =>
  ⟨fun _ => ⟨arithU_add rfl, arithU_sub rfl, arithU_mul rfl, arithU_min rfl, arithU_max rfl, bitwiseU_and rfl, bitwiseU_or rfl,
      bitwiseU_xor rfl, bitwiseU_andn rfl⟩,
    fun _ => ⟨arithU_add rfl, arithU_sub rfl, arithU_mul rfl, arithU_min rfl, arithU_max rfl, bitwiseU_and rfl, bitwiseU_or rfl,
      bitwiseU_xor rfl, bitwiseU_andn rfl⟩,
    fun _ => ⟨arithU_add rfl, arithU_sub rfl, arithU_mul rfl, arithU_min rfl, arithU_max rfl, bitwiseU_and rfl, bitwiseU_or rfl,
      bitwiseU_xor rfl, bitwiseU_andn rfl⟩⟩

theorem uniformShifts : UniformShifts := fun _ =>
  ⟨fun _ => ⟨shiftU_shl rfl, shiftU_shr rfl, shiftU_sar rfl, shiftU_rot rfl, countU_clz rfl, countU_ctz rfl, countU_popc rfl,
      extractsU_of_uniBfx rfl⟩,
    fun _ => ⟨shiftU_shl rfl, shiftU_shr rfl, shiftU_sar rfl, shiftU_rot rfl, countU_clz rfl, countU_ctz rfl, countU_popc rfl,
      extractsU_of_uniBfx rfl⟩,
    fun _ => ⟨shiftU_shl rfl, shiftU_shr rfl, shiftU_sar rfl, shiftU_rot rfl, extractsU_of_uniBfx rfl⟩⟩

theorem uniformMoves : UniformMoves := fun _ =>
  ⟨fun _ => ⟨comparesU_of_uniCmp rfl, gets_of_uniSget rfl, scalar_smov rfl⟩,
    fun _ => ⟨comparesU_of_uniCmp rfl, gets_of_uniSget rfl, scalar_smov rfl, scalar_ssel rfl⟩,
    fun _ => ⟨comparesU_of_uniCmp rfl, scalar_smovi rfl⟩⟩

/-- Settles O5: the words of the s registers write the patterns of the lane words over 64 bits. -/
theorem uniformIntegers : Obligations.UniformIntegers := ⟨uniformArithmetic, uniformShifts, uniformMoves⟩

end Sys2Proof.Claims
end

section
/-! Words that signal exceptions (R92 to R94): the lowest enabled one ends the word, and without one each fibre keeps its own in its flags. -/

namespace Sys2Proof.Machine

open Sys2Proof.Claims

/-! ## The exceptions of several lanes together -/

theorem getLsbD_foldl_or {α : Type} (e : α → Exc) (c : Nat) (xs : List α) (a : Exc) :
    (xs.foldl (fun a x => a ||| e x) a).getLsbD c = (a.getLsbD c || xs.any (fun x => (e x).getLsbD c)) := by
  induction xs generalizing a with
  | nil => simp
  | cons x xs ih => rw [List.foldl_cons, ih, List.any_cons, BitVec.getLsbD_or, Bool.or_assoc]

/-- An exception is among those of all lanes exactly where a lane signals it. -/
theorem getLsbD_excAll (rs : List (Fibre × Nat × Exc)) (c : Nat) : (excAll rs).getLsbD c = rs.any (fun x => x.2.2.getLsbD c) := by
  simp [excAll, getLsbD_foldl_or]

/-- Counting trailing zeros gives the place of the lowest bit that is set. -/
theorem ctzOf_of_lowest {w c : Nat} {v : BitVec w} (set : v.getLsbD c = true) (lowest : ∀ j < c, v.getLsbD j = false) :
    ctzOf w v.toNat = c := by
  have found : (List.range w).find? (fun k => v.getLsbD k) = some c :=
    List.find?_range_eq_some.mpr ⟨set, List.mem_range.mpr (BitVec.lt_of_getLsbD set), by simpa using lowest⟩
  rw [ctzOf_toNat, trailing, found, Option.getD_some]

section Lanes

variable {D : Desc} {s : State} {info : DWord} {act : List Fibre} {g : Fibre → Nat × Exc}

/-- The results of some fibres, each beside its fibre. -/
abbrev resultsOf (act : List Fibre) (g : Fibre → Nat × Exc) : List (Fibre × Nat × Exc) := act.map (fun f => (f, g f))

theorem getLsbD_excAll_enabled (c : Nat) (m : Exc) :
    (excAll (resultsOf act g) &&& m).getLsbD c = act.any (fun f => ((g f).2 &&& m).getLsbD c) := by
  simp only [BitVec.getLsbD_and, getLsbD_excAll, List.any_map]
  induction act with
  | nil => rfl
  | cons f act ih => simp only [List.any_cons, Bool.and_or_distrib_right, ih, Function.comp_apply]

/-- Without an enabled exception there is no trap. -/
theorem Desc.fpTrap_of_disabled (h : ∀ f ∈ act, (g f).2 &&& s.q.ftrap = 0) : D.fpTrap s info (resultsOf act g) = none := by
  have none_enabled : excAll (resultsOf act g) &&& s.q.ftrap = 0 := by
    refine BitVec.eq_of_getLsbD_eq fun c _ => ?_
    have off : act.any (fun f => ((g f).2 &&& s.q.ftrap).getLsbD c) = false :=
      List.any_eq_false.mpr fun f hf => by simp [h f hf]
    rw [getLsbD_excAll_enabled, off]
    simp
  exact if_pos none_enabled

/-- The trap is that of the lowest enabled exception, with the lanes that signal it. -/
theorem Desc.fpTrap_of_enabled {c : Nat} (signalled : ∃ f ∈ act, ((g f).2 &&& s.q.ftrap).getLsbD c = true)
    (lowest : ∀ j < c, ∀ f ∈ act, ((g f).2 &&& s.q.ftrap).getLsbD j = false) :
    ∃ r : Trap, r.code = c + 1 ∧ r.epc = s.pc ∧ r.elanes = laneMask (act.filter (fun f => (g f).2.getLsbD c))
      ∧ D.fpTrap s info (resultsOf act g) = some r := by
  have set : (excAll (resultsOf act g) &&& s.q.ftrap).getLsbD c = true := by
    rw [getLsbD_excAll_enabled, List.any_eq_true]
    exact signalled
  have clear : ∀ j < c, (excAll (resultsOf act g) &&& s.q.ftrap).getLsbD j = false := fun j hj => by
    rw [getLsbD_excAll_enabled, List.any_eq_false]
    exact fun f hf => by simp [lowest j hj f hf]
  have some_enabled : excAll (resultsOf act g) &&& s.q.ftrap ≠ 0 := fun h => by simp [h] at set
  have lanes : ((resultsOf act g).filter (fun x => x.2.2.getLsbD c)).map (·.1) = act.filter (fun f => (g f).2.getLsbD c) := by
    rw [List.filter_map, List.map_map]
    exact List.map_id _
  have place := ctzOf_of_lowest set clear
  refine ⟨_, congrArg (· + 1) place, rfl, ?_, if_neg some_enabled⟩
  exact congrArg laneMask (by rw [place, lanes])

end Lanes

/-- A word that looks to the checks like another one has its predicate and its length. -/
theorem Desc.fields_of_checked {D W : Desc} {legal : Bool} (checks : D.checked = { W with legal := legal }) :
    D.pr = W.pr ∧ D.neg = W.neg ∧ D.len = W.len :=
  ⟨show D.checked.pr = W.pr by rw [checks], show D.checked.neg = W.neg by rw [checks], show D.checked.len = W.len by rw [checks]⟩

end Sys2Proof.Machine

namespace Sys2Proof.Claims

open Sys2Proof.Machine

variable {i : Instr} {D W : Desc} {s t : State} {info : DWord}

/-- Flagging the fibres from their results is flagging them from their exceptions. -/
theorem mapFibres_flag_eq_flagged (act : List Fibre) (g : Fibre → Nat × Exc) :
    t.mapFibres (fun f => match (resultsOf act g).find? (fun x => x.1.lane = f.lane && s.inBatch f) with
      | some x => f.flag x.2.2
      | none => f) = flagged act (fun f => (g f).2) s t := by
  refine congrArg t.mapFibres (funext fun f => ?_)
  rw [List.find?_map]
  simp only [Function.comp_def]
  cases act.find? (fun x => x.lane = f.lane && s.inBatch f) <;> rfl

/-- R93 for a lane word whose checks pass: it traps as the lowest enabled exception asks, or `t` is written and the flags are set. -/
theorem signals_of_fpRun {g : Fibre → Nat × Exc} {wr : List (Nat × Nat) → State} (run : exec i s = .next (D.fpRun s info g wr))
    (checks : D.checked = { W with legal := i.wf }) (legal : W.legal = true) (passes : Passes i W s)
    (written : wr ((s.active W.pr W.neg).map (fun f => (f.lane, (g f).1))) = t) :
    Signals i W.len (s.active W.pr W.neg) (fun f => (g f).2) s t := by
  have clear : D.clear s := passes.clear legal checks
  obtain ⟨hpr, hneg, hlen⟩ := Desc.fields_of_checked checks
  rw [Desc.fpRun, hpr, hneg] at run
  constructor
  · intro disabled
    rw [Desc.fpTrap_of_disabled disabled, Desc.run_done clear, hlen, List.map_map] at run
    rw [Done, run, ← written, ← mapFibres_flag_eq_flagged]
    rfl
  · intro c signalled lowest
    obtain ⟨r, code, epc, elanes, traps⟩ := Desc.fpTrap_of_enabled (D := D) (info := info) signalled lowest
    rw [traps, Desc.run_trap clear] at run
    exact ⟨r, code, epc, elanes, run⟩

/-- R94 for a uniform word whose checks pass. -/
theorem signalsU_of_fpRunU {r : Nat × Exc} {wr : Nat → State} (run : exec i s = .next (D.fpRunU s info r wr))
    (checks : D.checked = { W with legal := i.wf }) (legal : W.legal = true) (passes : Passes i W s) (written : wr r.1 = t) :
    SignalsU i W.pr W.neg W.len r.2 s t := by
  have clear : D.clear s := passes.clear legal checks
  obtain ⟨hpr, hneg, hlen⟩ := Desc.fields_of_checked checks
  subst written
  rw [Desc.fpRunU] at run
  refine ⟨fun idle => ?_, fun active disabled => ?_, fun active c set lowest => ?_⟩
  · rw [Done, run, Desc.runU_idle (by rw [hpr, hneg, idle]), Desc.run_done clear, hlen]
  · rw [Done, run, Desc.runU_active (by rw [hpr, hneg, active]), if_neg (fun enabled => enabled disabled), Desc.run_done clear, hlen]
    rfl
  · have enabled : r.2 &&& s.q.ftrap ≠ 0 := fun h => by simp [h] at set
    rw [Desc.runU_active (by rw [hpr, hneg, active]), if_pos enabled, Desc.run_trap clear] at run
    exact ⟨_, congrArg (· + 1) (ctzOf_of_lowest set lowest), rfl, rfl, run⟩

end Sys2Proof.Claims
end

section
/-! The floating-point words of the lanes (R129 to R140). -/

namespace Sys2Proof.Claims

open Sys2Proof.Machine

section Words

variable {i : Instr} {op : Nat} {x : LArgs} {s : State}

/-- What the checks look at in a lane word of one format (R64, R89). -/
abbrev floatLaneWord (op : Nat) (k : FloatOp) (rnd : Nat) (x : LArgs) (s : State) : Desc :=
  let w := regBits (laneFt x.ty)
  { laneWord op x ([.dst x.d (k.width (laneFt x.ty)), .src x.a w]
      ++ (if k.binary then x.b.use (match k with | .expi => 32 | _ => w) else [])
      ++ (match k with | .fma _ _ => [.src x.c w] | _ => [])) with dyn := s.dynOk rnd }

/-- A word of `laneFloat` computes `floatRes` in each lane; which sources it reads and has checked depends on the operation. -/
theorem laneFloat_eq_fpRun (k : FloatOp) (op : Nat) (legal : Bool) (rnd : Nat) (x : LArgs) (s : State) :
    ∃ (D : Desc) (info : DWord), laneFloat k op legal rnd x s
        = D.fpRun s info (floatRes k rnd x s) (s.writeLanes x.d (k.width (laneFt x.ty)) (some k.latch))
      ∧ D.checked = { floatLaneWord op k rnd x s with legal := legal } := by
  cases k <;> exact ⟨_, _, rfl, rfl⟩

theorem floatWord_of_laneFloat {k : FloatOp} {rnd : Nat} (run : exec i s = .next (laneFloat k op i.wf rnd x s)) :
    FloatWord i op k rnd x s := by
  intro passes
  obtain ⟨D, info, runs, checks⟩ := laneFloat_eq_fpRun k op i.wf rnd x s
  rw [runs] at run
  exact signals_of_fpRun run checks rfl passes rfl

theorem floatConv_of_laneConv {unit : Bool} {ft mode ws wd : Nat} {g : Nat → Nat × Exc}
    (run : exec i s = .next (laneConv op unit i.wf ft mode ws wd x g s)) : FloatConv i op unit ws wd g x s :=
  fun passes => signals_of_fpRun run rfl rfl passes rfl

/-- `fcmp` writes a predicate where the other words write a number: 1 for the relation that holds. -/
theorem floatCompare_of_laneFcmp {comb : Nat} {quiet : Bool} (run : exec i s = .next (laneFcmp 0x18 i.wf comb quiet x s)) :
    FloatCompare i comb quiet x s := by
  intro passes
  rw [laneFcmp] at run
  refine signals_of_fpRun run rfl rfl passes ?_
  refine congrArg s.mapFibres (funext fun f => ?_)
  rw [List.find?_map]
  simp only [Function.comp_def]
  cases (s.active x.pr x.neg).find? (fun g => g.lane = f.lane && s.inBatch f) with
  | none => rfl
  | some g => simp only [Option.map_some, Bool.toNat_eq_one, Bool.decide_eq_true]

end Words

theorem floatBasic : FloatBasic := fun _ =>
  ⟨fun _ => by and_intros <;> exact floatWord_of_laneFloat rfl, fun _ => by and_intros <;> exact floatWord_of_laneFloat rfl,
    fun _ => by and_intros <;> exact floatWord_of_laneFloat rfl⟩

theorem floatSelect : FloatSelect := fun _ =>
  ⟨fun _ => by and_intros <;> exact floatWord_of_laneFloat rfl, fun _ => by and_intros <;> exact floatWord_of_laneFloat rfl,
    fun _ => by and_intros <;> exact floatWord_of_laneFloat rfl⟩

theorem floatFunctions : FloatFunctions := fun _ =>
  ⟨fun _ => by and_intros <;> exact floatWord_of_laneFloat rfl, fun _ => by and_intros <;> exact floatWord_of_laneFloat rfl,
    fun _ => floatWord_of_laneFloat rfl⟩

/-- Settles O6: every one of these words computes its result in each active lane and then signals as R93 says. -/
theorem floatWords : Obligations.FloatWords := ⟨floatBasic, floatSelect, floatFunctions⟩

/-- Settles O7: the conversions are words of one function of the source, and the relation of `fcmp` is such a word over a predicate. -/
theorem floatConversions : Obligations.FloatConversions := fun _ =>
  ⟨fun _ => ⟨floatCompare_of_laneFcmp rfl, floatConv_of_laneConv rfl, floatConv_of_laneConv rfl⟩,
    fun _ => ⟨floatCompare_of_laneFcmp rfl, floatConv_of_laneConv rfl, floatConv_of_laneConv rfl, floatConv_of_laneConv rfl⟩,
    fun _ => floatCompare_of_laneFcmp rfl⟩

end Sys2Proof.Claims
end

section
/-! The floating-point words of the s registers (R94, R141). -/

namespace Sys2Proof.Machine

variable {s : State}

/-- An s register as a 64-bit operand is its whole value. -/
theorem State.uarg_sreg (s : State) (n : Nat) : s.uarg (.sreg n) 64 = (s.q.sreg n).toNat := Nat.mod_eq_of_lt (BitVec.isLt _)

/-- A word that nothing stops has its unit (R64). -/
theorem Desc.unit_of_clear {D : Desc} (h : D.clear s) : D.unit = true := by
  obtain ⟨uncaused, -⟩ := h
  cases unit : D.unit with
  | true => rfl
  | false =>
    simp only [Desc.cause, unit] at uncaused
    split at uncaused
    · cases uncaused
    · split at uncaused <;> cases uncaused

end Sys2Proof.Machine

namespace Sys2Proof.Claims

open Sys2Proof.Machine

section Words

variable {i : Instr} {op : Nat} {x : UArgs} {s : State}

/-- What the checks look at in a uniform word of one format (R64, R89). -/
abbrev floatUniWord (op : Nat) (k : FloatOp) (rnd : Nat) (x : UArgs) (s : State) : Desc :=
  { uniWord op x ([.sreg x.d, .sreg x.a] ++ (if k.binary then x.b.use 64 else [])
      ++ (match k with | .fma _ _ => [.sreg x.c] | _ => [])) with dyn := s.dynOk rnd }

/-- What a uniform word computes: the default result and the exceptions (R141). -/
def floatResU (k : FloatOp) (rnd : Nat) (x : UArgs) (s : State) : Nat × Exc :=
  k.apply (uniFt x.ty) (s.mode rnd) s.ufTrap (s.q.sreg x.a).toNat (if k.binary then s.uarg x.b 64 else 0)
    (match k with | .fma _ _ => (s.q.sreg x.c).toNat | _ => 0)

theorem floatResU_eq_uarg (k : FloatOp) (rnd : Nat) (x : UArgs) (s : State) : floatResU k rnd x s =
    k.apply (uniFt x.ty) (s.mode rnd) s.ufTrap (s.uarg (.sreg x.a) 64) (if k.binary then s.uarg x.b 64 else 0)
      (match k with | .fma _ _ => s.uarg (.sreg x.c) 64 | _ => 0) := by
  simp only [State.uarg_sreg]
  rfl

/-- A word of `uniFloat` computes `floatResU`. -/
theorem uniFloat_eq_fpRunU (k : FloatOp) (op : Nat) (legal : Bool) (rnd : Nat) (x : UArgs) (s : State) :
    ∃ (D : Desc) (info : DWord), uniFloat k op legal rnd x s
        = D.fpRunU s info (floatResU k rnd x s) (fun v => s.setS x.d (BitVec.ofNat 64 v))
      ∧ D.checked = { floatUniWord op k rnd x s with legal := legal } := by
  rw [floatResU_eq_uarg]
  cases k <;> exact ⟨_, _, rfl, rfl⟩

theorem floatWordU_of_uniFloat {k : FloatOp} {rnd : Nat} (run : exec i s = .next (uniFloat k op i.wf rnd x s)) :
    FloatWordU i op k rnd x s := by
  intro passes
  obtain ⟨D, info, runs, checks⟩ := uniFloat_eq_fpRunU k op i.wf rnd x s
  rw [runs] at run
  exact signalsU_of_fpRunU run checks rfl passes rfl

/-- `sfcmp` writes a quire predicate: 1 stands for the relation that holds. -/
theorem floatCompareU_of_uniFcmp {comb : Nat} {quiet : Bool} (run : exec i s = .next (uniFcmp 0x0E i.wf comb quiet x s)) :
    FloatCompareU i comb quiet x s := by
  intro passes
  rw [uniFcmp] at run
  have signals := signalsU_of_fpRunU run rfl rfl passes rfl
  simp only [Bool.toNat_eq_one, Bool.decide_eq_true] at signals
  exact signals

/-- `sfcvt` asks for no unit; a word that passes checks which ask for one passes those of `sfcvt` as well (R143). -/
theorem signalsU_of_uniFcvt {o : LF} {unit : Bool} (run : exec i s = .next (uniFcvt 0x0E i.wf o s))
    (passes : Passes i { uniWord 0x0E (ulArgs o) [.sreg o.d.toNat, .sreg o.a.toNat] with unit := unit } s) :
    let r := fConvert (fmtOf o.sfmt) (fmtOf o.dfmt) o.rnd.toNat s.ufTrap (s.q.sreg o.a.toNat).toNat
    SignalsU i o.pr o.neg 8 r.2 s (s.setS o.d.toNat (BitVec.ofNat 64 r.1)) := by
  obtain ⟨legal, clear⟩ := passes
  obtain rfl : unit = true := Desc.unit_of_clear clear
  rw [uniFcvt] at run
  exact signalsU_of_fpRunU run rfl rfl ⟨legal, clear⟩ rfl

end Words

/-- Settles O8: a uniform word computes one result and signals for all members of the batch as R94 says. -/
theorem uniformFloat : Obligations.UniformFloat := fun _ =>
  ⟨fun _ => ⟨floatWordU_of_uniFloat rfl, floatWordU_of_uniFloat rfl, floatWordU_of_uniFloat rfl, floatWordU_of_uniFloat rfl,
      floatWordU_of_uniFloat rfl, floatCompareU_of_uniFcmp rfl⟩,
    fun _ => ⟨floatWordU_of_uniFloat rfl, floatWordU_of_uniFloat rfl, floatWordU_of_uniFloat rfl, floatWordU_of_uniFloat rfl,
      floatWordU_of_uniFloat rfl, floatWordU_of_uniFloat rfl, floatCompareU_of_uniFcmp rfl, signalsU_of_uniFcvt rfl⟩,
    fun _ => ⟨floatWordU_of_uniFloat rfl, floatWordU_of_uniFloat rfl, floatWordU_of_uniFloat rfl, floatCompareU_of_uniFcmp rfl⟩⟩

end Sys2Proof.Claims
end

section
/-! How a word ends whose checks pass: its effect, or its trap (R48, R54, R64). -/

namespace Sys2Proof.Claims

open Sys2Proof.Machine

variable {i : Instr} {D W : Desc} {s t : State}

/-- A word that passes has passed the checks of every description that looks the same to them and whose legality says no more: `W.legal` may
be a check of its own beside the modifiers of the word. -/
theorem Passes.clear_of_legal {legal : Bool} (passes : Passes i W s) (checks : D.checked = { W with legal := legal })
    (hlegal : i.wf = true → legal = W.legal) : D.clear s := by
  obtain ⟨hwf, clear⟩ := passes
  have hD : D.checked = W := by rw [checks, hlegal hwf]
  rwa [← hD, D.checked_clear] at clear

theorem done_of_run {len : Nat} (clear : D.clear s) (hlen : D.len = len) (run : exec i s = .next (D.run s (.done t))) : Done i len s t := by
  rw [Done, run, Desc.run_done clear, hlen]

theorem traps_of_run {code : Nat} {lanes : Word} {eaddr : DWord} (clear : D.clear s)
    (run : exec i s = .next (D.run s (.stop code lanes eaddr))) : Traps i code lanes eaddr s :=
  ⟨D.trap s code lanes eaddr, rfl, rfl, rfl, rfl, by rw [run, Desc.run_stop clear]⟩

/-- A lane word whose checks pass completes with the effect at which its body ends. -/
theorem lane_done_of_run {b : Res} (passes : Passes i W s) (run : exec i s = .next (D.run s b))
    (checks : D.checked = { W with legal := i.wf }) (legal : W.legal = true) (hb : b = .done t) : Done i W.len s t := by
  subst hb
  obtain ⟨-, -, hlen⟩ := Desc.fields_of_checked checks
  exact done_of_run (passes.clear legal checks) hlen run

/-- A uniform word under its predicate is its body; without it, it only advances. -/
theorem under_of_runU {b : Res} {P : Prop} (run : exec i s = .next (D.runU s b)) (checks : D.checked = { W with legal := i.wf })
    (legal : W.legal = true) (body : D.len = W.len → D.clear s → exec i s = .next (D.run s b) → P) : Under i W s P := by
  intro passes
  have clear : D.clear s := passes.clear legal checks
  obtain ⟨hpr, hneg, hlen⟩ := Desc.fields_of_checked checks
  refine ⟨fun idle => ?_, fun active => ?_⟩
  · rw [Desc.runU_idle (by rw [hpr, hneg, idle])] at run
    exact done_of_run clear hlen run
  · rw [Desc.runU_active (by rw [hpr, hneg, active])] at run
    exact body hlen clear run

end Sys2Proof.Claims
end

section
/-! The gang of a quire (R168), and what `mma` and `mdist` capture (R152, R170). -/

namespace Sys2Proof.Machine

variable {s : State}

/-- The quire may have this gang mask: none, itself alone, or a gang with it of at most six quires of the folio (R168). -/
abbrev State.MayGang (s : State) (m : Word) : Prop :=
  m = 0 ∨ m = (1 : Word) <<< s.q.quireid ∨ (m.getLsbD s.q.quireid = true ∧ popcOf 32 m.toNat ≤ 6 ∧ m.toNat < 2 ^ s.fol.qcnt)

/-- The check of `sgang` on its mask. -/
def State.refusesGang (s : State) (m : Word) : Bool :=
  m ≠ 0 && m ≠ (1 : Word) <<< s.q.quireid && (!m.getLsbD s.q.quireid || 6 < popcOf 32 m.toNat || m.toNat / 2 ^ s.fol.qcnt ≠ 0)

theorem State.refusesGang_eq_false_iff {m : Word} : s.refusesGang m = false ↔ s.MayGang m := by
  have fits : m.toNat / 2 ^ s.fol.qcnt = 0 ↔ m.toNat < 2 ^ s.fol.qcnt := Nat.div_eq_zero_iff_lt (Nat.two_pow_pos _)
  simp only [State.refusesGang, State.MayGang, Bool.and_eq_false_iff, Bool.or_eq_false_iff, Bool.not_eq_false', decide_eq_false_iff_not,
    Decidable.not_not, ne_eq, Nat.not_lt, Nat.not_le, fits, or_assoc, and_assoc]

/-- The description that `sgang` runs. -/
def sgangDesc (op : Nat) (legal : Bool) (o : SF) : Desc := { usDesc o op legal [.sreg o.a.toNat] with b := .none }

theorem uniSgang_eq (op : Nat) (legal : Bool) (o : SF) (s : State) : uniSgang op legal o s =
    let m : Word := (s.q.sreg o.a.toNat).setWidth 32
    (sgangDesc op legal o).runU s
      (if s.refusesGang m then .stop 0x0C2 (laneMask s.batch) 0 else .done { s with q := { s.q with gang := m } }) := rfl

/-! ## The operation captured at issue -/

/-- K of `mma` and `mdist`: c8, or the s register that it names (R155). -/
def State.matK (s : State) (o : LF) : Nat := if o.modl.getLsbD 6 then (s.q.sreg o.c.toNat).toNat else o.c.toNat

/-- The description that `mma` and `mdist` run. -/
def matDesc (opc : Nat) (legal : Bool) (o : LF) (s : State) : Desc :=
  let ra := s.slot (fieldOf o.modl 2 0)
  let rb := s.slot (fieldOf o.modl 5 3)
  let ks := o.modl.getLsbD 6
  { uni := true, op := opc, len := 8, pr := o.pr, neg := o.neg
    unit := s.slotUnits (fieldOf o.modl 2 0) (fieldOf o.modl 5 3)
    legal := legal && ra ≠ 0 && rb ≠ 0 && (slotFmt ra).isFloat = (slotFmt rb).isFloat
    uses := [.band o.d.toNat, .sgroup o.a.toNat 4, .sreg o.b.toNat] ++ (if ks then [.sreg o.c.toNat] else [])
    a := .sreg o.a.toNat, b := .sreg o.b.toNat, c := if ks then .sreg o.c.toNat else .none, wa := 64, wb := 64 }

/-- What the batch keeps while the operation waits for its rendezvous or its permit. -/
def matTrap (opc : Nat) (legal : Bool) (o : LF) (s : State) : Trap := (matDesc opc legal o s).trap s 0 (laneMask s.batch)

/-- The part that the issuing quire has in the operation. -/
def matMember (opc : Nat) (legal : Bool) (o : LF) (s : State) : MatMember :=
  { quire := s.q.uid, quireid := s.q.quireid, band := o.d.toNat, abase := s.q.sreg o.a.toNat, astride := s.q.sreg (o.a.toNat + 1)
    rowA := fieldOf (s.q.sreg o.b.toNat) 23 0, tok := o.low3.toNat, saved := s.q.tok o.low3.toNat, trap := matTrap opc legal o s }

/-- The quire has no gang but itself (R149). -/
abbrev State.IsSolo (s : State) : Prop := s.q.gang = 0 ∨ s.q.gang = (1 : Word) <<< s.q.quireid

/-- The operation as it is captured, in the latch where there is a gang. -/
def matOp (opc : Nat) (dist legal : Bool) (o : LF) (s : State) : MatOp :=
  { id := s.next, fid := s.q.fid, members := [matMember opc legal o s], mask := s.q.gang, latch := ¬ s.IsSolo, dist := dist
    clr := o.modh.getLsbD 3, aslot := fieldOf o.modl 2 0, bslot := fieldOf o.modl 5 3, k := s.matK o
    bbase := s.q.sreg (o.a.toNat + 2), bstride := s.q.sreg (o.a.toNat + 3)
    rowB := fieldOf (s.q.sreg o.b.toNat) 47 24, kblk := fieldOf (s.q.sreg o.b.toNat) 63 48 }

/-- The issue checks of `mma` and `mdist` on their operands (R152). -/
def State.matIssueCheck (s : State) (o : LF) : Option (Nat × DWord) :=
  matCheck (slotFmt (s.slot (fieldOf o.modl 2 0))) (slotFmt (s.slot (fieldOf o.modl 5 3))) (s.q.sreg o.a.toNat) (s.q.sreg (o.a.toNat + 1))
    (s.q.sreg (o.a.toNat + 2)) (s.q.sreg (o.a.toNat + 3)) (s.matK o)

/-- The operation is in flight with its token. -/
def State.matStarted (s : State) (opc : Nat) (dist legal : Bool) (o : LF) : State :=
  ({ s with next := s.next + 1, matops := s.matops ++ [matOp opc dist legal o s] } : State).startTok o.low3.toNat

/-- `mma` and `mdist`: the decode checks, the engine, the issue checks, the token, and then the way of the operation (R152, R153). -/
theorem uniMat_eq (opc : Nat) (dist legal : Bool) (o : LF) (s : State) : uniMat opc dist legal o s =
    let D := matDesc opc legal o s
    let op := matOp opc dist legal o s
    if (D.cause s).isSome || !s.kActive o.pr o.neg then D.runU s (.done s)
    else if s.engineBusy s.q.uid then D.runU s (.wait s (.engine none))
    else match s.matIssueCheck o with
      | some (c, ea) => D.runU s (.stop c (laneMask s.batch) ea)
      | none =>
        if (s.q.tok o.low3.toNat).count = 63 then D.runU s (.wait s (.tokenFull o.low3.toNat))
        else
          let s1 := D.runU s (.wait (s.matStarted opc dist legal o) .rendezvous)
          if s.IsSolo then s1.askPermit op else s1.rendezvous op := rfl

section

variable {opc : Nat} {dist legal : Bool} {o : LF}

/-- Without its predicate the word only advances. -/
theorem uniMat_idle (idle : s.kActive o.pr o.neg = false) : uniMat opc dist legal o s = (matDesc opc legal o s).run s (.done s) := by
  simp only [uniMat_eq, idle, Bool.not_false, Bool.or_true, if_true]
  exact Desc.runU_idle idle _

/-- An operation that passes its checks, on an engine that is free, waits in the rendezvous, and without a gang goes on to the permit. -/
theorem uniMat_issues (clear : (matDesc opc legal o s).clear s) (active : s.kActive o.pr o.neg = true) (free : s.engineBusy s.q.uid = false)
    (fits : s.matIssueCheck o = none) (room : (s.q.tok o.low3.toNat).count ≠ 63) : uniMat opc dist legal o s =
    let op := matOp opc dist legal o s
    let t := (s.matStarted opc dist legal o).block .rendezvous 8 (matTrap opc legal o s)
    if s.IsSolo then t.askPermit op else t.rendezvous op := by
  have waits : (matDesc opc legal o s).runU s (.wait (s.matStarted opc dist legal o) .rendezvous)
      = (s.matStarted opc dist legal o).block .rendezvous 8 (matTrap opc legal o s) :=
    (Desc.runU_active active _).trans (Desc.run_wait clear _)
  obtain ⟨uncaused, -⟩ := clear
  simp only [uniMat_eq, uncaused, active, free, fits, if_neg room, waits, Option.isSome_none, Bool.not_true, Bool.or_self,
    Bool.false_eq_true, if_false]

end

end Sys2Proof.Machine

namespace Sys2Proof.Claims

open Sys2Proof.Machine

variable {i : Instr} {opc : Nat} {dist legal : Bool} {o : LF} {s : State}

theorem under_of_uniSgang {o : SF} (run : exec i s = .next (uniSgang 0x18 i.wf o s)) :
    let m : Word := (s.q.sreg o.a.toNat).setWidth 32
    Under i (usWord 0x18 o [.sreg o.a.toNat]) s
      ((s.MayGang m → Done i 4 s { s with q := { s.q with gang := m } })
        ∧ (¬ s.MayGang m → Traps i 0x0C2 (laneMask s.batch) 0 s)) := by
  intro m
  rw [uniSgang_eq] at run
  refine under_of_runU run rfl rfl (fun hlen clear run => ⟨fun may => ?_, fun mayNot => ?_⟩)
  · have accepts : ¬ s.refusesGang m = true := by rw [State.refusesGang_eq_false_iff.mpr may]; exact Bool.false_ne_true
    rw [if_neg accepts] at run
    exact done_of_run clear hlen run
  · have refuses : s.refusesGang m = true := Bool.of_not_eq_false (mayNot ∘ State.refusesGang_eq_false_iff.mp)
    rw [if_pos refuses] at run
    exact traps_of_run clear run

theorem matCaptures_matOp (opc : Nat) (dist legal : Bool) (o : LF) (s : State) : MatCaptures (matOp opc dist legal o s) dist o s :=
  ⟨rfl, rfl, rfl, rfl, rfl, rfl, rfl, rfl, rfl, rfl, rfl, rfl, rfl, rfl, rfl, rfl,
    matMember opc legal o s, rfl, rfl, rfl, rfl, rfl, rfl, rfl, rfl, rfl, rfl⟩

theorem matIssues_of_uniMat (run : exec i s = .next (uniMat opc dist legal o s)) (hlegal : i.wf = true → legal = true) :
    MatIssues i opc dist o s := by
  intro passes
  have clear : (matDesc opc legal o s).clear s := passes.clear_of_legal rfl (fun hwf => by simp [matDesc, hlegal hwf])
  refine ⟨fun idle => done_of_run clear rfl (by rw [run, uniMat_idle idle]), fun active free fits room =>
    ⟨matOp opc dist legal o s, matTrap opc legal o s, matCaptures_matOp opc dist legal o s, rfl, rfl, ?_⟩⟩
  rw [uniMat_issues clear active free fits room] at run
  by_cases solo : s.IsSolo
  · rw [if_pos solo] at run
    exact (if_pos solo).mpr ⟨decide_eq_false (not_not_intro solo), run⟩
  · rw [if_neg solo] at run
    exact (if_neg solo).mpr ⟨decide_eq_true solo, run⟩

/-- Settles O19: the mask of `sgang` is checked as R168 says, and the operation of `mma` and `mdist` is the one captured at issue. -/
theorem matrixIssue : Obligations.MatrixIssue :=
  fun _ => ⟨fun _ => under_of_uniSgang rfl, fun _ => ⟨matIssues_of_uniMat rfl id, matIssues_of_uniMat rfl id⟩⟩

end Sys2Proof.Claims
end

section
/-! The words that move values between lanes and bands (R173 to R178), on a band that the engine does not hold and whose cells are good. -/

namespace Sys2Proof.Claims

open Sys2Proof.Machine

/-! ## Uniform words on bands -/

theorem bandInstructions : BandInstructions := by
  refine fun s => ⟨fun o => ?_, fun o => ?_, fun o m2 => ?_⟩
  · have run : exec (.mtopkUL o) s = .next (uniMtopk 0x1B (Instr.mtopkUL o).wf o s) := rfl
    rw [uniMtopk] at run
    refine under_of_runU run rfl rfl (fun hlen clear run free good => ?_)
    rw [if_neg (Bool.eq_false_iff.mp free), if_neg (Bool.eq_false_iff.mp good)] at run
    exact done_of_run clear hlen run
  · have run : exec (.mzeroUS o) s = .next (uniMzero 0x1C (Instr.mzeroUS o).wf o s) := rfl
    rw [uniMzero] at run
    refine under_of_runU run rfl rfl (fun hlen clear run free => ?_)
    rw [if_neg (Bool.eq_false_iff.mp free)] at run
    exact done_of_run clear hlen run
  · have run : exec (.mflagUS o m2) s = .next (uniMflag 0x1D (Instr.mflagUS o m2).wf (m2.getLsbD 0) o s) := rfl
    rw [uniMflag] at run
    refine under_of_runU run rfl rfl (fun hlen clear run => ?_)
    exact done_of_run clear hlen run

/-! ## Lane words on bands -/

theorem bandTransfers : BandTransfers := by
  refine fun s o => ⟨fun passes free good => ?_, fun passes free => ?_, fun passes free good => ?_⟩
  · have run : exec (.mreadLL o) s = .next (laneMread 0x35 (Instr.mreadLL o).wf o s) := rfl
    refine lane_done_of_run passes run rfl rfl ((if_neg (Bool.eq_false_iff.mp free)).trans ((if_neg (not_not_intro good)).trans ?_))
    dsimp only
    rw [List.foldl_map, List.map_map]
    rfl
  · have run : exec (.mwriteLL o) s = .next (laneMwrite 0x36 (Instr.mwriteLL o).wf o s) := rfl
    exact lane_done_of_run passes run rfl rfl (if_neg (Bool.eq_false_iff.mp free))
  · have run : exec (.mtkreadLL o) s = .next (laneMtkread 0x37 (Instr.mtkreadLL o).wf o s) := rfl
    exact lane_done_of_run passes run rfl rfl ((if_neg (Bool.eq_false_iff.mp free)).trans (if_neg (not_not_intro good)))

/-- Settles O20: without a wait for the engine and without a bad cell, each word ends at its effect. -/
theorem bands : Obligations.Bands := ⟨bandInstructions, bandTransfers⟩

end Sys2Proof.Claims
end

section
/-! The canonical form of memory when a fault is delivered and when a word ends (R1, R64, R188, R367 to R373).

From here on every function of the model that answers a state has one lemma: from canonical memory it makes canonical memory. Where a
function only changes other fields, the lemma is its hypothesis (the two memories are the same term) or goes by an equation `_mem`;
otherwise it follows the branches and folds of the definition down to the stores, whose lemmas stand above. -/

namespace Sys2Proof.Machine

variable {s : State} {D : Desc} {d w n code ea scope uid : Nat} {l : Option Latch}

theorem State.ite_canon {c : Prop} [Decidable c] {a b : State} (ha : a.Canon) (hb : b.Canon) : (if c then a else b).Canon := by
  split
  · exact ha
  · exact hb

/-- `State.foldl_canon`, read from the goal: what every step keeps, the fold keeps. -/
theorem State.fold_canon {α : Type} {f : State → α → State} {xs : List α} (h : s.Canon) (hf : ∀ t x, t.Canon → (f t x).Canon) :
    (xs.foldl f s).Canon := State.foldl_canon hf xs h

/-! ## Faults -/

/-- The record of a fault is written into memory; nothing else about its delivery touches memory (R373). -/
theorem State.toKernel_canon {x : HeldFault} (h : s.Canon) : (s.toKernel d x).Canon :=
  State.canon_of_mem (State.putLong_canon h _ _ _) (State.modDie_mem _ _ _)

theorem State.recordFault_canon {a : Holder} {fid : Nat} {t : Trap} (h : s.Canon) : (s.recordFault a fid t).Canon := by
  have held : ∀ (x i : Nat) (f : Die → Die), ((s.modDie x f).hold a i).Canon := fun x i f =>
    State.canon_of_mem h (State.hold_mem (s.modDie x f) a i)
  unfold State.recordFault; dsimp only
  cases (s.die (s.folio fid).die).freeEntry with
  | none => exact State.canon_of_mem h (State.pendOn_mem s a t)
  | some i =>
    cases (s.folio fid).kind with
    | curator c => cases s.quires.find? _ with
      | none => exact held _ _ _
      | some q => exact State.canon_of_mem (held _ _ _) (State.modQuire_mem _ _ _)
    | normal | handler c g =>
      exact State.ite_canon (State.canon_of_mem (held _ _ _) (State.modDie_mem _ _ _)) (State.toKernel_canon (held _ _ _))

theorem State.takeTrap_canon {t : Trap} (h : s.Canon) : (s.takeTrap t).Canon := by
  unfold State.takeTrap; split
  · exact h
  · exact State.recordFault_canon h

theorem State.focus_canon (h : s.Canon) : (s.focus uid).Canon := State.ite_canon h h

theorem State.trapIn_canon {x : Wait} {a : DWord} {lanes : Word} (h : s.Canon) : (s.trapIn uid x code a lanes).Canon :=
  State.takeTrap_canon (State.focus_canon h)

theorem State.fetchTrap_canon (h : s.Canon) : (s.fetchTrap code ea).Canon := State.takeTrap_canon h

/-! ## Results of a word -/

/-- Every state that a result hands on has canonical memory. -/
def Res.Canon : Res → Prop
  | .done t | .jump t | .wait t _ => t.Canon
  | .stop _ _ _ | .trap _ => True

/-- Every next state has canonical memory. -/
def NextCanon : Host.Outcome State Fault Refusal → Prop
  | .next t => t.Canon
  | _ => True

theorem Res.ite_canon {c : Prop} [Decidable c] {a b : Res} (ha : a.Canon) (hb : b.Canon) : (if c then a else b).Canon := by
  split
  · exact ha
  · exact hb

theorem NextCanon.ite {c : Prop} [Decidable c] {a b : Host.Outcome State Fault Refusal} (ha : NextCanon a) (hb : NextCanon b) :
    NextCanon (if c then a else b) := by
  split
  · exact ha
  · exact hb

theorem Desc.run_canon {b : Res} (h : s.Canon) (hb : b.Canon) : (D.run s b).Canon := by
  obtain ⟨r, e⟩ | ⟨t, rfl, e⟩ | ⟨t, rfl, e⟩ | ⟨t, k, rfl, e⟩ := Desc.run_cases D s b
  · rw [e]; exact State.takeTrap_canon h
  · rw [e]; exact hb
  · rw [e]; exact hb
  · rw [e]; exact State.canon_of_mem hb (State.block_mem t k _ _)

theorem Desc.runU_canon {b : Res} (h : s.Canon) (hb : b.Canon) : (D.runU s b).Canon := Desc.run_canon h (Res.ite_canon hb h)

theorem State.writeLanes_canon {m : Name} {xs : List (Nat × Nat)} (h : s.Canon) : (s.writeLanes m w l xs).Canon :=
  State.canon_of_mem h (State.writeLanes_mem s m w l xs)

theorem Desc.lanewise_canon {m : Name} {g : Fibre → Nat} (h : s.Canon) : (D.lanewise s m w l g).Canon :=
  Desc.run_canon h (State.writeLanes_canon h)

theorem Desc.scalar_canon {v : Nat} (h : s.Canon) : (D.scalar s d v).Canon := Desc.runU_canon h h

/-- A lane word with exceptions: where it writes its values does not lie in memory. -/
theorem Desc.fpRun_canon {info : DWord} {g : Fibre → Nat × Exc} {wr : List (Nat × Nat) → State} (h : s.Canon)
    (hw : ∀ rs, (wr rs).Canon) : (D.fpRun s info g wr).Canon := by
  refine Desc.run_canon h ?_
  split
  · trivial
  · exact hw _

theorem Desc.fpRunU_canon {info : DWord} {r : Nat × Exc} {wr : Nat → State} (h : s.Canon) (hw : ∀ v, (wr v).Canon) :
    (D.fpRunU s info r wr).Canon := Desc.runU_canon h (Res.ite_canon trivial (hw _))

/-! ## Words with accesses -/

theorem State.hindrance_canon {xs : List Access} {reads : Bool} {r : Res} (h : s.Canon) (hr : s.hindrance xs n reads = some r) :
    r.Canon := by
  unfold State.hindrance at hr
  split at hr
  · cases hr; exact h
  · split at hr
    · cases hr
    · split at hr
      · cases hr; trivial
      · split at hr
        · cases hr; trivial
        · cases hr

theorem Desc.access_canon {eas : List (Nat × Nat)} {check : Nat → Except Nat Target} {reads : Bool}
    {effect : State → List Access → Res} (h : s.Canon) (hf : ∀ t xs, t.Canon → (effect t xs).Canon) : NextCanon (D.access s eas check n reads effect) := by
  obtain e | ⟨c, l, a, e⟩ | ⟨pa, l, e⟩ | ⟨xs, -, e⟩ := Desc.access_cases D s eas check n reads effect
  · rw [e]; exact Desc.run_canon h h
  · rw [e]; exact Desc.run_canon h trivial
  · rw [e]; exact Desc.run_canon h h
  · rw [e]; exact Desc.run_canon h (hf _ xs (State.canon_of_mem h (State.cacheAll_mem s xs)))

theorem State.behindRelease_canon {ord : Bool} {effect : State → Res} (h : s.Canon) (hf : ∀ t, t.Canon → (effect t).Canon) :
    (s.behindRelease ord scope effect).Canon :=
  Res.ite_canon (hf s h) (Res.ite_canon h (hf _ (State.releaseAt_canon h scope)))

theorem State.acquire_canon (h : s.Canon) : (s.acquire scope).Canon := State.canon_of_mem h (State.acquireOver_mem s _ _ _ _)

/-- An acquire where the word asks for one. -/
theorem State.acquireIf_canon {c : Prop} [Decidable c] (h : s.Canon) : (if c then s.acquire scope else s).Canon :=
  State.ite_canon (State.acquire_canon h) h

end Sys2Proof.Machine
end

section
/-! The canonical form of memory under the lane and uniform words that compute, load, store and update (R1, R188, R211, R232). -/

namespace Sys2Proof.Machine

variable {s : State} {op : Nat} {legal : Bool} {x : LArgs} {y : MArgs} {z : UMArgs} {o : LF}

/-! ## Words that compute -/

theorem laneDiv_canon {k : IntOp} (h : s.Canon) : (laneDiv k op legal x s).Canon :=
  State.ite_canon (Desc.lanewise_canon h) (Desc.run_canon h trivial)

theorem uniDiv_canon {k : IntOp} {u : UArgs} (h : s.Canon) : (uniDiv k op legal u s).Canon :=
  State.ite_canon (Desc.runU_canon h trivial) (Desc.scalar_canon h)

theorem uniSget_canon {ty : BitVec 3} {n : Name} {u : UArgs} (h : s.Canon) : (uniSget op legal ty n u s).Canon := by
  unfold uniSget; dsimp only; split
  · exact Desc.scalar_canon h
  · exact Desc.runU_canon h trivial

theorem laneFloat_canon {k : FloatOp} {rnd : Nat} (h : s.Canon) : (laneFloat k op legal rnd x s).Canon :=
  Desc.fpRun_canon h fun _ => State.writeLanes_canon h

theorem laneConv_canon {unit : Bool} {ft mode ws wd : Nat} {g : Nat → Nat × Exc} (h : s.Canon) :
    (laneConv op unit legal ft mode ws wd x g s).Canon := Desc.fpRun_canon h fun _ => State.writeLanes_canon h

theorem laneBrx_canon {len : Nat} {pr : BitVec 3} {neg : Bool} {a : Name} (h : s.Canon) : (laneBrx op len pr neg a legal s).Canon := by
  unfold laneBrx; dsimp only; split
  · exact Desc.run_canon h trivial
  · exact Desc.run_canon h h

/-! ## Loads and stores -/

theorem laneLoad_canon (h : s.Canon) : NextCanon (laneLoad op legal y s) := by
  unfold laneLoad
  exact Desc.access_canon h fun _ _ ht => State.acquireIf_canon (State.writeLanes_canon (State.loads_canon ht _ _ _))

theorem laneStore_canon (h : s.Canon) : NextCanon (laneStore op legal y s) := by
  unfold laneStore
  exact Desc.access_canon h fun _ _ ht => State.behindRelease_canon ht fun _ h1 => State.storeAll_canon h1 _ _ _ _ _

theorem laneLds_canon (h : s.Canon) : NextCanon (laneLds op legal y s) := by
  unfold laneLds
  exact Desc.access_canon h fun _ _ ht => State.writeLanes_canon (State.loads_canon ht _ _ _)

theorem laneSts_canon (h : s.Canon) : NextCanon (laneSts op legal y s) := by
  unfold laneSts
  exact Desc.access_canon h fun _ _ ht => State.storeAll_canon ht _ _ _ _ _

theorem State.setData_canon {d v : Nat} {wide : Bool} (h : s.Canon) : (s.setData d wide v).Canon := State.ite_canon h h

theorem uniLoad_canon (h : s.Canon) : NextCanon (uniLoad op legal z s) := by
  unfold uniLoad
  exact Desc.access_canon h fun _ _ ht => State.acquireIf_canon (State.setData_canon (State.loads_canon ht _ _ _))

theorem uniStore_canon (h : s.Canon) : NextCanon (uniStore op legal z s) := by
  unfold uniStore
  exact Desc.access_canon h fun _ _ ht => State.behindRelease_canon ht fun _ h1 => State.storeAll_canon h1 _ _ _ _ _

/-! ## Lines (R212 to R214) -/

theorem lanePref_canon (h : s.Canon) : (lanePref op legal y s).Canon :=
  Desc.run_canon h (State.fold_canon h fun t _ ht => State.recallFor_canon
    (State.canon_of_mem (State.canon_of_mem ht (State.cacheTarget_mem t _ _ _)) (State.touchCore_mem _ _ _ _)) _ _)

theorem laneRange_canon {acc : Acc} {n : Name} {line : State → Target → State} (h : s.Canon)
    (hl : ∀ z t, z.Canon → (line z t).Canon) : NextCanon (laneRange op legal acc y n line s) := by
  unfold laneRange; dsimp only
  split
  · exact Desc.run_canon h h
  · split
    · exact Desc.run_canon h trivial
    · split
      · rename_i hr
        exact Desc.run_canon h (State.hindrance_canon h hr)
      · exact Desc.run_canon h (State.fold_canon (State.canon_of_mem h (State.cacheAll_mem s _)) fun z t hz => hl z t.t hz)

/-! ## Atomic updates (R232 to R237) -/

theorem laneAtom_canon (h : s.Canon) : NextCanon (laneAtom op legal o s) := by
  unfold laneAtom
  refine Desc.access_canon h fun u xs hu => State.behindRelease_canon hu fun u1 h1 => ?_
  dsimp only
  exact State.acquireIf_canon (State.writeLanes_canon (State.rmwAll_canon h1 _ _ _ _))

theorem laneCas_canon (h : s.Canon) : NextCanon (laneCas op legal o s) := by
  unfold laneCas
  refine Desc.access_canon h fun u xs hu => State.behindRelease_canon hu fun u1 h1 => ?_
  dsimp only
  exact State.acquireIf_canon (State.writeLanes_canon (State.rmwAll_canon h1 _ _ _ _))

theorem State.redAt_canon {t : Target} {aop v : Nat} {aty : BitVec 3} {rel : Option Nat} (h : s.Canon) :
    (s.redAt t aop aty v rel).Canon := by
  have h0 := State.ownStores_canon h t (laneAt aty).bytes
  unfold State.redAt; dsimp only
  split
  · exact State.ite_canon (State.redUpdate_canon (State.canon_of_mem (State.ite_canon h0 (State.writeBack_canon h0 _ _ _))
      (State.touchCore_mem _ _ _ _)) _) (State.rmw_canon h0 _ _ _ _)
  · exact State.rmw_canon h0 _ _ _ _

theorem laneRed_canon (h : s.Canon) : NextCanon (laneRed op legal o s) := by
  unfold laneRed
  exact Desc.access_canon h fun _ _ ht => State.behindRelease_canon ht fun _ h1 =>
    State.fold_canon h1 fun _ _ hz => State.redAt_canon hz

theorem State.setSgroup_canon {n k v : Nat} (h : s.Canon) : (s.setSgroup n k v).Canon := State.fold_canon h fun _ _ ht => ht

theorem uniAtom_canon (h : s.Canon) : NextCanon (uniAtom op legal o s) := by
  unfold uniAtom
  refine Desc.access_canon h fun u xs hu => State.behindRelease_canon hu fun u1 h1 => ?_
  dsimp only
  exact State.acquireIf_canon (State.fold_canon (State.rmwAll_canon h1 _ _ _ _) fun _ _ hz => State.setSgroup_canon hz)

theorem uniCas_canon (h : s.Canon) : NextCanon (uniCas op legal o s) := by
  unfold uniCas
  refine Desc.access_canon h fun u xs hu => State.behindRelease_canon hu fun u1 h1 => ?_
  dsimp only
  exact State.acquireIf_canon (State.fold_canon (State.rmwAll_canon h1 _ _ _ _) fun _ _ hz => State.setSgroup_canon hz)

end Sys2Proof.Machine
end

section
/-! The canonical form of memory when fibres, quires and folios end, at barriers and frames, and at the end of operations
(R38, R261 to R263, R327 to R343, R397). -/

namespace Sys2Proof.Machine

variable {s : State} {op : Nat} {legal : Bool} {o : SF} {i : IF} {uid fid id vid : Nat} {status : BitVec 2} {bit vol : Bool} {b : BarId}
  {rels : List Rel} {x : Folio} {m : MatOp} {c : CopyOp}

/-! ## Folios and collections -/

theorem State.ending_canon {fs : List Fibre} {effect : Res} (h : s.Canon) (he : effect.Canon) : (s.ending fs effect).Canon :=
  Res.ite_canon h he

theorem State.releaseFolio_canon (h : s.Canon) : (s.releaseFolio fid).Canon :=
  State.releaseOn_canon (State.fold_canon h fun _ _ ht => State.settleFrom_canon (State.settleOwed_canon ht _) _) _ _

theorem State.endSends_canon (h : s.Canon) : (s.endSends x).Canon := State.fold_canon h fun _ _ ht => ht

theorem State.completeFolio_canon (h : s.Canon) : (s.completeFolio fid status bit).Canon := by
  have h1 := State.endSubs_canon (State.releaseFolio_canon (fid := fid) h) fid
  have h2 := State.ite_canon (c := bit = true) (State.setBit_canon h1 (s.folio fid) (((s.releaseFolio fid).endSubs fid).folioRels fid)) h1
  have h3 := State.endSends_canon (x := s.folio fid) (s := State.modFolio _ fid (fun y => { y with ended := true })) h2
  unfold State.completeFolio; dsimp only
  cases (s.folio fid).kind with
  | handler i g =>
    dsimp only; split
    · exact State.toKernel_canon h3
    · exact h3
  | normal | curator k => exact h3

theorem State.reapColls_canon (h : s.Canon) : s.reapColls.Canon := by
  refine State.fold_canon h fun t c ht => ?_
  dsimp only
  cases c.lq <;> cases c.token <;> exact ht

theorem State.freeFolio_canon (h : s.Canon) : (s.freeFolio fid).Canon :=
  State.ite_canon (State.fold_canon h fun _ _ ht => ht) h

theorem State.reap_canon (h : s.Canon) : s.reap.Canon :=
  State.reapColls_canon (State.fold_canon h fun _ _ ht => State.freeFolio_canon (State.endSends_canon ht))

/-! ## Barriers -/

theorem State.setBarrier_canon {y : Barrier} (h : s.Canon) : (s.setBarrier fid b y).Canon := State.ite_canon h h

theorem State.seeUpdates_canon {after : List Nat} (h : s.Canon) : (s.seeUpdates uid after).Canon := State.ite_canon h h

theorem State.departs_canon (h : s.Canon) : (s.departs uid vol rels).Canon :=
  State.ite_canon (State.seeUpdates_canon (State.fold_canon h fun _ _ ht => ht)) (State.fold_canon h fun _ _ ht => ht)

theorem State.depart_canon (h : s.Canon) : (s.depart fid vol).Canon := State.fold_canon h fun _ _ ht => State.departs_canon ht

theorem State.completeBar_canon (h : s.Canon) : (s.completeBar fid b).Canon :=
  State.ite_canon (State.depart_canon (State.setBarrier_canon h)) (State.setBarrier_canon h)

theorem State.returnShares_canon (h : s.Canon) : (s.returnShares vid).Canon := State.fold_canon h fun _ _ ht => ht

theorem State.tryComplete_canon {bs : List BarId} (h : s.Canon) : (s.tryComplete fid bs).Canon :=
  have h1 := State.fold_canon h fun _ _ ht => State.completeBar_canon ht
  State.ite_canon (State.returnShares_canon h1) h1

theorem State.folioArrives_canon (h : s.Canon) : (s.folioArrives fid b).Canon := State.ite_canon (State.settleSubs_canon h _) h

theorem State.ownScratch_canon (h : s.Canon) : (s.ownScratch uid).Canon := State.performStores_canon h _

theorem State.arriveBar_canon (h : s.Canon) : (s.arriveBar fid uid b).Canon :=
  State.folioArrives_canon (State.setBarrier_canon (State.ite_canon (State.ownScratch_canon h) h))

theorem State.barsAfterEnd_canon (h : s.Canon) : (s.barsAfterEnd fid uid).Canon :=
  State.tryComplete_canon (State.fold_canon h fun _ _ ht => State.folioArrives_canon (State.setBarrier_canon ht))

/-! ## Ends -/

theorem State.afterEnd_canon (h : s.Canon) : (s.afterEnd uid status bit).Canon := by
  have h1 := State.settleFrom_canon (s := s.dropOrphans) h uid
  unfold State.afterEnd
  exact State.ite_canon h (State.reap_canon (State.barsAfterEnd_canon (State.ite_canon (State.completeFolio_canon h1) h1)))

theorem laneFexit_canon (h : s.Canon) : (laneFexit op legal o s).Canon :=
  Desc.run_canon h (State.ending_canon h (State.afterEnd_canon h))

/-! ## Frames (R336 to R343) -/

theorem State.intoFrame_canon {t : State} {lanes : Word} (h : s.Canon) (ht : t.Canon) : (s.intoFrame id lanes t).Canon := by
  unfold State.intoFrame; dsimp only
  split
  · exact ht
  · split
    · trivial
    · split
      · exact h
      · exact ht
      · trivial
      · exact h

theorem laneCall_canon (h : s.Canon) : (laneCall op legal i s).Canon := by
  unfold laneCall; dsimp only
  refine Desc.run_canon h (Res.ite_canon trivial (Res.ite_canon trivial ?_))
  split
  · exact h
  · refine Res.ite_canon trivial ?_
    split
    · trivial
    · exact h
    · exact h

theorem laneRet_canon (h : s.Canon) : (laneRet op legal o s).Canon :=
  Desc.run_canon h (Res.ite_canon (State.ending_canon h (State.afterEnd_canon h)) (State.intoFrame_canon h (State.afterEnd_canon h)))

theorem laneUnwind_canon (h : s.Canon) : (laneUnwind op legal o s).Canon := by
  unfold laneUnwind; dsimp only
  split
  · exact Desc.run_canon h trivial
  · refine Desc.run_canon h ?_
    split
    · exact State.intoFrame_canon h h
    · exact h

/-! ## Operations that end, permits and rendezvous (R38, R152, R170, R397) -/

theorem State.tryEndCopy_canon (h : s.Canon) : (s.tryEndCopy id).Canon := by
  unfold State.tryEndCopy; split
  · exact State.ite_canon h h
  · exact h

theorem State.askPermit_canon (h : s.Canon) : (s.askPermit m).Canon := State.fold_canon h fun _ _ ht => ht

theorem State.leaveLatch_canon (h : s.Canon) : (s.leaveLatch m).Canon := State.fold_canon h fun _ _ ht => ht

theorem State.latchTrap_canon {code : Nat} (h : s.Canon) : (s.latchTrap code m).Canon :=
  State.fold_canon (State.leaveLatch_canon h) fun _ _ ht => State.ite_canon ht (State.recordFault_canon ht)

theorem State.rendezvous_canon (h : s.Canon) : (s.rendezvous m).Canon :=
  have traps {code : Nat} {ws : List MatOp} : (ws.foldl (fun (t : State) w => t.latchTrap code w) s).Canon :=
    State.fold_canon h fun _ _ ht => State.latchTrap_canon ht
  State.ite_canon traps (State.ite_canon traps (State.ite_canon h (State.ite_canon traps (State.askPermit_canon h))))

theorem State.dropPermits_canon {uids : List Nat} (h : s.Canon) : (s.dropPermits uids).Canon :=
  State.fold_canon h fun _ _ ht => State.latchTrap_canon (State.leaveLatch_canon ht)

theorem State.orMflags_canon (h : s.Canon) : (s.orMflags m).Canon := State.fold_canon h fun _ _ ht => ht

theorem State.setMprog_canon {st chunks : Nat} (h : s.Canon) : (s.setMprog m st chunks).Canon := State.fold_canon h fun _ _ ht => ht

theorem State.tryEndMat_canon (h : s.Canon) : (s.tryEndMat id).Canon := by
  unfold State.tryEndMat; split
  · exact State.ite_canon (State.fold_canon (State.setMprog_canon (State.orMflags_canon h)) fun _ _ ht => ht) h
  · exact h

theorem State.abandonCopy_canon (h : s.Canon) : (s.abandonCopy c).Canon := by
  unfold State.abandonCopy; dsimp only
  cases s.heldBy (.copy c.id) <;> exact h

theorem State.abandonMat_canon (h : s.Canon) : (s.abandonMat m).Canon := by
  unfold State.abandonMat; dsimp only
  refine State.fold_canon ?_ fun _ _ ht => ht
  cases s.heldBy (.matrix m.id) <;> exact State.orMflags_canon h

theorem State.abandon_canon {a : Holder} (h : s.Canon) : (s.abandon a).Canon := by
  cases a with
  | quire _ => exact h
  | copy k =>
    unfold State.abandon; dsimp only; split
    · exact State.abandonCopy_canon h
    · exact h
  | matrix k =>
    unfold State.abandon; dsimp only; split
    · exact State.abandonMat_canon h
    · exact h

/-! ## Folios and shelves that are killed (R378) -/

theorem State.dropSaved_canon (h : s.Canon) : s.dropSaved.Canon := State.ite_canon h h

theorem State.killFolio_canon (h : s.Canon) : (s.killFolio fid status).Canon := by
  unfold State.killFolio
  extract_lets qs s1 s2 s3
  have h1 : s1.Canon := State.fold_canon h fun _ _ ht => State.abandonCopy_canon ht
  have h2 : s2.Canon := State.fold_canon h1 fun _ _ ht => State.abandonMat_canon ht
  have h3 : s3.Canon := State.fold_canon (State.dropPermits_canon h2) fun t q ht => by
    have hq := State.settleFrom_canon ht q.uid
    dsimp only
    cases (t.settleFrom q.uid).heldBy (.quire q.uid) <;> exact hq
  clear_value s3 qs
  split
  · exact State.dropSaved_canon (State.afterEnd_canon h3)
  · exact h3

theorem State.killShelf_canon {coll shelf : Nat} (h : s.Canon) : (s.killShelf coll shelf).Canon :=
  State.reapColls_canon (State.fold_canon h fun _ _ ht => State.killFolio_canon ht)

end Sys2Proof.Machine
end

section
/-! The canonical form of memory under the uniform words of the later chapters (R152, R168 to R178, R215 to R276, R310 to R423). -/

namespace Sys2Proof.Machine

variable {s : State} {D : Desc} {op id uid owner off n : Nat} {legal : Bool} {o : SF} {l : LF} {c : Counter}

theorem State.setS_canon {v : DWord} (h : s.Canon) : (s.setS n v).Canon := h
theorem State.setK_canon {b : Bool} (h : s.Canon) : (s.setK n b).Canon := h

/-! ## Copies, tiles and matrix operations -/

theorem uniCopy_canon {multi : Bool} (h : s.Canon) : (uniCopy op multi legal l s).Canon := by
  unfold uniCopy; dsimp only
  refine Desc.runU_canon h ?_
  split
  · trivial
  · exact Res.ite_canon h (Res.ite_canon h (Res.ite_canon h (State.tryEndCopy_canon h)))

theorem uniTile_canon {send : Bool} (h : s.Canon) : (uniTile op send legal l s).Canon := by
  unfold uniTile; dsimp only
  refine Desc.runU_canon h (Res.ite_canon trivial (Res.ite_canon trivial ?_))
  split
  · trivial
  · exact Res.ite_canon trivial (Res.ite_canon h h)

theorem uniMat_canon {dist : Bool} (h : s.Canon) : (uniMat op dist legal l s).Canon := by
  unfold uniMat; dsimp only
  refine State.ite_canon (Desc.runU_canon h h) (State.ite_canon (Desc.runU_canon h h) ?_)
  split
  · exact Desc.runU_canon h trivial
  · exact State.ite_canon (Desc.runU_canon h h)
      (State.ite_canon (State.askPermit_canon (Desc.runU_canon h h)) (State.rendezvous_canon (Desc.runU_canon h h)))

theorem laneMread_canon (h : s.Canon) : (laneMread op legal l s).Canon :=
  Desc.run_canon h (Res.ite_canon h (Res.ite_canon trivial (State.writeLanes_canon h)))

theorem laneMtkread_canon (h : s.Canon) : (laneMtkread op legal l s).Canon :=
  Desc.run_canon h (Res.ite_canon h (Res.ite_canon trivial (State.writeLanes_canon h)))

/-! ## Tokens and fences -/

theorem State.acquireAll_canon {d scope : Nat} (h : s.Canon) : (s.acquireAll uid d scope).Canon :=
  State.canon_of_mem h (State.acquireAll_mem s uid d scope)

theorem State.tokensSeen_canon {mask : Nat} (h : s.Canon) : (s.tokensSeen mask).Canon :=
  State.ite_canon (State.acquireAll_canon h) (State.ite_canon h h)

theorem uniTwait_canon {mask : Nat} (h : s.Canon) : (uniTwait D mask s).Canon := by
  refine Desc.runU_canon h (Res.ite_canon ?_ h)
  split
  · trivial
  · exact State.tokensSeen_canon h

theorem uniTtest_canon {d mask : Nat} (h : s.Canon) : (uniTtest D d mask s).Canon :=
  have ht : (if s.q.tokensDone mask then s.tokensSeen mask else s).Canon := State.ite_canon (State.tokensSeen_canon h) h
  Desc.runU_canon h ht

theorem State.acquireFence_canon {full : Bool} {scope : Nat} (h : s.Canon) : (s.acquireFence full scope).Canon :=
  State.canon_of_mem h (State.acquireOver_mem s _ _ _ _)

theorem uniFence_canon (h : s.Canon) : (uniFence op legal o s).Canon := by
  unfold uniFence
  exact Desc.runU_canon h (State.behindRelease_canon h fun _ ht =>
    State.ite_canon (State.ite_canon ht ht) (State.acquireFence_canon (State.ite_canon ht ht)))

theorem State.crossPaths_canon {before after : List Nat} (h : s.Canon) : (s.crossPaths uid before after).Canon := h

theorem uniXfence_canon (h : s.Canon) : (uniXfence op legal o s).Canon := by
  have h1 : (if (maskPaths o.d).contains 0 then (s.settleOwed s.q.uid).settleFrom s.q.uid else s).Canon :=
    State.ite_canon (State.settleFrom_canon (State.settleOwed_canon h _) _) h
  unfold uniXfence
  exact Desc.runU_canon h (Res.ite_canon h (State.crossPaths_canon
    (State.ite_canon (State.seeUpdates_canon (State.settle_canon h1 _)) h1)))

/-! ## Barriers, splits and the carve -/

theorem uniBar_canon {vol : Bool} (h : s.Canon) : (uniBar op legal o vol s).Canon :=
  State.ite_canon (Desc.run_canon h h) (State.ite_canon (Desc.run_canon h h)
    (State.tryComplete_canon (Desc.run_canon h (State.arriveBar_canon h))))

theorem uniBarrive_canon (h : s.Canon) : (uniBarrive op legal o s).Canon :=
  State.ite_canon (Desc.runU_canon h trivial) (Desc.runU_canon h (State.tryComplete_canon (State.arriveBar_canon h)))

theorem uniBwait_canon (h : s.Canon) : (uniBwait op legal o s).Canon :=
  State.ite_canon (Desc.runU_canon h trivial) (State.ite_canon (Desc.runU_canon h h) (Desc.runU_canon h (State.departs_canon h)))

theorem uniCarve_canon (h : s.Canon) : (uniCarve op legal o s).Canon :=
  State.ite_canon (Desc.run_canon h h) (State.ite_canon (Desc.run_canon h trivial)
    (State.tryComplete_canon (Desc.run_canon h (State.arriveBar_canon h))))

/-! ## Queues (R267 to R272) -/

theorem State.ownQueue_canon (h : s.Canon) : (s.ownQueue owner off).Canon := State.beforeRmw_canon (State.beforeRmw_canon h _ _) _ _

theorem Desc.queue_canon {addr : DWord} {valid : Bool} {effect : State → Nat → Nat → Res} (h : s.Canon)
    (hf : ∀ t a b, t.Canon → (effect t a b).Canon) : (D.queue s addr valid effect).Canon := by
  unfold Desc.queue
  split
  · exact Desc.runU_canon h trivial
  · dsimp only; split
    · exact Desc.runU_canon h trivial
    · exact State.ite_canon (Desc.runU_canon h trivial) (Desc.runU_canon h (hf _ _ _ (State.ownQueue_canon h)))

theorem State.qServe_canon (h : s.Canon) : (State.qServe owner off n s).Canon := by
  induction n generalizing s with
  | zero => exact h
  | succ n ih =>
    unfold State.qServe
    split
    · exact h
    · extract_lets y sc
      split
      · exact ih (State.canon_of_mem (State.qPush_canon h owner off _ _ _ _) (State.modQuire_mem _ _ _))
      · exact ih (State.canon_of_mem (State.qPop_canon h owner off _) (State.modQuire_mem _ _ _))
      · exact h

theorem State.qServeAll_canon (h : s.Canon) : (s.qServeAll owner off).Canon := State.qServe_canon h

theorem uniQinit_canon (h : s.Canon) : (uniQinit op legal o s).Canon := by
  unfold uniQinit
  exact Desc.queue_canon h fun _ _ _ ht => Res.ite_canon trivial (Res.ite_canon trivial (Res.ite_canon trivial (Res.ite_canon trivial
    (Res.ite_canon trivial (Res.ite_canon trivial (State.putQdesc_canon ht _ _ _))))))

theorem uniQallow_canon (h : s.Canon) : (uniQallow op legal o s).Canon := by
  unfold uniQallow; dsimp only
  refine Desc.queue_canon h fun t owner off ht => Res.ite_canon trivial ?_
  have put : ∀ d, ((t.putQdesc owner off d).qServeAll owner off).Canon := fun d => State.qServeAll_canon (State.putQdesc_canon ht _ _ d)
  split
  · exact put _
  · refine Res.ite_canon ht ?_
    split
    · exact put _
    · trivial

theorem uniQpush_canon {nb : Bool} (h : s.Canon) : (uniQpush op legal o nb s).Canon := by
  unfold uniQpush
  exact Desc.queue_canon h fun t owner off ht => Res.ite_canon (Res.ite_canon ht ht)
    (State.qServeAll_canon (State.setK_canon (State.qPush_canon (State.qServeAll_canon (s := t.unblocked) ht) owner off _ _ _ _)))

theorem uniQpop_canon {nb : Bool} (h : s.Canon) : (uniQpop op legal o nb s).Canon := by
  unfold uniQpop
  refine Desc.queue_canon h fun t owner off ht => Res.ite_canon (Res.ite_canon ht ht) ?_
  exact State.qServeAll_canon (State.setK_canon (State.setS_canon
    (State.qPop_canon (State.qServeAll_canon (s := t.unblocked) ht) owner off _)))

/-! ## Counters and subscriptions (R243 to R254) -/

theorem Desc.counter_canon {addr : DWord} {acc : Acc} {effect : State → Trans → Nat → Res} (h : s.Canon)
    (hf : ∀ t x pa, t.Canon → (effect t x pa).Canon) : (D.counter s addr acc effect).Canon := by
  refine Desc.runU_canon h ?_
  split
  · trivial
  · exact h
  · exact hf _ _ _ (State.canon_of_mem h (State.cacheTarget_mem s _ _ _))

theorem State.askHome_canon {r : CReq} (h : s.Canon) : (s.askHome c r).Canon := h

theorem uniCinit_canon (h : s.Canon) : (uniCinit op legal l s).Canon := by
  unfold uniCinit
  refine Desc.counter_canon h fun t x pa ht => Res.ite_canon trivial ?_
  refine State.putCounter_canon ?_ _
  exact State.fold_canon (State.ownStores_canon ht _ _) fun _ _ hu => hu

theorem uniCexact_canon {drop : Bool} (h : s.Canon) : (uniCexact op drop legal o s).Canon := by
  refine Desc.counter_canon h fun t x pa ht => ?_
  split
  · trivial
  · exact State.behindRelease_canon ht fun _ hu => State.askHome_canon hu

theorem uniCtake_canon {a : Nat} {b : Arg} {waits : Bool} (h : s.Canon) : (uniCtake D a b waits s).Canon := by
  refine Desc.counter_canon h fun t x pa ht => ?_
  split
  · trivial
  · exact Res.ite_canon trivial (Res.ite_canon ht (Res.ite_canon ht (State.askHome_canon ht)))

theorem uniCgive_canon {a : Nat} {b : Arg} (h : s.Canon) : (uniCgive D a b s).Canon := by
  refine Desc.counter_canon h fun t x pa ht => ?_
  dsimp only; split
  · trivial
  · exact Res.ite_canon trivial (Res.ite_canon (State.ite_canon (State.settleCounter_canon ht _) (State.putCounter_canon ht _))
      (State.askHome_canon ht))

theorem uniSubscribe_canon {d g : Nat} (h : s.Canon) : (uniSubscribe D d g s).Canon := by
  unfold uniSubscribe; dsimp only
  refine Desc.runU_canon h (Res.ite_canon trivial (Res.ite_canon trivial ?_))
  split
  · trivial
  · refine Res.ite_canon trivial ?_
    split
    · trivial
    · exact State.fold_canon h fun t _ ht => State.canon_of_mem ht (State.sendBad_mem _ _)

theorem uniUnsub_canon (h : s.Canon) : (uniUnsub op legal o s).Canon := by
  refine Desc.runU_canon h ?_
  split
  · exact h
  · exact Res.ite_canon h (State.canon_of_mem h (State.flushSub_mem s _))

theorem uniSflush_canon (h : s.Canon) : (uniSflush op legal o s).Canon := by
  have flush : ∀ f : State → List Sub,
      ((f (s.ownScratch s.q.uid)).foldl (fun (t : State) y => t.flushSub y) (s.ownScratch s.q.uid)).Canon := fun f =>
    State.fold_canon (State.ownScratch_canon h) fun t y ht => State.canon_of_mem ht (State.flushSub_mem t y)
  unfold uniSflush; dsimp only
  refine Desc.runU_canon h (Res.ite_canon (flush (fun t => t.subs.filter _)) ?_)
  split
  · exact Res.ite_canon (flush (fun t => t.subs.filter _)) h
  · exact h

/-! ## Launches, signals and ends -/

theorem State.enqueue_canon {d asid target : Nat} {super sup : Bool} {rs : List (BitVec 2048)} {token : Option (Nat × Nat)}
    {lq : Option Nat} (h : s.Canon) : (s.enqueue d asid super sup target rs token lq).Canon :=
  State.fold_canon h fun _ r ht => State.clearBitmap_canon ht d asid super r

theorem uniSlaunch_canon (h : s.Canon) : NextCanon (uniSlaunch op legal l s) := by
  unfold uniSlaunch
  extract_lets x n tv addr tok D here target fail
  have hfail : ∀ c i, (fail c i).Canon := fun _ _ => h
  refine NextCanon.ite (Desc.run_canon h h) ?_
  split
  · exact Desc.run_canon h (hfail _ _)
  · refine NextCanon.ite (Desc.run_canon h trivial) ?_
    split
    · exact Desc.run_canon h trivial
    · split
      · rename_i hr
        exact Desc.run_canon h (State.hindrance_canon h hr)
      · refine NextCanon.ite (Desc.run_canon h h) (NextCanon.ite (Desc.run_canon h h) ?_)
        dsimp only; split
        · exact Desc.run_canon h (hfail _ _)
        · exact Desc.run_canon h trivial
        · exact Desc.run_canon h h
        · exact Desc.run_canon h (State.behindRelease_canon h fun t ht =>
            State.setK_canon (State.setS_canon (State.enqueue_canon (s := t.startLaunch tok) ht)))

theorem uniSsignal_canon (h : s.Canon) : (uniSsignal op legal o s).Canon :=
  Desc.runU_canon h (Res.ite_canon h (State.setBit_canon (State.releaseFolio_canon h) _ _))

theorem uniHalt_canon (h : s.Canon) : (uniHalt op o s).Canon :=
  Desc.runU_canon h (State.ending_canon h (State.afterEnd_canon (State.dropPermits_canon h)))

/-! ## Held faults (R377, R378) -/

theorem State.resumeFault_canon {x : HeldFault} {skip : Bool} (h : s.Canon) : (s.resumeFault x skip).Canon := by
  have ask : ∀ (z : State) (y : Heavy), z.Canon → (if s.isSaved x.fid then z else { z with permits := z.permits ++ [y] }).Canon :=
    fun z y hz => State.ite_canon hz hz
  unfold State.resumeFault; dsimp only
  split
  · exact h
  · exact State.ite_canon (ask _ _ h) h
  · exact ask _ _ h

theorem uniFresume_canon (h : s.Canon) : (uniFresume o s).Canon := by
  refine Desc.runU_canon h ?_
  split
  · trivial
  · exact Res.ite_canon trivial (State.behindRelease_canon h fun _ ht => State.resumeFault_canon ht)

theorem uniFkill_canon (h : s.Canon) : (uniFkill o s).Canon := by
  unfold uniFkill; dsimp only
  refine Desc.runU_canon h (Res.ite_canon ?_ ?_)
  · split
    · exact State.killShelf_canon h
    · trivial
  · split
    · trivial
    · split
      · exact Res.ite_canon (State.abandon_canon h) trivial
      · exact State.killFolio_canon h
      · exact State.ite_canon (State.killShelf_canon h) (State.killFolio_canon (State.killShelf_canon h))

/-! ## Pages, registers and messages (R380 to R385, R404) -/

theorem uniPmap_canon (h : s.Canon) : (uniPmap o s).Canon := by
  unfold uniPmap
  extract_lets g base D va v d perm asid stop fail
  have hstop : ∀ a b, (stop a b).Canon := fun _ _ => trivial
  have hfail : ∀ a, (fail a).Canon := fun _ => h
  refine Desc.runU_canon h (Res.ite_canon (hstop _ _) ?_)
  split
  · exact hstop _ _
  · exact h
  · dsimp only
    refine Res.ite_canon (hstop _ _) (Res.ite_canon (hfail _) ?_)
    split
    · exact Res.ite_canon h (hstop _ _)
    · exact hfail _
    · have h1 := State.putHome_canon h
      refine Res.ite_canon (hfail _) (Res.ite_canon (hfail _) (Res.ite_canon h ?_))
      exact State.fold_canon (State.releaseAt_canon (State.ite_canon (State.zeroFrame_canon (h1 _ _ _) _ _ _ _) (h1 _ _ _)) _)
        fun _ _ ht => State.putHome_canon ht _ _ _

theorem State.lqctl_canon {d : Nat} {v : DWord} {t : State} (h : s.Canon) (ht : s.lqctl uid d v = some t) : t.Canon := by
  unfold State.lqctl at ht
  extract_lets stat n asid target addr at ht
  have hstat : ∀ (u : State) (v : Nat), u.Canon → (stat u v).Canon := fun _ _ hu => hu
  clear_value stat
  split at ht
  · cases ht; exact hstat _ _ h
  · split at ht
    · cases ht; exact hstat _ _ h
    · split at ht
      · cases ht
      · split at ht
        · cases ht; exact hstat _ _ h
        · split at ht
          · cases ht
          · dsimp only at ht
            split at ht
            · cases ht
            · cases ht; exact hstat _ _ h
            · cases ht; exact hstat _ _ h
            · split at ht
              · cases ht
              · cases ht; exact hstat _ _ (State.enqueue_canon (State.releaseFor_canon h _ _ _))

theorem State.mgmtWrite_canon {d : Nat} {v : DWord} (h : s.Canon) : (s.mgmtWrite d n v).Canon :=
  State.canon_of_mem h (State.mgmtWrite_mem s d n v)

theorem uniWrsr_canon (h : s.Canon) : (uniWrsr o s).Canon := by
  unfold uniWrsr; dsimp only
  refine Desc.runU_canon h ?_
  split
  · exact h
  · exact Res.ite_canon trivial h
  · exact h
  · exact h
  · refine Res.ite_canon trivial (Res.ite_canon h (Res.ite_canon ?_ (State.mgmtWrite_canon h)))
    split
    · rename_i ht
      exact State.lqctl_canon h ht
    · exact h

theorem uniMsend_canon (h : s.Canon) : NextCanon (uniMsend o s) := by
  unfold uniMsend; dsimp only
  exact NextCanon.ite (Desc.runU_canon h trivial) (Desc.access_canon h fun _ _ ht => State.behindRelease_canon ht fun _ hu =>
    State.loads_canon hu _ _ _)

theorem uniMrecv_canon (h : s.Canon) : NextCanon (uniMrecv o s) := by
  unfold uniMrecv; dsimp only
  split
  · exact Desc.runU_canon h (Res.ite_canon h h)
  · exact Desc.access_canon h fun t _ ht => State.setK_canon (State.setS_canon
      (State.canon_of_mem (State.storeAll_canon (State.acquireAll_canon ht) _ _ _ _ _) (State.modDie_mem _ _ _)))

theorem uniTlbctl_canon (h : s.Canon) : (uniTlbctl o s).Canon :=
  Desc.runU_canon h (Res.ite_canon trivial (State.behindRelease_canon h fun _ ht => ht))

/-! ## Checkpoints and links (R415, R420 to R423) -/

theorem uniCkbegin_canon (h : s.Canon) : (uniCkbegin o s).Canon := by
  unfold uniCkbegin
  extract_lets g d gen v base D k open_
  have hopen : ∀ (t : State) (k : Ckpt), t.Canon → (open_ t k).Canon := fun _ _ ht => ht
  refine Desc.runU_canon h (Res.ite_canon trivial (Res.ite_canon h ?_))
  show State.Canon _
  split
  · rename_i ht
    exact hopen _ _ (State.ckWrite_canon h _ _ _ ht)
  · exact hopen _ _ h

theorem uniCkshard_canon (h : s.Canon) : (uniCkshard l s).Canon := by
  unfold uniCkshard; dsimp only
  refine Desc.runU_canon h (Res.ite_canon trivial ?_)
  split
  · trivial
  · exact Res.ite_canon h h

theorem State.endCommit_canon {d code : Nat} (h : s.Canon) : (s.endCommit d code).Canon := by
  unfold State.endCommit; split
  · exact h
  · exact h

/-- Writes that may fail, one after another. -/
theorem foldl_bind_canon {α : Type} {f : α → State → Option State} (hf : ∀ x t u, t.Canon → f x t = some u → u.Canon)
    (xs : List α) {acc : Option State} (ha : ∀ u, acc = some u → u.Canon) :
    ∀ u, xs.foldl (fun (acc : Option State) x => acc.bind (f x)) acc = some u → u.Canon := by
  induction xs generalizing acc with
  | nil => exact ha
  | cons x xs ih =>
    refine ih fun u hu => ?_
    obtain ⟨t, ht, hu⟩ := Option.bind_eq_some_iff.mp hu
    exact hf x t u (ha t ht) hu

theorem State.writeCommits_canon {ks : List (Nat × Ckpt)} {t : State} (h : s.Canon) (ht : s.writeCommits ks = some t) : t.Canon := by
  unfold State.writeCommits at ht
  split at ht
  · cases ht; exact h
  · refine foldl_bind_canon (fun _ _ _ hu hw => State.ckWrite_canon hu _ _ _ hw) _ (fun u hu => ?_) t ht
    exact foldl_bind_canon (fun _ _ _ hu hw => State.ckWrite_canon hu _ _ _ hw) _ (fun u hu => by cases hu; exact h) u hu

theorem State.tryCommit_canon {d : Nat} (h : s.Canon) : (s.tryCommit d).Canon := by
  unfold State.tryCommit
  split
  · exact h
  · extract_lets ks ready all
    have hall : ∀ (t : State) (code : Nat), t.Canon → (all t code).Canon := fun _ _ ht =>
      State.fold_canon ht fun _ _ hu => State.endCommit_canon hu
    refine State.ite_canon h ?_
    split
    · exact hall _ _ h
    · split
      · exact hall _ _ h
      · rename_i ht
        exact hall _ _ (State.fold_canon (State.writeCommits_canon h ht) fun _ _ hu => hu)

theorem uniCkcommit_canon (h : s.Canon) : (uniCkcommit o s).Canon := by
  unfold uniCkcommit
  extract_lets d gen reg base D none_
  have hnone : none_.Canon := Desc.runU_canon h h
  split
  · exact hnone
  · exact State.ite_canon hnone (State.ite_canon (Desc.runU_canon h h) (State.ite_canon (Desc.runU_canon h h)
      (State.tryCommit_canon (Desc.run_canon h h))))

theorem uniLinkctl_canon (h : s.Canon) : (uniLinkctl o s).Canon := by
  unfold uniLinkctl; dsimp only
  refine Desc.runU_canon h (Res.ite_canon trivial ?_)
  split
  · exact h
  · refine Res.ite_canon h ?_
    exact Res.ite_canon (State.takeTrap_canon h) h

theorem reservedWord_canon {w0 w1 : Word} (h : s.Canon) : (reservedWord w0 w1 s).Canon :=
  have trap {t : Trap} : (s.unblocked.takeTrap t).Canon := State.takeTrap_canon h
  State.ite_canon trap (State.ite_canon trap trap)

end Sys2Proof.Machine
end

section
/-! The canonical form of memory under the events of registers, bring-up, scheduling, saves and frames (R15 to R18, R313 to R315, R338 to
R341, R373 to R391). -/

namespace Sys2Proof.Machine

variable {s : State} {d n id uid fid pa kid : Nat} {v : DWord} {x : Folio} {w : Saved}

/-! ## Registers -/

theorem State.drainLq_canon (h : s.Canon) : s.drainLq.Canon := by
  refine List.foldlRecOn (motive := fun a : State × List (Nat × DWord × Nat) => a.1.Canon) s.lqWait _ (b := (s, [])) h fun a ha y _ => ?_
  split
  · exact ha
  · split
    · rename_i ht
      exact State.lqctl_canon ha ht
    · exact ha

theorem State.deviceWrite_canon (h : s.Canon) : (s.deviceWrite uid d n v).Canon := State.canon_of_mem h (State.deviceWrite_mem s uid d n v)

theorem lqctlWrite_canon (h : s.Canon) : (lqctlWrite d v s).Canon := State.ite_canon h (State.drainLq_canon (State.deviceWrite_canon h))

theorem registerWrite_canon (h : s.Canon) : (registerWrite d n v s).Canon :=
  State.ite_canon h (State.drainLq_canon (State.deviceWrite_canon h))

theorem State.keyCommand_canon {erase : Bool} (h : s.Canon) : (s.keyCommand d erase).Canon :=
  State.ite_canon h (State.fold_canon h fun _ _ ht => ht)

/-! ## Bring-up (R15 to R17) -/

theorem State.addCurators_canon (h : s.Canon) : (s.addCurators d).Canon :=
  State.fold_canon (State.putLong_canon h _ _ _) fun t _ ht => State.canon_of_mem ht (State.addCurator_mem t _ _ _)

theorem State.bringUp_canon (h : s.Canon) : s.bringUp.Canon := State.fold_canon h fun _ _ ht => State.addCurators_canon ht

theorem State.measured_canon {y : Image} (h : s.Canon) : (s.measured y).Canon := State.canon_of_mem h (State.measured_mem s y)

theorem powerOn_canon (h : s.Canon) : (powerOn s).Canon := by
  refine State.ite_canon h ?_
  split
  · rename_i y _
    have hm := State.measured_canon (y := y) h
    generalize s.measured y = t at hm ⊢
    exact State.ite_canon (State.bringUp_canon hm) hm
  · exact h

theorem imageRefetch_canon (h : s.Canon) : (imageRefetch s).Canon := by
  unfold imageRefetch
  split
  · split
    · rename_i y _
      have hm := State.measured_canon (y := y) h
      generalize s.measured y = t at hm ⊢
      exact State.ite_canon (State.bringUp_canon hm) hm
    · exact h
  · exact h

/-! ## Permits -/

theorem State.grantMat_canon {m : MatOp} (h : s.Canon) : (s.grantMat m).Canon := by
  unfold State.grantMat
  extract_lets s1 s2
  have h1 : s1.Canon := State.setMprog_canon h
  have h2 : s2.Canon := State.fold_canon (State.fold_canon h1 fun _ _ ht => State.ite_canon ht ht) fun _ _ ht => ht
  refine State.tryEndMat_canon (State.ite_canon (State.fold_canon ?_ fun _ _ ht => ht) h2)
  exact State.canon_of_mem h2 (State.acquireOn_mem s2 _ _)

theorem permitGrant_canon (h : s.Canon) : (permitGrant id s).Canon := by
  unfold permitGrant
  split
  · exact h
  · extract_lets first t
    have ht : t.Canon := h
    refine State.ite_canon h ?_
    split
    · split
      · exact State.ite_canon ht (State.ite_canon h (State.tryEndCopy_canon ht))
      · exact ht
    · split
      · exact State.grantMat_canon ht
      · exact ht
    · split
      · exact State.ite_canon ht (State.ite_canon h ht)
      · exact ht

/-! ## Scheduling -/

theorem State.assignTarget_canon {coll shelf vol : Nat} (h : s.Canon) : (s.assignTarget d coll shelf vol).Canon := State.ite_canon h h

theorem State.assignTargets_canon {u : UnitId} (h : s.Canon) : (s.assignTargets d u).Canon :=
  State.fold_canon (State.fold_canon h fun _ _ ht => State.assignTarget_canon ht) fun _ _ ht =>
    State.ite_canon (State.assignTarget_canon ht) ht

theorem registrarAct_canon {a : BindAct} (h : s.Canon) : (registrarAct a s).Canon := by
  cases a with
  | bind d coll shelf vol cores qbases =>
    unfold registrarAct; dsimp only
    have h1 := State.assignTargets_canon (d := d) (u := ⟨coll, shelf, vol⟩) h
    split
    · refine State.ite_canon h (State.ite_canon h1 ?_)
      split
      · exact h
      · exact h1
    · exact h
  | preempt f => exact State.ite_canon h h

theorem State.acquireOn_canon {scope : Nat} (h : s.Canon) : (s.acquireOn d scope).Canon :=
  State.canon_of_mem h (State.acquireOn_mem s d scope)

theorem State.startView_canon (h : s.Canon) : (s.startView uid).Canon := h

theorem startVolume_canon {index : Nat} (h : s.Canon) : (startVolume d index s).Canon := by
  unfold startVolume; dsimp only
  split
  · exact h
  · split
    · exact h
    · exact State.ite_canon h (State.ite_canon h (State.ite_canon h
        (State.fold_canon (State.acquireOn_canon h) fun _ _ ht => State.startView_canon ht)))

/-! ## Saves and restores (R386 to R391) -/

theorem State.movePoison_canon {a b : Nat} (h : s.Canon) : (s.movePoison a b n).Canon := State.ite_canon h h

theorem State.putChanged_canon {old new : List Byte} (h : s.Canon) : (s.putChanged kid pa old new).Canon :=
  State.ite_canon h (State.ite_canon (State.putLong_canon h _ _ _) (State.fold_canon h fun _ _ ht =>
    State.ite_canon ht (State.putRaw_canon ht _ _ _)))

theorem State.lateScratch_canon (h : s.Canon) : (s.lateScratch w x).Canon := by
  unfold State.lateScratch
  split
  · exact State.movePoison_canon (State.putChanged_canon h)
  · exact h

theorem State.endSave_canon (h : s.Canon) : (s.endSave w).Canon := by
  unfold State.endSave
  extract_lets full y s0 t s1
  have h0 : s0.Canon := State.fold_canon h fun _ _ ht => State.lateScratch_canon ht
  exact State.ite_canon h (State.fold_canon (s := s1) h0 fun _ _ ht => ht)

theorem State.stopUnit_canon {mine : Nat → Bool} (h : s.Canon) : (s.stopUnit mine).Canon :=
  State.fold_canon h fun _ _ ht => State.fold_canon (State.leaveLatch_canon ht) fun _ _ hu => hu

theorem State.storesHome_canon {qs : List Quire} (h : s.Canon) : (s.storesHome d qs).Canon :=
  State.fold_canon (State.fold_canon h fun _ _ ht => State.releaseFor_canon ht _ _ _) fun _ _ ht => State.recallLine_canon ht _

theorem State.writeImage_canon {vol : Volume} {qs : List Quire} (h : s.Canon) : (s.writeImage vol x qs).Canon :=
  State.movePoison_canon (State.putLong_canon h _ _ _)

theorem State.saveUnit_canon {vol : Volume} {coll : Nat} (h : s.Canon) : (s.saveUnit vol coll).Canon :=
  State.fold_canon (State.storesHome_canon (State.fold_canon h fun t y ht => State.canon_of_mem ht (State.flushSub_mem t y))) fun _ _ ht =>
    State.writeImage_canon ht

theorem preemptSave_canon (h : s.Canon) : (preemptSave fid s).Canon := by
  unfold preemptSave
  extract_lets y vol end7 s1
  have hend : ∀ t : State, t.Canon → (end7 t).Canon := fun t ht => by
    dsimp only [end7]; split
    · exact State.endSave_canon ht
    · exact ht
  exact State.ite_canon (hend s h) (State.ite_canon h (hend _ (State.saveUnit_canon (State.stopUnit_canon h))))

theorem State.readScratch_canon (h : s.Canon) : (s.readScratch x pa kid).Canon := State.movePoison_canon (State.putBytes_canon h _ _)

/-- The scratchpads of the restored folios are read back over a memory that has lost the cells of their old names. -/
theorem State.restoreAt_canon {ps : List (Nat × Nat × Nat)} (h : s.Canon) : (s.restoreAt w d ps).Canon :=
  State.fold_canon (Memory.wf_filter _ _ h) fun _ _ ht => State.readScratch_canon ht

theorem State.replaceArchive_canon (h : s.Canon) : (s.replaceArchive uid).Canon := by
  refine State.fold_canon h fun t fr ht => ?_
  split
  · exact ht
  · split
    · exact ht
    · exact State.writeLines_canon ht _ _ _

theorem restoreUnit_canon {dcore qbase : Nat} (h : s.Canon) : (restoreUnit fid dcore qbase s).Canon := by
  unfold restoreUnit; dsimp only
  split
  · exact h
  · split
    · exact h
    · split
      · exact h
      · refine State.reap_canon (State.fold_canon (State.fold_canon ?_ fun _ _ ht => State.startView_canon (State.replaceArchive_canon ht))
          fun _ _ ht => State.tryComplete_canon ht)
        exact State.acquireOn_canon (State.restoreAt_canon h)

/-! ## Frames and carves -/

theorem State.archiveTrap_canon {y : RunNeed} {code addr : Nat} (h : s.Canon) : (s.archiveTrap y code addr).Canon := by
  unfold State.archiveTrap
  split
  · exact State.trapIn_canon h
  · exact State.fetchTrap_canon (State.focus_canon h)

theorem archiveFrame_canon (h : s.Canon) : (archiveFrame uid id s).Canon := by
  unfold archiveFrame; dsimp only
  split
  · refine State.ite_canon h (State.ite_canon (State.archiveTrap_canon h) ?_)
    split
    · exact State.archiveTrap_canon h
    · exact State.ite_canon h (State.writeLines_canon h _ _ _)
  · exact h

theorem refillFrame_canon (h : s.Canon) : (refillFrame uid id s).Canon := by
  unfold refillFrame; dsimp only
  split
  · split
    · exact State.archiveTrap_canon h
    · exact State.ite_canon h h
  · exact h

theorem State.shrink_canon {limit : Nat} (h : s.Canon) : (s.shrink fid limit).Canon := Memory.wf_filter _ _ h

theorem carveApply_canon (h : s.Canon) : (carveApply fid s).Canon := by
  unfold carveApply; dsimp only
  split
  · exact h
  · exact State.ite_canon h (State.completeBar_canon (State.ite_canon (State.shrink_canon h) h))

/-! ## Faults and curators -/

theorem faultRecord_canon (h : s.Canon) : (faultRecord id s).Canon := by
  unfold faultRecord
  extract_lets go
  have hgo : ∀ a f p, (go a f p).Canon := fun a f p => by
    dsimp only [go]; split
    · exact State.ite_canon (State.recordFault_canon h) h
    · exact h
  split
  · exact hgo _ _ _
  · exact hgo _ _ _
  · exact hgo _ _ _
  · exact h

theorem handlerFolioStart_canon {fh core qbase : Nat} (h : s.Canon) : (handlerFolioStart fh core qbase s).Canon := by
  unfold handlerFolioStart; dsimp only
  split
  · exact h
  · refine State.ite_canon h (State.startView_canon (State.acquireOn_canon ?_))
    refine State.canon_of_mem (State.putBytes_canon ?_ _ _) (State.modDie_mem _ _ _)
    exact h

theorem curatorTrapEntry_canon {i : Nat} (h : s.Canon) : (curatorTrapEntry d i s).Canon := by
  unfold curatorTrapEntry
  split
  · split
    · exact State.takeTrap_canon (State.focus_canon h)
    · exact h
  · exact h

end Sys2Proof.Machine
end

section
/-! The canonical form of memory under the events of the engines, of the memory side and of the links (R164 to R201, R217 to R251, R295,
R385, R401 to R416). -/

namespace Sys2Proof.Machine

variable {s : State} {d n id uid fid pa : Nat} {m : Msg} {o : MatOp} {c : CopyOp} {a b : TileOp} {k : Counter}

/-! ## Matrix operations and copies -/

theorem State.faultMat_canon {y : MatMember} {inner ea operand : Nat} (h : s.Canon) : (s.faultMat o y inner ea operand).Canon := by
  unfold State.faultMat; dsimp only
  refine State.recordFault_canon (State.canon_of_mem (State.setMprog_canon ?_) rfl)
  exact h

theorem State.fetched_canon {s0 : State} {x : FetchAt} (h : s.Canon) : (s.fetched s0 fid x).Canon := by
  unfold State.fetched; dsimp only
  split
  · exact h
  · refine State.canon_of_mem (State.recallFor_canon ?_ _ _) (State.keepCoherent_mem _ _ _ _ _ _)
    exact State.canon_of_mem (State.canon_of_mem h (State.cacheTarget_mem s _ _ _)) (State.touch_mem _ _ _ _ _ _)

theorem State.bandChunk_canon {y : MatMember} {as bs : List (List (Elem × MFlags))} (h : s.Canon) : (s.bandChunk o y as bs).Canon := h

theorem matrixChunk_canon (h : s.Canon) : NextCanon (matrixChunk id s) := by
  unfold matrixChunk; dsimp only
  split
  · exact h
  · refine NextCanon.ite h ?_
    split
    · exact State.faultMat_canon h
    · exact h
    · split
      · exact State.faultMat_canon h
      · refine State.tryEndMat_canon (State.setMprog_canon (State.fold_canon (State.fold_canon h fun _ _ ht => ?_) fun _ _ ht => ?_))
        · exact State.fetched_canon ht
        · exact State.bandChunk_canon ht

theorem State.resumeCopy_canon (h : s.Canon) : (s.resumeCopy c).Canon :=
  State.ite_canon (State.acquireOn_canon h) h

theorem State.faultCopy_canon {inner ea : Nat} (h : s.Canon) : (s.faultCopy c inner ea).Canon := State.recordFault_canon h

theorem State.engineRead_canon {p : Path} {t : Target} {salt : Nat} (h : s.Canon) : (s.engineRead uid d p t n salt).2.Canon :=
  State.canon_of_mem h (State.engineRead_mem s uid d p t n salt)

theorem State.legBytes_canon {x : Leg} (h : s.Canon) : (s.legBytes c x n).2.Canon := by
  unfold State.legBytes; dsimp only
  split
  · refine List.foldlRecOn (motive := fun r : List Byte × State => r.2.Canon) _ _ ?_ fun r hr e _ => ?_
    · exact State.canon_of_mem h (State.cacheTarget_mem s _ _ _)
    · exact State.engineRead_canon (State.recallFor_canon (State.canon_of_mem hr (State.touch_mem _ _ _ _ _ _)) _ _)
  · exact List.foldlRecOn (motive := fun r : List Byte × State => r.2.Canon) _ _ h fun r hr e _ => State.engineRead_canon hr
  · exact State.engineRead_canon h
  · exact h

theorem State.spreadPoison_canon {x : Leg} {tos : List Leg} (h : s.Canon) : (s.spreadPoison c x tos n).Canon := State.ite_canon h h

theorem copySegment_canon (h : s.Canon) : NextCanon (copySegment id s) := by
  unfold copySegment
  extract_lets t
  have ht : t.Canon := by
    dsimp only [t]; split
    · exact State.resumeCopy_canon h
    · exact h
  clear_value t
  split
  · exact ht
  · refine NextCanon.ite ht ?_
    dsimp only; split
    · exact State.faultCopy_canon ht
    · exact State.faultCopy_canon ht
    · refine NextCanon.ite ht (NextCanon.ite (State.faultCopy_canon ht) ?_)
      exact State.tryEndCopy_canon (State.spreadPoison_canon (State.fold_canon (State.legBytes_canon ht) fun _ _ hu =>
        State.legWrite_canon hu _ _ _))

/-! ## Tiles -/

theorem State.tileWrite_canon {bs : List (Byte × Bool)} {out : BitVec 2 × Option Trap} (h : s.Canon) : (s.tileWrite b bs out).Canon := by
  unfold State.tileWrite
  extract_lets fits s1
  have h1 : s1.Canon := State.fold_canon h fun t x ht => by
    refine State.ite_canon (State.canon_of_mem ?_ (State.wroteNow_mem _ _ _ _ _ _)) ht
    exact State.canon_of_mem (State.scratchWrite_canon ht _ _ _ _ _) (State.markPoison_mem _ _ _ _)
  exact State.ite_canon h1 h1

theorem State.loseTile_canon (h : s.Canon) : (s.loseTile a).Canon := h

theorem State.remoteAck_canon (h : s.Canon) : (s.remoteAck a).Canon := h

theorem tileDelivery_canon {snd rcv : Nat} (h : s.Canon) : (tileDelivery snd rcv s).Canon := by
  unfold tileDelivery
  extract_lets go
  have hgo : go.Canon := h
  split
  · exact State.ite_canon h (State.ite_canon hgo (State.tileWrite_canon (State.engineRead_canon hgo)))
  · exact State.ite_canon h (State.ite_canon (State.remoteAck_canon hgo) (State.loseTile_canon h))
  · exact State.ite_canon h (State.ite_canon (State.tileWrite_canon hgo) (State.loseTile_canon h))
  · exact h

/-! ## Counters -/

theorem State.counterSync_canon (h : s.Canon) : (s.counterSync k uid).1.Canon := State.canon_of_mem h (State.acquireOver_mem s _ _ _ _)

theorem State.giveBack_canon {r : CReq} (h : s.Canon) : (s.giveBack pa r).Canon := State.canon_of_mem h (State.giveBack_mem s pa r)

theorem State.answer_canon {r : CReq} {y : Option Bool} (h : s.Canon) : (s.answer pa r y).Canon := h

theorem State.serveReq_canon {r : CReq} (h : s.Canon) : (s.serveReq k r).Canon := by
  have told : ∀ reg v, (((s.counterSync k.recallAll r.quire).1.modQuire r.quire (fun q => q.setS reg v)).answer
      k.pa r none).Canon := fun reg v =>
    State.answer_canon (State.canon_of_mem (State.counterSync_canon h) (State.modQuire_mem _ _ _))
  unfold State.serveReq
  split
  · refine State.ite_canon (State.ite_canon (State.putCounter_canon h _) (State.settleCounter_canon (State.answer_canon h) _)) ?_
    dsimp only
    exact State.ite_canon (State.settleCounter_canon (State.answer_canon h) _)
      (State.ite_canon (State.putCounter_canon h _) (State.settleCounter_canon (State.answer_canon h) _))
  · exact State.settleCounter_canon (State.answer_canon h) _
  · dsimp only
    refine State.putCounter_canon (State.canon_of_mem ?_ (State.serveWaiters_mem _ _ _ _)) _
    exact told _ _
  · dsimp only
    refine State.canon_of_mem (State.putHome_canon ?_ _ _ _) (State.forget_mem _ _ _)
    exact State.fold_canon (State.fold_canon (told _ _) fun _ _ ht => State.answer_canon ht) fun _ _ ht => State.giveBack_canon ht

theorem counterHomeRequest_canon (h : s.Canon) : (counterHomeRequest pa s).Canon := by
  unfold counterHomeRequest; dsimp only
  split
  · exact h
  · split
    · exact State.settleCounter_canon h _
    · exact State.serveReq_canon h

theorem State.loseCounters_canon {here theirs : Nat → Bool} (h : s.Canon) : (s.loseCounters here theirs).Canon :=
  State.fold_canon h fun _ _ ht => State.ite_canon ht (State.ite_canon (State.fold_canon ht fun _ _ hu => State.giveBack_canon hu)
    (State.settleCounter_canon ht _))

/-! ## Partials and lines -/

theorem redPartialEviction_canon (h : s.Canon) : (redPartialEviction id s).Canon := by
  unfold redPartialEviction
  split
  · exact State.ite_canon h (State.evictPartial_canon h _ _ _)
  · exact h

theorem peerProbe_canon {cluster line : Nat} (h : s.Canon) : (peerProbe d cluster line s).Canon := State.ite_canon h h

theorem State.direct_canon {core line : Nat} {l : Level} {write : Bool} (h : s.Canon) : (s.direct d core l write line).Canon := h

theorem lineFill_canon {line : Nat} (h : s.Canon) : (lineFill d line s).Canon := by
  unfold lineFill; dsimp only
  split
  · exact h
  · exact State.ite_canon h (State.direct_canon (State.canon_of_mem (State.recallLine_canon h _) (State.addCopy_mem _ _ _ _)))

theorem lineWriteBack_canon {line : Nat} (h : s.Canon) : (lineWriteBack d line s).Canon :=
  State.ite_canon (State.ite_canon h h) (State.writeBack_canon h _ _ _)

theorem rv64MemoryAccess_canon {y : Rv64Access} (h : s.Canon) : NextCanon (rv64MemoryAccess y s) := by
  cases y with
  | load p k =>
    refine NextCanon.ite h (NextCanon.ite h ?_)
    split
    · exact State.recallLine_canon h _
    · exact h
  | store p k v =>
    refine NextCanon.ite h (NextCanon.ite (registerWrite_canon h) (NextCanon.ite h (NextCanon.ite h ?_)))
    split
    · exact State.ite_canon h (State.direct_canon (State.storeBytes_canon h _ _ _ _ _ _))
    · exact h

theorem uncorrectableError_canon {y : BadCell} (h : s.Canon) : (uncorrectableError y s).Canon := by
  unfold uncorrectableError
  split
  · exact State.ite_canon h h
  · exact State.ite_canon h h

/-! ## Time -/

theorem reachTimeout_canon {ea : Nat} (h : s.Canon) : (reachTimeout id ea s).Canon := by
  unfold reachTimeout
  split
  · split
    · exact State.ite_canon (State.trapIn_canon h) h
    · exact h
  · exact State.ite_canon (State.faultCopy_canon h) h
  · split
    · exact h
    · refine State.ite_canon h ?_
      split
      · exact State.ite_canon (State.faultMat_canon h) h
      · exact h

theorem sequencerTimeout_canon (h : s.Canon) : (sequencerTimeout uid s).Canon := by
  unfold sequencerTimeout
  split
  · split
    · exact State.ite_canon h (State.trapIn_canon h)
    · exact h
  · exact h

/-! ## Shoot-downs and messages (R385, R402 to R404) -/

theorem State.number_canon {dom : Bool} (h : s.Canon) : (s.number dom).2.Canon := by
  cases dom
  · exact h
  · exact h

theorem State.commitShoot_canon {x : Shoot} (h : s.Canon) : (s.commitShoot x).Canon := by
  unfold State.commitShoot
  extract_lets waits s1 free s2
  have h1 : s1.Canon := State.fold_canon (State.acquireOn_canon h) fun _ _ ht => ht
  have h2 : s2.Canon := h1
  exact State.ite_canon h2 (State.number_canon h2)

theorem State.commitShoots_canon (h : s.Canon) : s.commitShoots.Canon := State.fold_canon h fun _ _ ht => State.commitShoot_canon ht

theorem State.startShoot_canon {q : DWord} {asid : Option Nat} {lo len : Nat} {wb : Bool} (h : s.Canon) :
    (s.startShoot q m id asid lo len wb).Canon := State.commitShoots_canon h

theorem State.shootLines_canon {x : Shoot} (h : s.Canon) : (s.shootLines d x).Canon :=
  State.fold_canon (State.fold_canon h fun _ _ ht => State.evictPartial_canon (State.evictPartial_canon ht _ _ _) _ _ _) fun _ _ ht =>
    State.writeBack_canon ht _ _ _

theorem invalAt_canon {seq : Nat} (h : s.Canon) : (invalAt d seq s).Canon := by
  unfold invalAt
  split
  · exact h
  · have h0 := State.performStores_canon h
    exact State.ite_canon h (State.ite_canon (State.shootLines_canon (h0 _)) (h0 _))

theorem ackAt_canon {seq : Nat} (h : s.Canon) : (ackAt d seq s).Canon := State.commitShoots_canon h

end Sys2Proof.Machine
end

section
/-! The canonical form of memory under the loss and the admission of dies and packages, and under the messages that
announce them (R401 to R416). -/

namespace Sys2Proof.Machine

variable {s : State} {d n id uid fid pa : Nat} {m : Msg}

/-! ## Eviction (R405, R406) -/

theorem State.loseTiles_canon (h : s.Canon) : s.loseTiles.Canon := State.fold_canon h fun _ _ ht => State.loseTile_canon ht

theorem State.clearHolder_canon {f : BitVec 4 × BitVec 64 → BitVec 4 × BitVec 64} (h : s.Canon) : (s.clearHolder f).Canon := h

/-- A die that drops copies drops no byte of memory. -/
theorem State.dropAll_canon {ds : List Nat} {f : Nat → Copy → Bool} (h : s.Canon) :
    (ds.foldl (fun t e => t.dropCopies e (f e)) s).Canon :=
  State.fold_canon h fun t _ ht => State.canon_of_mem ht (State.dropCopies_mem t _ _)

theorem State.setHolders_canon {hs : List (Nat × BitVec 4 × BitVec 64)} (h : s.Canon) : ({ s with holders := hs } : State).Canon := h

/-- The list of dies is taken as any list, so that nothing unrolls the fold. -/
theorem State.evictPkg_canon (h : s.Canon) : (s.evictPkg n).Canon := by
  unfold State.evictPkg
  generalize List.range 5 = ds
  refine State.loseTiles_canon (State.loseCounters_canon (State.setHolders_canon (State.clearHolder_canon (State.dropAll_canon ?_))))
  exact h

theorem State.setPartials_canon {ps : List Partial} (h : s.Canon) : ({ s with partials := ps } : State).Canon := h

theorem State.rehomeLines_canon {rr : Option (Nat × Nat)} (h : s.Canon) : (s.rehomeLines d rr).Canon := by
  unfold State.rehomeLines
  generalize List.range 5 = ds
  refine State.setPartials_canon (State.fold_canon h fun t e ht => State.canon_of_mem ?_ (State.dropCopies_mem _ _ _))
  refine State.fold_canon ht fun u c hu => ?_
  split
  · exact State.ite_canon (State.mergeLine_canon hu _ _ _) hu
  · exact hu

theorem State.dropDie_canon (h : s.Canon) : (s.dropDie d).Canon := h

theorem State.moveQueue_canon (h : s.Canon) : (s.moveQueue d).Canon := by
  unfold State.moveQueue
  split
  · refine State.fold_canon h fun t y ht => ?_
    dsimp only; split
    · exact ht
    · exact ht
  · exact State.fold_canon h fun _ _ ht => ht

theorem State.failCkpts_canon (h : s.Canon) : (s.failCkpts d).Canon := by
  refine State.fold_canon h fun t e ht => ?_
  split
  · exact State.ite_canon (State.ite_canon (State.endCommit_canon ht) ht) ht
  · exact ht

theorem State.evictDie_canon (h : s.Canon) : (s.evictDie d).Canon := by
  unfold State.evictDie
  extract_lets r rr s1 src s2 s3 s4 s5 s6 s7 s8 s9
  have h2 : s2.Canon := h
  clear_value s2
  have h3 : s3.Canon := State.fold_canon h2 fun _ _ ht => ht
  clear_value s3
  have h4 : s4.Canon := State.fold_canon h3 fun _ _ ht => State.ite_canon ht ht
  clear_value s4
  have h5 : s5.Canon := State.clearHolder_canon (State.rehomeLines_canon (State.dropDie_canon h4))
  clear_value s5
  have h6 : s6.Canon := State.loseTiles_canon (State.loseCounters_canon h5)
  clear_value s6
  have h7 : s7.Canon := State.moveQueue_canon h6
  clear_value s7
  have h9 : s9.Canon := h7
  clear_value s9
  exact State.reapColls_canon (State.commitShoots_canon (State.failCkpts_canon h9))

theorem State.evictTarget_canon (h : s.Canon) : (s.evictTarget n).Canon := State.ite_canon (State.evictPkg_canon h) (State.evictDie_canon h)

theorem evictionDiscovered_canon (h : s.Canon) : (evictionDiscovered d s).Canon :=
  State.ite_canon h (State.fold_canon (State.dropDie_canon h) fun _ _ ht => ht)

/-! ## Admission and numbering (R402 to R407) -/

/-- A die that is admitted has lost the cells of its memory. -/
theorem State.admitDie_canon (h : s.Canon) : (s.admitDie d).Canon := by
  unfold State.admitDie
  extract_lets here line s1
  have h1 : s1.Canon := Memory.wf_filter _ _ h
  exact State.ite_canon (State.addCurators_canon h1) h1

theorem State.sent_canon (h : s.Canon) : (s.sent m).Canon := by
  unfold State.sent
  split
  · exact h
  · exact h

theorem State.deliver_canon (h : s.Canon) : (s.deliver m).Canon := h

theorem State.numbered_canon (h : s.Canon) : (s.numbered m).Canon := by
  have h1 := State.sent_canon (m := m) h
  unfold State.numbered; dsimp only
  split
  · exact State.deliver_canon h1
  · exact State.deliver_canon h1
  · exact State.deliver_canon (State.evictTarget_canon h1)
  · exact State.deliver_canon (State.ite_canon h1 (State.admitDie_canon h1))
  · exact State.startShoot_canon h1

theorem sequencerNumber_canon (h : s.Canon) : (sequencerNumber id s).Canon := by
  unfold sequencerNumber
  split
  · split
    · refine State.ite_canon h ?_
      dsimp only
      have hn := State.number_canon (s := { s with next := s.next + 1 }) (dom := true) h
      split
      · exact State.startShoot_canon hn
      · exact State.deliver_canon (State.evictTarget_canon hn)
      · exact State.deliver_canon hn
    · exact h
  · exact State.ite_canon h (State.ite_canon h (State.ite_canon h (State.numbered_canon (State.number_canon h))))

theorem heartbeatMiss_canon {observer src : Nat} (h : s.Canon) : (heartbeatMiss observer src s).Canon :=
  State.ite_canon h (State.ite_canon h h)

theorem evictNext_canon (h : s.Canon) : (evictNext n s).Canon := by
  unfold evictNext
  refine State.ite_canon (State.ite_canon h h) ?_
  split
  · exact sequencerNumber_canon h
  · exact h

theorem State.rejoin_canon (h : s.Canon) : s.rejoin.Canon := State.ite_canon (State.fold_canon h fun _ _ ht => State.admitDie_canon ht) h

theorem admitNext_canon (h : s.Canon) : (admitNext n s).Canon := by
  unfold admitNext; dsimp only
  refine State.ite_canon (State.rejoin_canon h) ?_
  split
  · exact State.ite_canon h (State.ite_canon h (State.numbered_canon (State.number_canon h)))
  · exact h

theorem dieFailure_canon (h : s.Canon) : (dieFailure n s).Canon :=
  State.ite_canon (State.ite_canon h h) (State.fold_canon h fun _ _ ht => ht)

/-! ## Shards (R415) -/

theorem State.appendPage_canon {x : ShardOp} {l : Leaf} (h : s.Canon) : (s.appendPage x l).1.Canon := by
  unfold State.appendPage
  split
  · exact h
  · dsimp only; split
    · exact h
    · split
      · exact h
      · rename_i ht
        exact State.canon_of_mem (State.ckWrite_canon h _ _ _ ht) (State.modDie_mem _ _ _)

theorem ckshardCompletion_canon (h : s.Canon) : (ckshardCompletion id s).Canon := by
  unfold ckshardCompletion
  split
  · exact h
  · refine State.ite_canon h ?_
    refine List.foldlRecOn (motive := fun a : State × BitVec 2 => a.1.Canon) _ _ (b := (s, 0)) h fun a ha l _ => ?_
    split
    · exact ha
    · exact State.appendPage_canon ha

end Sys2Proof.Machine
end

section
/-! The canonical form of memory under what follows every step: events that fall due, queues, waits, checkpoints and the images of saved
folios (R1, R169, R188, R251 to R254, R267 to R272, R368, R377, R390, R415). -/

namespace Sys2Proof.Machine

variable {s : State} {uid loc code : Nat} {w : Wait}

theorem State.performAt_canon {i : Nat} {t : State} (h : s.Canon) (ht : s.performAt i = some t) : t.Canon := by
  unfold State.performAt at ht
  split at ht
  · split at ht
    · exact absurd ht (by simp)
    · exact State.perform_canon (s := { s with stores := s.stores.eraseIdx i }) h _ ht
  · exact absurd ht (by simp)

/-! ## Queues -/

theorem State.trapHurt_canon (h : s.Canon) : (s.trapHurt loc code).Canon :=
  State.fold_canon h fun _ _ ht => State.ite_canon ht (State.trapIn_canon ht)

theorem State.trapBroken_canon (h : s.Canon) : (s.trapBroken uid).Canon := by
  unfold State.trapBroken; dsimp only
  split
  · exact h
  · split
    · exact State.trapIn_canon h
    · exact h

theorem State.serveQueues_canon (h : s.Canon) : s.serveQueues.Canon := by
  unfold State.serveQueues; dsimp only
  refine State.fold_canon (State.fold_canon ?_ fun _ _ ht => State.trapBroken_canon ht) fun t l ht => ?_
  · exact h
  · split
    · exact State.trapHurt_canon ht
    · exact State.qServeAll_canon ht

/-! ## Waits, latches and faults that fall due -/

/-- A wait that ends shows its updates to the quire: it writes registers, not memory. -/
theorem State.endDrain_canon (h : s.Canon) : (s.endDrain uid w).Canon := by
  have hs : (s.seeUpdates uid [0]).Canon := State.seeUpdates_canon h
  unfold State.endDrain
  split
  · refine State.ite_canon h ?_
    split
    · exact hs
    · exact hs
    · exact hs
  · exact h

theorem State.endDrains_canon (h : s.Canon) : s.endDrains.Canon :=
  State.fold_canon h fun _ _ ht => State.fold_canon ht fun _ _ hu => State.endDrain_canon hu

theorem State.latchEnds_canon (h : s.Canon) : s.latchEnds.Canon :=
  State.fold_canon h fun _ _ ht =>
    State.ite_canon ht (State.ite_canon (State.leaveLatch_canon ht) (State.ite_canon (State.latchTrap_canon ht) ht))

theorem State.freeRemaps_canon (h : s.Canon) : s.freeRemaps.Canon := h

theorem State.dropOrphans_canon (h : s.Canon) : s.dropOrphans.Canon := h

theorem State.takeDue_canon (h : s.Canon) : s.takeDue.Canon := by
  refine State.fold_canon h fun t q ht => ?_
  split
  · exact State.recordFault_canon ht
  · exact ht

/-! ## Checkpoints, links and saved folios -/

theorem State.tryCommits_canon (h : s.Canon) : s.tryCommits.Canon :=
  State.fold_canon h fun _ _ ht => State.tryCommit_canon ht

theorem State.rv64Receive_canon (h : s.Canon) : s.rv64Receive.Canon := State.ite_canon h h

theorem State.dropDetours_canon (h : s.Canon) : s.dropDetours.Canon := h

/-- Only what changed in the image of a saved folio is written (R377, R390, R391). -/
theorem State.syncImages_canon (h : s.Canon) : s.syncImages.Canon := by
  refine State.fold_canon h fun t v ht => State.ite_canon ht ?_
  refine State.canon_of_mem (State.fold_canon ht fun u x hu => ?_) rfl
  split
  · exact State.putChanged_canon (State.putChanged_canon hu)
  · exact hu

theorem State.after_canon (h : s.Canon) : s.after.Canon := by
  have hq := State.serveQueues_canon (State.drainBits_canon
    (State.drainLq_canon (s := { s with tick := s.tick + 1, clock := s.clock + 1 }) h))
  have hw := State.dropOrphans_canon (State.freeRemaps_canon (State.latchEnds_canon (State.endDrains_canon hq)))
  have hc := State.tryCommits_canon (State.takeDue_canon (State.reap_canon hw))
  exact State.syncImages_canon (State.dropDetours_canon (State.rv64Receive_canon hc))

end Sys2Proof.Machine
end

section
/-! The canonical form of memory under the words that write only registers, predicates, latches and fibres (R93 to R116, R152, R173 to
R177, R221, R323 to R337, R384), and under the events that only mark a die, a link or a wait. -/

namespace Sys2Proof.Machine

variable {s : State} {op : Nat} {legal : Bool} {o : SF} {i : IF} {l : LF} {x : LArgs} {u : UArgs}

/-! ## Compares and float words -/

theorem laneCmp_canon {comb : Nat} (h : s.Canon) : (laneCmp op legal comb x s).Canon :=
  Desc.run_canon h h

theorem laneFcmp_canon {comb : Nat} {quiet : Bool} (h : s.Canon) : (laneFcmp op legal comb quiet x s).Canon :=
  Desc.fpRun_canon h fun _ => h

theorem laneFcvt_canon (h : s.Canon) : (laneFcvt op legal l s).Canon := by
  unfold laneFcvt
  exact laneConv_canon h

theorem laneFcvti_canon {ity : BitVec 3} {rnd : Nat} (h : s.Canon) : (laneFcvti op legal ity rnd x s).Canon := by
  unfold laneFcvti
  exact laneConv_canon h

theorem laneIcvtf_canon {ity : BitVec 3} {rnd : Nat} (h : s.Canon) : (laneIcvtf op legal ity rnd x s).Canon := by
  unfold laneIcvtf
  exact laneConv_canon h

theorem uniCmp_canon {comb : Nat} (h : s.Canon) : (uniCmp op legal comb u s).Canon := Desc.runU_canon h (State.setK_canon h)

theorem uniFloat_canon {k : FloatOp} {rnd : Nat} (h : s.Canon) : (uniFloat k op legal rnd u s).Canon :=
  Desc.fpRunU_canon h fun _ => State.setS_canon h

theorem uniFcmp_canon {comb : Nat} {quiet : Bool} (h : s.Canon) : (uniFcmp op legal comb quiet u s).Canon :=
  Desc.fpRunU_canon h fun _ => State.setK_canon h

theorem uniFcvt_canon (h : s.Canon) : (uniFcvt op legal l s).Canon := Desc.fpRunU_canon h fun _ => State.setS_canon h

/-! ## Matrix state -/

theorem laneMwrite_canon (h : s.Canon) : (laneMwrite op legal l s).Canon := Desc.run_canon h (Res.ite_canon h h)

theorem uniSgang_canon (h : s.Canon) : (uniSgang op legal o s).Canon := Desc.runU_canon h (Res.ite_canon trivial h)

theorem uniMtopk_canon (h : s.Canon) : (uniMtopk op legal l s).Canon :=
  Desc.runU_canon h (Res.ite_canon h (Res.ite_canon trivial h))

theorem uniMzero_canon (h : s.Canon) : (uniMzero op legal o s).Canon := Desc.runU_canon h (Res.ite_canon h h)

theorem uniMflag_canon {clr : Bool} (h : s.Canon) : (uniMflag op legal clr o s).Canon := Desc.runU_canon h (State.ite_canon h h)

/-! ## Control -/

theorem laneBra_canon (h : s.Canon) : (laneBra op legal i s).Canon := Desc.run_canon h h

theorem laneGather_canon (h : s.Canon) : (laneGather op legal i s).Canon := Desc.run_canon h h

theorem laneFspawn_canon (h : s.Canon) : (laneFspawn op legal i s).Canon := Desc.run_canon h h

theorem laneFmark_canon (h : s.Canon) : (laneFmark op legal i s).Canon := Desc.run_canon h (State.ite_canon h h)

theorem uniSbr_canon (h : s.Canon) : (uniSbr op legal i s).Canon := Desc.runU_canon h h

theorem uniJump_canon {D : Desc} {t : DWord} (h : s.Canon) : (uniJump D t s).Canon := Desc.runU_canon h (Res.ite_canon trivial h)

theorem uniNop_canon (h : s.Canon) : (uniNop op o s).Canon := Desc.runU_canon h h

theorem uniPause_canon (h : s.Canon) : (uniPause op legal o s).Canon := Desc.runU_canon h h

theorem uniYield_canon (h : s.Canon) : (uniYield op legal o s).Canon := Desc.runU_canon h h

theorem uniSys_canon {base : Nat} (h : s.Canon) : (uniSys base o s).Canon := Desc.runU_canon h trivial

theorem uniEret_canon (h : s.Canon) : (uniEret o s).Canon := Desc.runU_canon h (Res.ite_canon h trivial)

theorem uniCconn_canon (h : s.Canon) : (uniCconn op legal o s).Canon := Desc.runU_canon h (Res.ite_canon trivial h)

theorem uniRdsr_canon (h : s.Canon) : (uniRdsr o s).Canon := Desc.runU_canon h (State.setS_canon h)

/-! ## Events -/

theorem releaseGather_canon {uid frame : Nat} {pc : DWord} (h : s.Canon) : (releaseGather uid pc frame s).Canon := State.ite_canon h h

theorem pauseEnd_canon {uid frame : Nat} {pc : DWord} (h : s.Canon) : (pauseEnd uid pc frame s).Canon := h

end Sys2Proof.Machine
end

section
/-! The canonical form of memory under every instruction and event, and under a step (R1, R188, R189). -/

namespace Sys2Proof.Machine

variable {s : State}

/-- An instruction or event leaves memory in canonical form. -/
theorem exec_canon (i : Instr) (h : s.Canon) : NextCanon (exec i s) := by
  cases i with
  | addLS _ | addLL _ | addLI _ | subLS _ | subLL _ | subLI _ | mulLS _ | mulLL _ | mulLI _ | madLL _ | minLS _ | minLL _ | minLI _
  | maxLS _ | maxLL _ | maxLI _ | andLS _ | andLL _ | andLI _ | orLS _ | orLL _ | orLI _ | xorLS _ | xorLL _ | xorLI _ | andnLS _
  | andnLL _ | andnLI _ | notLS _ | notLL _ | negLS _ | negLL _ | absLS _ | absLL _ | shlLS _ | shlLL _ | shlLI _ | shrLS _ | shrLL _
  | shrLI _ | sarLS _ | sarLL _ | sarLI _ | rotLS _ | rotLL _ | rotLI _ | clzLS _ | clzLL _ | ctzLS _ | ctzLL _ | popcLS _ | popcLL _
  | brevLS _ | brevLL _ | bfxLS _ | bfxLL _ | bfxLI _ | bfiLL _ | selLL _ | movLS _ | movLL _ | moviLI _ | shflLS _ _ | shflLL _
  | shflLI _ | voteLL _ | bcastLS _ | bcastLL _ | lidLS _ | lidLL _ | vtagLS _ | vtagLL _ | addrLS _ _ | addrLL _ | addrLI _ | icvtLL _
  | icvtLI _ => exact Desc.lanewise_canon h
  | divLS _ | divLL _ | divLI _ | remLS _ | remLL _ | remLI _ => exact laneDiv_canon h
  | cmpLS _ | cmpLL _ | cmpLI _ => exact laneCmp_canon h
  | faddLS _ | faddLL _ | faddLI _ | fsubLS _ | fsubLL _ | fsubLI _ | fmulLS _ | fmulLL _ | fmulLI _ | fmaLL _ | fdivLS _ | fdivLL _
  | fsqrtLS _ | fsqrtLL _ | fminLS _ | fminLL _ | fminLI _ | fmaxLS _ | fmaxLL _ | fmaxLI _ | fminnLS _ | fminnLL _ | fminnLI _
  | fmaxnLS _ | fmaxnLL _ | fmaxnLI _ | fminmLL _ | fminmLI _ | fmaxmLL _ | fmaxmLI _ | fabsLS _ | fabsLL _ | fnegLS _ | fnegLL _
  | fcpysLS _ | fcpysLL _ | fclassLS _ | fclassLL _ | frintLS _ | frintLL _ | fexpiLS _ | fexpiLL _ | fexpiLI _ | fexpxLS _ | fexpxLL _
  | fexp2fLS _ | fexp2fLL _ | flog2fLS _ | flog2fLL _ | fsinpifLS _ | fsinpifLL _ | fcospifLS _ | fcospifLL _ | fseedrLS _ | fseedrLL _
  | fseedqLS _ | fseedqLL _ => exact laneFloat_canon h
  | fcmpLS _ | fcmpLL _ | fcmpLI _ => exact laneFcmp_canon h
  | fcvtLL _ => exact laneFcvt_canon h
  | fcvtiLS _ | fcvtiLL _ => exact laneFcvti_canon h
  | icvtfLS _ | icvtfLL _ => exact laneIcvtf_canon h
  | ldLS _ _ | ldLL _ | ldLI _ => exact laneLoad_canon h
  | stLS _ _ | stLL _ | stLI _ => exact laneStore_canon h
  | ldsLS _ _ | ldsLL _ | ldsLI _ => exact laneLds_canon h
  | stsLS _ _ | stsLL _ | stsLI _ => exact laneSts_canon h
  | prefLS _ | prefLL _ => exact lanePref_canon h
  | dscLS _ | dscLL _ => exact laneRange_canon h fun _ _ hz => State.discardLine_canon hz _
  | cwbLS _ | cwbLL _ => exact laneRange_canon h fun _ _ hz => State.cleanLine_canon hz _
  | atomLL _ => exact laneAtom_canon h
  | casLL _ => exact laneCas_canon h
  | redLL _ => exact laneRed_canon h
  | braLI _ => exact laneBra_canon h
  | gatherLI _ => exact laneGather_canon h
  | fspawnLI _ => exact laneFspawn_canon h
  | fexitLS _ => exact laneFexit_canon h
  | callLI _ => exact laneCall_canon h
  | retLS _ => exact laneRet_canon h
  | fmarkLI _ => exact laneFmark_canon h
  | unwindLS _ => exact laneUnwind_canon h
  | brxLS _ | brxLL _ => exact laneBrx_canon h
  | mreadLL _ => exact laneMread_canon h
  | mwriteLL _ => exact laneMwrite_canon h
  | mtkreadLL _ => exact laneMtkread_canon h
  | saddUS _ | saddUL _ | saddUI _ | ssubUS _ | ssubUL _ | ssubUI _ | smulUS _ | smulUL _ | smulUI _ | sminUS _ | sminUL _ | sminUI _
  | smaxUS _ | smaxUL _ | smaxUI _ | sandUS _ | sandUL _ | sandUI _ | sorUS _ | sorUL _ | sorUI _ | sxorUS _ | sxorUL _ | sxorUI _
  | sandnUS _ | sandnUL _ | sandnUI _ | sshlUS _ | sshlUL _ | sshlUI _ | sshrUS _ | sshrUL _ | sshrUI _ | ssarUS _ | ssarUL _
  | ssarUI _ | srotUS _ | srotUL _ | srotUI _ | sclzUS _ | sclzUL _ | sctzUS _ | sctzUL _ | spopcUS _ | spopcUL _ | sselUL _ | smovUS _
  | smovUL _ | smoviUI _ | sbfxUS _ | sbfxUL _ | sbfxUI _ => exact Desc.scalar_canon h
  | sdivUS _ | sdivUL _ | sdivUI _ | sremUS _ | sremUL _ | sremUI _ => exact uniDiv_canon h
  | scmpUS _ | scmpUL _ | scmpUI _ => exact uniCmp_canon h
  | sgetUS _ | sgetUL _ => exact uniSget_canon h
  | sfaddUS _ | sfaddUL _ | sfaddUI _ | sfsubUS _ | sfsubUL _ | sfsubUI _ | sfmulUS _ | sfmulUL _ | sfmulUI _ | sfmaUL _ | sfdivUS _
  | sfdivUL _ | sfsqrtUS _ | sfsqrtUL _ => exact uniFloat_canon h
  | sfcmpUS _ | sfcmpUL _ | sfcmpUI _ => exact uniFcmp_canon h
  | sfcvtUL _ => exact uniFcvt_canon h
  | sldUS _ _ | sldUL _ | sldUI _ => exact uniLoad_canon h
  | sstUS _ _ | sstUL _ | sstUI _ => exact uniStore_canon h
  | satomUL _ => exact uniAtom_canon h
  | scasUL _ => exact uniCas_canon h
  | cpUL _ | cpmUL _ => exact uniCopy_canon h
  | twaitUS _ | twaitUI _ => exact uniTwait_canon h
  | ttestUS _ | ttestUI _ => exact uniTtest_canon h
  | cconnUS _ => exact uniCconn_canon h
  | tsendUL _ | trecvUL _ => exact uniTile_canon h
  | fenceUS _ => exact uniFence_canon h
  | xfenceUS _ => exact uniXfence_canon h
  | sgangUS _ => exact uniSgang_canon h
  | mmaUL _ | mdistUL _ => exact uniMat_canon h
  | mtopkUL _ => exact uniMtopk_canon h
  | mzeroUS _ => exact uniMzero_canon h
  | mflagUS _ _ => exact uniMflag_canon h
  | barUS _ _ => exact uniBar_canon h
  | barriveUS _ => exact uniBarrive_canon h
  | bwaitUS _ => exact uniBwait_canon h
  | qinitUS _ => exact uniQinit_canon h
  | qallowUS _ => exact uniQallow_canon h
  | qpushUS _ _ => exact uniQpush_canon h
  | qpopUS _ _ => exact uniQpop_canon h
  | cinitUL _ => exact uniCinit_canon h
  | cdropUS _ | cexactUS _ => exact uniCexact_canon h
  | ctakeUS _ | ctakeUL _ | ctakeUI _ => exact uniCtake_canon h
  | cgiveUS _ | cgiveUL _ | cgiveUI _ => exact uniCgive_canon h
  | subscribeUS _ | subscribeUL _ => exact uniSubscribe_canon h
  | unsubUS _ => exact uniUnsub_canon h
  | sflushUS _ => exact uniSflush_canon h
  | carveUS _ => exact uniCarve_canon h
  | sbrUI _ => exact uniSbr_canon h
  | sjmpUS _ | sbrxUS _ => exact uniJump_canon h
  | slaunchUL _ => exact uniSlaunch_canon h
  | ssignalUS _ => exact uniSsignal_canon h
  | nopUS _ => exact uniNop_canon h
  | pauseUS _ => exact uniPause_canon h
  | yieldUS _ => exact uniYield_canon h
  | haltUS _ => exact uniHalt_canon h
  | sysUS _ | trapUS _ => exact uniSys_canon h
  | fresumeUS _ => exact uniFresume_canon h
  | fkillUS _ => exact uniFkill_canon h
  | pmapUS _ => exact uniPmap_canon h
  | rdsrUS _ => exact uniRdsr_canon h
  | wrsrUS _ => exact uniWrsr_canon h
  | eretUS _ => exact uniEret_canon h
  | msendUS _ => exact uniMsend_canon h
  | mrecvUS _ => exact uniMrecv_canon h
  | ckbeginUS _ => exact uniCkbegin_canon h
  | ckshardUL _ => exact uniCkshard_canon h
  | ckcommitUS _ => exact uniCkcommit_canon h
  | linkctlStatus _ | linkctlPause _ | linkctlRepair _ | linkctlRetrain _ | linkctlResume _ => exact uniLinkctl_canon h
  | tlbctlUS _ => exact uniTlbctl_canon h
  | reservedWord _ _ => exact reservedWord_canon h
  | lqctl _ _ => exact lqctlWrite_canon h
  | keycmdProgram _ | keycmdErase _ => exact State.ite_canon (State.keyCommand_canon h) h
  | latecntClear _ => exact State.ite_canon h h
  | rhmapClear _ _ | thermalHold | thermalTrip | l2BypassRead _ _ | curatorTimer _ _ | flitRetry _ | linkDetour _ | heartbeat _
  | softErrorCorrection _ | temperatureFalls | flitAcknowledged _ => exact h
  | registerWrite _ _ _ => exact registerWrite_canon h
  | powerOn => exact powerOn_canon h
  | imageRefetch => exact imageRefetch_canon h
  | permitGrant _ => exact permitGrant_canon h
  | registrarBind _ => exact registrarAct_canon h
  | volumeStart _ _ => exact startVolume_canon h
  | preemptSave _ => exact preemptSave_canon h
  | restore _ _ _ => exact restoreUnit_canon h
  | gatherRelease _ _ _ => exact releaseGather_canon h
  | frameArchive _ _ => exact archiveFrame_canon h
  | frameRefill _ _ => exact refillFrame_canon h
  | carveApply _ => exact carveApply_canon h
  | matrixChunk _ => exact matrixChunk_canon h
  | copySegment _ => exact copySegment_canon h
  | tileDelivery _ _ => exact tileDelivery_canon h
  | inboundWrite _ => exact inboundWrite_canon h _
  | counterHomeRequest _ => exact counterHomeRequest_canon h
  | redPartialEviction _ => exact redPartialEviction_canon h
  | redRecall _ => exact State.recallLine_canon h _
  | peerProbe _ _ _ => exact peerProbe_canon h
  | lineFill _ _ => exact lineFill_canon h
  | lineWriteBack _ _ => exact lineWriteBack_canon h
  | faultRecord _ => exact faultRecord_canon h
  | handlerFolioStart _ _ _ => exact handlerFolioStart_canon h
  | curatorTrapEntry _ _ => exact curatorTrapEntry_canon h
  | pauseEnd _ _ _ => exact pauseEnd_canon h
  | reachTimeout _ _ => exact reachTimeout_canon h
  | sequencerTimeout _ => exact sequencerTimeout_canon h
  | sequencerNumber _ => exact sequencerNumber_canon h
  | heartbeatMiss _ _ => exact heartbeatMiss_canon h
  | evict _ => exact evictNext_canon h
  | evictionDiscovered _ => exact evictionDiscovered_canon h
  | admission _ => exact admitNext_canon h
  | inval _ _ => exact invalAt_canon h
  | ack _ _ => exact ackAt_canon h
  | ckshardCompletion _ => exact ckshardCompletion_canon h
  | dieFailure _ => exact dieFailure_canon h
  | rv64MemoryAccess _ => exact rv64MemoryAccess_canon h
  | uncorrectableError _ => exact uncorrectableError_canon h

/-! ## A batch that issues -/

theorem runWords_canon {w0 w1 : Word} (h : s.Canon) : NextCanon (runWords w0 w1 s) := by
  unfold runWords; dsimp only
  split
  · exact exec_canon _ (s := { s with word := (w0, w1) }) h
  · exact exec_canon _ (s := { s with word := (w0, w1) }) h

theorem runBatch_canon (h : s.Canon) : NextCanon (runBatch s) := by
  unfold runBatch
  split
  · exact runWords_canon h
  · split
    · exact State.fetchTrap_canon h
    · exact State.canon_of_mem h (State.block_mem s _ _ _)
    · next t _ =>
      exact runWords_canon (State.canon_of_mem (State.canon_of_mem h (State.cacheTarget_mem s s.q.fid .core t))
        (State.touchCore_mem _ .l1 false t))

theorem State.passOver_canon {uid : Nat} (h : s.Canon) : (s.passOver uid).Canon := by
  unfold State.passOver; dsimp only
  split
  · exact h
  · exact h

theorem State.prepare_canon {uid frame : Nat} {pc : DWord} (h : s.Canon) : (s.prepare uid pc frame).Canon := by
  unfold State.prepare
  exact State.canon_of_mem (State.focus_canon (uid := uid) (State.passOver_canon (uid := uid) h)) rfl

/-! ## A step -/

theorem State.run_canon {p : Pick} (h : s.Canon) : NextCanon (s.run p) := by
  cases p with
  | input i => exact exec_canon i (s := { s with inputs := s.inputs.tail }) h
  | event i => exact exec_canon i h
  | land i => cases e : s.performAt i with
    | none => simpa [State.run, e, NextCanon] using h
    | some t => simpa [State.run, e, NextCanon] using State.performAt_canon h e
  | issue uid pc frame => exact runBatch_canon (State.prepare_canon h)

theorem step_canon (h : s.Canon) : NextCanon (step s) := by
  unfold step
  refine NextCanon.ite trivial ?_
  split
  · exact State.after_canon h
  · next p _ =>
    have hr : NextCanon (s.run p) := State.run_canon h
    split
    · next e => exact State.after_canon (by rw [e] at hr; exact hr)
    · exact hr

end Sys2Proof.Machine
end

section
/-! The obligation about the canonical form of memory (R1, R188). -/

namespace Sys2Proof.Claims

open Sys2Proof.Machine

/-- Settles O58: what every instruction, event and landing store keeps, and what follows a step keeps, every step keeps. -/
theorem stepKeepsMemory : Obligations.StepKeepsMemory := by
  unfold Obligations.StepKeepsMemory
  intro s t h e
  have hs : NextCanon (step s) := step_canon h
  rw [e] at hs
  exact hs

end Sys2Proof.Claims
end

section
/-! How a word with memory accesses ends: its effect, behind its release where it has one, a wait, or the trap of R204 (R204, R207). -/

namespace Sys2Proof.Claims

open Sys2Proof.Machine

variable {i : Instr} {D : Desc} {s t : State} {eas : List (Nat × Nat)} {check : Nat → Except Nat Target} {n : Nat} {reads : Bool}
  {effect : State → List Access → Res} {xs : List Access}

theorem blocks_of_run {k : WaitKind} (clear : D.clear s) (run : exec i s = .next (D.run s (.wait t k))) : Blocks i k D.len s t :=
  ⟨D.trap s 0 (laneMask (D.fibres s)), rfl, rfl, by rw [run, Desc.run_wait clear]⟩

/-- A word that has a release blocks while that cannot complete, and otherwise its effect runs in the state behind it. -/
theorem behind_of_run {ord : Bool} {scope : Nat} {effect : State → Res} {P : State → Prop} (clear : D.clear s)
    (run : exec i s = .next (D.run s (t.behindRelease ord scope effect)))
    (hP : ∀ u, exec i s = .next (D.run s (effect u)) → P u) : Behind i D.len ord scope s t P := by
  cases ord with
  | false => exact ⟨fun h => Bool.noConfusion h, fun _ => hP t run⟩
  | true =>
    refine ⟨fun held => blocks_of_run clear ?_, fun free => hP (t.releaseAt scope) ?_⟩
    · simpa [State.behindRelease, show t.releaseBlocked t.q.uid t.fol.die scope = true from held] using run
    · simpa [State.behindRelease, show t.releaseBlocked t.q.uid t.fol.die scope = false from free] using run

/-- Accesses that pass and that nothing hinders: the effect runs. -/
theorem run_of_reaches (run : exec i s = D.access s eas check n reads effect) (clear : D.clear s)
    (executes : D.uni = false ∨ s.kActive D.pr D.neg = true) (reach : Reaches s eas check n reads xs) :
    exec i s = .next (D.run s (effect (s.cacheAll xs) xs)) := by
  obtain ⟨passed, free⟩ := reach
  exact run.trans (Desc.access_ok clear.1 executes passed (Option.isNone_iff_eq_none.mp free))

/-- A uniform word under a false predicate makes no access and only advances (R54). -/
theorem done_of_idle (run : exec i s = D.access s eas check n reads effect) (clear : D.clear s) (uniform : D.uni = true)
    (idle : s.kActive D.pr D.neg = false) : Done i D.len s s :=
  done_of_run clear rfl (run.trans (Desc.access_idle (.inr ⟨uniform, idle⟩)))

/-- An access that fails its check: the word traps with its cause, its lanes and its address, and does nothing else (R204). -/
theorem traps_of_access {c : Nat} {lanes : Word} {ea : DWord} (run : exec i s = D.access s eas check n reads effect) (clear : D.clear s)
    (executes : D.uni = false ∨ s.kActive D.pr D.neg = true) (fails : checkAll eas check = .error (c, lanes, ea)) :
    Traps i c (if D.uni then laneMask s.batch else lanes) ea s :=
  traps_of_run clear (run.trans (Desc.access_error clear.1 executes fails))

end Sys2Proof.Claims
end

section
/-! The loads and stores as accesses with an effect (R203, R208 to R210). -/

namespace Sys2Proof.Machine

open Sys2Proof.Claims (laneEas uniEa laneElem)

variable {op : Nat} {legal : Bool} {x : MArgs} {y : UMArgs} {s : State}

/-- The description that a load of the lanes with `w`-bit addresses runs. -/
def loadDesc (op : Nat) (legal : Bool) (w : Nat) (x : MArgs) (s : State) : Desc :=
  x.desc s op legal (.dst x.d (mtWidth x.mt) :: x.uses w) w (.lane x.d (mtWidth x.mt) (some .mem))

/-- The description that a store of the lanes with `w`-bit addresses runs. -/
def storeDesc (op : Nat) (legal : Bool) (w : Nat) (x : MArgs) (s : State) : Desc :=
  { x.desc s op legal (.src x.d (mtWidth x.mt) :: x.uses w) w .nothing with c := .vals (x.data s (mtWidth x.mt)) }

/-- The description that `sld` runs. -/
def loadDescU (op : Nat) (legal : Bool) (y : UMArgs) (s : State) : Desc := y.desc s op legal (.sreg y.d (if y.mt = 6 then 128 else 64))

/-- The description that `sst` runs. -/
def storeDescU (op : Nat) (legal : Bool) (y : UMArgs) (s : State) : Desc := { y.desc s op legal .nothing with c := .sreg y.d }

/-- The lanes' accesses are read, and their destination and `lmem` written. -/
def State.loadLanes (s : State) (x : MArgs) (hint : Nat) (xs : List Access) : State :=
  let r := s.loads (mtBytes x.mt) hint xs
  r.2.writeLanes x.d (mtWidth x.mt) (some .mem) (r.1.map (fun y => (y.1, mtExtend x.mt y.2)))

/-- The element of every lane that the batch has in state `s` is written by its access. -/
def State.storeLanes (t s : State) (x : MArgs) (hint : Nat) (xs : List Access) (rel : Option Nat) : State :=
  t.storeAll (mtBytes x.mt) hint xs (fun l => laneElem s l x.d (mtWidth x.mt)) rel

/-- The access of a uniform load is read, and its data register written. -/
def State.loadReg (s : State) (y : UMArgs) (xs : List Access) : State :=
  let r := s.loads (umtBytes y.mt) y.hint xs
  r.2.setData y.d (y.mt = 6) (match r.1 with | v :: _ => umtExtend y.mt v.2 | [] => 0)

/-- What a uniform load does with the one access that it has. -/
theorem State.loadReg_one (s : State) (y : UMArgs) (z : Access) : s.loadReg y [z] =
    let r := (s.startReads s.q.uid).loadOne (umtBytes y.mt) y.hint z
    r.2.setData y.d (y.mt = 6) (umtExtend y.mt r.1) := rfl

/-- Caching leaves leaves the parties as they are. -/
@[simp] theorem State.cacheAll_parties (s : State) (xs : List Access) : (s.cacheAll xs).parties = s.parties := by
  have leaf : ∀ (t : State) (d asid : Nat) (ps : List TlbPlace) (x : Leaf), (t.cacheLeaf d asid ps x).parties = t.parties :=
    fun t d asid ps x => State.foldl_keeps State.parties (fun t p => by dsimp only; split <;> rfl) ps t
  refine State.foldl_keeps State.parties (fun t x => ?_) xs s
  unfold State.cacheTarget
  split
  · exact leaf t _ _ _ _
  · exact leaf t _ _ _ _
  · rfl

theorem State.cacheAll_q (s : State) (xs : List Access) : (s.cacheAll xs).q = s.q :=
  congrArg Prod.fst (s.cacheAll_parties xs)

/-- The element that a lane brings, as the model looks it up. -/
theorem laneElem_eq (s : State) (l : Nat) (d : Name) (w : Nat) :
    (match s.batch.find? (fun f => f.lane = l) with | some f => s.rd f d w | none => 0) = laneElem s l d w := by
  unfold laneElem
  cases s.batch.find? (fun f => f.lane = l) <;> rfl

theorem laneLoad_eq : laneLoad op legal x s = (loadDesc op legal 64 x s).access s (laneEas x s 64)
    (fun ea => s.memCheck s.q.fid ea (mtBytes x.mt) .read) (mtBytes x.mt) true
    (fun t xs => .done (if x.ord then (t.loadLanes x x.hint xs).acquire x.scope else t.loadLanes x x.hint xs)) := rfl

theorem laneLds_eq : laneLds op legal x s = (loadDesc op legal 32 x s).access s (laneEas x s 32)
    (s.offsetCheck x.rem (mtBytes x.mt)) (mtBytes x.mt) true (fun t xs => .done (t.loadLanes x 0 xs)) := rfl

theorem laneStore_eq : laneStore op legal x s = (storeDesc op legal 64 x s).access s (laneEas x s 64)
    (fun ea => s.memCheck s.q.fid ea (mtBytes x.mt) .write) (mtBytes x.mt) false
    (fun t xs => t.behindRelease x.ord x.scope (fun u => .done (u.storeLanes s x x.hint xs (if x.ord then some x.scope else none)))) :=
  congrArg (fun v => (storeDesc op legal 64 x s).access s (laneEas x s 64) (fun ea => s.memCheck s.q.fid ea (mtBytes x.mt) .write)
    (mtBytes x.mt) false (fun t xs => t.behindRelease x.ord x.scope (fun u =>
      .done (u.storeAll (mtBytes x.mt) x.hint xs v (if x.ord then some x.scope else none)))))
    (funext (laneElem_eq s · x.d (mtWidth x.mt)))

theorem laneSts_eq : laneSts op legal x s = (storeDesc op legal 32 x s).access s (laneEas x s 32)
    (s.offsetCheck x.rem (mtBytes x.mt)) (mtBytes x.mt) false (fun t xs => .done (t.storeLanes s x 0 xs none)) :=
  congrArg (fun v => (storeDesc op legal 32 x s).access s (laneEas x s 32) (s.offsetCheck x.rem (mtBytes x.mt)) (mtBytes x.mt) false
    (fun t xs => .done (t.storeAll (mtBytes x.mt) 0 xs v))) (funext (laneElem_eq s · x.d (mtWidth x.mt)))

theorem uniLoad_eq : uniLoad op legal y s = (loadDescU op legal y s).access s [(0, uniEa y s)]
    (fun ea => s.memCheck s.q.fid ea (umtBytes y.mt) .read) (umtBytes y.mt) true
    (fun t xs => .done (if y.ord then (t.loadReg y xs).acquire y.scope else t.loadReg y xs)) := rfl

theorem uniStore_eq : uniStore op legal y s = (storeDescU op legal y s).access s [(0, uniEa y s)]
    (fun ea => s.memCheck s.q.fid ea (umtBytes y.mt) .write) (umtBytes y.mt) false
    (fun t xs => t.behindRelease y.ord y.scope (fun u =>
      .done (u.storeAll (umtBytes y.mt) y.hint xs (fun _ => s.getData y.d (y.mt = 6)) (if y.ord then some y.scope else none)))) := rfl

end Sys2Proof.Machine

namespace Sys2Proof.Claims

open Sys2Proof.Machine

variable {i : Instr} {s : State} {x : MArgs} {y : UMArgs}

/-! ## Loads -/

theorem loads_of_laneLoad (run : exec i s = laneLoad 0x20 i.wf x s) : Loads i x s := by
  intro passes xs reach
  have clear : (loadDesc 0x20 i.wf 64 x s).clear s := passes.clear rfl rfl
  exact done_of_run clear rfl (run_of_reaches (run.trans laneLoad_eq) clear (.inl rfl) reach)

theorem loadsScratch_of_laneLds (run : exec i s = laneLds 0x22 i.wf x s) : LoadsScratch i x s := by
  intro passes xs reach
  have clear : (loadDesc 0x22 i.wf 32 x s).clear s := passes.clear rfl rfl
  exact done_of_run clear rfl (run_of_reaches (run.trans laneLds_eq) clear (.inl rfl) reach)

theorem loadsU_of_uniLoad (run : exec i s = uniLoad 0x10 i.wf y s) : LoadsU i y s := by
  intro passes
  have clear : (loadDescU 0x10 i.wf y s).clear s := passes.clear rfl rfl
  refine ⟨fun idle => done_of_idle (run.trans uniLoad_eq) clear rfl idle, fun active z reach => ?_⟩
  have ran := run_of_reaches (run.trans uniLoad_eq) clear (.inr active) reach
  simp only [State.loadReg_one, State.cacheAll_q] at ran
  exact done_of_run clear rfl ran

/-- Settles O12: each load is the lane or uniform load of its fields, whose accesses are read once all of them have passed. -/
theorem loadResults : Obligations.LoadResults := fun _ =>
  ⟨fun _ _ => ⟨loads_of_laneLoad rfl, loadsScratch_of_laneLds rfl, loadsU_of_uniLoad rfl⟩,
    fun _ => ⟨loads_of_laneLoad rfl, loadsScratch_of_laneLds rfl, loadsU_of_uniLoad rfl⟩,
    fun _ => ⟨loads_of_laneLoad rfl, loadsScratch_of_laneLds rfl, loadsU_of_uniLoad rfl⟩⟩

/-! ## Stores -/

theorem stores_of_laneStore (run : exec i s = laneStore 0x21 i.wf x s) : Stores i x s := by
  intro passes xs reach
  have clear : (storeDesc 0x21 i.wf 64 x s).clear s := passes.clear rfl rfl
  exact behind_of_run clear (run_of_reaches (run.trans laneStore_eq) clear (.inl rfl) reach) (fun _ ran => done_of_run clear rfl ran)

theorem storesScratch_of_laneSts (run : exec i s = laneSts 0x23 i.wf x s) : StoresScratch i x s := by
  intro passes xs reach
  have clear : (storeDesc 0x23 i.wf 32 x s).clear s := passes.clear rfl rfl
  exact done_of_run clear rfl (run_of_reaches (run.trans laneSts_eq) clear (.inl rfl) reach)

theorem storesU_of_uniStore (run : exec i s = uniStore 0x11 i.wf y s) : StoresU i y s := by
  intro passes
  have clear : (storeDescU 0x11 i.wf y s).clear s := passes.clear rfl rfl
  refine ⟨fun idle => done_of_idle (run.trans uniStore_eq) clear rfl idle, fun active z reach => ?_⟩
  refine behind_of_run clear (run_of_reaches (run.trans uniStore_eq) clear (.inr active) reach) (fun u ran => ?_)
  simp only [State.getData, decide_eq_true_eq] at ran
  exact done_of_run clear rfl ran

/-- Settles O13: each store is the lane or uniform store of its fields, whose accesses are written once all of them have passed and, with
ORD, behind the release. -/
theorem storeResults : Obligations.StoreResults := fun _ =>
  ⟨fun _ _ => ⟨stores_of_laneStore rfl, storesScratch_of_laneSts rfl, storesU_of_uniStore rfl⟩,
    fun _ => ⟨stores_of_laneStore rfl, storesScratch_of_laneSts rfl, storesU_of_uniStore rfl⟩,
    fun _ => ⟨stores_of_laneStore rfl, storesScratch_of_laneSts rfl, storesU_of_uniStore rfl⟩⟩

end Sys2Proof.Claims
end

section
/-! Addresses, prefetches, and the lines of ranges (R212 to R214). -/

namespace Sys2Proof.Machine

open Sys2Proof.Claims (laneEas levelOf)

variable {op : Nat} {legal : Bool} {x : MArgs} {s : State}

theorem laneAddr_eq : laneAddr op legal x s = (x.desc s op legal (.dst x.d 64 :: x.uses 64) 64 (.lane x.d 64 (some .int))).run s
    (.done (s.writeLanes x.d 64 (some .int) (laneEas x s 64))) := rfl

/-! ## Prefetches (R213) -/

theorem prefLevel_eq (x : MArgs) : prefLevel x = levelOf (x.scope % 4) := by
  unfold prefLevel levelOf
  have : x.scope % 4 < 4 := Nat.mod_lt _ (by decide)
  match x.scope % 4, this with
  | 0, _ => rfl
  | 1, _ => rfl
  | 2, _ => rfl
  | 3, _ => rfl

/-- What a `pref` does with a line that can be reached. -/
def State.prefetch (z s : State) (x : MArgs) (t : Target) : State :=
  ((z.cacheTarget s.q.fid .core t).touchCore (prefLevel x) false (t.hinted x.hint)).recallFor s.fol.die (t.hinted x.hint)

/-- Only a line of memory that can be reached is prefetched. -/
theorem lanePref_eq : lanePref op legal x s = (x.desc s op legal (x.uses 64) 64 .nothing).run s
    (.done ((laneEas x s 64).foldl (fun (z : State) a =>
      match s.route s.q.fid a.2 .read with
      | .ok (.mem t pa) => z.prefetch s x (.mem t pa)
      | _ => z) s)) := by
  have step : ∀ (fs : List Fibre) (z : State),
      (fs.filterMap (fun f => match s.route s.q.fid (x.ea s 64 f) .read with
        | .ok (.mem t pa) => some (Target.mem t pa)
        | _ => none)).foldl (fun z t => z.prefetch s x t) z
      = (fs.map (fun f => (f.lane, x.ea s 64 f))).foldl (fun (z : State) a =>
        match s.route s.q.fid a.2 .read with
        | .ok (.mem t pa) => z.prefetch s x (.mem t pa)
        | _ => z) z := by
    intro fs
    induction fs with
    | nil => exact fun z => rfl
    | cons f fs ih =>
      intro z
      rw [List.map_cons, List.foldl_cons, List.filterMap_cons, ← ih]
      cases s.route s.q.fid (x.ea s 64 f) .read with
      | error c => rfl
      | ok t => cases t <;> rfl
  exact congrArg (fun u => (x.desc s op legal (x.uses 64) 64 .nothing).run s (.done u)) (step (s.active x.pr x.neg) s)

/-! ## Ranges (R213, R214) -/

/-- The description that `dsc` and `cwb` run. -/
def rangeDesc (op : Nat) (legal : Bool) (x : MArgs) (len : Name) (s : State) : Desc :=
  let y := { x with index := none }
  { y.desc s op legal (y.uses 64 ++ [.src len 32]) 64 .nothing with b := .name len }

theorem filterMap_eq_nil_of_none {α β : Type} (xs : List α) : xs.filterMap (fun _ => (none : Option β)) = [] :=
  List.filterMap_eq_nil_iff.mpr (fun _ _ => rfl)

/-- Ranges that pass, with lines that nothing hinders: the operation acts on every line of every lane's range. -/
theorem laneRange_of_passed {acc : Acc} {len : Name} {line : State → Target → State} {ts : Fibre → List Target}
    (uncaused : (rangeDesc op legal x len s).cause s = none)
    (passed : ∀ f ∈ s.active x.pr x.neg, s.rangeCheck (({ x with index := none } : MArgs).ea s 64 f) (s.rd f len 32) acc = .ok (ts f)) :
    let xs := (s.active x.pr x.neg).flatMap (fun f => (ts f).map (fun t => ({ lane := f.lane, ea := 0, t := t } : Access)))
    s.hindrance xs 64 false = none → laneRange op legal acc x len line s = .next ((rangeDesc op legal x len s).run s
      (.done (xs.foldl (fun (z : State) a => line z a.t) (s.cacheAll xs)))) := by
  intro xs free
  have checks : (s.active x.pr x.neg).map (fun f => (f, s.rangeCheck (({ x with index := none } : MArgs).ea s 64 f) (s.rd f len 32) acc))
      = (s.active x.pr x.neg).map (fun f => (f, Except.ok (ts f))) :=
    List.map_congr_left (fun f hf => by rw [passed f hf])
  show (if ((rangeDesc op legal x len s).cause s).isSome then _ else _) = _
  rw [uncaused, Option.isSome_none, if_neg Bool.false_ne_true]
  dsimp only
  rw [checks]
  simp only [List.filterMap_map, List.flatMap_map, Function.comp_def, filterMap_eq_nil_of_none]
  rw [show s.hindrance (List.flatMap _ (s.active x.pr x.neg)) 64 false = none from free]
  rfl

end Sys2Proof.Machine

namespace Sys2Proof.Claims

open Sys2Proof.Machine

variable {i : Instr} {s : State} {x : MArgs}

theorem addresses_of_laneAddr (run : exec i s = .next (laneAddr 0x2B i.wf x s)) : Addresses i x s := fun passes =>
  lane_done_of_run passes (run.trans (congrArg _ laneAddr_eq)) rfl rfl rfl

theorem prefetches_of_lanePref (run : exec i s = .next (lanePref 0x24 i.wf x s)) : Prefetches i x s := by
  intro passes
  rw [lanePref_eq] at run
  simp only [State.prefetch, prefLevel_eq] at run
  exact lane_done_of_run passes run rfl rfl rfl

theorem ranges_of_laneRange {acc : Acc} {line : State → Target → State} {len : Name}
    (run : exec i s = laneRange 0x24 i.wf acc x len line s) : Ranges i acc line x len s := by
  intro passes ts passed xs free
  have clear : (rangeDesc 0x24 i.wf x len s).clear s := passes.clear rfl rfl
  exact done_of_run clear rfl (run.trans (laneRange_of_passed clear.1 passed (Option.isNone_iff_eq_none.mp free)))

/-- Settles O14: `addr` writes the addresses that it computes, `pref` acts on the lines that can be reached, and `dsc` and `cwb` act on
every line of the ranges once all of them have passed. -/
theorem addressInstructions : Obligations.AddressInstructions := fun _ =>
  ⟨fun _ _ => addresses_of_laneAddr rfl,
    fun _ => ⟨prefetches_of_lanePref rfl, ranges_of_laneRange rfl, ranges_of_laneRange rfl⟩,
    fun _ => ⟨addresses_of_laneAddr rfl, prefetches_of_lanePref rfl, ranges_of_laneRange rfl, ranges_of_laneRange rfl⟩,
    fun _ => addresses_of_laneAddr rfl⟩

end Sys2Proof.Claims
end

section
/-! What `cp` and `cpm` capture, and how they begin (R215, R216). -/

namespace Sys2Proof.Machine

variable {opc : Nat} {multi legal : Bool} {o : LF} {s : State}

/-- The side from which a copy reads. -/
def State.copySrc (s : State) (o : LF) : Side := ⟨s.q.sreg o.a.toNat, s.q.sreg (o.a.toNat + 2)⟩

/-- The side to which it writes. -/
def State.copyDst (s : State) (o : LF) : Side := ⟨s.q.sreg (o.a.toNat + 1), s.q.sreg (o.a.toNat + 3)⟩

/-- The palette slot whose swizzle a copy uses, 0 for none. -/
def State.copySlot (s : State) (o : LF) : QWord := if fieldOf o.modh 4 3 = 0 then 0 else s.slot (fieldOf o.modh 7 5)

/-- The description that `cp` and `cpm` run. -/
def copyDesc (opc : Nat) (multi legal : Bool) (o : LF) (s : State) : Desc :=
  { uni := true, op := opc, len := 8, pr := o.pr, neg := o.neg, legal := legal && (fieldOf o.modh 4 3 = 0 || s.copySlot o ≠ 0)
    uses := [.sgroup o.a.toNat 4, .sreg o.b.toNat] ++ (if multi then [.sreg o.c.toNat] else [])
    a := .sreg o.a.toNat, b := .sreg o.b.toNat, c := if multi then .sreg o.c.toNat else .none, wa := 64, wb := 64 }

/-- The operation as it is captured. -/
def copyIssued (multi : Bool) (o : LF) (s : State) : CopyOp :=
  { id := s.next, quire := s.q.uid, fid := s.q.fid, members := s.allocations
    src := (s.copySrc o).base, dst := (s.copyDst o).base, spitch := (s.copySrc o).pitch, dpitch := (s.copyDst o).pitch
    rowBytes := fieldOf (s.q.sreg o.b.toNat) 31 0, rows := fieldOf (s.q.sreg o.b.toNat) 63 32
    sws := fieldOf o.modh 4 3 % 2 = 1, swd := 2 ≤ fieldOf o.modh 4 3, slot := s.copySlot o
    hint := o.hnt.toNat, mask := if multi then some (s.q.sreg o.c.toNat).toNat else none, tok := o.low3.toNat, epc := s.pc
    elanes := laneMask s.batch, engine := s.choose 4 2, rels := (s.view s.q.uid).pub, permit := !multi, started := !multi }

/-- The operation is among those of the machine. -/
def State.withCopy (s : State) (multi : Bool) (o : LF) : State :=
  { s with next := s.next + 1, copies := s.copies ++ [copyIssued multi o s] }

/-- The issue checks of `cp` and `cpm` on their sides. -/
def State.copyCheck (s : State) (multi : Bool) (o : LF) : Option (Nat × DWord) :=
  let rowBytes := fieldOf (s.q.sreg o.b.toNat) 31 0
  let rows := fieldOf (s.q.sreg o.b.toNat) 63 32
  if multi then s.cpmCheck (s.copySrc o) (s.copyDst o) rowBytes rows (s.q.sreg o.c.toNat).toNat
  else s.cpCheck (s.copySrc o) (s.copyDst o) rowBytes rows

/-- How a copy ends its issue: a failing check, a token that cannot count, a queue that takes no more, or an operation that waits for its
permit or is in flight. -/
def copyRes (multi : Bool) (o : LF) (s : State) : Res :=
  match s.copyCheck multi o with
  | some (code, ea) => .stop code (laneMask s.batch) ea
  | none =>
    if (s.q.tok o.low3.toNat).count = 63 then .wait s (.tokenFull o.low3.toNat)
    else if s.clusterBusy ∧ s.choose 1 2 = 1 then .wait s .copyQueue
    else if multi then .wait { s.withCopy multi o with permits := s.permits ++ [.copy s.next] } (.permit s.next)
    else .done (((s.withCopy multi o).startTok o.low3.toNat).tryEndCopy s.next)

theorem uniCopy_eq : uniCopy opc multi legal o s = (copyDesc opc multi legal o s).runU s (copyRes multi o s) := rfl

/-- Where the sides pass, the token can count and the queue takes it, the operation is captured. -/
theorem copyRes_of_taken (passed : s.copyCheck multi o = none) (room : (s.q.tok o.low3.toNat).count ≠ 63) (free : s.clusterBusy = false) :
    copyRes multi o s =
      if multi then .wait { s.withCopy multi o with permits := s.permits ++ [.copy s.next] } (.permit s.next)
      else .done (((s.withCopy multi o).startTok o.low3.toNat).tryEndCopy s.next) := by
  simp [copyRes, passed, room, free]

end Sys2Proof.Machine

namespace Sys2Proof.Claims

open Sys2Proof.Machine

variable {i : Instr} {D : Desc} {opc : Nat} {multi : Bool} {o : LF} {s : State}

/-- A uniform word whose legality says more than its modifiers: under its predicate it is its body; without it, it only advances. -/
theorem under_of_runU_of_legal {W : Desc} {b : Res} {P : Prop} {legal : Bool} (run : exec i s = .next (D.runU s b))
    (checks : D.checked = { W with legal := legal }) (hlegal : i.wf = true → legal = W.legal)
    (body : D.clear s → exec i s = .next (D.run s b) → P) : Under i W s P := by
  intro passes
  have clear : D.clear s := passes.clear_of_legal checks hlegal
  obtain ⟨hpr, hneg, hlen⟩ := Desc.fields_of_checked checks
  refine ⟨fun idle => ?_, fun active => ?_⟩
  · exact done_of_run clear hlen (run.trans (congrArg _ (Desc.runU_idle (by rw [hpr, hneg, idle]) b)))
  · exact body clear (run.trans (congrArg _ (Desc.runU_active (by rw [hpr, hneg, active]) b)))

theorem captures_copyIssued (multi : Bool) (o : LF) (s : State) : Captures (copyIssued multi o s) multi o s :=
  ⟨rfl, rfl, rfl, rfl, rfl, rfl, rfl, rfl, rfl, rfl, rfl, rfl, rfl, rfl, rfl, rfl, rfl, rfl, rfl, rfl, rfl, s.choose_lt 4 (by decide), rfl⟩

/-- The slot of a copy is asked for only where it swizzles a side. -/
theorem copySlot_legal (s : State) (o : LF) : (fieldOf o.modh 4 3 = 0 || s.copySlot o ≠ 0 : Bool)
    = (decide (fieldOf o.modh 4 3 = 0) || decide (s.slot (fieldOf o.modh 7 5) ≠ 0)) := by
  by_cases h : fieldOf o.modh 4 3 = 0
  · simp [h]
  · simp [h, State.copySlot]

theorem copyIssues_of_uniCopy {legal : Bool} (run : exec i s = .next (uniCopy opc multi legal o s)) (hlegal : i.wf = true → legal = true) :
    CopyIssues i opc multi o s := by
  rw [uniCopy_eq] at run
  refine under_of_runU_of_legal run rfl (fun hwf => by rw [hlegal hwf]; exact (Bool.true_and _).trans (copySlot_legal s o)) (fun clear run passed room free =>
    ⟨copyIssued multi o s, captures_copyIssued multi o s, ?_⟩)
  rw [copyRes_of_taken passed room free] at run
  cases multi with
  | true => exact blocks_of_run clear run
  | false => exact done_of_run clear rfl run

/-- Settles O16: `cp` and `cpm` capture one operation, of which the one starts at once and the other waits for its permit. -/
theorem copyIssue : Obligations.CopyIssue := fun _ _ => ⟨copyIssues_of_uniCopy rfl id, copyIssues_of_uniCopy rfl id⟩

end Sys2Proof.Claims
end

section
/-! Connections and tiles (R221, R222). -/

namespace Sys2Proof.Machine

variable {op : Nat} {send legal : Bool} {s : State}

/-- The connection that `cconn` opens: its endpoint and its peer, in the incarnation that this has now. -/
def State.opened (s : State) (v : DWord) : Conn :=
  { asid := s.fol.asid, chan := fieldOf v 23 8, die := fieldOf v 7 6, pkg := fieldOf v 5 0, incarn := s.peerGen (fieldOf v 5 0) (fieldOf v 7 6) }

/-- The description that `cconn` runs. -/
def cconnDesc (op : Nat) (legal : Bool) (o : SF) : Desc := { usDesc o op legal [.below o.d.toNat 16, .sreg o.a.toNat] with b := .none }

theorem uniCconn_eq (op : Nat) (legal : Bool) (o : SF) (s : State) : uniCconn op legal o s =
    let v := s.q.sreg o.a.toNat
    (cconnDesc op legal o).runU s (
      if fieldOf v 63 24 ≠ 0 ∨ s.endpointHeld s.fol.asid (fieldOf v 23 8) = true then .stop 0x0E0 (laneMask s.batch) 0
      else .done (s.modFolio s.q.fid (fun x => { x with conns := Sparse.set none (o.d.toNat % 16) (some (s.opened v)) x.conns }))) := rfl

/-- The description that `tsend` and `trecv` run. -/
def tileDesc (op : Nat) (legal : Bool) (o : LF) : Desc :=
  { uni := true, op := op, len := 8, pr := o.pr, neg := o.neg, legal := legal
    uses := [.below o.d.toNat 16, .sreg o.a.toNat], a := .sreg o.a.toNat, wa := 64, wb := 64 }

/-- The tile that a `tsend` or `trecv` posts on a connection. -/
def State.tilePosted (s : State) (send : Bool) (o : LF) (c : Conn) : TileOp :=
  { id := s.next, send := send, quire := s.q.uid, fid := s.q.fid, die := s.fol.die, conn := c
    index := if send then c.sends else c.recvs, off := fieldOf (s.q.sreg o.a.toNat) 31 0, len := fieldOf (s.q.sreg o.a.toNat) 63 32
    tok := o.low3.toNat, rels := (s.view s.q.uid).pub }

/-- The connection counts the tile on its side. -/
def Conn.counted (c : Conn) (send : Bool) : Conn := if send then { c with sends := c.sends + 1 } else { c with recvs := c.recvs + 1 }

/-- The tile is posted, counted, and its token started. -/
def State.postTile (s : State) (send : Bool) (o : LF) (c : Conn) : State :=
  (({ s with next := s.next + 1, tiles := s.tiles ++ [s.tilePosted send o c] } : State).modFolio s.q.fid
    (fun x => { x with conns := Sparse.set none o.d.toNat (some (c.counted send)) x.conns })).startTok o.low3.toNat

/-- How a tile ends its issue: a failing check of its operand or its connection, a token that cannot count, or a tile that is posted. -/
def tileRes (send : Bool) (o : LF) (s : State) : Res :=
  let off := fieldOf (s.q.sreg o.a.toNat) 31 0
  let len := fieldOf (s.q.sreg o.a.toNat) 63 32
  let stop := fun (c : Nat) (e : Nat) => Res.stop c (laneMask s.batch) (BitVec.ofNat 64 e)
  if off % 8 ≠ 0 ∨ len % 8 ≠ 0 then stop 0x060 off
  else if 65536 < len ∨ s.fol.scratchBytes < off + len then stop 0x061 off
  else match s.fol.conn o.d.toNat with
    | none => stop 0x0E0 0
    | some c =>
      if s.connGone c then stop 0x141 0
      else if (s.q.tok o.low3.toNat).count = 63 then .wait s (.tokenFull o.low3.toNat)
      else .done (s.postTile send o c)

theorem uniTile_eq (op : Nat) (send legal : Bool) (o : LF) (s : State) :
    uniTile op send legal o s = (tileDesc op legal o).runU s (tileRes send o s) := rfl

/-- A tile whose operand, connection and token pass their checks is posted. -/
theorem tileRes_of_passed {o : LF} {c : Conn} (aligned : fieldOf (s.q.sreg o.a.toNat) 31 0 % 8 = 0)
    (whole : fieldOf (s.q.sreg o.a.toNat) 63 32 % 8 = 0) (small : fieldOf (s.q.sreg o.a.toNat) 63 32 ≤ 65536)
    (fits : fieldOf (s.q.sreg o.a.toNat) 31 0 + fieldOf (s.q.sreg o.a.toNat) 63 32 ≤ s.fol.scratchBytes)
    (opened : s.fol.conn o.d.toNat = some c) (there : s.connGone c = false) (room : (s.q.tok o.low3.toNat).count ≠ 63) :
    tileRes send o s = .done (s.postTile send o c) := by
  simp [tileRes, aligned, whole, Nat.not_lt.mpr small, Nat.not_lt.mpr fits, opened, there, room]

end Sys2Proof.Machine

namespace Sys2Proof.Claims

open Sys2Proof.Machine

variable {i : Instr} {send : Bool} {s : State}

theorem under_of_uniCconn {o : SF} (run : exec i s = .next (uniCconn 0x16 i.wf o s)) :
    let v := s.q.sreg o.a.toNat
    Under i (usWord 0x16 o [.below o.d.toNat 16, .sreg o.a.toNat]) s
      ((fieldOf v 63 24 ≠ 0 ∨ s.endpointHeld s.fol.asid (fieldOf v 23 8) = true → Traps i 0x0E0 (laneMask s.batch) 0 s)
        ∧ (fieldOf v 63 24 = 0 → s.endpointHeld s.fol.asid (fieldOf v 23 8) = false → Done i 4 s (s.modFolio s.q.fid
            (fun x => { x with conns := Sparse.set none (o.d.toNat % 16) (some (s.opened v)) x.conns })))) := by
  intro v
  rw [uniCconn_eq] at run
  refine under_of_runU run rfl rfl (fun hlen clear run => ⟨fun refused => ?_, fun reserved free => ?_⟩)
  · rw [if_pos refused] at run
    exact traps_of_run clear run
  · rw [if_neg (by simp [v, reserved, free])] at run
    exact done_of_run clear hlen run

theorem tilePosts_of_uniTile {o : LF} (run : exec i s = .next (uniTile 0x16 send i.wf o s)) : TilePosts i send o s := by
  rw [uniTile_eq] at run
  refine under_of_runU run rfl rfl (fun hlen clear run c aligned whole small fits opened there room => ?_)
  rw [tileRes_of_passed aligned whole small fits opened there room] at run
  exact done_of_run clear hlen run

/-- Settles O17: `cconn` opens the connection that it reads, or traps, and `tsend` and `trecv` post the tile that they read. -/
theorem connectionsAndTiles : Obligations.ConnectionsAndTiles := fun s => by
  refine ⟨fun o => ?_, fun o => ⟨tilePosts_of_uniTile rfl, tilePosts_of_uniTile rfl⟩⟩
  intro v passes
  obtain ⟨idle, active⟩ := under_of_uniCconn (i := .cconnUS o) rfl passes
  refine ⟨idle, fun on => ?_⟩
  obtain ⟨traps, opens⟩ := active on
  exact ⟨traps, fun reserved free => ⟨s.opened v, rfl, rfl, rfl, rfl, rfl, rfl, rfl, opens reserved free⟩⟩

end Sys2Proof.Claims
end

section
/-! Token waits and tests (R219, R220, R413). -/

namespace Sys2Proof.Machine

variable {D : Desc} {q : Quire} {s : State} {mask : Nat}

/-! ## Twait -/

/-- How `twait` ends: with the visibility of what its tokens have done, with the trap of a lost token, or blocked. -/
def twaitRes (D : Desc) (mask : Nat) (s : State) : Res :=
  if s.q.tokensDone mask then
    match s.q.lostToken mask with
    | some n => .trap { D.trap s 0x141 (laneMask s.batch) with tok := some n }
    | none => .done (s.tokensSeen mask)
  else .wait s (.tokens mask)

theorem uniTwait_eq (D : Desc) (mask : Nat) (s : State) : uniTwait D mask s = D.runU s (twaitRes D mask s) := rfl

theorem twaitRes_open (h : s.q.tokensDone mask = false) : twaitRes D mask s = .wait s (.tokens mask) := by simp [twaitRes, h]

theorem twaitRes_done (h : s.q.tokensDone mask = true) (kept : s.q.lostToken mask = none) : twaitRes D mask s = .done (s.tokensSeen mask) := by
  simp [twaitRes, h, kept]

theorem twaitRes_lost {n : Nat} (h : s.q.tokensDone mask = true) (lost : s.q.lostToken mask = some n) :
    twaitRes D mask s = .trap { D.trap s 0x141 (laneMask s.batch) with tok := some n } := by
  simp [twaitRes, h, lost]

/-! ## The word of `ttest`: eight bits, and above them eight digits of two bits -/

/-- The number whose digits to the base 4 are the first `k` values of `f`. -/
def quadSum (k : Nat) (f : Nat → Nat) : Nat := (List.range k).foldl (fun v n => v + f n * 4 ^ n) 0

theorem quadSum_succ (k : Nat) (f : Nat → Nat) : quadSum (k + 1) f = quadSum k f + f k * 4 ^ k := by
  simp [quadSum, List.range_succ]

theorem quadSum_lt {f : Nat → Nat} (hf : ∀ n, f n < 4) (k : Nat) : quadSum k f < 4 ^ k := by
  induction k with
  | zero => exact Nat.one_pos
  | succ k ih =>
    have top : f k * 4 ^ k ≤ 3 * 4 ^ k := Nat.mul_le_mul_right _ (Nat.le_of_lt_succ (hf k))
    rw [quadSum_succ, Nat.pow_succ]
    omega

theorem quadSum_digit {f : Nat → Nat} (hf : ∀ n, f n < 4) {k j : Nat} (hj : j < k) : quadSum k f / 4 ^ j % 4 = f j := by
  induction k with
  | zero => cases hj
  | succ k ih =>
    rw [quadSum_succ]
    rcases Nat.lt_succ_iff_lt_or_eq.mp hj with below | rfl
    · have split : f k * 4 ^ k = 4 ^ j * (4 * (f k * 4 ^ (k - j - 1))) := by
        rw [show k = j + 1 + (k - j - 1) by omega, Nat.pow_add, Nat.pow_succ]
        simp only [show j + 1 + (k - j - 1) - j - 1 = k - j - 1 by omega]
        ac_rfl
      rw [split, Nat.add_mul_div_left _ _ (Nat.pow_pos (by decide)), Nat.add_mul_mod_self_left, ih below]
    · rw [Nat.add_mul_div_right _ _ (Nat.pow_pos (by decide)), Nat.div_eq_of_lt (quadSum_lt hf j), Nat.zero_add, Nat.mod_eq_of_lt (hf j)]

/-- Token `n` is of the mask and has count 0. -/
def Quire.tokenDone (q : Quire) (mask n : Nat) : Bool := mask.testBit n && decide ((q.tok n).count = 0)

/-- The status of token `n` where it is of the mask. -/
def Quire.tokenStatus (q : Quire) (mask n : Nat) : Nat := if mask.testBit n then (q.tok n).status.toNat else 0

theorem Quire.tokenStatus_lt (q : Quire) (mask n : Nat) : q.tokenStatus mask n < 4 := by
  unfold Quire.tokenStatus
  split
  · exact BitVec.isLt _
  · decide

theorem ttestWord_eq (q : Quire) (mask : Nat) : ttestWord q mask = 2 ^ 8 * quadSum 8 (q.tokenStatus mask) + bitSum 8 (q.tokenDone mask) := by
  have fold : ∀ (ns : List Nat) (a b c : Nat), a = 2 ^ 8 * b + c → ns.foldl (fun v n =>
      if mask.testBit n then
        v + (if (q.tok n).count = 0 then 2 ^ n else 0) + (q.tok n).status.toNat * 2 ^ (8 + 2 * n)
      else v) a = 2 ^ 8 * ns.foldl (fun v n => v + q.tokenStatus mask n * 4 ^ n) b
        + ns.foldl (fun v n => v + (if q.tokenDone mask n then 2 ^ n else 0)) c := by
    intro ns
    induction ns with
    | nil => exact fun a b c h => h
    | cons n ns ih =>
      intro a b c h
      refine ih _ _ _ ?_
      have base : (2 : Nat) ^ (8 + 2 * n) = 2 ^ 8 * 4 ^ n := by rw [Nat.pow_add, Nat.pow_mul]
      unfold Quire.tokenStatus Quire.tokenDone
      by_cases hm : mask.testBit n = true
      · simp only [hm, if_true, Bool.true_and, decide_eq_true_eq, base, h, Nat.mul_add, Nat.mul_left_comm (2 ^ 8)]
        ac_rfl
      · simp only [hm, Bool.false_and, Bool.false_eq_true, if_false, Nat.zero_mul, Nat.add_zero, h]
  exact fold (List.range 8) 0 0 0 rfl

theorem ttestWord_lt (q : Quire) (mask : Nat) : ttestWord q mask < 2 ^ 24 := by
  have high := quadSum_lt (q.tokenStatus_lt mask) 8
  have low := bitSum_lt 8 (q.tokenDone mask)
  rw [ttestWord_eq]
  omega

/-- The result of `ttest` as its register takes it. -/
def ttestBits (q : Quire) (mask : Nat) : DWord := BitVec.ofNat 64 (ttestWord q mask)

theorem ttestBits_toNat (q : Quire) (mask : Nat) : (ttestBits q mask).toNat = ttestWord q mask :=
  Nat.mod_eq_of_lt (Nat.lt_trans (ttestWord_lt q mask) (by decide))

/-- DONE (R220). -/
theorem ttestBits_done (q : Quire) (mask : Nat) {n : Nat} (hn : n < 8) : (ttestBits q mask).getLsbD n = q.tokenDone mask n := by
  rw [← BitVec.testBit_toNat, ttestBits_toNat, ttestWord_eq, Nat.testBit_two_pow_mul_add _ (bitSum_lt 8 _), if_pos hn, testBit_bitSum,
    decide_eq_true hn, Bool.true_and]

/-- STATUS (R220). -/
theorem ttestBits_status (q : Quire) (mask : Nat) {n : Nat} (hn : n < 8) :
    (ttestBits q mask).extractLsb' (8 + 2 * n) 2 = if mask.testBit n then (q.tok n).status else 0 := by
  have digit : ((ttestBits q mask).extractLsb' (8 + 2 * n) 2).toNat = q.tokenStatus mask n := by
    rw [BitVec.extractLsb'_toNat, ttestBits_toNat, ttestWord_eq, Nat.shiftRight_eq_div_pow, Nat.pow_add, ← Nat.div_div_eq_div_mul,
      Nat.mul_add_div (by decide), Nat.div_eq_of_lt (bitSum_lt 8 _), Nat.add_zero, Nat.pow_mul]
    exact quadSum_digit (q.tokenStatus_lt mask) hn
  refine BitVec.eq_of_toNat_eq (digit.trans ?_)
  unfold Quire.tokenStatus
  split <;> rfl

end Sys2Proof.Machine

namespace Sys2Proof.Claims

open Sys2Proof.Machine

variable {i : Instr} {D W : Desc} {mask : Nat} {s : State}

theorem traps_of_run_trap {r : Trap} (clear : D.clear s) (epc : r.epc = s.pc) (run : exec i s = .next (D.run s (.trap r))) :
    Traps i r.code r.elanes r.eaddr s := ⟨r, rfl, epc, rfl, rfl, by rw [run, Desc.run_trap clear]⟩

theorem tokenWaits_of_uniTwait (run : exec i s = .next (uniTwait D mask s)) (checks : D.checked = { W with legal := i.wf })
    (legal : W.legal = true) : TokenWaits i W mask s := by
  rw [uniTwait_eq] at run
  refine under_of_runU run checks legal (fun hlen clear run => ⟨fun pending => ?_, fun all kept => ?_, fun n all lost => ?_⟩)
  · rw [twaitRes_open pending] at run
    exact hlen ▸ blocks_of_run clear run
  · rw [twaitRes_done all kept] at run
    exact done_of_run clear hlen run
  · rw [twaitRes_lost all lost] at run
    exact traps_of_run_trap clear rfl run

theorem tokenTests_of_uniTtest {d : Nat} (run : exec i s = .next (uniTtest D d mask s)) (checks : D.checked = { W with legal := i.wf })
    (legal : W.legal = true) : TokenTests i W d mask s := by
  refine under_of_runU run checks legal (fun hlen clear run => ⟨ttestBits s.q mask, fun n hn => ⟨ttestBits_done s.q mask hn,
    ttestBits_status s.q mask hn⟩, ?_, done_of_run clear hlen run⟩)
  rw [ttestBits_toNat]
  exact ttestWord_lt s.q mask

theorem tokens : Tokens := fun _ =>
  ⟨fun _ => ⟨tokenWaits_of_uniTwait rfl rfl rfl, tokenTests_of_uniTtest rfl rfl rfl⟩,
    fun _ => ⟨tokenWaits_of_uniTwait rfl rfl rfl, tokenTests_of_uniTtest rfl rfl rfl⟩⟩

end Sys2Proof.Claims
end

section
/-! The fences (R207, R223, R287). -/

namespace Sys2Proof.Machine

variable {op : Nat} {legal : Bool} {o : SF} {s : State}

/-- The description that the fences run. -/
def fenceDesc (op : Nat) (legal : Bool) (o : SF) : Desc := { usDesc o op legal [] with a := .none, b := .none }

/-- The state behind a fence of a kind: behind a release and an acquire, an acquire, or a release. -/
def State.fenced (s : State) (uid kind scope : Nat) : State :=
  let t := if kind = 1 then s else s.publish uid scope
  if kind = 2 then t else t.acquireFence (kind = 0) scope

theorem uniFence_eq : uniFence op legal o s = (fenceDesc op legal o).runU s
    (s.behindRelease (fieldOf o.d 4 3 ≠ 1) (fieldOf o.d 2 0) (fun t => .done (t.fenced s.q.uid (fieldOf o.d 4 3) (fieldOf o.d 2 0)))) := rfl

/-- The paths of a mask but that of subscriptions. -/
theorem maskPaths_filter (m : BitVec 6) : (maskPaths m).filter (· ≤ 3) = [0, 1, 2, 3].filter (fun p => m.getLsbD p) := by
  unfold maskPaths
  have last : [4].filter (fun p => decide (p ≤ 3) && m.getLsbD p) = [] := rfl
  rw [List.filter_filter, show List.range 5 = [0, 1, 2, 3] ++ [4] from rfl, List.filter_append, last, List.append_nil]
  refine List.filter_congr (fun p hp => ?_)
  have small : p ≤ 3 := by
    simp only [List.mem_cons, List.not_mem_nil, or_false] at hp
    omega
  rw [decide_eq_true small, Bool.true_and]

theorem maskPaths_contains (m : BitVec 6) {p : Nat} (hp : p < 5) : (maskPaths m).contains p = m.getLsbD p := by
  simp [maskPaths, List.contains_eq_mem, hp]

/-- The state behind an `xfence` of the issuing quire: the stores behind it where FROM has the core path, the updates where it has that path,
and the order of its paths. -/
def State.crossed (s : State) (from_ dst : BitVec 6) : State :=
  let behind := [0, 1, 2, 3].filter (fun p => dst.getLsbD p)
  let t := if from_.getLsbD 0 then (s.settleOwed s.q.uid).settleFrom s.q.uid else s
  let u := if from_.getLsbD 4 then (t.settle (fun w => w.from_ = s.q.uid && w.sub.isSome)).seeUpdates s.q.uid behind else t
  u.crossPaths s.q.uid ([0, 1, 2, 3].filter (fun p => from_.getLsbD p)) behind

theorem uniXfence_eq : uniXfence op legal o s = (fenceDesc op legal o).runU s
    (if o.d.getLsbD 0 && s.pendingBlocked s.q.uid then .wait s (.flush 4) else .done (s.crossed o.d o.a)) := by
  unfold uniXfence State.crossed
  simp only [maskPaths_filter, maskPaths_contains _ (show 0 < 5 by decide), maskPaths_contains _ (show 4 < 5 by decide)]
  rfl

end Sys2Proof.Machine

namespace Sys2Proof.Claims

open Sys2Proof.Machine

variable {i : Instr} {o : SF} {s : State}

theorem under_of_uniFence (run : exec i s = .next (uniFence 0x17 i.wf o s)) :
    let scope := fieldOf o.d 2 0
    Under i (usWord 0x17 o []) s
      ((fieldOf o.d 4 3 = 0 → Behind i 4 true scope s s (fun t => Done i 4 s ((t.publish s.q.uid scope).acquireFence true scope)))
        ∧ (fieldOf o.d 4 3 = 1 → Done i 4 s (s.acquireFence false scope))
        ∧ (fieldOf o.d 4 3 = 2 → Behind i 4 true scope s s (fun t => Done i 4 s (t.publish s.q.uid scope)))) := by
  intro scope
  rw [uniFence_eq] at run
  refine under_of_runU run rfl rfl (fun hlen clear run => ⟨fun full => ?_, fun acquire => ?_, fun release => ?_⟩)
  · rw [full] at run
    exact behind_of_run clear run (fun t run => done_of_run clear hlen run)
  · rw [acquire] at run
    exact done_of_run clear hlen run
  · rw [release] at run
    exact behind_of_run clear run (fun t run => done_of_run clear hlen run)

theorem under_of_uniXfence (run : exec i s = .next (uniXfence 0x17 i.wf o s)) :
    Under i (usWord 0x17 o []) s
      (((o.d.getLsbD 0 && s.pendingBlocked s.q.uid) = true → Blocks i (.flush 4) 4 s s)
        ∧ ((o.d.getLsbD 0 && s.pendingBlocked s.q.uid) = false → Done i 4 s (s.crossed o.d o.a))) := by
  rw [uniXfence_eq] at run
  refine under_of_runU run rfl rfl (fun hlen clear run => ⟨fun held => ?_, fun free => ?_⟩)
  · rw [if_pos held] at run
    exact blocks_of_run clear run
  · rw [if_neg (by rw [free]; exact Bool.false_ne_true)] at run
    exact done_of_run clear hlen run

theorem fences : Fences := fun _ _ => ⟨under_of_uniFence rfl, under_of_uniXfence rfl⟩

/-- Settles O18: the ends of `twait` and the word of `ttest`, and the state behind each fence. -/
theorem tokensAndFences : Obligations.TokensAndFences := ⟨tokens, fences⟩

end Sys2Proof.Claims
end

section
/-! The checks of an access, and the lanes that a failing one names (R204). -/

namespace Sys2Proof.Machine

variable {s : State} {fid n ea : Nat} {acc : Acc}

/-! ## The order of the checks of one access -/

theorem State.memCheck_unaligned (h : ea % n ≠ 0) : s.memCheck fid ea n acc = .error 0x060 := if_pos h

theorem State.memCheck_aligned (h : ea % n = 0) : s.memCheck fid ea n acc = s.route fid ea acc := if_neg (fun hn => hn h)

theorem State.offsetCheck_unaligned {rem : Bool} (h : ea % n ≠ 0) : s.offsetCheck rem n ea = .error 0x060 := if_pos h

theorem State.route_beyond (h : 2 ^ 56 ≤ ea) : s.route fid ea acc = .error 0x080 := if_pos h

theorem State.route_window (low : ea < 2 ^ 56) (high : windowBase ≤ ea) : s.route fid ea acc = s.window fid ea := by
  unfold State.route
  dsimp only
  rw [if_neg (Nat.not_le.mpr low), if_pos high]

/-- An address below the windows raises what its translation raises, but for a home that cannot be reached now. -/
theorem State.route_untranslated {c : Nat} (low : ea < windowBase) (hc : c ≠ 0x142)
    (h : s.translate (s.folio fid).die (s.folio fid).asid (s.folio fid).super ea acc (Path.core.places (s.folio fid).core) = .error c) :
    s.route fid ea acc = .error c := by
  have inside : ea < 2 ^ 56 := Nat.lt_trans low (by decide)
  unfold State.route
  dsimp only
  rw [if_neg (Nat.not_le.mpr inside), if_neg (Nat.not_le.mpr low), h]
  exact if_neg hc

/-! ## The accesses of the lanes together -/

variable {eas : List (Nat × Nat)} {check : Nat → Except Nat Target}

/-- The lanes whose access fails with a cause. -/
def lanesFailing (eas : List (Nat × Nat)) (check : Nat → Except Nat Target) (c : Nat) : Word :=
  lanesOf ((eas.filter (fun x => match check x.2 with | .error c' => c' = c | .ok _ => false)).map (·.1))

/-- The check of a lane fails. -/
def laneFails (check : Nat → Except Nat Target) (x : Nat × Nat) : Bool := match check x.2 with | .error _ => true | .ok _ => false

theorem laneFails_eq_false_iff {x : Nat × Nat} : laneFails check x = false ↔ ∃ t, check x.2 = .ok t := by
  unfold laneFails
  cases check x.2 <;> simp

theorem laneFails_of_error {x : Nat × Nat} {c : Nat} (h : check x.2 = .error c) : laneFails check x = true := by
  unfold laneFails
  rw [h]

/-- The lanes are checked one after the other, and the first that fails decides. -/
theorem checkAll_eq (eas : List (Nat × Nat)) (check : Nat → Except Nat Target) : checkAll eas check =
    match (eas.find? (laneFails check)).map (fun x => (x.1, x.2, check x.2)) with
    | some (_, ea, .error c) => .error (c, lanesFailing eas check c, BitVec.ofNat 64 ea)
    | _ => .ok ((eas.map (fun x => (x.1, x.2, check x.2))).filterMap (fun r =>
        match r.2.2 with | .ok t => some { lane := r.1, ea := r.2.1, t := t } | .error _ => none)) := by
  unfold checkAll lanesFailing
  simp only [List.find?_map, List.filter_map, List.map_map, Function.comp_def]
  rfl

theorem checkAll_of_passed (h : ∀ x ∈ eas, laneFails check x = false) : ∃ xs, checkAll eas check = .ok xs := by
  have none : eas.find? (laneFails check) = none := List.find?_eq_none.mpr (fun x hx => by simp [h x hx])
  rw [checkAll_eq, none]
  exact ⟨_, rfl⟩

/-- The first lane that fails gives the cause and the address, and the lanes that fail alike are named with it. -/
theorem checkAll_of_failed {good rest : List (Nat × Nat)} {x : Nat × Nat} {c : Nat} (heas : eas = good ++ x :: rest)
    (passed : ∀ y ∈ good, laneFails check y = false) (failed : check x.2 = .error c) :
    checkAll eas check = .error (c, lanesFailing eas check c, BitVec.ofNat 64 x.2) := by
  have first : eas.find? (laneFails check) = some x :=
    List.find?_eq_some_iff_append.mpr ⟨laneFails_of_error failed, good, rest, heas, fun y hy => by simp [passed y hy]⟩
  rw [checkAll_eq, first]
  dsimp only [Option.map_some]
  rw [failed]

theorem checkAll_eq_error_iff {c : Nat} {lanes : Word} {a : DWord} : checkAll eas check = .error (c, lanes, a) ↔
    ∃ good x rest, eas = good ++ x :: rest ∧ (∀ y ∈ good, laneFails check y = false) ∧ check x.2 = .error c
      ∧ a = BitVec.ofNat 64 x.2 ∧ lanes = lanesFailing eas check c := by
  constructor
  · intro h
    cases hf : eas.find? (laneFails check) with
    | none =>
      obtain ⟨xs, ok⟩ := checkAll_of_passed (fun x hx => by simpa using List.find?_eq_none.mp hf x hx)
      rw [ok] at h
      cases h
    | some x =>
      obtain ⟨fails, good, rest, heas, passed⟩ := List.find?_eq_some_iff_append.mp hf
      have passed : ∀ y ∈ good, laneFails check y = false := fun y hy => by simpa using passed y hy
      cases failed : check x.2 with
      | ok t => exact absurd (laneFails_eq_false_iff.mpr ⟨t, failed⟩) (by rw [fails]; exact Bool.noConfusion)
      | error c' =>
        rw [checkAll_of_failed heas passed failed] at h
        cases h
        exact ⟨good, x, rest, heas, passed, failed, rfl, rfl⟩
  · rintro ⟨good, x, rest, heas, passed, failed, rfl, rfl⟩
    exact checkAll_of_failed heas passed failed

/-- The one access of a uniform word. -/
theorem checkAll_singleton_error {lane a c : Nat} (h : check a = .error c) :
    checkAll [(lane, a)] check = .error (c, lanesFailing [(lane, a)] check c, BitVec.ofNat 64 a) :=
  checkAll_of_failed (good := []) (rest := []) rfl (fun _ hy => by cases hy) h

end Sys2Proof.Machine

namespace Sys2Proof.Claims

open Sys2Proof.Machine

variable {i : Instr} {s : State} {x : MArgs} {y : UMArgs} {c : Nat} {lanes : Word} {ea : DWord}

theorem traps_of_laneLoad (run : exec i s = laneLoad 0x20 i.wf x s) (passes : Passes i (memWord 0x20 x (.dst x.d (mtWidth x.mt) :: x.uses 64)) s)
    (fails : checkAll (laneEas x s 64) (fun ea => s.memCheck s.q.fid ea (mtBytes x.mt) .read) = .error (c, lanes, ea)) :
    Traps i c lanes ea s :=
  have clear : (loadDesc 0x20 i.wf 64 x s).clear s := passes.clear rfl rfl
  traps_of_access (run.trans laneLoad_eq) clear (.inl rfl) fails

theorem traps_of_laneStore (run : exec i s = laneStore 0x21 i.wf x s) (passes : Passes i (memWord 0x21 x (.src x.d (mtWidth x.mt) :: x.uses 64)) s)
    (fails : checkAll (laneEas x s 64) (fun ea => s.memCheck s.q.fid ea (mtBytes x.mt) .write) = .error (c, lanes, ea)) :
    Traps i c lanes ea s :=
  have clear : (storeDesc 0x21 i.wf 64 x s).clear s := passes.clear rfl rfl
  traps_of_access (run.trans laneStore_eq) clear (.inl rfl) fails

theorem traps_of_uniLoad (run : exec i s = uniLoad 0x10 i.wf y s) (passes : Passes i (memWordU 0x10 y (y.data :: y.uses)) s)
    (active : s.kActive y.pr y.neg = true) (fails : s.memCheck s.q.fid (uniEa y s) (umtBytes y.mt) .read = .error c) :
    Traps i c (laneMask s.batch) (BitVec.ofNat 64 (uniEa y s)) s :=
  have clear : (loadDescU 0x10 i.wf y s).clear s := passes.clear rfl rfl
  traps_of_access (run.trans uniLoad_eq) clear (.inr active) (checkAll_singleton_error fails)

theorem traps_of_uniStore (run : exec i s = uniStore 0x11 i.wf y s) (passes : Passes i (memWordU 0x11 y (y.data :: y.uses)) s)
    (active : s.kActive y.pr y.neg = true) (fails : s.memCheck s.q.fid (uniEa y s) (umtBytes y.mt) .write = .error c) :
    Traps i c (laneMask s.batch) (BitVec.ofNat 64 (uniEa y s)) s :=
  have clear : (storeDescU 0x11 i.wf y s).clear s := passes.clear rfl rfl
  traps_of_access (run.trans uniStore_eq) clear (.inr active) (checkAll_singleton_error fails)

/-- Settles O54: the checks in their order, the first lane that fails with those that share its cause, and the trap of each load and store. -/
theorem accessFaults : Obligations.AccessFaults := by
  refine ⟨fun s fid n ea acc => ⟨fun h => ⟨State.memCheck_unaligned h, State.offsetCheck_unaligned h⟩,
      fun h beyond => (State.memCheck_aligned h).trans (State.route_beyond beyond),
      fun h high low => (State.memCheck_aligned h).trans (State.route_window low high),
      fun c h low hc fails => (State.memCheck_aligned h).trans (State.route_untranslated low hc fails)⟩,
    fun eas check c lanes ea => ?_, fun s i c lanes ea => ⟨?_, ?_, ?_, ?_⟩⟩
  · simp only [checkAll_eq_error_iff, laneFails_eq_false_iff, Prod.exists]
    rfl
  · rintro x (⟨o, m2, rfl, rfl⟩ | ⟨o, rfl, rfl⟩ | ⟨o, rfl, rfl⟩) passes fails
    · exact traps_of_laneLoad rfl passes fails
    · exact traps_of_laneLoad rfl passes fails
    · exact traps_of_laneLoad rfl passes fails
  · rintro x (⟨o, m2, rfl, rfl⟩ | ⟨o, rfl, rfl⟩ | ⟨o, rfl, rfl⟩) passes fails
    · exact traps_of_laneStore rfl passes fails
    · exact traps_of_laneStore rfl passes fails
    · exact traps_of_laneStore rfl passes fails
  · rintro x (⟨o, m2, rfl, rfl⟩ | ⟨o, rfl, rfl⟩ | ⟨o, rfl, rfl⟩) passes active fails
    · exact traps_of_uniLoad rfl passes active fails
    · exact traps_of_uniLoad rfl passes active fails
    · exact traps_of_uniLoad rfl passes active fails
  · rintro x (⟨o, m2, rfl, rfl⟩ | ⟨o, rfl, rfl⟩ | ⟨o, rfl, rfl⟩) passes active fails
    · exact traps_of_uniStore rfl passes active fails
    · exact traps_of_uniStore rfl passes active fails
    · exact traps_of_uniStore rfl passes active fails

end Sys2Proof.Claims
end

section
/-! A table of views with two entries for one quire: a load with nothing to perform before it that performs a store (R289, R290). -/

namespace Sys2Proof.Claims
open Sys2Proof.Machine

/-- A fibre about to read its folio's scratchpad at 4. The table of views has two entries for its quire: the first owes nothing, and
the second, under it, a store of quire 2 to the byte there. -/
def twoViews : State :=
  { State.reset.loaded (0, 0) with
    views := [(3, { got := { die := 1 } }), (3, { owed := [(2, 5)] })]
    stores := [{ id := 1, from_ := 2, die := 0, dest := .scratch 2 4, bytes := [1] }] }

/-- lds of v4 + 4 to v2. -/
def readsAtFour : Instr := .ldsLI ⟨0, false, 2, 4, 0, 4⟩

/-- The quire owes nothing. -/
theorem owes_twoViews : ∀ w ∈ twoViews.stores, w.from_ ≠ twoViews.q.uid ∧ (twoViews.view twoViews.q.uid).owes w.from_ w.id = false := by
  decide +kernel

/-- And no partial stands, nor is a write on its way. -/
theorem settled_twoViews : twoViews.partials = [] ∧ twoViews.inbound = [] := by decide +kernel

/-- The stores that stand when a word has run. -/
noncomputable def storesAfter (i : Instr) (s : State) : Option (List Store) :=
  match exec i s with | .next t => some t.stores | _ => none

theorem exec_of_storesAfter {i : Instr} {s : State} {ws : List Store} (h : storesAfter i s = some ws) :
    ∃ t, exec i s = .next t ∧ t.stores = ws := by
  unfold storesAfter at h
  split at h
  · next t e => exact ⟨t, e, Option.some.inj h⟩
  · cases h

/-- The load erases the view whose reads it begins anew, which brings the second to light, and performs what that one owes. -/
theorem storesAfter_readsAtFour : storesAfter readsAtFour twoViews = some [] := by decide +kernel

/-- Refutes O46: where the table of views has two entries for the quire, and only the second of them owes a store, the load
performs that store. -/
theorem not_loadFrames : ¬ Obligations.LoadFrames := by
  intro h
  obtain ⟨t, run, empty⟩ := exec_of_storesAfter storesAfter_readsAtFour
  obtain ⟨partials, inbound⟩ := settled_twoViews
  have lane := (h twoViews t readsAtFour partials inbound owes_twoViews run).1 (liMem ⟨0, false, 2, 4, 0, 4⟩) (.inr (.inr ⟨_, .inr rfl, rfl⟩))
  have kept : t.stores = twoViews.stores := by
    clear run
    rcases lane with ⟨r, e⟩ | ⟨k, r, e⟩ | ⟨⟨-, -, stores, -⟩, -⟩
    · rw [e, State.takeTrap_stores, State.unblocked_stores]
    · rw [e, State.block_stores]
    · exact stores
  rw [empty] at kept
  exact List.cons_ne_nil _ _ kept.symm

end Sys2Proof.Claims
end

section
/-! What a store changes in memory when it is performed, as a key reads it (R195, R211, R359, R390, R410). -/

namespace Sys2Proof.Machine

variable {s : State}

/-! ## What the reading of memory under a key depends on -/

/-- Memory, the keys of its lines, the key slots, the package, and the stores still to be performed. -/
def State.cells (s : State) : List Host.Cell × List (Nat × Nat) × List (Nat × Option Key) × Nat × List Store :=
  (s.mem, s.lineKey, s.keys, s.pkgid, s.stores)

theorem State.cells_eq_iff {t : State} : t.cells = s.cells ↔
    t.mem = s.mem ∧ t.lineKey = s.lineKey ∧ t.keys = s.keys ∧ t.pkgid = s.pkgid ∧ t.stores = s.stores := by
  simp [State.cells]

theorem State.stores_of_cells {t : State} (h : t.cells = s.cells) : t.stores = s.stores := by
  obtain ⟨-, -, -, -, hs⟩ := State.cells_eq_iff.mp h
  exact hs

theorem State.plain_of_cells {t : State} (h : t.cells = s.cells) (kid loc : Nat) : t.plain kid loc = s.plain kid loc := by
  obtain ⟨hm, hl, hk, hp, -⟩ := State.cells_eq_iff.mp h
  rw [State.plain_eq_decrypted, State.plain_eq_decrypted, hl, State.keyCode_congr hk hp]
  unfold State.byte
  rw [hm]

@[simp] theorem State.tagged_cells (s : State) (key : Nat) (bs : List Byte) (d : Nat) (rs : List Rel) :
    (s.tagged key bs d rs).cells = s.cells := rfl

@[simp] theorem State.shadowed_cells (s : State) (pa n : Nat) : (s.shadowed pa n).cells = s.cells :=
  s.shadowed_keeps State.cells (fun _ _ => rfl) pa n

theorem State.keepNow_cells (s : State) (uid d : Nat) (t : Target) (n : Nat) (p : Path) : (s.keepNow uid d t n p).cells = s.cells := by
  unfold State.keepNow State.keepCoherent; split <;> rfl

theorem State.wroteNow_cells (s : State) (uid d : Nat) (t : Target) (n : Nat) (p : Path) : (s.wroteNow uid d t n p).cells = s.cells := by
  unfold State.wroteNow; dsimp only; split
  · exact State.keepNow_cells s uid d t n p
  · exact State.keepNow_cells s uid d t n p

@[simp] theorem State.wroteStore_cells (s : State) (uid id die : Nat) (t : Target) (n : Nat) : (s.wroteStore uid id die t n).cells = s.cells :=
  (State.foldl_keeps State.cells (fun z u => State.keepNow_cells z u die t n .core) _ _).trans (State.wroteNow_cells s uid die t n .core)

theorem State.sendBad_cells (s : State) (bad : Bool) : (s.sendBad bad).cells = s.cells := by unfold State.sendBad; split <;> rfl

theorem State.flushSub_cells (s : State) (x : Sub) : (s.flushSub x).cells = s.cells :=
  State.foldl_keeps State.cells (fun t _ => State.sendBad_cells (t.send _ _ _ _ _ _) _) x.buf _

theorem State.forwardGranule_cells (s : State) (uid id off : Nat) : (s.forwardGranule uid id off).cells = s.cells := by
  unfold State.forwardGranule; split
  · rfl
  · dsimp only; split
    · rfl
    · refine Eq.trans (b := State.cells (if _ then _ else _)) rfl ?_
      split
      · exact State.flushSub_cells s _
      · rfl

@[simp] theorem State.forward_cells (s : State) (uid fid off n : Nat) : (s.forward uid fid off n).cells = s.cells :=
  State.foldl_keeps State.cells (fun t _ => State.foldl_keeps State.cells (fun t _ => State.forwardGranule_cells t _ _ _) _ t) _ s

/-! ## Memory and its keys in canonical form -/

/-- Memory and the table of line keys are in canonical form. -/
structure State.Keyed (s : State) : Prop where
  canon : s.Canon
  keys : Sparse.wf 0 s.lineKey = true

theorem State.keyed_of_cells {t : State} (h : s.Keyed) (e : t.cells = s.cells) : t.Keyed := by
  obtain ⟨hm, hl, -⟩ := State.cells_eq_iff.mp e
  exact ⟨State.canon_of_mem h.canon hm, by rw [hl]; exact h.keys⟩

theorem State.write_keyed (h : s.Keyed) (loc : Nat) (bs : List Byte) : (s.write loc bs).Keyed := ⟨State.write_canon h.canon loc bs, h.keys⟩

theorem State.rekey_keyed (h : s.Keyed) (kid pa : Nat) : (s.rekey kid pa).Keyed := by
  refine ⟨State.rekey_canon h.canon kid pa, ?_⟩
  unfold State.rekey; dsimp only; split
  · exact h.keys
  · exact Sparse.wf_set _ _ _ _ h.keys

/-- The bytes of a write at a home, before the replica takes them. -/
def State.putHere (s : State) (kid pa : Nat) (bs : List Byte) : State :=
  let t := (s.rekey kid pa).write pa bs
  { t with backs := t.backs.filter (fun x => !(pa ≤ x.1 && x.1 < pa + bs.length)) }

theorem State.putRaw_eq (s : State) (kid pa : Nat) (bs : List Byte) : s.putRaw kid pa bs =
    match s.replicaOf pa with
    | some ra => ((s.putHere kid pa bs).rekey kid ra).write ra bs
    | none => s.putHere kid pa bs := rfl

theorem State.putHere_cells (s : State) (kid pa : Nat) (bs : List Byte) :
    (s.putHere kid pa bs).cells = ((s.rekey kid pa).write pa bs).cells := rfl

theorem State.putHere_keyed (h : s.Keyed) (kid pa : Nat) (bs : List Byte) : (s.putHere kid pa bs).Keyed :=
  State.keyed_of_cells (State.write_keyed (State.rekey_keyed h kid pa) pa bs) (State.putHere_cells s kid pa bs)

theorem State.putRaw_keyed (h : s.Keyed) (kid pa : Nat) (bs : List Byte) : (s.putRaw kid pa bs).Keyed := by
  rw [State.putRaw_eq]; split
  · exact State.write_keyed (State.rekey_keyed (State.putHere_keyed h kid pa bs) kid _) _ _
  · exact State.putHere_keyed h kid pa bs

/-! ## A write, and a line that comes under a key -/

/-- A write changes its own bytes only, whatever key reads. -/
theorem State.plain_write_out (h : s.Keyed) {loc a : Nat} {bs : List Byte} (ha : ¬ (loc ≤ a ∧ a < loc + bs.length)) (kid : Nat) :
    (s.write loc bs).plain kid a = s.plain kid a := by
  have byte : (s.write loc bs).byte a = s.byte a := State.byte_putBytes_out h.canon (by omega)
  rw [State.plain_eq_decrypted, State.plain_eq_decrypted, byte]
  rfl

/-- Another line than the one that comes under a key reads as before. -/
theorem State.plain_rekey_out (h : s.Keyed) (kid k : Nat) {pa a : Nat} (ha : a / 64 ≠ pa / 64) : (s.rekey kid pa).plain k a = s.plain k a := by
  unfold State.rekey; dsimp only; split
  · rfl
  · generalize hbs : (List.range 64).map _ = bs
    have len : bs.length = 64 := by rw [← hbs, List.length_map, List.length_range]
    have byte : (s.putBytes (pa / 64 * 64) bs).byte a = s.byte a := State.byte_putBytes_out h.canon (by omega)
    rw [State.plain_eq_decrypted, State.plain_eq_decrypted]
    unfold State.byte at byte ⊢
    dsimp only
    rw [byte, Sparse.get_set_ne 0 _ _ _ _ h.keys ha]
    rfl

/-- The key that a line comes under reads it as before. -/
theorem State.plain_rekey_same (h : s.Keyed) (kid pa a : Nat) : (s.rekey kid pa).plain kid a = s.plain kid a := by
  by_cases ha : a / 64 = pa / 64
  · have key := State.key_rekey kid pa (.inl h.keys)
    rw [State.plain_eq_decrypted, ha, key, State.keyCode_congr (State.rekey_keys _ _ _) (State.rekey_pkgid _ _ _), State.keyCode_of_line _ _ ha,
      decrypted_self]
    unfold State.rekey; dsimp only; split
    · next same => rw [State.plain_eq_decrypted, ha, same, State.keyCode_of_line _ _ ha, decrypted_self]
    · have place : a = pa / 64 * 64 + a % 64 := by omega
      generalize hbs : (List.range 64).map _ = bs
      have len : a % 64 < bs.length := by rw [← hbs, List.length_map, List.length_range]; omega
      have byte := State.byte_putBytes_in h.canon (loc := pa / 64 * 64) len
      rw [← place] at byte
      refine byte.trans ?_
      subst hbs
      rw [List.getElem_map, List.getElem_range, ← place]
  · exact State.plain_rekey_out h kid kid ha

/-- A write under a key changes its own bytes and, as another key reads them, the rest of their line. -/
theorem State.plain_rekey_write (h : s.Keyed) {kid k pa a : Nat} {bs : List Byte} (ha : ¬ (pa ≤ a ∧ a < pa + bs.length))
    (hk : k = kid ∨ a / 64 ≠ pa / 64) : ((s.rekey kid pa).write pa bs).plain k a = s.plain k a := by
  rw [State.plain_write_out (State.rekey_keyed h kid pa) ha]
  rcases hk with rfl | hk
  · exact State.plain_rekey_same h k pa a
  · exact State.plain_rekey_out h kid k hk

end Sys2Proof.Machine

namespace Sys2Proof.Claims
open Sys2Proof.Machine

variable {s t : State}

/-! ## Writes at a home, with their replica -/

theorem replicaOf_putRaw (s : State) (kid pa : Nat) (bs : List Byte) (a : Nat) : (s.putRaw kid pa bs).replicaOf a = s.replicaOf a := by
  simp [State.replicaOf, State.rlen, State.rbase, State.replicaAt, State.mgmt, State.die]

/-- A write at a home changes what `AtHome` and `LineAtHome` name. -/
theorem plain_putRaw_out (h : s.Keyed) {kid k pa a : Nat} {bs : List Byte} (ha : ¬ AtHome s pa bs.length a)
    (hk : k = kid ∨ ¬ LineAtHome s pa a) : (s.putRaw kid pa bs).plain k a = s.plain k a := by
  have home : (s.putHere kid pa bs).plain k a = s.plain k a :=
    (State.plain_of_cells (State.putHere_cells s kid pa bs) k a).trans
      (State.plain_rekey_write h (fun here => ha (.inl here)) (hk.imp_right (fun hl e => hl (.inl e))))
  rw [State.putRaw_eq]; split
  · next ra hr =>
    have there : ¬ (ra ≤ a ∧ a < ra + bs.length) := fun there => ha (.inr ⟨0, by omega, ra, hr, there⟩)
    exact (State.plain_rekey_write (State.putHere_keyed h kid pa bs) there (hk.imp_right (fun hl e => hl (.inr ⟨ra, hr, e⟩)))).trans home
  · exact home

/-- Bytes that are written at a home one by one. -/
def putEach (s : State) (kid pa : Nat) (bs : List (Byte × Nat)) : State := bs.foldl (fun (t : State) b => t.putRaw kid (pa + b.2) [b.1]) s

theorem plain_putEach_out {kid k pa a : Nat} (bs : List (Byte × Nat)) : ∀ {t : State}, t.Keyed → (∀ p, t.replicaOf p = s.replicaOf p) →
    (∀ b ∈ bs, ¬ AtHome s (pa + b.2) 1 a ∧ (k = kid ∨ ¬ LineAtHome s (pa + b.2) a)) → (putEach t kid pa bs).plain k a = t.plain k a := by
  induction bs with
  | nil => exact fun _ _ _ => rfl
  | cons b bs ih =>
    intro t h same out
    obtain ⟨outside, line⟩ := out b List.mem_cons_self
    have first : (t.putRaw kid (pa + b.2) [b.1]).plain k a = t.plain k a := by
      refine plain_putRaw_out h ?_ (line.imp_right ?_)
      · simpa only [AtHome, same, List.length_singleton] using outside
      · simpa only [LineAtHome, same] using id
    refine (ih (State.putRaw_keyed h _ _ _) (fun p => (replicaOf_putRaw t _ _ _ p).trans (same p)) ?_).trans first
    exact fun b hb => out b (List.mem_cons_of_mem _ hb)

/-! ## A store that is performed -/

/-- The home takes the bytes of a store: on the home die, or of a page that is not cached away. -/
theorem storeBytes_cells_at_home {d pa : Nat} {x : Attr} (hd : s.isHome d pa = true ∨ uncached x.home = true) (hp : s.partials = [])
    (bs : List Byte) (rels : List Rel) (by_ : Option Nat) :
    (s.storeBytes d x pa bs rels by_).cells = ((s.shadowed pa bs.length).putRaw x.kid pa bs).cells := by
  have np : (s.shadowed pa bs.length).partials = [] := (s.shadowed_keeps State.partials (fun _ _ => rfl) pa _).trans hp
  have home : (((List.range bs.length).foldl (fun (t : State) i => t.keepShadow (pa + i)) s).putHome x.kid pa bs).cells
      = ((s.shadowed pa bs.length).putRaw x.kid pa bs).cells :=
    congrArg (fun (t : State) => (t.putRaw x.kid pa bs).cells) (State.recallLine_of_no_partials np _)
  unfold State.storeBytes; dsimp only
  rw [if_pos hd, State.recallLine_of_no_partials hp]
  generalize State.putHome _ x.kid pa bs = u at home
  split
  · exact home
  · exact home

/-- A store away from home goes into the die's copy. -/
theorem storeBytes_cells_away {d pa : Nat} {x : Attr} (hd : ¬ (s.isHome d pa = true ∨ uncached x.home = true)) (bs : List Byte)
    (rels : List Rel) (by_ : Option Nat) : (s.storeBytes d x pa bs rels by_).cells = s.cells := by
  have copied : (if ((s.die d).copyOf (pa / 64)).isSome then s else s.addCopy d x (pa / 64)).cells = s.cells := by
    split
    · rfl
    · rfl
  unfold State.storeBytes; dsimp only
  rw [if_neg hd]
  generalize (if ((s.die d).copyOf (pa / 64)).isSome = true then s else s.addCopy d x (pa / 64)) = u at copied
  exact copied

theorem plain_storeBytes_out (h : s.Keyed) (hp : s.partials = []) {d pa kid a : Nat} {x : Attr} {bs : List Byte}
    (ha : (s.isHome d pa = true ∨ x.home = 1 ∨ x.home = 3) → ¬ (AtHome s pa bs.length a ∨ (kid ≠ x.kid ∧ LineAtHome s pa a)))
    (rels : List Rel) (by_ : Option Nat) : (s.storeBytes d x pa bs rels by_).plain kid a = s.plain kid a := by
  by_cases hd : s.isHome d pa = true ∨ uncached x.home = true
  · have out := ha (hd.imp_right (fun hu => by simpa [uncached] using hu))
    obtain ⟨outside, line⟩ := not_or.mp out
    have same : ∀ p, (s.shadowed pa bs.length).replicaOf p = s.replicaOf p := fun p =>
      s.shadowed_keeps (fun t => t.replicaOf p) (fun _ _ => rfl) pa _
    calc (s.storeBytes d x pa bs rels by_).plain kid a
        = ((s.shadowed pa bs.length).putRaw x.kid pa bs).plain kid a := State.plain_of_cells (storeBytes_cells_at_home hd hp bs rels by_) kid a
      _ = (s.shadowed pa bs.length).plain kid a := by
          refine plain_putRaw_out (State.keyed_of_cells h (State.shadowed_cells s pa _)) ?_ ?_
          · simpa only [AtHome, same] using outside
          · simp only [LineAtHome, same]
            exact Decidable.or_iff_not_imp_left.mpr (fun hk hl => line ⟨hk, hl⟩)
      _ = s.plain kid a := State.plain_of_cells (State.shadowed_cells s pa _) kid a
  · exact State.plain_of_cells (storeBytes_cells_away hd bs rels by_) kid a

theorem plain_scratchWrite_out (h : s.Keyed) {fid off kid a : Nat} {bs : List Byte}
    (ha : ¬ match s.imageScratch fid with
      | none => scratchLoc fid off ≤ a ∧ a < scratchLoc fid off + bs.length
      | some (pa, k) => AtHome s (pa + off) bs.length a ∨ (kid ≠ k ∧ ∃ i < bs.length, LineAtHome s (pa + off + i) a))
    (rels : List Rel) (by_ : Option Nat) : (s.scratchWrite fid off bs rels by_).plain kid a = s.plain kid a := by
  unfold State.scratchWrite
  cases image : s.imageScratch fid with
  | none =>
    rw [image] at ha
    exact (State.plain_of_cells (State.tagged_cells _ _ _ _ _) kid a).trans (State.plain_write_out h ha kid)
  | some x =>
    obtain ⟨pa, k⟩ := x
    rw [image] at ha
    obtain ⟨outside, line⟩ := not_or.mp ha
    refine plain_putEach_out bs.zipIdx h (fun _ => rfl) (fun b hb => ⟨?_, ?_⟩)
    · have hi : b.2 < bs.length := by simpa using (List.mem_zipIdx hb).2.1
      rintro (⟨low, high⟩ | ⟨i, hi0, ra, hr, low, high⟩)
      · exact outside (.inl ⟨by omega, by omega⟩)
      · obtain rfl : i = 0 := by omega
        exact outside (.inr ⟨b.2, hi, ra, hr, low, by omega⟩)
    · have hi : b.2 < bs.length := by simpa using (List.mem_zipIdx hb).2.1
      exact Decidable.or_iff_not_imp_left.mpr (fun hk hl => line ⟨hk, b.2, hi, hl⟩)

/-- A store that is performed changes what `Writes` names (R195, R390, R410). -/
theorem plain_perform_out (h : s.Keyed) (hp : s.partials = []) {w : Store} (ht : s.perform w = some t) {kid a : Nat}
    (ha : ¬ Writes s w kid a) : t.plain kid a = s.plain kid a := by
  unfold State.perform at ht
  unfold Writes at ha
  cases dest : w.dest with
  | mem x pa =>
    rw [dest] at ht ha
    dsimp only at ht ha
    rcases reach : s.reach w.die pa with p | _ | _
    · rw [reach] at ht
      obtain rfl := Option.some.inj ht
      refine (State.plain_of_cells (State.wroteStore_cells _ _ _ _ _ _) kid a).trans (plain_storeBytes_out h hp ?_ _ _)
      exact fun hd hw => ha ⟨p, reach, hd, hw⟩
    · rw [reach] at ht
      obtain rfl := Option.some.inj ht
      rfl
    · rw [reach] at ht
      cases ht
  | scratch fid off =>
    rw [dest] at ht ha
    obtain rfl := Option.some.inj ht
    split
    · refine (State.plain_of_cells ((State.forward_cells _ _ _ _ _).trans (State.wroteStore_cells _ _ _ _ _ _)) kid a).trans ?_
      exact plain_scratchWrite_out h ha _ _
    · rfl

theorem scratchWrite_stores (s : State) (fid off : Nat) (bs : List Byte) (rels : List Rel) (by_ : Option Nat) :
    (s.scratchWrite fid off bs rels by_).stores = s.stores := by
  unfold State.scratchWrite; split
  · exact State.foldl_keeps State.stores (fun t _ => State.putRaw_stores t _ _ _) _ s
  · rfl

theorem storeBytes_stores (hp : s.partials = []) (d : Nat) (x : Attr) (pa : Nat) (bs : List Byte) (rels : List Rel) (by_ : Option Nat) :
    (s.storeBytes d x pa bs rels by_).stores = s.stores := by
  by_cases hd : s.isHome d pa = true ∨ uncached x.home = true
  · calc (s.storeBytes d x pa bs rels by_).stores
        = ((s.shadowed pa bs.length).putRaw x.kid pa bs).stores := State.stores_of_cells (storeBytes_cells_at_home hd hp bs rels by_)
      _ = (s.shadowed pa bs.length).stores := State.putRaw_stores _ _ _ _
      _ = s.stores := State.stores_of_cells (State.shadowed_cells s pa _)
  · exact State.stores_of_cells (storeBytes_cells_away hd bs rels by_)

/-- A store that is performed leaves those that others have still to see. -/
theorem perform_stores (hp : s.partials = []) {w : Store} (ht : s.perform w = some t) : t.stores = s.stores := by
  unfold State.perform at ht
  split at ht
  · split at ht
    · obtain rfl := Option.some.inj ht
      exact (State.stores_of_cells (State.wroteStore_cells _ _ _ _ _ _)).trans (storeBytes_stores hp _ _ _ _ _ _)
    · obtain rfl := Option.some.inj ht
      rfl
    · cases ht
  · obtain rfl := Option.some.inj ht
    split
    · exact (State.stores_of_cells ((State.forward_cells _ _ _ _ _).trans (State.wroteStore_cells _ _ _ _ _ _))).trans
        (scratchWrite_stores s _ _ _ _ _)
    · rfl

end Sys2Proof.Claims
end

section
/-! What the accesses of a store leave as it is, and what they post and send (R208 to R211, R282, R286, R293). -/

namespace Sys2Proof.Machine

variable {s : State}

/-! ## What no access of a store changes -/

/-- Memory, its earlier values and keys, the views, and the parties. -/
def State.standing (s : State) : (List Host.Cell × List (Nat × List Past) × List (Nat × Nat) × List (Nat × View))
    × (Quire × List Quire × List Folio × List Saved) :=
  ((s.mem, s.hist, s.lineKey, s.views), s.parties)

theorem State.standing_eq_iff {t : State} : t.standing = s.standing ↔
    t.mem = s.mem ∧ t.hist = s.hist ∧ t.lineKey = s.lineKey ∧ t.views = s.views ∧ t.parties = s.parties := by
  simp [State.standing, and_assoc]

theorem State.parties_of_standing {t : State} (h : t.standing = s.standing) : t.parties = s.parties := congrArg Prod.snd h

theorem State.q_of_standing {t : State} (h : t.standing = s.standing) : t.q = s.q := congrArg (·.2.1) h

theorem State.fol_of_standing {t : State} (h : t.standing = s.standing) : t.fol = s.fol := by
  obtain ⟨hq, -, hf, hs⟩ := State.parties_eq_iff.mp (State.parties_of_standing h)
  simp [State.fol, State.folio, hq, hf, hs]

theorem State.modDie_die_mgmt (s : State) (d : Nat) {f : Die → Die} (hf : ∀ z, (f z).mgmt = z.mgmt) (k : Nat) :
    ((s.modDie d f).die k).mgmt = (s.die k).mgmt := by
  simp only [State.die, State.modDie_dies, List.getD_eq_getElem?_getD, List.getElem?_mapIdx]
  cases s.dies[k]? with
  | none => rfl
  | some z =>
    simp only [Option.map_some, Option.getD_some]
    split
    · exact hf z
    · rfl

/-- The pinned ways are no management register. -/
theorem State.pinLine_die_mgmt (s : State) (home line k : Nat) : ((s.pinLine home line).die k).mgmt = (s.die k).mgmt := by
  unfold State.pinLine; dsimp only; split
  · rfl
  · refine State.modDie_die_mgmt s _ (fun z => ?_) k
    split
    · rfl
    · split <;> rfl

theorem State.touchCore_die_mgmt (s : State) (l : Level) (w : Bool) (t : Target) (k : Nat) : ((s.touchCore l w t).die k).mgmt = (s.die k).mgmt := by
  unfold State.touchCore State.touch; split
  · dsimp only; split
    · rfl
    · refine Eq.trans (State.modDie_die_mgmt _ _ (fun _ => ?_) k) (State.pinLine_die_mgmt _ _ _ k)
      rfl
  · rfl

theorem State.pinLine_keeps {β : Type} (g : State → β) (hd : ∀ (t : State) d f, g (t.modDie d f) = g t) (s : State) (home line : Nat) :
    g (s.pinLine home line) = g s := by
  unfold State.pinLine; dsimp only; split
  · rfl
  · exact hd _ _ _

/-- What the caches keep of an access is not what it stores. -/
theorem State.touchCore_keeps {β : Type} (g : State → β) (hd : ∀ (t : State) d f, g (t.modDie d f) = g t)
    (hc : ∀ (t : State) d h l, g (t.classLine d h l) = g t) (s : State) (l : Level) (w : Bool) (t : Target) : g (s.touchCore l w t) = g s := by
  unfold State.touchCore State.touch; split
  · dsimp only; split
    · rfl
    · exact (hd _ _ _).trans ((State.pinLine_keeps g hd _ _ _).trans (hc s _ _ _))
  · rfl

theorem State.mgmtWrite_keeps {β : Type} (g : State → β) (hd : ∀ (t : State) d f, g (t.modDie d f) = g t)
    (hk : ∀ (t : State) ks, g { t with keys := ks } = g t) (s : State) (d n : Nat) (v : DWord) : g (s.mgmtWrite d n v) = g s := by
  have key : ∀ erase, g (s.keyCommand d erase) = g s := fun erase => by
    unfold State.keyCommand; dsimp only; split
    · rfl
    · exact (State.foldl_keeps g (fun t i => hd t _ _) _ _).trans (hk s _)
  unfold State.mgmtWrite; split
  · rfl
  · split
    · split
      · exact key false
      · split
        · exact key true
        · rfl
    · split
      · exact hd _ _ _
      · rfl
    · exact hd _ _ _
    · exact hd _ _ _
    · exact hd _ _ _

/-- A write to a management register changes dies, key slots and the LQCTL writes that wait. -/
theorem State.deviceWrite_keeps {β : Type} (g : State → β) (hd : ∀ (t : State) d f, g (t.modDie d f) = g t)
    (hk : ∀ (t : State) ks, g { t with keys := ks } = g t) (hl : ∀ (t : State) xs, g { t with lqWait := xs } = g t)
    (s : State) (uid d n : Nat) (v : DWord) : g (s.deviceWrite uid d n v) = g s := by
  unfold State.deviceWrite; split
  · rfl
  · split
    · exact hl s _
    · exact State.mgmtWrite_keeps g hd hk s d n v

/-! ## The elements of a store -/

/-- One element of the bytes `bs` of a store at `t`, issued in the state `s`, is posted, or sent to the scratchpad of another core. -/
def State.postElement (s : State) (t : Target) (bs : List Byte) (lane : Nat) (rels : List Rel) (z : State) (e : Nat × Nat) : State :=
  let part := (bs.drop e.1).take e.2
  let post := fun (p : Place) => { z with
    stores := z.stores ++ [{ id := z.next, from_ := s.q.uid, lane := lane, die := s.fol.die, dest := p, bytes := part, rels := rels }]
    next := z.next + 1 }
  match t with
  | .mem x _ => post (.mem { x.attr with va := x.attr.va + e.1 } (x.pa + e.1))
  | .scratch fid off => if s.sameCore fid then post (.scratch fid (off + e.1)) else z.send s.q.uid fid (off + e.1) part none rels
  | _ => z

/-- The state in which a store's elements begin: the stores to its bytes that happen before it have been performed (R293). -/
def State.behindOwed (s : State) (t : Target) (n : Nat) : State := (s.owedStores t n).settleOwedAt t n

theorem State.storeTo_eq (s : State) (t : Target) (n v lane : Nat) (rel : Option Nat) :
    s.storeTo t n v lane rel = let u := s.behindOwed t n
      (t.elements n).foldl (u.postElement t (leBytes n v) lane (u.carried u.q.uid rel)) u := rfl

/-- A quire that owes nothing begins at once. -/
theorem State.behindOwed_of_owes_nothing (h : (s.view s.q.uid).owed = []) (t : Target) (n : Nat) : s.behindOwed t n = s := by
  have owed : s.owedStores t n = s := if_pos h
  unfold State.behindOwed State.settleOwedAt
  rw [owed]
  dsimp only; split
  · exact if_pos h
  · rfl

theorem Target.hinted_loc (t : Target) (hint : Nat) : (t.hinted hint).loc = t.loc := by cases t <;> rfl

end Sys2Proof.Machine

namespace Sys2Proof.Claims
open Sys2Proof.Machine

variable {s t u v z : State} {xs ys : List Access} {n : Nat}

/-! ## What some accesses have posted and sent -/

/-- A store of the issuing quire within `n` bytes of one of the accesses. -/
def OwnStore (u : State) (xs : List Access) (n : Nat) (w : Store) : Prop :=
  w.from_ = u.q.uid ∧ w.die = u.fol.die ∧ ∃ x ∈ xs, x.t.loc ≤ w.dest.loc ∧ w.dest.loc + w.bytes.length ≤ x.t.loc + n

/-- A write on its way from the issuing quire within `n` bytes of one of the accesses. -/
def OwnSent (u : State) (xs : List Access) (n : Nat) (w : Inbound) : Prop :=
  w.from_ = u.q.uid ∧ w.sub = none ∧ ∃ x ∈ xs, ∃ off, x.t = .scratch w.fid off ∧ off ≤ w.off ∧ w.off + w.bytes.length ≤ off + n

/-- What the accesses of a store have done since `u`, before the batch moves on. -/
structure Stored (u t : State) (xs : List Access) (n : Nat) : Prop where
  stands : t.standing = u.standing
  posted : ∃ new, t.stores = u.stores ++ new ∧ ∀ w ∈ new, OwnStore u xs n w
  sent : ∃ new, t.inbound = u.inbound ++ new ∧ ∀ w ∈ new, OwnSent u xs n w
  mgmt : (∀ x ∈ xs, ∀ y pa, x.t ≠ .device y pa) → ∀ d, (t.die d).mgmt = (u.die d).mgmt

theorem Stored.refl (u : State) (xs : List Access) (n : Nat) : Stored u u xs n :=
  ⟨rfl, ⟨[], (List.append_nil _).symm, fun _ hw => nomatch hw⟩, ⟨[], (List.append_nil _).symm, fun _ hw => nomatch hw⟩, fun _ _ => rfl⟩

theorem ownStore_mono (h : xs ⊆ ys) {w : Store} : OwnStore u xs n w → OwnStore u ys n w
  | ⟨from_, die, x, hx, inside⟩ => ⟨from_, die, x, h hx, inside⟩

theorem ownSent_mono (h : xs ⊆ ys) {w : Inbound} : OwnSent u xs n w → OwnSent u ys n w
  | ⟨from_, sub, x, hx, inside⟩ => ⟨from_, sub, x, h hx, inside⟩

theorem Stored.trans (a : Stored u t xs n) (b : Stored t v ys n) : Stored u v (xs ++ ys) n := by
  have quire := State.q_of_standing a.stands
  have folio := State.fol_of_standing a.stands
  obtain ⟨new, hnew, own⟩ := a.posted
  obtain ⟨new', hnew', own'⟩ := b.posted
  obtain ⟨gone, hgone, ours⟩ := a.sent
  obtain ⟨gone', hgone', ours'⟩ := b.sent
  refine ⟨b.stands.trans a.stands, ⟨new ++ new', by rw [hnew', hnew, List.append_assoc], fun w hw => ?_⟩,
    ⟨gone ++ gone', by rw [hgone', hgone, List.append_assoc], fun w hw => ?_⟩, fun hd d => ?_⟩
  · rcases List.mem_append.mp hw with hw | hw
    · exact ownStore_mono (List.subset_append_left xs ys) (own w hw)
    · have later := own' w hw
      unfold OwnStore at later
      rw [quire, folio] at later
      exact ownStore_mono (List.subset_append_right xs ys) later
  · rcases List.mem_append.mp hw with hw | hw
    · exact ownSent_mono (List.subset_append_left xs ys) (ours w hw)
    · have later := ours' w hw
      unfold OwnSent at later
      rw [quire] at later
      exact ownSent_mono (List.subset_append_right xs ys) later
  · exact (b.mgmt (fun x hx => hd x (List.mem_append_right _ hx)) d).trans (a.mgmt (fun x hx => hd x (List.mem_append_left _ hx)) d)

/-! ## One access -/

/-- What the caches keep of an access posts nothing. -/
theorem stored_touchCore (u : State) (l : Level) (w : Bool) (t : Target) (n : Nat) : Stored u (u.touchCore l w t) [] n := by
  have stores : (u.touchCore l w t).stores = u.stores := State.touchCore_keeps State.stores (fun _ _ _ => rfl) (fun _ _ _ _ => rfl) u l w t
  have inbound : (u.touchCore l w t).inbound = u.inbound := State.touchCore_keeps State.inbound (fun _ _ _ => rfl) (fun _ _ _ _ => rfl) u l w t
  exact ⟨State.touchCore_keeps State.standing (fun _ _ _ => rfl) (fun _ _ _ _ => rfl) u l w t,
    ⟨[], stores.trans (List.append_nil _).symm, fun _ hw => nomatch hw⟩,
    ⟨[], inbound.trans (List.append_nil _).symm, fun _ hw => nomatch hw⟩, fun _ d => State.touchCore_die_mgmt u l w t d⟩

/-- A write to a management register posts nothing. -/
theorem stored_deviceWrite (u : State) (uid d k : Nat) (v : DWord) {x : Access} {y : Leaf} {pa : Nat} (hx : x.t = .device y pa) (n : Nat) :
    Stored u (u.deviceWrite uid d k v) [x] n := by
  have stores : (u.deviceWrite uid d k v).stores = u.stores :=
    State.deviceWrite_keeps State.stores (fun _ _ _ => rfl) (fun _ _ => rfl) (fun _ _ => rfl) u uid d k v
  have inbound : (u.deviceWrite uid d k v).inbound = u.inbound :=
    State.deviceWrite_keeps State.inbound (fun _ _ _ => rfl) (fun _ _ => rfl) (fun _ _ => rfl) u uid d k v
  exact ⟨State.deviceWrite_keeps State.standing (fun _ _ _ => rfl) (fun _ _ => rfl) (fun _ _ => rfl) u uid d k v,
    ⟨[], stores.trans (List.append_nil _).symm, fun _ hw => nomatch hw⟩,
    ⟨[], inbound.trans (List.append_nil _).symm, fun _ hw => nomatch hw⟩,
    fun hd => absurd hx (hd x List.mem_cons_self y pa)⟩

/-- A store that is posted within the access. -/
theorem stored_post (h : Stored u z xs n) {w : Store} (hw : OwnStore u xs n w) (m : Nat) :
    Stored u { z with stores := z.stores ++ [w], next := m } xs n := by
  obtain ⟨new, hnew, own⟩ := h.posted
  refine ⟨h.stands, ⟨new ++ [w], by rw [← List.append_assoc, ← hnew], ?_⟩, h.sent, h.mgmt⟩
  exact List.forall_mem_append.mpr ⟨own, List.forall_mem_singleton.mpr hw⟩

/-- A write that is sent within the access. -/
theorem stored_send (h : Stored u z xs n) {w : Inbound} (hw : OwnSent u xs n w) (m : Nat) :
    Stored u { z with inbound := z.inbound ++ [w], next := m } xs n := by
  obtain ⟨new, hnew, own⟩ := h.sent
  refine ⟨h.stands, h.posted, ⟨new ++ [w], by rw [← List.append_assoc, ← hnew], ?_⟩, h.mgmt⟩
  exact List.forall_mem_append.mpr ⟨own, List.forall_mem_singleton.mpr hw⟩

/-- An element of a store lies within its access. -/
theorem stored_postElement {x : Access} {hint : Nat} {bs : List Byte} {e : Nat × Nat} (h : Stored u z [x] n) (he : e.1 + e.2 ≤ n)
    (lane : Nat) (rels : List Rel) : Stored u (u.postElement (x.t.hinted hint) bs lane rels z e) [x] n := by
  have len : ((bs.drop e.1).take e.2).length ≤ e.2 := List.length_take_le _ _
  obtain ⟨l, ea, t⟩ := x
  cases t with
  | mem y pa =>
    refine stored_post h ⟨rfl, rfl, _, List.mem_cons_self, ?_, ?_⟩ _
    · exact Nat.le_add_right y.pa e.1
    · show y.pa + e.1 + ((bs.drop e.1).take e.2).length ≤ y.pa + n
      omega
  | scratch fid off =>
    unfold State.postElement Target.hinted
    dsimp only; split
    · refine stored_post h ⟨rfl, rfl, _, List.mem_cons_self, ?_, ?_⟩ _
      · show scratchLoc fid off ≤ scratchLoc fid (off + e.1)
        unfold scratchLoc; omega
      · show scratchLoc fid (off + e.1) + ((bs.drop e.1).take e.2).length ≤ scratchLoc fid off + n
        unfold scratchLoc; omega
    · refine stored_send h ⟨rfl, rfl, _, List.mem_cons_self, off, rfl, Nat.le_add_right _ _, ?_⟩ _
      show off + e.1 + ((bs.drop e.1).take e.2).length ≤ off + n
      omega
  | device y pa => exact h
  | waits ea => exact h

/-- The elements of one access, from the state in which they begin. -/
theorem stored_elements {x : Access} {hint : Nat} {bs : List Byte} (lane : Nat) (rels : List Rel) (es : List (Nat × Nat)) :
    ∀ {z : State}, Stored u z [x] n → (∀ e ∈ es, e.1 + e.2 ≤ n) → Stored u (es.foldl (u.postElement (x.t.hinted hint) bs lane rels) z) [x] n := by
  induction es with
  | nil => exact fun h _ => h
  | cons e es ih =>
    intro z h inside
    exact ih (stored_postElement h (inside e List.mem_cons_self) lane rels) (fun e' he' => inside e' (List.mem_cons_of_mem _ he'))

/-- A store to memory or a scratchpad, from the state in which what happens before it has been performed. -/
theorem stored_storeTo (s : State) (x : Access) (hint n v lane : Nat) (rel : Option Nat) :
    Stored (s.behindOwed (x.t.hinted hint) n) (s.storeTo (x.t.hinted hint) n v lane rel) [x] n := by
  rw [State.storeTo_eq]
  exact stored_elements lane _ _ (Stored.refl _ _ _) (fun _ he => Target.element_le he)

theorem storeOne_eq_of_not_device {x : Access} (hx : ∀ y pa, x.t ≠ .device y pa) (s : State) (n hint v : Nat) (rel : Option Nat) :
    s.storeOne n hint x v rel = (s.touchCore .l1 true (x.t.hinted hint)).storeTo (x.t.hinted hint) n v x.lane rel := by
  obtain ⟨l, ea, t⟩ := x
  cases t with
  | device y pa => exact absurd rfl (hx y pa)
  | mem y pa => rfl
  | scratch fid off => rfl
  | waits ea => rfl

theorem owesNothing_of_standing (h : t.standing = u.standing) (own : OwesNothing u) : OwesNothing t := by
  obtain ⟨-, -, -, views, -⟩ := State.standing_eq_iff.mp h
  unfold OwesNothing State.view
  rw [views, State.q_of_standing h]
  exact own

/-- One access of a quire that owes nothing. -/
theorem stored_storeOne (own : OwesNothing s) (n hint : Nat) (x : Access) (v : Nat) (rel : Option Nat) :
    Stored s (s.storeOne n hint x v rel) [x] n := by
  by_cases hx : ∀ y pa, x.t ≠ .device y pa
  · have touched := stored_touchCore s .l1 true (x.t.hinted hint) n
    have stored := stored_storeTo (s.touchCore .l1 true (x.t.hinted hint)) x hint n v x.lane rel
    rw [State.behindOwed_of_owes_nothing (owesNothing_of_standing touched.stands own)] at stored
    rw [storeOne_eq_of_not_device hx]
    exact touched.trans stored
  · obtain ⟨y, hx⟩ := Classical.not_forall.mp hx
    obtain ⟨pa, hx⟩ := Classical.not_forall.mp hx
    have device : x.t = .device y pa := Classical.not_not.mp hx
    unfold State.storeOne Target.hinted
    rw [device]
    dsimp only; split
    · exact stored_deviceWrite s _ _ _ _ device n
    · exact Stored.refl _ _ _

/-- The accesses of a store, lane by lane, of a quire that owes nothing. -/
theorem stored_storeAll (n hint : Nat) (v : Nat → Nat) (rel : Option Nat) (xs : List Access) :
    ∀ {s : State}, OwesNothing s → Stored s (s.storeAll n hint xs v rel) xs n := by
  induction xs with
  | nil => exact fun _ => Stored.refl _ _ _
  | cons x xs ih =>
    intro s own
    have first := stored_storeOne own n hint x (v x.lane) rel
    exact first.trans (ih (owesNothing_of_standing first.stands own))

/-! ## The frame -/

/-- A byte that no new store holds reads as before among the stores of a quire. -/
theorem ownByte_of_posted {uid : Nat} {new : List Store} (hnew : t.stores = u.stores ++ new) {y : Target} {i : Nat}
    (out : ∀ w ∈ new, y.loc + i < w.dest.loc ∨ w.dest.loc + w.bytes.length ≤ y.loc + i) : t.ownByte uid y i = u.ownByte uid y i := by
  unfold State.ownByte
  dsimp only
  rw [hnew, List.reverse_append, List.find?_append]
  have none : new.reverse.find? (fun x => x.from_ = uid && x.dest.loc ≤ y.loc + i && y.loc + i < x.dest.loc + x.bytes.length) = none := by
    refine List.find?_eq_none.mpr (fun w hw covers => ?_)
    have := out w (List.mem_reverse.mp hw)
    simp only [Bool.and_eq_true, decide_eq_true_eq] at covers
    omega
  rw [none, Option.none_or]

/-- Where a batch has moved on behind a store's accesses, the store has its frame. -/
theorem storeFrame_of_moved {h : Fibre → Fibre} {ws : List Wait} (stored : Stored u z xs n) (moved : ∀ f : Fibre, f.Moved (h f))
    (ht : t = { z with q := { z.q with fibres := z.q.fibres.map h, waits := ws } }) : StoreFrame u t xs n u.q := by
  subst ht
  obtain ⟨mem, hist, lineKey, -, parties⟩ := State.standing_eq_iff.mp stored.stands
  obtain ⟨quire, rest, folios, -⟩ := State.parties_eq_iff.mp parties
  obtain ⟨new, hnew, own⟩ := stored.posted
  refine ⟨mem, hist, lineKey, ⟨new, hnew, own⟩, stored.sent, fun y i out => ?_, ?_, ?_, rest, folios, stored.mgmt⟩
  · refine ownByte_of_posted hnew (fun w hw => ?_)
    obtain ⟨-, -, x, hx, low, high⟩ := own w hw
    have := out x hx
    omega
  · rw [quire]
  · rw [quire]
    refine ⟨(List.length_map _).symm, fun i f g hf hg => ?_⟩
    rw [List.getElem?_map, hf] at hg
    obtain rfl := Option.some.inj hg
    exact moved f

/-- Behind the accesses the batch goes on. -/
theorem storeFrame_advance (stored : Stored u z xs n) (ms : List Fibre) (len : Nat) : StoreFrame u (z.unblocked.advance ms len) xs n u.q := by
  obtain ⟨h, ht, moved, -⟩ := z.unblocked.advance_fibres ms len
  exact storeFrame_of_moved stored moved ht

/-- The accesses alone. -/
theorem storeFrame_of_stored (stored : Stored u z xs n) : StoreFrame u z xs n u.q :=
  storeFrame_of_moved (h := id) (ws := z.q.waits) stored Fibre.Moved.refl (by rw [List.map_id])

theorem owesNothing_cacheAll (own : OwesNothing s) (xs : List Access) : OwesNothing (s.cacheAll xs) := by
  have leaf : ∀ (t : State) (d asid : Nat) (ps : List TlbPlace) (x : Leaf), (t.cacheLeaf d asid ps x).views = t.views :=
    fun t d asid ps x => State.foldl_keeps State.views (fun t p => by dsimp only; split <;> rfl) ps t
  have views : (s.cacheAll xs).views = s.views := by
    refine State.foldl_keeps State.views (fun t x => ?_) xs s
    unfold State.cacheTarget
    split
    · exact leaf t _ _ _ _
    · exact leaf t _ _ _ _
    · rfl
  unfold OwesNothing State.view
  rw [views, State.cacheAll_q]
  exact own

/-! ## The store words -/

variable {i : Instr} {x : MArgs} {y : UMArgs}

theorem storeFrame_of_run {D : Desc} {b : Res} (clear : D.clear s) (run : exec i s = .next (D.run s b)) (hb : b = .done z)
    (stored : Stored u z xs n) : ∃ t, exec i s = .next t ∧ StoreFrame u t xs n u.q := by
  subst hb
  exact ⟨_, run.trans (congrArg _ (Desc.run_done clear)), storeFrame_advance stored _ _⟩

theorem storeFrame_of_laneStore (run : exec i s = laneStore 0x21 i.wf x s)
    (passes : Passes i (memWord 0x21 x (.src x.d (mtWidth x.mt) :: x.uses 64)) s)
    (reach : Reaches s (laneEas x s 64) (fun ea => s.memCheck s.q.fid ea (mtBytes x.mt) .write) (mtBytes x.mt) false xs) :
    Behind i x.len x.ord x.scope s (s.cacheAll xs)
      (fun u => OwesNothing u → ∃ t, exec i s = .next t ∧ StoreFrame u t xs (mtBytes x.mt) u.q) := by
  have clear : (storeDesc 0x21 i.wf 64 x s).clear s := passes.clear rfl rfl
  refine behind_of_run clear (run_of_reaches (run.trans laneStore_eq) clear (.inl rfl) reach) (fun u ran own => ?_)
  exact storeFrame_of_run clear ran rfl (stored_storeAll _ _ _ _ xs own)

theorem storeFrame_of_laneSts (run : exec i s = laneSts 0x23 i.wf x s)
    (passes : Passes i (memWord 0x23 x (.src x.d (mtWidth x.mt) :: x.uses 32)) s)
    (reach : Reaches s (laneEas x s 32) (s.offsetCheck x.rem (mtBytes x.mt)) (mtBytes x.mt) false xs) (own : OwesNothing s) :
    ∃ t, exec i s = .next t ∧ StoreFrame (s.cacheAll xs) t xs (mtBytes x.mt) s.q := by
  have clear : (storeDesc 0x23 i.wf 32 x s).clear s := passes.clear rfl rfl
  have framed := storeFrame_of_run clear (run_of_reaches (run.trans laneSts_eq) clear (.inl rfl) reach) rfl
    (stored_storeAll _ _ _ _ xs (owesNothing_cacheAll own xs))
  rwa [State.cacheAll_q] at framed

theorem storeFrame_of_uniStore {z : Access} (run : exec i s = uniStore 0x11 i.wf y s)
    (passes : Passes i (memWordU 0x11 y (y.data :: y.uses)) s) (active : s.kActive y.pr y.neg = true)
    (reach : Reaches s [(0, uniEa y s)] (fun ea => s.memCheck s.q.fid ea (umtBytes y.mt) .write) (umtBytes y.mt) false [z]) :
    Behind i y.len y.ord y.scope s (s.cacheAll [z])
      (fun u => OwesNothing u → ∃ t, exec i s = .next t ∧ StoreFrame u t [z] (umtBytes y.mt) u.q) := by
  have clear : (storeDescU 0x11 i.wf y s).clear s := passes.clear rfl rfl
  refine behind_of_run clear (run_of_reaches (run.trans uniStore_eq) clear (.inr active) reach) (fun u ran own => ?_)
  exact storeFrame_of_run clear ran rfl (stored_storeAll _ _ _ _ [z] own)

/-- Settles O45: the accesses of a store post and send within their bytes and leave the rest, one after the other; and a store that is
performed writes what `Writes` names. -/
theorem storeFrames : Obligations.StoreFrames := by
  unfold Obligations.StoreFrames
  refine fun s => ⟨?_, ?_, ?_, fun x n hint v rel hx => ?_, fun w t canon keys np ht => ?_⟩
  · rintro x i xs (⟨o, m2, rfl, rfl⟩ | ⟨o, rfl, rfl⟩ | ⟨o, rfl, rfl⟩) passes reach
    · exact storeFrame_of_laneStore rfl passes reach
    · exact storeFrame_of_laneStore rfl passes reach
    · exact storeFrame_of_laneStore rfl passes reach
  · rintro x i xs (⟨o, m2, rfl, rfl⟩ | ⟨o, rfl, rfl⟩ | ⟨o, rfl, rfl⟩) passes reach own
    · exact storeFrame_of_laneSts rfl passes reach own
    · exact storeFrame_of_laneSts rfl passes reach own
    · exact storeFrame_of_laneSts rfl passes reach own
  · rintro x i y (⟨o, m2, rfl, rfl⟩ | ⟨o, rfl, rfl⟩ | ⟨o, rfl, rfl⟩) passes active reach
    · exact storeFrame_of_uniStore rfl passes active reach
    · exact storeFrame_of_uniStore rfl passes active reach
    · exact storeFrame_of_uniStore rfl passes active reach
  · rw [storeOne_eq_of_not_device hx]
    exact storeFrame_of_stored (stored_storeTo _ x hint n v x.lane rel)
  · obtain ⟨quire, rest, folios, -⟩ := State.parties_eq_iff.mp (State.perform_parties w ht)
    exact ⟨quire, rest, folios, perform_stores np ht, fun kid loc => plain_perform_out ⟨canon, keys⟩ np ht⟩

end Sys2Proof.Claims
end

section
/-! The atomic operations as accesses with an effect behind a release (R229 to R236). -/

namespace Sys2Proof.Machine

open Sys2Proof.Claims (laneEas uniEa laneElem)

variable {op : Nat} {legal : Bool} {o : LF} {s : State}

/-- The state behind an atomic's acquire, which it makes with ACQ (R231). -/
def State.acquired (s : State) (o : LF) : State := if ordAcq o.hnt then s.acquire o.low3.toNat else s

/-- The scope of the release that an atomic is with REL (R231). -/
def atomScope (o : LF) : Option Nat := ordScope (ordRel o.hnt) o.low3.toNat

/-! ## The words of the lanes -/

/-- The bytes of a lane's element. -/
def atomBytes (o : LF) : Nat := (laneAt o.ty).bytes

/-- The description that the lane atomics run: their names, what a fault record skips, and the `w` bits that a lane brings. -/
def atomDesc (op : Nat) (legal : Bool) (first : Use) (skip : SkipDest) (w : Nat) (o : LF) (s : State) : Desc :=
  { (atomMem o).desc s op legal (first :: (atomMem o).uses 64) 64 skip with c := .vals ((atomMem o).data s w) }

/-- What `atom` makes of a lane's old value: the new one, and the exceptions (R233). -/
def atomLane (o : LF) (s : State) (l old : Nat) : Option Nat × Exc × Bool :=
  let r := atomOp o.dfmt.toNat (laneAt o.ty) old (laneElem s l (atomMem o).d (8 * atomBytes o))
  (some r.1, r.2, true)

/-- What `cas` makes of it: the new element where the old one is as expected (R234). -/
def casLane (o : LF) (s : State) (l old : Nat) : Option Nat × Exc × Bool :=
  let w := 8 * atomBytes o
  let g := laneElem s l (atomMem o).d (2 * w)
  if old = g % 2 ^ w then (some (g / 2 ^ w), 0, true) else (none, 0, false)

/-- The old values of the lanes in their registers. -/
def State.writeOlds (t : State) (o : LF) (rs : List AtomRes) : State :=
  t.writeLanes (atomMem o).d (8 * atomBytes o) (some .mem) (rs.map (fun y => (y.lane, y.old)))

/-- The exceptions of the lanes in their flags. -/
def State.flagLanes (t : State) (rs : List AtomRes) : State :=
  t.mapFibres (fun f => match rs.find? (fun y => y.lane = f.lane) with
    | some y => { f with fflags := f.fflags ||| y.exc }
    | none => f)

/-- `atom` in the state behind its release. -/
def State.atomed (start s : State) (o : LF) (xs : List Access) : State :=
  let r := start.rmwAll (atomBytes o) xs (atomLane o s) (atomScope o)
  ((r.2.writeOlds o r.1).flagLanes r.1).acquired o

/-- `cas` in the state behind its release. -/
def State.swapped (start s : State) (o : LF) (xs : List Access) : State :=
  let r := start.rmwAll (atomBytes o) xs (casLane o s) (atomScope o)
  ((r.2.writeOlds o r.1).writePreds o.ps.toNat (r.1.map (fun y => (y.lane, y.ok)))).acquired o

/-- `red` in the state behind its release. -/
def State.reduced (start s : State) (o : LF) (xs : List Access) : State :=
  xs.foldl (fun (z : State) y => z.redAt y.t o.dfmt.toNat o.ty (laneElem s y.lane (atomMem o).d (8 * atomBytes o)) (atomScope o)) start

/-- What the three words have in common: accesses that may write, and behind their release the effect. -/
def atomAccess (D : Desc) (eas : List (Nat × Nat)) (n : Nat) (reads : Bool) (o : LF) (s : State) (effect : State → List Access → State) :
    Host.Outcome State Fault Refusal :=
  D.access s eas (fun ea => s.memCheck s.q.fid ea n .write) n reads
    (fun u xs => u.behindRelease (ordRel o.hnt) o.low3.toNat (fun start => .done (effect start xs)))

theorem State.rdLane_eq (s : State) : s.rdLane = laneElem s := by
  funext l d w
  exact laneElem_eq s l d w

theorem laneAtom_eq : laneAtom op legal o s =
    let w := 8 * atomBytes o
    atomAccess (atomDesc op legal (.group (atomMem o).d w) (.lane (atomMem o).d w (some .mem)) w o s) (laneEas (atomMem o) s 64)
      (atomBytes o) true o s (fun start xs => start.atomed s o xs) := by
  unfold laneAtom
  rw [State.rdLane_eq]
  rfl

theorem laneCas_eq : laneCas op legal o s =
    let w := 8 * atomBytes o
    atomAccess (atomDesc op legal (.group (atomMem o).d (2 * w)) (.lane (atomMem o).d w (some .mem)) (2 * w) o s)
      (laneEas (atomMem o) s 64) (atomBytes o) true o s (fun start xs => start.swapped s o xs) := by
  unfold laneCas
  rw [State.rdLane_eq]
  rfl

theorem laneRed_eq : laneRed op legal o s =
    let w := 8 * atomBytes o
    atomAccess (atomDesc op legal (.src (atomMem o).d w) .nothing w o s) (laneEas (atomMem o) s 64) (atomBytes o) false o s
      (fun start xs => start.reduced s o xs) := by
  unfold laneRed
  rw [State.rdLane_eq]
  rfl

/-! ## The uniform words -/

/-- The type of the one element of a uniform atomic. -/
def satomType (o : LF) : AType := uniAt o.ty

/-- The description that the uniform atomics run, whose elements take `k` registers. -/
def satomWord (op : Nat) (legal : Bool) (k : Nat) (o : LF) (s : State) : Desc :=
  satomDesc op legal o k (.sreg (satomMem o).d (64 * satomRegs (satomType o))) s

/-- The element that a uniform atomic brings: the low bytes of the registers from `n` on (R232). -/
def State.uniElem (s : State) (o : LF) (n : Nat) : Nat := s.q.sgroup n (satomRegs (satomType o)) % 2 ^ (8 * (satomType o).bytes)

/-- What `satom` makes of the old value (R233). -/
def atomUni (o : LF) (s : State) (old : Nat) : Option Nat × Exc × Bool :=
  let r := atomOp o.dfmt.toNat (satomType o) old (s.uniElem o (satomMem o).d)
  (some r.1, r.2, true)

/-- What `scas` makes of it: the new element stands behind the expected one (R234). -/
def casUni (o : LF) (s : State) (old : Nat) : Option Nat × Exc × Bool :=
  if old = s.uniElem o (satomMem o).d then (some (s.uniElem o ((satomMem o).d + satomRegs (satomType o))), 0, true) else (none, 0, false)

/-- The old value, extended, in its registers. -/
def State.writeOld (t : State) (o : LF) (old : Nat) : State :=
  t.setSgroup (satomMem o).d (satomRegs (satomType o)) ((satomType o).ext old)

/-- `satom` in the state behind its release. -/
def State.atomedU (start s : State) (o : LF) (xs : List Access) : State :=
  let r := start.rmwAll (satomType o).bytes xs (fun _ => atomUni o s) (atomScope o)
  ((r.1.foldl (fun (z : State) y => z.writeOld o y.old) r.2).mapFibres (fun f =>
    if s.inBatch f then r.1.foldl (fun (g : Fibre) y => { g with fflags := g.fflags ||| y.exc }) f else f)).acquired o

/-- `scas` in the state behind its release. -/
def State.swappedU (start s : State) (o : LF) (xs : List Access) : State :=
  let r := start.rmwAll (satomType o).bytes xs (fun _ => casUni o s) (atomScope o)
  (r.1.foldl (fun (z : State) y => (z.writeOld o y.old).setK o.ps.toNat y.ok) r.2).acquired o

theorem uniAtom_eq : uniAtom op legal o s = atomAccess (satomWord op legal (satomRegs (satomType o)) o s) [(0, uniEa (satomMem o) s)]
    (satomType o).bytes true o s (fun start xs => start.atomedU s o xs) := rfl

theorem uniCas_eq : uniCas op legal o s = atomAccess (satomWord op legal (2 * satomRegs (satomType o)) o s) [(0, uniEa (satomMem o) s)]
    (satomType o).bytes true o s (fun start xs => start.swappedU s o xs) := rfl

/-- With one access, the one old value goes to the registers, and its exceptions to every member of the batch. -/
theorem State.atomedU_one (start s : State) (o : LF) (y : Access) : start.atomedU s o [y] =
    let r := (start.startReads start.q.uid).rmw y.t (satomType o).bytes (fun old => (atomUni o s old).1) (atomScope o)
    ((r.2.writeOld o r.1).mapFibres (fun f => if s.inBatch f then { f with fflags := f.fflags ||| (atomUni o s r.1).2.1 } else f)).acquired o :=
  rfl

/-- With one access, the predicate says whether the one old value was as expected. -/
theorem State.swappedU_one (start s : State) (o : LF) (y : Access) : start.swappedU s o [y] =
    let r := (start.startReads start.q.uid).rmw y.t (satomType o).bytes (fun old => (casUni o s old).1) (atomScope o)
    ((r.2.writeOld o r.1).setK o.ps.toNat (casUni o s r.1).2.2).acquired o := rfl

theorem casUni_value (o : LF) (s : State) (old : Nat) : (casUni o s old).1 =
    if old = s.uniElem o (satomMem o).d then some (s.uniElem o ((satomMem o).d + satomRegs (satomType o))) else none :=
  apply_ite Prod.fst _ _ _

theorem casUni_ok (o : LF) (s : State) (old : Nat) : (casUni o s old).2.2 = decide (old = s.uniElem o (satomMem o).d) := by
  unfold casUni
  split <;> simp [*]

end Sys2Proof.Machine

namespace Sys2Proof.Claims

open Sys2Proof.Machine

variable {i : Instr} {D : Desc} {o : LF} {s : State} {eas : List (Nat × Nat)} {n : Nat} {reads : Bool}
  {effect : State → List Access → State} {xs : List Access}

/-- An atomic whose accesses pass and that nothing hinders has its effect behind its release. -/
theorem behind_of_atomAccess (run : exec i s = atomAccess D eas n reads o s effect) (clear : D.clear s)
    (executes : D.uni = false ∨ s.kActive D.pr D.neg = true) (reach : Reaches s eas (fun ea => s.memCheck s.q.fid ea n .write) n reads xs) :
    Behind i D.len (ordRel o.hnt) o.low3.toNat s (s.cacheAll xs) (fun start => Done i D.len s (effect start xs)) :=
  behind_of_run clear (run_of_reaches run clear executes reach) (fun _ ran => done_of_run clear rfl ran)

theorem laneAtomics : LaneAtomics := by
  refine fun s o xs => ⟨fun passes reach => ?_, fun passes reach => ?_, fun passes reach => ?_⟩
  · have run : exec (.atomLL o) s = laneAtom 0x25 (Instr.atomLL o).wf o s := rfl
    exact behind_of_atomAccess (run.trans laneAtom_eq) (passes.clear rfl rfl) (.inl rfl) reach
  · have run : exec (.casLL o) s = laneCas 0x26 (Instr.casLL o).wf o s := rfl
    exact behind_of_atomAccess (run.trans laneCas_eq) (passes.clear rfl rfl) (.inl rfl) reach
  · have run : exec (.redLL o) s = laneRed 0x27 (Instr.redLL o).wf o s := rfl
    exact behind_of_atomAccess (run.trans laneRed_eq) (passes.clear rfl rfl) (.inl rfl) reach

theorem uniformAtomics : UniformAtomics := by
  refine fun s o y => ⟨fun passes => ?_, fun passes => ?_⟩
  · have run : exec (.satomUL o) s = uniAtom 0x12 (Instr.satomUL o).wf o s := rfl
    have clear : (satomWord 0x12 (Instr.satomUL o).wf (satomRegs (satomType o)) o s).clear s := passes.clear rfl rfl
    refine ⟨fun idle => done_of_idle (run.trans uniAtom_eq) clear rfl idle, fun active reach => ?_⟩
    exact behind_of_atomAccess (run.trans uniAtom_eq) clear (.inr active) reach
  · have run : exec (.scasUL o) s = uniCas 0x12 (Instr.scasUL o).wf o s := rfl
    have clear : (satomWord 0x12 (Instr.scasUL o).wf (2 * satomRegs (satomType o)) o s).clear s := passes.clear rfl rfl
    refine ⟨fun idle => done_of_idle (run.trans uniCas_eq) clear rfl idle, fun active reach => ?_⟩
    have made := behind_of_atomAccess (run.trans uniCas_eq) clear (.inr active) reach
    simp only [State.swappedU_one, casUni_value, casUni_ok] at made
    exact made

/-- Settles O15: each atomic is an access whose effect, behind its release, is the read-modify-write of every lane or of the one element. -/
theorem atomics : Obligations.Atomics := ⟨laneAtomics, uniformAtomics⟩

end Sys2Proof.Claims
end

section
/-! Who issues: a release performs stores, lets writes arrive and writes lines back, and leaves the issuing quire and its choice of batch as
they are (R48, R207, R286). -/

namespace Sys2Proof.Machine

/-- The issuing quire, and the batch of it that issues. -/
def State.issuer (s : State) : Quire × DWord × Nat := (s.q, s.sel)

variable {s : State}

theorem State.issuer_eq_iff {t : State} : t.issuer = s.issuer ↔ t.q = s.q ∧ t.sel = s.sel := by simp [State.issuer]

/-! ## Bytes at a home and in copies -/

@[simp] theorem State.putRaw_issuer (s : State) (kid pa : Nat) (bs : List Byte) : (s.putRaw kid pa bs).issuer = s.issuer := by
  simp [State.issuer]

@[simp] theorem State.keepShadows_issuer (s : State) (pa : Nat) (xs : List Nat) :
    (xs.foldl (fun (t : State) i => t.keepShadow (pa + i)) s).issuer = s.issuer :=
  State.foldl_keeps State.issuer (f := fun (t : State) i => t.keepShadow (pa + i)) (fun _ _ => rfl) xs s

@[simp] theorem State.combine_issuer (s : State) (p : Partial) : (s.combine p).issuer = s.issuer :=
  (State.putRaw_issuer _ _ _ _).trans (State.keepShadows_issuer s p.pa _)

@[simp] theorem State.combineAll_issuer (s : State) (ps : List Partial) : (s.combineAll ps).issuer = s.issuer :=
  State.foldl_keeps State.issuer State.combine_issuer ps _

@[simp] theorem State.evictPartial_issuer (s : State) (die core line : Nat) : (s.evictPartial die core line).issuer = s.issuer := by
  have left : (s.leaveL1 die core line).issuer = s.issuer := by unfold State.leaveL1; split <;> rfl
  unfold State.evictPartial; dsimp only; split
  · rw [State.combineAll_issuer, left]
  · refine (State.foldl_keeps State.issuer (fun t p => ?_) _ _).trans left
    refine Eq.trans (b := State.issuer (if _ then _ else _)) rfl ?_
    split
    · exact State.combineAll_issuer _ _
    · rfl

@[simp] theorem State.recallLine_issuer (s : State) (line : Nat) : (s.recallLine line).issuer = s.issuer := by
  have evicts : ∀ (d : Nat) (cs : List Nat) (t : State),
      (cs.foldl (fun (t : State) c => t.evictPartial d c line) t).issuer = t.issuer :=
    fun d cs t => State.foldl_keeps State.issuer (fun t c => State.evictPartial_issuer t d c line) cs t
  unfold State.recallLine; split
  · rfl
  · exact (State.foldl_keeps State.issuer (fun t d => (State.combineAll_issuer _ _).trans (evicts d _ t)) _ _).trans (evicts _ _ s)

@[simp] theorem State.putHome_issuer (s : State) (kid pa : Nat) (bs : List Byte) : (s.putHome kid pa bs).issuer = s.issuer := by
  simp [State.putHome]

@[simp] theorem State.storeBytes_issuer (s : State) (d : Nat) (x : Attr) (pa : Nat) (bs : List Byte) (rels : List Rel) (by_ : Option Nat) :
    (s.storeBytes d x pa bs rels by_).issuer = s.issuer := by
  unfold State.storeBytes; dsimp only; split
  · have atHome : (((List.range bs.length).foldl (fun (t : State) i => t.keepShadow (pa + i)) (s.recallLine (pa / 64))).putHome x.kid pa
        bs).issuer = s.issuer := by simp
    generalize State.putHome _ x.kid pa bs = u at atHome
    split <;> exact atHome
  · have copied : (if ((s.die d).copyOf (pa / 64)).isSome then s else s.addCopy d x (pa / 64)).issuer = s.issuer := by
      split
      · rfl
      · simp [State.issuer, State.addCopy]
    generalize (if ((s.die d).copyOf (pa / 64)).isSome = true then s else s.addCopy d x (pa / 64)) = u at copied
    exact copied

@[simp] theorem State.scratchWrite_issuer (s : State) (fid off : Nat) (bs : List Byte) (rels : List Rel) (by_ : Option Nat) :
    (s.scratchWrite fid off bs rels by_).issuer = s.issuer := by
  unfold State.scratchWrite; split
  · exact State.foldl_keeps State.issuer (fun t _ => State.putRaw_issuer t _ _ _) _ s
  · rfl

/-! ## Views, writes that arrive and subscriptions -/

@[simp] theorem State.keepNow_issuer (s : State) (uid d : Nat) (t : Target) (n : Nat) (p : Path) :
    (s.keepNow uid d t n p).issuer = s.issuer := by
  unfold State.keepNow State.keepCoherent; split <;> rfl

@[simp] theorem State.wroteStore_issuer (s : State) (uid id die : Nat) (t : Target) (n : Nat) :
    (s.wroteStore uid id die t n).issuer = s.issuer := by
  have wrote : (s.wroteNow uid die t n .core).issuer = s.issuer := by
    unfold State.wroteNow; dsimp only; split <;> exact State.keepNow_issuer s uid die t n .core
  exact (State.foldl_keeps State.issuer (fun z u => State.keepNow_issuer z u die t n .core) _ _).trans wrote

@[simp] theorem State.land_issuer (s : State) (w : Inbound) : (s.land w).issuer = s.issuer := by
  have marked : ∀ (t : State) (bad : Bool) (loc n : Nat), (t.markPoison bad loc n).issuer = t.issuer :=
    fun t bad loc n => by unfold State.markPoison; split <;> rfl
  unfold State.land; split
  · dsimp only; split <;> simp [marked]
  · rfl

@[simp] theorem State.settle_issuer (s : State) (pick : Inbound → Bool) : (s.settle pick).issuer = s.issuer :=
  State.foldl_keeps State.issuer State.land_issuer _ _

@[simp] theorem State.flushSub_issuer (s : State) (x : Sub) : (s.flushSub x).issuer = s.issuer :=
  State.foldl_keeps State.issuer (fun t _ => by unfold State.sendBad; split <;> rfl) x.buf _

@[simp] theorem State.forwardGranule_issuer (s : State) (uid id off : Nat) : (s.forwardGranule uid id off).issuer = s.issuer := by
  unfold State.forwardGranule; split
  · rfl
  · dsimp only; split
    · rfl
    · refine Eq.trans (b := State.issuer (if _ then _ else _)) rfl ?_
      split
      · exact State.flushSub_issuer s _
      · rfl

@[simp] theorem State.forward_issuer (s : State) (uid fid off n : Nat) : (s.forward uid fid off n).issuer = s.issuer :=
  State.foldl_keeps State.issuer
    (fun t _ => State.foldl_keeps State.issuer (fun t _ => State.forwardGranule_issuer t _ _ _) _ t) _ s

/-! ## Stores that are performed -/

theorem State.perform_issuer (x : Store) {t : State} (ht : s.perform x = some t) : t.issuer = s.issuer := by
  unfold State.perform at ht
  split at ht
  · split at ht <;> cases ht
    · simp
    · rfl
  · cases ht; split
    · simp
    · rfl

theorem performAll_issuer (pick : Store → Bool) (xs : List Store) (s : State) : (performAll pick xs s).issuer = s.issuer := by
  induction xs generalizing s with
  | nil => rfl
  | cons x xs ih =>
    unfold performAll; dsimp only; split
    · split
      · next t ht => exact (ih t).trans (State.perform_issuer x ht)
      · exact ih _
    · exact ih _

@[simp] theorem State.performStores_issuer (s : State) (pick : Store → Bool) : (s.performStores pick).issuer = s.issuer := by
  unfold State.performStores; split
  · exact performAll_issuer pick _ _
  · rfl

/-! ## Lines that are written back, and the release -/

@[simp] theorem State.mergeLine_issuer (s : State) (d : Nat) (c : Copy) (pa : Nat) : (s.mergeLine d c pa).issuer = s.issuer := by
  refine State.foldl_keeps State.issuer (fun t i => ?_) _ s
  split
  · exact State.putHome_issuer _ _ _ _
  · rfl

@[simp] theorem State.writeBack_issuer (s : State) (d line : Nat) (drop : Bool) : (s.writeBack d line drop).issuer = s.issuer := by
  have kept : ∀ (t : State) (c : Copy), (if drop then t.dropCopies d (fun y => y.line = line)
      else t.modDie d (fun z => { z with copies := z.copies.map (fun y => if y.line = line then c else y) })).issuer = t.issuer :=
    fun t c => by split <;> rfl
  unfold State.writeBack; split
  · rfl
  · dsimp only; split
    · exact kept _ _
    · split
      · split
        · exact kept _ _
        · exact (kept _ _).trans (State.mergeLine_issuer s d _ _)
      · exact kept _ _
      · rfl

@[simp] theorem State.releaseOn_issuer (s : State) (d scope : Nat) : (s.releaseOn d scope).issuer = s.issuer := by
  unfold State.releaseOn; split
  · rfl
  · exact State.foldl_keeps State.issuer (fun t l => State.writeBack_issuer t d l false) _ s

@[simp] theorem State.settleFrom_issuer (s : State) (uid : Nat) : (s.settleFrom uid).issuer = s.issuer := by
  simp [State.settleFrom]

@[simp] theorem State.settleOwed_issuer (s : State) (uid : Nat) : (s.settleOwed uid).issuer = s.issuer := by
  unfold State.settleOwed; dsimp only; split
  · rfl
  · simp

/-- A release leaves the issuing batch as it is. -/
theorem State.releaseAt_issuer (s : State) (scope : Nat) : (s.releaseAt scope).issuer = s.issuer := by
  unfold State.releaseAt State.releaseFor
  rw [State.releaseOn_issuer]
  by_cases die : 4 ≤ scope <;> by_cases device : 5 ≤ scope <;> simp [die, device]

end Sys2Proof.Machine
end

section
/-! Counter words: the checks of their descriptor, and what the issuing cluster does itself or asks of the home (R242 to R247). -/

namespace Sys2Proof.Machine

open Sys2Proof.Claims (CounterAt Leafed cached asked)

variable {D : Desc} {addr : DWord} {acc : Acc} {effect : State → Trans → Nat → Res} {a n op pa : Nat} {b : Arg} {x : Trans}
  {c : Counter} {s t : State}

/-! ## The descriptor, and the batch that asks -/

/-- The body of a counter word, behind the checks of its descriptor. -/
def counterRes (s : State) (addr : DWord) (acc : Acc) (effect : State → Trans → Nat → Res) : Res :=
  match s.counterAt addr.toNat acc with
  | .error c => .stop c (laneMask s.batch) addr
  | .ok none => .wait s (.reach addr.toNat)
  | .ok (some (x, pa)) => effect (Leafed s x pa) x pa

theorem Desc.counter_eq : D.counter s addr acc effect = D.runU s (counterRes s addr acc effect) := rfl

theorem counterRes_of_at (located : CounterAt s addr acc x pa) : counterRes s addr acc effect = effect (Leafed s x pa) x pa := by
  rw [counterRes, located]

theorem leafed_parties (s : State) (x : Trans) (pa : Nat) : (Leafed s x pa).parties = s.parties :=
  State.cacheAll_parties s [{ lane := 0, ea := 0, t := .mem x pa }]

theorem leafed_issuer (s : State) (x : Trans) (pa : Nat) : (Leafed s x pa).issuer = s.issuer :=
  State.foldl_keeps State.issuer (fun t p => by dsimp only; split <;> rfl) _ s

/-- The holder is that of the issuing folio's core, whose record is of the parties. -/
theorem State.holderBit_of_parties (h : t.parties = s.parties) : t.holderBit = s.holderBit := by
  obtain ⟨hq, -, hf, hs⟩ := State.parties_eq_iff.mp h
  have fol : t.fol = s.fol := by simp [State.fol, State.folio, hq, hf, hs]
  unfold State.holderBit
  rw [fol]

/-- A request names the batch that issues, whatever the state has become besides. -/
theorem State.request_of_issuer (h : t.issuer = s.issuer) (ask : CAsk) (n : Nat) : t.request ask n =
    { quire := s.q.uid, pc := s.pc, frame := s.sel.2, ask := ask, holder := t.holderBit, amount := n } := by
  obtain ⟨hq, hsel⟩ := State.issuer_eq_iff.mp h
  simp only [State.request, State.pc, hq, hsel]

/-- The request that the issuing batch makes behind its descriptor's leaf. -/
theorem request_leafed (ask : CAsk) (n : Nat) : (Leafed s x pa).request ask n =
    { quire := s.q.uid, pc := s.pc, frame := s.sel.2, ask := ask, holder := s.holderBit, amount := n } := by
  rw [State.request_of_issuer (leafed_issuer s x pa), State.holderBit_of_parties (leafed_parties s x pa)]

theorem State.askHome_eq (c : Counter) (r : CReq) : t.askHome c r = .wait (asked t c.pa r) (.counter c.pa) := rfl

/-! ## ctake (R244) -/

/-- The amount can be taken from what the issuing cluster holds. -/
abbrev State.Holds (s : State) (c : Counter) (n : Nat) : Prop := c.cmask.getLsbD s.holderBit = true ∧ n ≤ c.allowance s.holderBit

/-- The cluster's allowance without an amount. -/
def State.spend (s : State) (c : Counter) (n : Nat) : Counter := c.setAllow s.holderBit (c.allowance s.holderBit - n)

/-- What `ctake` does with the counter at its descriptor. -/
def takeRes (addr : DWord) (n : Nat) (waits : Bool) (s t : State) (pa : Nat) : Option Counter → Res
  | none => .stop 0x0E2 (laneMask s.batch) addr
  | some c =>
    if 2 ^ c.width ≤ n then .stop 0x0E2 (laneMask s.batch) addr
    else if n = 0 then .done (t.setK 1 true)
    else if s.Holds c n then .done ((cached t pa (s.spend c n)).setK 1 true)
    else t.askHome c (t.request (.take waits) n)

theorem uniCtake_eq (D : Desc) (a : Nat) (b : Arg) (waits : Bool) (s : State) : uniCtake D a b waits s =
    D.counter s (s.q.sreg a) .read (fun t _ pa => takeRes (s.q.sreg a) (s.uarg b 64) waits s t pa (t.counter pa)) := rfl

section

variable {waits : Bool} (fits : n < 2 ^ c.width)
include fits

theorem takeRes_zero (zero : n = 0) : takeRes addr n waits s t pa (some c) = .done (t.setK 1 true) := by
  rw [takeRes, if_neg (Nat.not_le.mpr fits), if_pos zero]

theorem takeRes_near (nonzero : n ≠ 0) (near : s.Holds c n) :
    takeRes addr n waits s t pa (some c) = .done ((cached t pa (s.spend c n)).setK 1 true) := by
  rw [takeRes, if_neg (Nat.not_le.mpr fits), if_neg nonzero, if_pos near]

theorem takeRes_far (nonzero : n ≠ 0) (far : ¬ s.Holds c n) :
    takeRes addr n waits s t pa (some c) = t.askHome c (t.request (.take waits) n) := by
  rw [takeRes, if_neg (Nat.not_le.mpr fits), if_neg nonzero, if_neg far]

end

/-! ## cgive (R246) -/

/-- The amount goes into what the issuing cluster holds. -/
abbrev State.Keeps (s : State) (c : Counter) (n : Nat) : Prop := c.cmask.getLsbD s.holderBit = true ∧ n ≤ c.cap ∧ c.waiters = []

/-- The cluster's allowance with an amount more. -/
def State.given (s : State) (c : Counter) (n : Nat) : Nat := c.allowance s.holderBit + n

/-- The allowance stays with the cluster, and counts in OUTST. -/
def State.keep (s : State) (c : Counter) (n : Nat) : Counter :=
  { c.setAllow s.holderBit (s.given c n) with
    known := Sparse.set 0 s.holderBit (Sparse.get 0 s.holderBit c.known + n) (c.setAllow s.holderBit (s.given c n)).known }

/-- What of it exceeds SHARE goes home. -/
def State.overflow (s : State) (c : Counter) (n : Nat) : Counter :=
  (c.setAllow s.holderBit (s.given c n)).recall s.holderBit (s.given c n - c.share)

/-- What `cgive` does with the counter at its descriptor. -/
def giveRes (addr : DWord) (n : Nat) (s t : State) : Option Counter → Res
  | none => .stop 0x0E2 (laneMask s.batch) addr
  | some c =>
    if 2 ^ c.width ≤ n then .stop 0x0E2 (laneMask s.batch) addr
    else if s.Keeps c n then .done (if c.cap < s.given c n then t.settleCounter (s.overflow c n) else t.putCounter (s.keep c n))
    else t.askHome c (t.request .give n)

theorem uniCgive_eq (D : Desc) (a : Nat) (b : Arg) (s : State) : uniCgive D a b s =
    D.counter s (s.q.sreg a) .read (fun t _ pa => giveRes (s.q.sreg a) (s.uarg b 64) s t (t.counter pa)) := rfl

section

variable (fits : n < 2 ^ c.width)
include fits

theorem giveRes_kept (near : s.Keeps c n) (kept : s.given c n ≤ c.cap) :
    giveRes addr n s t (some c) = .done (t.putCounter (s.keep c n)) := by
  rw [giveRes, if_neg (Nat.not_le.mpr fits), if_pos near, if_neg (Nat.not_lt.mpr kept)]

theorem giveRes_exceeding (near : s.Keeps c n) (exceeds : c.cap < s.given c n) :
    giveRes addr n s t (some c) = .done (t.settleCounter (s.overflow c n)) := by
  rw [giveRes, if_neg (Nat.not_le.mpr fits), if_pos near, if_pos exceeds]

theorem giveRes_far (far : ¬ s.Keeps c n) : giveRes addr n s t (some c) = t.askHome c (t.request .give n) := by
  rw [giveRes, if_neg (Nat.not_le.mpr fits), if_neg far]

end

/-! ## cinit (R243) -/

/-- SHARE of `cinit`: an equal part of TOTAL for every holder. -/
def cinitShare (total : Nat) (cmask : BitVec 64) : Nat :=
  if popcOf 64 cmask.toNat = 0 then 0 else total / popcOf 64 cmask.toNat

/-- The allowances of the holders. -/
def cinitAllow (total : Nat) (cmask : BitVec 64) : List (Nat × Nat) :=
  ((List.range 64).filter (fun h => cmask.getLsbD h)).foldl (fun m h => Sparse.set 0 h (cinitShare total cmask) m) []

/-- The counter that the registers from `g` on describe. -/
def State.cinitMade (s : State) (g : Nat) (w64 : Bool) (x : Trans) (pa : Nat) : Counter :=
  let total := (s.q.sreg (g + 1)).toNat
  let cmask : BitVec 64 := s.q.sreg (g + 2)
  { pa := pa, kid := x.attr.kid, w64 := w64, init := total, cmask := cmask, share := cinitShare total cmask
    cap := (s.q.sreg (g + 3)).toNat, reserve := total - popcOf 64 cmask.toNat * cinitShare total cmask
    allow := cinitAllow total cmask, known := cinitAllow total cmask }

/-- The counter begins at its home, and no die keeps a copy of its line. -/
def State.cinitAt (t : State) (x : Trans) (pa : Nat) (c : Counter) : State :=
  let u := (List.range t.dies.length).foldl (fun (u : State) d => u.dropCopies d (fun y => y.line = pa / 64)) (t.ownStores (.mem x pa) 64)
  ({ u with counters := u.counters.filter (fun y => y.pa ≠ pa) ++ [c] } : State).putCounter c

/-- The description that `cinit` runs. -/
def cinitDesc (op : Nat) (legal : Bool) (o : LF) : Desc :=
  { uni := true, op := op, len := 8, pr := o.pr, neg := o.neg, legal := legal, uses := [.sgroup o.a.toNat 4], a := .sreg o.a.toNat, wa := 64 }

/-- The limits of `cinit` are broken. -/
def State.cinitRefused (t s : State) (o : LF) (pa : Nat) : Bool :=
  let g := o.a.toNat
  t.cinitBad pa (s.q.sreg (g + 1)).toNat (s.q.sreg (g + 2)) (s.q.sreg (g + 3)).toNat (if o.modl.getLsbD 0 then 64 else 32)

theorem uniCinit_eq (op : Nat) (legal : Bool) (o : LF) (s : State) : uniCinit op legal o s =
    (cinitDesc op legal o).counter s (s.q.sreg o.a.toNat) .write (fun t x pa =>
      if t.cinitRefused s o pa then .stop 0x0E2 (laneMask s.batch) (s.q.sreg o.a.toNat)
      else .done (t.cinitAt x pa (s.cinitMade o.a.toNat (o.modl.getLsbD 0) x pa))) := rfl

/-! ## cexact and cdrop (R247) -/

/-- What `cexact` or `cdrop` asks, for its register. -/
def exactAsk (drop : Bool) (reg : Nat) : CAsk := if drop then .drop reg else .exact reg

/-- The description that they run. -/
def cexactDesc (op : Nat) (legal : Bool) (o : SF) : Desc :=
  { usDesc o op legal [.sreg o.d.toNat, .sreg o.a.toNat] with b := .none, skip := .sreg o.d.toNat 64 }

/-- What they do with the counter at their descriptor. -/
def exactRes (addr : DWord) (ask : CAsk) (s t : State) : Option Counter → Res
  | none => .stop 0x0E2 (laneMask s.batch) addr
  | some c => t.behindRelease true 5 (fun u => u.askHome c (u.request ask 0))

theorem uniCexact_eq (op : Nat) (drop legal : Bool) (o : SF) (s : State) : uniCexact op drop legal o s =
    (cexactDesc op legal o).counter s (s.q.sreg o.a.toNat) (if drop then .write else .read)
      (fun t _ pa => exactRes (s.q.sreg o.a.toNat) (exactAsk drop o.d.toNat) s t (t.counter pa)) := rfl

end Sys2Proof.Machine

namespace Sys2Proof.Claims

open Sys2Proof.Machine

variable {i : Instr} {D W : Desc} {a : Nat} {b : Arg} {s : State}

theorem takes_of_uniCtake {waits : Bool} (run : exec i s = .next (uniCtake D a b waits s)) (checks : D.checked = { W with legal := i.wf })
    (legal : W.legal = true) : Takes i W a b waits s := by
  rw [uniCtake_eq, Desc.counter_eq] at run
  refine under_of_runU run checks legal (fun hlen clear run x pa c located live fits =>
    ⟨fun zero => ?_, fun nonzero mine enough => ?_, fun nonzero far => ?_⟩) <;> rw [counterRes_of_at located, live] at run
  · rw [takeRes_zero fits zero] at run
    exact done_of_run clear hlen run
  · rw [takeRes_near fits nonzero ⟨mine, enough⟩] at run
    exact done_of_run clear hlen run
  · rw [takeRes_far fits nonzero far, request_leafed, State.askHome_eq] at run
    exact hlen ▸ blocks_of_run clear run

theorem gives_of_uniCgive (run : exec i s = .next (uniCgive D a b s)) (checks : D.checked = { W with legal := i.wf })
    (legal : W.legal = true) : Gives i W a b s := by
  rw [uniCgive_eq, Desc.counter_eq] at run
  refine under_of_runU run checks legal (fun hlen clear run x pa c located live fits =>
    ⟨fun near kept => ?_, fun near exceeds => ?_, fun far => ?_⟩) <;> rw [counterRes_of_at located, live] at run
  · rw [giveRes_kept fits near kept] at run
    exact done_of_run clear hlen run
  · rw [giveRes_exceeding fits near exceeds] at run
    exact done_of_run clear hlen run
  · rw [giveRes_far fits far, request_leafed, State.askHome_eq] at run
    exact hlen ▸ blocks_of_run clear run

theorem counterInit : CounterInit := by
  refine fun s o => ?_
  have run : exec (.cinitUL o) s = .next (uniCinit 0x25 (Instr.cinitUL o).wf o s) := rfl
  rw [uniCinit_eq, Desc.counter_eq] at run
  refine under_of_runU run rfl rfl (fun hlen clear run x pa located accepted => ?_)
  have passes : ¬ (Leafed s x pa).cinitRefused s o pa = true := Bool.eq_false_iff.mp accepted
  rw [counterRes_of_at located, if_neg passes] at run
  refine ⟨s.cinitMade o.a.toNat (o.modl.getLsbD 0) x pa, rfl, rfl, rfl, rfl, rfl, ?_, rfl, ?_, rfl, rfl, rfl, rfl, rfl, rfl, ?_, rfl,
    done_of_run clear hlen run⟩
  · simp only [State.cinitMade, cinitShare]
  · simp only [State.cinitMade, cinitShare]
  · simp only [State.cinitMade, cinitAllow, cinitShare]

theorem counterTakeGive : CounterTakeGive := fun _ =>
  ⟨fun _ => ⟨takes_of_uniCtake rfl rfl rfl, gives_of_uniCgive rfl rfl rfl⟩,
    fun _ => ⟨takes_of_uniCtake rfl rfl rfl, gives_of_uniCgive rfl rfl rfl⟩,
    fun _ => ⟨takes_of_uniCtake rfl rfl rfl, gives_of_uniCgive rfl rfl rfl⟩⟩

/-- Settles O24: the counter that `cinit` makes is the one of R243, and `ctake` and `cgive` are done in the cluster's allowance or asked of
the home. -/
theorem counters : Obligations.Counters := ⟨counterInit, counterTakeGive⟩

theorem exacts_of_uniCexact {op : Nat} {drop : Bool} {o : SF} (run : exec i s = .next (uniCexact op drop i.wf o s)) :
    Exacts i op drop o s := by
  rw [uniCexact_eq, Desc.counter_eq] at run
  refine under_of_runU run rfl rfl (fun hlen clear run x pa c located live => ?_)
  rw [counterRes_of_at located, live, exactRes] at run
  obtain ⟨held, free⟩ := behind_of_run clear run (fun _ ran => ran)
  refine ⟨held, fun h => ?_⟩
  have issuer : ((Leafed s x pa).releaseAt 5).issuer = s.issuer := (State.releaseAt_issuer _ 5).trans (leafed_issuer s x pa)
  have ran := free h
  rw [if_pos rfl, State.askHome_eq, State.request_of_issuer issuer] at ran
  exact blocks_of_run clear ran

end Sys2Proof.Claims
end

section
/-! What the home of a counter does with its oldest request while no waiter is queued (R244 to R247). -/

namespace Sys2Proof.Machine

variable {c k : Counter} {pa : Nat} {r : CReq} {rest : List CReq} {s : State}

theorem Counter.recall_rels (c : Counter) (h a : Nat) : (c.recall h a).rels = c.rels := by
  unfold Counter.recall Counter.add; dsimp only; split <;> rfl

/-- Recalling allowances moves amounts, and leaves the counter's releases. -/
theorem Counter.recallAll_rels (c : Counter) : c.recallAll.rels = c.rels :=
  List.foldlRecOn (motive := fun (x : Counter) => x.rels = c.rels) c.holders _ rfl
    (fun x kept h _ => (Counter.recall_rels x h _).trans kept)

/-- The home serves the oldest request whose batch still waits. -/
theorem counterHomeRequest_of_oldest (live : s.counter pa = some c) (oldest : c.reqs.filter (s.asking pa) = r :: rest)
    (idle : c.waiters = []) : counterHomeRequest pa s = s.serveReq { c with reqs := rest } r := by
  have unqueued : ({ c with reqs := rest, waiters := c.waiters.filter (s.asking pa) } : Counter) = { c with reqs := rest } := by
    rw [idle, List.filter_nil, ← idle]
  simp only [counterHomeRequest, live, oldest, unqueued]

/-! ## take and give (R244, R246) -/

section

variable (idle : k.waiters = [])
include idle

theorem State.serveReq_take_success {waits : Bool} (ask : r.ask = .take waits) (success : (k.takeHome r.holder r.amount).2 = true) :
    s.serveReq k r = (s.answer k.pa r (some true)).settleCounter (k.takeHome r.holder r.amount).1 := by
  simp [State.serveReq, ask, idle, success]

theorem State.serveReq_take_failure (ask : r.ask = .take false) (failure : (k.takeHome r.holder r.amount).2 = false) :
    s.serveReq k r = (s.answer k.pa r (some false)).settleCounter (k.takeHome r.holder r.amount).1 := by
  simp [State.serveReq, ask, idle, failure]

theorem State.serveReq_take_waits (ask : r.ask = .take true) (failure : (k.takeHome r.holder r.amount).2 = false) :
    s.serveReq k r = s.putCounter { (k.takeHome r.holder r.amount).1 with waiters := [r] } := by
  simp [State.serveReq, ask, idle, failure]

end

theorem State.serveReq_give (ask : r.ask = .give) : s.serveReq k r = (s.answer k.pa r none).settleCounter (k.add r.amount) := by
  simp [State.serveReq, ask]

/-! ## cexact and cdrop (R247, R298) -/

/-- The state behind the acquire of a quire's `cexact` or `cdrop`. -/
def State.synced (s : State) (k : Counter) (uid : Nat) : State :=
  s.acquireOver uid (s.folio (s.quire uid).fid).die 5 { rels := k.rels }

/-- The counter gathered at its home, with the release of the quire that asked. -/
def State.gathered (s : State) (k : Counter) (uid : Nat) : Counter := { k.recallAll with rels := [(s.synced k uid).relOf uid 5] }

/-- The value in the register of the quire, whose batch goes on. -/
def State.told (s : State) (k : Counter) (r : CReq) (reg : Nat) : State :=
  ((s.synced k r.quire).modQuire r.quire (fun q => q.setS reg (BitVec.ofNat 64 k.recallAll.reserve))).answer k.pa r none

theorem State.counterSync_recallAll (s : State) (k : Counter) (uid : Nat) :
    s.counterSync k.recallAll uid = (s.synced k uid, s.gathered k uid) := by
  unfold State.counterSync State.gathered State.synced
  rw [Counter.recallAll_rels]

theorem State.serveReq_exact {reg : Nat} (ask : r.ask = .exact reg) (idle : k.recallAll.waiters = []) : s.serveReq k r =
    (s.told k r reg).putCounter ((s.gathered k r.quire).holders.foldl (fun x h => x.deal h) (s.gathered k r.quire)) := by
  have unqueued : (s.gathered k r.quire).waiters = [] := idle
  simp only [State.serveReq, ask, State.counterSync_recallAll, unqueued, List.length_nil, State.serveWaiters, if_true]
  rfl

theorem State.serveReq_drop {reg : Nat} (ask : r.ask = .drop reg) (idle : k.recallAll.waiters = []) : s.serveReq k r =
    let gone := k.recallAll.reqs.foldl (fun (t : State) w => t.giveBack k.pa w) (s.told k r reg)
    (({ gone with counters := gone.counters.filter (fun x => x.pa ≠ k.pa || x.gone) } : State).putHome k.kid k.pa
      (leBytes 64 (k.recallAll.image 0))).forget k.pa 64 := by
  have unqueued : (s.gathered k r.quire).waiters = [] := idle
  have image : ({ s.gathered k r.quire with waiters := [] } : Counter).image 0 = k.recallAll.image 0 := by
    simp only [Counter.image, idle]
    rfl
  simp only [State.serveReq, ask, State.counterSync_recallAll, unqueued, List.foldl_nil, image]
  rfl

end Sys2Proof.Machine

namespace Sys2Proof.Claims

open Sys2Proof.Machine

/-- Settles O25: the words ask behind their release, and the home serves the oldest request by what it asks. -/
theorem counterHome : Obligations.CounterHome := by
  refine fun s => ⟨fun o => ⟨exacts_of_uniCexact rfl, exacts_of_uniCexact rfl⟩,
    fun pa c r rest live oldest idle => ?_⟩
  intro c0 served value synced final told
  have serves : served = .next (s.serveReq c0 r) := congrArg _ (counterHomeRequest_of_oldest live oldest idle)
  have tells : ∀ reg, r.ask = .exact reg ∨ r.ask = .drop reg → told = s.told c0 r reg := by
    rintro reg (ask | ask) <;> simp only [told, ask] <;> rfl
  refine ⟨fun waits ask success => ?_, fun ask failure => ?_, fun ask failure => ?_, fun ask => ?_, fun reg ask gathered => ?_,
    fun reg ask gathered => ?_⟩
  · rw [serves, State.serveReq_take_success (k := c0) idle ask success]
  · rw [serves, State.serveReq_take_failure (k := c0) idle ask failure]
  · rw [serves, State.serveReq_take_waits (k := c0) idle ask failure]
  · rw [serves, State.serveReq_give ask]
  · rw [serves, State.serveReq_exact ask gathered, tells reg (.inl ask)]
    rfl
  · rw [serves, State.serveReq_drop ask gathered, tells reg (.inr ask)]

end Sys2Proof.Claims
end

section
/-! Subscriptions (R250, R253, R254). -/

namespace Sys2Proof.Machine

open Sys2Proof.Claims (Subscribable)

variable {D : Desc} {d g m e op : Nat} {legal : Bool} {o : SF} {s : State}

/-! ## subscribe (R250) -/

/-- The bytes of a granule, by the field of the second register. -/
def State.subGranule (s : State) (g : Nat) : Nat := 2 ^ fieldOf (s.q.sreg (g + 1)) 27 24

/-- The lowest free entry of the core of folio `m`. -/
def State.freeSub (s : State) (m : Nat) : Option Nat :=
  (List.range 16).find? (fun e => !(s.subEntries (s.folio m).die (s.folio m).core).contains e)

/-- The place of an entry in the table of generations: that of the core of folio `m`. -/
def State.subKey (s : State) (m e : Nat) : Nat := ((s.folio m).die * 512 + (s.folio m).core) * 16 + e

/-- The generation that an entry has next. -/
def State.subGen (s : State) (m e : Nat) : Nat := (Sparse.get 0 (s.subKey m e) s.subGens + 1) % 65536

/-- The subscription to folio `m` in entry `e` that the registers describe. -/
def State.subMade (s : State) (g m e : Nat) : Sub :=
  let v := s.q.sreg g
  let u := s.q.sreg (g + 1)
  { id := s.next, src := m, entry := e, gen := s.subGen m e, dst := s.q.fid, soff := fieldOf u 18 0, doff := fieldOf v 31 0
    len := fieldOf v 63 32, glog := fieldOf u 27 24 }

/-- The entry is in use, unless its folio has ended. -/
def State.withSub (s : State) (g m e : Nat) : State :=
  { s with next := s.next + 1, subGens := Sparse.set 0 (s.subKey m e) (s.subGen m e) s.subGens
           subs := if (s.folio m).ended then s.subs else s.subs ++ [s.subMade g m e] }

/-- Every granule of the source has been sent once. -/
def State.primed (s : State) (g m e : Nat) : State :=
  let y := s.subMade g m e
  let n := s.subGranule g
  (List.range (y.len / n)).foldl (fun (t : State) k =>
    (t.send 0 s.q.fid (y.doff + k * n) (s.bytesAt (scratchLoc m (y.soff + k * n)) n) (some s.next)).sendBad
      (s.scratchPoison m (y.soff + k * n) n)) (s.withSub g m e)

/-- What `subscribe` waits for, and the handle that it then writes. -/
def State.primedWait (s : State) (d g m e : Nat) : WaitKind :=
  .drain ((s.primed g m e).updatesOf (fun z => z = s.next)) (.primed d (subHandle (s.subGen m e) (fieldOf (s.q.sreg (g + 1)) 23 19) e))

/-- The body of `subscribe`. -/
def subscribeRes (d g : Nat) (s : State) : Res :=
  let v := s.q.sreg g
  let u := s.q.sreg (g + 1)
  let len := fieldOf v 63 32
  let doff := fieldOf v 31 0
  let glog := fieldOf u 27 24
  let soff := fieldOf u 18 0
  let n := 2 ^ glog
  let stop := fun (c : Nat) => Res.stop c (laneMask s.batch) 0
  let src := s.member s.q.fid (fieldOf u 23 19)
  if glog < 2 ∨ 6 < glog ∨ len = 0 ∨ 65536 < len ∨ doff % n ≠ 0 ∨ soff % n ≠ 0 ∨ len % n ≠ 0 then stop 0x060
  else if s.fol.scratchBytes < doff + len ∨ (match src with | some m => decide ((s.folio m).scratchBytes < soff + len) | none => false) = true then
    stop 0x061
  else match src with
    | none => stop 0x062
    | some m =>
      if m = s.q.fid then stop 0x062
      else match s.freeSub m with
        | none => stop 0x0E3
        | some e => .wait (s.primed g m e) (s.primedWait d g m e)

theorem uniSubscribe_eq : uniSubscribe D d g s = D.runU s (subscribeRes d g s) := rfl

/-- Fields that satisfy R250 and a free entry: the granules are on their way. -/
theorem subscribeRes_of_free (fits : Subscribable s g m) (free : s.freeSub m = some e) :
    subscribeRes d g s = .wait (s.primed g m e) (s.primedWait d g m e) := by
  obtain ⟨low, high, nonempty, most, dst, src, whole, here, member, there, other⟩ := fits
  simp [subscribeRes, Nat.not_lt.mpr low, Nat.not_lt.mpr high, nonempty, Nat.not_lt.mpr most, dst, src, whole, Nat.not_lt.mpr here, member,
    Nat.not_lt.mpr there, other, free]

/-! ## unsub (R253) -/

/-- The description that `unsub` and `sflush` run. -/
def handleDesc (op : Nat) (legal : Bool) (o : SF) : Desc := { usDesc o op legal [.sreg o.a.toNat] with b := .none }

/-- A subscription is flushed and closing. -/
def State.closeSub (s : State) (x : Sub) : State := (s.flushSub x).modSub x.id (fun y => { y with closing := true })

/-- The body of `unsub`, for the subscription that its handle names. -/
def unsubRes (h : Option Sub) (s : State) : Res :=
  match h with
  | none => .done (s.setK 1 false)
  | some x =>
    if x.dst ≠ s.q.fid then .done (s.setK 1 false)
    else .wait (s.closeSub x) (.drain ((s.closeSub x).updatesOf (fun z => z = x.id)) (.unsubbed x.id))

theorem uniUnsub_eq : uniUnsub op legal o s = (handleDesc op legal o).runU s (unsubRes (s.subOf (s.q.sreg o.a.toNat)) s) := rfl

/-! ## sflush (R254) -/

/-- The stores of the quire to scratchpads are performed, and some subscriptions flushed. -/
def State.flushed (s : State) (ids : List Nat) : State :=
  ((s.ownScratch s.q.uid).subs.filter (fun x => ids.contains x.id)).foldl (fun (t : State) x => t.flushSub x) (s.ownScratch s.q.uid)

/-- The batch waits for the updates of some subscriptions. -/
def flushRes (ids : List Nat) (s : State) : Res := .wait (s.flushed ids) (.drain ((s.flushed ids).updatesOf (fun z => ids.contains z)) .flushed)

/-- The folio is the source or the subscriber. -/
def State.subMine (s : State) (x : Sub) : Bool := x.src = s.q.fid || x.dst = s.q.fid

/-- The body of `sflush`, for the register of its handle and the subscription that this names. -/
def sflushRes (a : BitVec 6) (h : Option Sub) (s : State) : Res :=
  if a = 0 then flushRes ((s.subs.filter s.subMine).map Sub.id) s
  else match h with
    | some x => if s.subMine x then flushRes [x.id] s else .done (s.setK 1 false)
    | none => .done (s.setK 1 false)

theorem sflushRes_all {a : BitVec 6} (all : a = 0) (h : Option Sub) : sflushRes a h s = flushRes ((s.subs.filter s.subMine).map Sub.id) s :=
  if_pos all

theorem uniSflush_eq : uniSflush op legal o s = (handleDesc op legal o).runU s (sflushRes o.a (s.subOf (s.q.sreg o.a.toNat)) s) := rfl

end Sys2Proof.Machine

namespace Sys2Proof.Claims

open Sys2Proof.Machine

variable {i : Instr} {D W : Desc} {d g : Nat} {o : SF} {s : State}

theorem subscribes_of_uniSubscribe (run : exec i s = .next (uniSubscribe D d g s)) (checks : D.checked = { W with legal := i.wf })
    (legal : W.legal = true) : Subscribes i W d g s := by
  rw [uniSubscribe_eq] at run
  refine under_of_runU run checks legal (fun hlen clear run m e fits free => ?_)
  rw [subscribeRes_of_free fits free] at run
  exact hlen ▸ blocks_of_run clear run

theorem under_of_uniUnsub (run : exec i s = .next (uniUnsub 0x28 i.wf o s)) :
    Under i (usWord 0x28 o [.sreg o.a.toNat]) s
      ((s.subOf (s.q.sreg o.a.toNat) = none → Done i 4 s (s.setK 1 false))
        ∧ (∀ x, s.subOf (s.q.sreg o.a.toNat) = some x → x.dst ≠ s.q.fid → Done i 4 s (s.setK 1 false))
        ∧ (∀ x, s.subOf (s.q.sreg o.a.toNat) = some x → x.dst = s.q.fid →
            Blocks i (.drain ((s.closeSub x).updatesOf (fun z => z = x.id)) (.unsubbed x.id)) 4 s (s.closeSub x))) := by
  rw [uniUnsub_eq] at run
  refine under_of_runU run rfl rfl (fun hlen clear run => ⟨fun unknown => ?_, fun x named foreign => ?_, fun x named own => ?_⟩)
  · rw [unknown] at run
    exact done_of_run clear hlen run
  · rw [named, unsubRes, if_pos foreign] at run
    exact done_of_run clear hlen run
  · rw [named, unsubRes, if_neg (not_not_intro own)] at run
    exact blocks_of_run clear run

theorem under_of_uniSflush (run : exec i s = .next (uniSflush 0x29 i.wf o s)) :
    let waits := fun (ids : List Nat) =>
      Blocks i (.drain ((s.flushed ids).updatesOf (fun z => ids.contains z)) .flushed) 4 s (s.flushed ids)
    Under i (usWord 0x29 o [.sreg o.a.toNat]) s
      ((o.a = 0 → waits ((s.subs.filter s.subMine).map Sub.id))
        ∧ (o.a ≠ 0 → s.subOf (s.q.sreg o.a.toNat) = none → Done i 4 s (s.setK 1 false))
        ∧ (∀ x, o.a ≠ 0 → s.subOf (s.q.sreg o.a.toNat) = some x → ¬ (x.src = s.q.fid ∨ x.dst = s.q.fid) → Done i 4 s (s.setK 1 false))
        ∧ (∀ x, o.a ≠ 0 → s.subOf (s.q.sreg o.a.toNat) = some x → x.src = s.q.fid ∨ x.dst = s.q.fid → waits [x.id])) := by
  intro waits
  have mine : ∀ x, s.subMine x = true ↔ x.src = s.q.fid ∨ x.dst = s.q.fid := fun x => by simp [State.subMine]
  rw [uniSflush_eq] at run
  refine under_of_runU run rfl rfl (fun hlen clear run =>
    ⟨fun all => ?_, fun one unknown => ?_, fun x one named foreign => ?_, fun x one named own => ?_⟩)
  · rw [sflushRes_all all] at run
    exact blocks_of_run clear run
  · rw [unknown, sflushRes, if_neg one] at run
    exact done_of_run clear hlen run
  · rw [← mine] at foreign
    rw [named, sflushRes, if_neg one, if_neg foreign] at run
    exact done_of_run clear hlen run
  · rw [← mine] at own
    rw [named, sflushRes, if_neg one, if_pos own] at run
    exact blocks_of_run clear run

/-- Settles O26: with a free entry `subscribe` waits for its granules, and `unsub` and `sflush` wait for the updates that they have sent, or
report a handle that they may not use. -/
theorem subscriptions : Obligations.Subscriptions := fun _ =>
  ⟨fun _ => ⟨subscribes_of_uniSubscribe rfl rfl rfl, under_of_uniUnsub rfl, under_of_uniSflush rfl⟩,
    fun _ => subscribes_of_uniSubscribe rfl rfl rfl⟩

end Sys2Proof.Claims
end

section
/-! Barriers (R259 to R266), and the two words that run their checks before they arrive. -/

namespace Sys2Proof.Machine

variable {op : Nat} {legal vol : Bool} {o : SF} {fid : Nat} {s : State}

/-- The description that a short uniform word without operands runs. -/
def bareDesc (op : Nat) (legal : Bool) (o : SF) : Desc := { usDesc o op legal [] with a := .none, b := .none }

/-- A word whose checks pass blocks with the record of the trap that its wait may still end in. -/
theorem Desc.run_blocks {D : Desc} (clear : D.clear s) (t : State) (k : WaitKind) :
    ∃ r : Trap, r.epc = s.pc ∧ r.len = D.len ∧ D.run s (.wait t k) = t.block k D.len r := ⟨_, rfl, rfl, Desc.run_wait clear k⟩

/-! ## Completion (R262, R265) -/

/-- A departure orders a quire's later reads, and leaves the parties as they are. -/
theorem State.departs_parties (s : State) (uid : Nat) (vol : Bool) (rels : List Rel) : (s.departs uid vol rels).parties = s.parties := by
  have joined := State.foldl_keeps State.parties (f := fun (t : State) r => t.joinRel uid r) (fun _ _ => rfl) rels s
  unfold State.departs State.seeUpdates; dsimp only
  split
  · split <;> exact joined
  · exact joined

/-- The completion of a volume barrier leaves the folios as they are. -/
theorem State.completeBar_folio (s : State) (fid : Nat) : (s.completeBar fid ⟨true, none⟩).folio = s.folio := by
  have kept : ∀ (t : State) (us : List Nat) (rels : List Rel),
      (us.foldl (fun (t : State) u => t.departs u true rels) t).parties = t.parties :=
    fun t us rels => State.foldl_keeps State.parties (fun t u => State.departs_parties t u true rels) us t
  unfold State.completeBar State.depart; dsimp only
  rw [if_pos rfl]
  obtain ⟨-, -, folios, saved⟩ := State.parties_eq_iff.mp (kept _ _ _)
  funext f
  unfold State.folio
  rw [folios, saved]
  rfl

/-- A full barrier whose party has arrived completes, unless it is the folio's and awaits a change of its split (R275); a volume's
exited folios lose their shares. -/
theorem State.tryComplete_full (s : State) (fid : Nat) (vol : Bool) : s.tryComplete fid [⟨vol, none⟩] =
    (if s.allArrived fid ⟨vol, none⟩ = true ∧ ¬ (vol = false ∧ (s.folio fid).carveRq.isSome = true) then
      (if vol then (s.completeBar fid ⟨vol, none⟩).returnShares ((s.completeBar fid ⟨vol, none⟩).folio fid).vid
        else s.completeBar fid ⟨vol, none⟩)
      else s) := by
  have ready : s.barReady fid ⟨vol, none⟩ = true ↔
      s.allArrived fid ⟨vol, none⟩ = true ∧ ¬ (vol = false ∧ (s.folio fid).carveRq.isSome = true) := by
    cases vol <;> simp [State.barReady]
  rw [← if_congr ready rfl rfl]
  unfold State.tryComplete
  cases h : s.barReady fid ⟨vol, none⟩ with
  | false => simp [h]
  | true => cases vol <;> simp [h, State.completeBar_folio]

theorem uniBar_eq : uniBar op legal o vol s =
    let D := bareDesc op legal o
    let b : BarId := ⟨vol, none⟩
    if (D.cause s).isSome || !s.kActive D.pr D.neg then D.run s (.done s)
    else if (s.barrier s.q.fid b).arrived.contains s.q.uid then D.run s (.wait s (.barrier vol))
    else (D.run s (.wait (s.arriveBar s.q.fid s.q.uid b) (.barrier vol))).tryComplete s.q.fid [b] := rfl

/-! ## Split barriers (R263) -/

/-- The quire has arrived at the split barrier of a d field, for the generation that is open. -/
def State.splitTaken (s : State) (d : BitVec 6) : State :=
  { s with q := { s.q with
      splitP := putBit s.q.splitP (splitNo d) true
      splitG := Sparse.set 0 (splitNo d) (s.barrier s.q.fid (splitOf d)).gen s.q.splitG } }

/-- What `barrive` does. -/
def barriveRes (d : BitVec 6) (s : State) : Res :=
  if s.q.splitP.getLsbD (splitNo d) then .stop 0x0E1 (laneMask s.batch) 0
  else .done (((s.splitTaken d).arriveBar s.q.fid s.q.uid (splitOf d)).tryComplete s.q.fid [splitOf d])

theorem uniBarrive_eq : uniBarrive op legal o s = (bareDesc op legal o).runU s (barriveRes o.d s) := by
  unfold uniBarrive barriveRes; dsimp only
  split <;> rfl

/-- The generation that a `bwait` waits for: the one for which it has blocked, or that of the quire's arrival. -/
def State.splitGoal (s : State) (d : BitVec 6) : Nat := s.splitWait.getD (Sparse.get 0 (splitNo d) s.q.splitG)

/-- The quire has departed from the split barrier of a d field. -/
def State.splitLeft (s : State) (d : BitVec 6) : State :=
  let t := s.departs s.q.uid (splitOf d).vol (s.barrier s.q.fid (splitOf d)).past
  { t with q := { t.q with splitP := putBit t.q.splitP (splitNo d) false } }

/-- What `bwait` does. -/
def bwaitRes (d : BitVec 6) (s : State) : Res :=
  if s.splitWait = none ∧ s.q.splitP.getLsbD (splitNo d) = false then .stop 0x0E1 (laneMask s.batch) 0
  else if (s.barrier s.q.fid (splitOf d)).gen ≤ s.splitGoal d then .wait s (.split (splitNo d) (s.splitGoal d))
  else .done (s.splitLeft d)

theorem uniBwait_eq : uniBwait op legal o s = (bareDesc op legal o).runU s (bwaitRes o.d s) := by
  unfold bwaitRes
  rw [apply_ite ((bareDesc op legal o).runU s), apply_ite ((bareDesc op legal o).runU s)]
  rfl

section

variable {d : BitVec 6} (begun : (s.splitWait.isSome || s.q.splitP.getLsbD (splitNo d)) = true)
include begun

/-- A `bwait` that has begun does not test P again. -/
theorem bwaitRes_begun : bwaitRes d s =
    if (s.barrier s.q.fid (splitOf d)).gen ≤ s.splitGoal d then .wait s (.split (splitNo d) (s.splitGoal d)) else .done (s.splitLeft d) :=
  if_neg (by
    rintro ⟨fresh, open_⟩
    rw [fresh, open_] at begun
    exact Bool.noConfusion begun)

theorem bwaitRes_completed (past : s.splitGoal d < (s.barrier s.q.fid (splitOf d)).gen) : bwaitRes d s = .done (s.splitLeft d) := by
  rw [bwaitRes_begun begun, if_neg (Nat.not_le.mpr past)]

theorem bwaitRes_open (open_ : ¬ s.splitGoal d < (s.barrier s.q.fid (splitOf d)).gen) :
    bwaitRes d s = .wait s (.split (splitNo d) (s.splitGoal d)) := by
  rw [bwaitRes_begun begun, if_pos (Nat.not_lt.mp open_)]

end

end Sys2Proof.Machine

namespace Sys2Proof.Claims

open Sys2Proof.Machine

variable {i : Instr} {D W : Desc} {o : SF} {s t : State}

/-- A uniform word that is behind its own checks: under its predicate it is what stands behind them; without it, it only advances. -/
theorem under_of_guard (run : exec i s = .next (if (D.cause s).isSome || !s.kActive D.pr D.neg then D.run s (.done s) else t)) {P : Prop}
    (checks : D.checked = { W with legal := i.wf }) (legal : W.legal = true) (body : D.len = W.len → D.clear s → exec i s = .next t → P) :
    Under i W s P := by
  intro passes
  have clear : D.clear s := passes.clear legal checks
  obtain ⟨hpr, hneg, hlen⟩ := Desc.fields_of_checked checks
  rw [clear.1] at run
  refine ⟨fun idle => ?_, fun active => ?_⟩
  · rw [hpr, hneg, idle] at run
    exact done_of_run clear hlen run
  · rw [hpr, hneg, active] at run
    exact body hlen clear run

theorem fullBarrier : FullBarrier := by
  intro s o m2 vol b
  refine under_of_guard (congrArg _ uniBar_eq) rfl rfl (fun hlen clear run fresh => ?_)
  obtain ⟨r, epc, len, blocks⟩ := Desc.run_blocks clear (s.arriveBar s.q.fid s.q.uid b) (.barrier vol)
  refine ⟨r, epc, len.trans hlen, run.trans (congrArg _ ((if_neg (ne_true_of_eq_false fresh)).trans ?_))⟩
  exact (congrArg (fun t => State.tryComplete t s.q.fid [b]) blocks).trans (State.tryComplete_full _ _ vol)

theorem splitBarrier : SplitBarrier := by
  intro s o i b
  constructor
  · refine under_of_runU (congrArg _ uniBarrive_eq) rfl rfl (fun hlen clear run => ⟨fun arrived => ?_, fun open_ => ?_⟩)
    · exact traps_of_run clear (run.trans (congrArg _ (congrArg _ (if_pos arrived))))
    · exact done_of_run clear hlen (run.trans (congrArg _ (congrArg _ (if_neg (ne_true_of_eq_false open_)))))
  · refine under_of_runU (congrArg _ uniBwait_eq) rfl rfl (fun hlen clear run => ⟨fun fresh open_ => ?_, fun begun => ?_⟩)
    · exact traps_of_run clear (run.trans (congrArg _ (congrArg _ (if_pos ⟨fresh, open_⟩))))
    · intro g
      split
      · next past => exact done_of_run clear hlen (run.trans (congrArg _ (congrArg _ (bwaitRes_completed begun past))))
      · next open_ => exact blocks_of_run clear (run.trans (congrArg _ (congrArg _ (bwaitRes_open begun open_))))

/-- Settles O21: `bar` arrives and the last arrival completes the generation, `barrive` takes the open generation, and `bwait` departs
behind it. -/
theorem barriers : Obligations.Barriers := ⟨fullBarrier, splitBarrier⟩

end Sys2Proof.Claims
end

section
/-! Queues (R267 to R273). -/

namespace Sys2Proof.Machine

open Sys2Proof.Claims (QueueAt Accepts)

variable {D : Desc} {addr v h : DWord} {valid nb : Bool} {effect : State → Nat → Nat → Res} {owner off op d : Nat} {legal : Bool} {o : SF}
  {s t : State}

/-! ## The descriptor (R269) -/

/-- The body of a queue instruction, behind the checks of its descriptor. -/
def queueRes (s : State) (addr : DWord) (valid : Bool) (effect : State → Nat → Nat → Res) : Res :=
  match s.qAddr s.q.fid addr with
  | .error c => .stop c (laneMask s.batch) addr
  | .ok (owner, off) =>
    let t := s.ownQueue owner off
    match (if valid then t.queueHurt owner off else none) with
    | some c => .stop c (laneMask s.batch) addr
    | none => if valid && !t.qValid s.q.fid owner off (t.qdesc owner off) then .stop 0x0E0 (laneMask s.batch) addr else effect t owner off

theorem Desc.queue_eq : D.queue s addr valid effect = D.runU s (queueRes s addr valid effect) := by
  unfold Desc.queue queueRes
  cases s.qAddr s.q.fid addr with
  | error c => rfl
  | ok p =>
    dsimp only
    generalize (if valid = true then (s.ownQueue p.1 p.2).queueHurt p.1 p.2 else none) = hurt
    cases hurt with
    | some c => rfl
    | none => exact (apply_ite (D.runU s) _ _ _).symm

/-- `qinit` looks at the place of the descriptor alone. -/
theorem queueRes_unread (located : s.qAddr s.q.fid addr = .ok (owner, off)) :
    queueRes s addr false effect = effect (s.ownQueue owner off) owner off := by
  rw [queueRes, located]
  rfl

theorem queueRes_of_at (sound : QueueAt s addr owner off) : queueRes s addr true effect = effect (s.ownQueue owner off) owner off := by
  obtain ⟨located, whole, passes⟩ := sound
  rw [queueRes, located]
  simp only [if_true, whole, passes, Bool.not_true, Bool.and_false, Bool.false_eq_true, if_false]

/-! ## qinit and qallow (R270, R271) -/

/-- The descriptor that `qinit` writes: RING, NM1, SCOPE and the magic byte. -/
def qinitMade (v : DWord) : QDesc :=
  BitVec.ofNat 256 (fieldOf v 18 0 * 2 ^ 64 + fieldOf v 39 32 * 2 ^ 96 + fieldOf v 42 40 * 2 ^ 104 + 0x51 * 2 ^ 120)

/-- What `qinit` does at its descriptor, with the fields of its second register. -/
def qinitRes (addr v : DWord) (s t : State) (owner off : Nat) : Res :=
  let stop := fun (c : Nat) => Res.stop c (laneMask s.batch) addr
  if fieldOf v 31 19 ≠ 0 ∨ fieldOf v 63 43 ≠ 0 ∨ fieldOf v 39 32 = 0 ∨ ¬ (fieldOf v 42 40 = 2 ∨ fieldOf v 42 40 = 3) then stop 0x0E0
  else if fieldOf v 42 40 = 2 ∧ owner ≠ s.q.fid then stop 0x0E0
  else if fieldOf v 18 0 % 8 ≠ 0 then stop 0x060
  else if (s.folio owner).scratchBytes < fieldOf v 18 0 + 9 * (fieldOf v 39 32 + 1) then stop 0x061
  else if ringOverlaps (fieldOf v 18 0) (fieldOf v 39 32 + 1) off then stop 0x0E0
  else if t.qWaiters (scratchLoc owner off) ≠ [] then stop 0x0E0
  else .done (t.putQdesc owner off (qinitMade v))

theorem uniQinit_eq : uniQinit op legal o s = ({ usDesc o op legal [.sgroup o.a.toNat 2] with b := .none } : Desc).queue s (s.q.sreg o.a.toNat)
    false (qinitRes (s.q.sreg o.a.toNat) (s.q.sreg (o.a.toNat + 1)) s) := rfl

theorem qinitRes_of_passed (high : fieldOf v 31 19 = 0) (top : fieldOf v 63 43 = 0) (size : fieldOf v 39 32 ≠ 0)
    (scope : fieldOf v 42 40 = 2 ∨ fieldOf v 42 40 = 3) (own : fieldOf v 42 40 = 2 → owner = s.q.fid) (aligned : fieldOf v 18 0 % 8 = 0)
    (fits : fieldOf v 18 0 + 9 * (fieldOf v 39 32 + 1) ≤ (s.folio owner).scratchBytes)
    (apart : ringOverlaps (fieldOf v 18 0) (fieldOf v 39 32 + 1) off = false) (idle : t.qWaiters (scratchLoc owner off) = []) :
    qinitRes addr v s t owner off = .done (t.putQdesc owner off (qinitMade v)) := by
  have fields : ¬ (fieldOf v 31 19 ≠ 0 ∨ fieldOf v 63 43 ≠ 0 ∨ fieldOf v 39 32 = 0 ∨ ¬ (fieldOf v 42 40 = 2 ∨ fieldOf v 42 40 = 3)) := by
    rintro (h | h | h | h)
    exacts [h high, h top, size h, h scope]
  rw [qinitRes, if_neg fields, if_neg (fun h => h.2 (own h.1)), if_neg (not_not_intro aligned), if_neg (Nat.not_lt.mpr fits), apart,
    if_neg Bool.false_ne_true, if_neg (not_not_intro idle)]

/-- A producer slot is replaced, freed where it permits and uses nothing, and the producers that wait are served. -/
def State.putSlot (t : State) (owner off i : Nat) (x : BitVec 32) : State :=
  (t.putQdesc owner off (qSetSlot (t.qdesc owner off) i (if fieldOf x 7 0 = 0 ∧ fieldOf x 15 8 = 0 then 0 else x))).qServeAll owner off

/-- What `qallow` does at its descriptor, with the fields of its second register. -/
def qallowRes (addr v : DWord) (s t : State) (owner off : Nat) : Res :=
  let q := t.qdesc owner off
  if fieldOf v 63 18 ≠ 0 then .stop 0x0E0 (laneMask s.batch) addr
  else match qFind q (fieldOf v 17 13) (fieldOf v 12 8) with
    | some i => .done (t.putSlot owner off i (putField (qSlot q i) 7 0 (fieldOf v 7 0)))
    | none =>
      if fieldOf v 7 0 = 0 then .done t
      else match (List.range 4).find? (fun i => !(qSlot q i).getLsbD 26) with
        | some i => .done (t.putSlot owner off i
            (BitVec.ofNat 32 (2 ^ 26 + fieldOf v 17 13 * 2 ^ 21 + fieldOf v 12 8 * 2 ^ 16 + fieldOf v 7 0)))
        | none => .stop 0x0E0 (laneMask s.batch) addr

theorem uniQallow_eq : uniQallow op legal o s = (usDesc o op legal [.sreg o.a.toNat, .sreg o.b.toNat]).queue s (s.q.sreg o.a.toNat) true
    (qallowRes (s.q.sreg o.a.toNat) (s.q.sreg o.b.toNat) s) := rfl

section

variable (reserved : fieldOf v 63 18 = 0)
include reserved

theorem qallowRes_named {i : Nat} (named : qFind (t.qdesc owner off) (fieldOf v 17 13) (fieldOf v 12 8) = some i) :
    qallowRes addr v s t owner off = .done (t.putSlot owner off i (putField (qSlot (t.qdesc owner off) i) 7 0 (fieldOf v 7 0))) := by
  rw [qallowRes, if_neg (not_not_intro reserved), named]

theorem qallowRes_nothing (unnamed : qFind (t.qdesc owner off) (fieldOf v 17 13) (fieldOf v 12 8) = none) (nothing : fieldOf v 7 0 = 0) :
    qallowRes addr v s t owner off = .done t := by
  rw [qallowRes, if_neg (not_not_intro reserved), unnamed]
  exact if_pos nothing

theorem qallowRes_free {i : Nat} (unnamed : qFind (t.qdesc owner off) (fieldOf v 17 13) (fieldOf v 12 8) = none) (permits : fieldOf v 7 0 ≠ 0)
    (free : (List.range 4).find? (fun i => !(qSlot (t.qdesc owner off) i).getLsbD 26) = some i) :
    qallowRes addr v s t owner off = .done (t.putSlot owner off i
      (BitVec.ofNat 32 (2 ^ 26 + fieldOf v 17 13 * 2 ^ 21 + fieldOf v 12 8 * 2 ^ 16 + fieldOf v 7 0))) := by
  rw [qallowRes, if_neg (not_not_intro reserved), unnamed, free]
  exact if_neg permits

end

/-! ## qpush and qpop (R272, R273) -/

/-- Where no batch is blocked on a descriptor, none is served. -/
theorem State.qServeAll_idle (idle : s.qWaiters (scratchLoc owner off) = []) : s.qServeAll owner off = s := by
  have nobody : s.qNext owner off = none := by rw [State.qNext, idle]; rfl
  rw [State.qServeAll, State.qServe, nobody]

/-- What `qpush` does at its descriptor with a handle. -/
def qpushRes (nb : Bool) (h : DWord) (s t : State) (owner off : Nat) : Res :=
  let u := t.unblocked.qServeAll owner off
  let q := u.qdesc owner off
  if qCount q = qSize q ∨ qPermits q s.fol.folioid s.q.quireid = false then
    if nb then .done (t.setK 1 false) else .wait t (.queue (scratchLoc owner off) true 0 h)
  else .done (((u.qPush owner off s.fol.folioid s.q.quireid h (u.carried s.q.uid (some (fieldOf q 106 104)))).setK 1 true).qServeAll owner off)

theorem uniQpush_eq : uniQpush op legal o nb s = (usDesc o op legal [.sreg o.a.toNat, .sreg o.b.toNat]).queue s (s.q.sreg o.a.toNat) true
    (qpushRes nb (s.q.sreg o.b.toNat) s) := rfl

/-- The descriptor refuses an entry of the issuing quire. -/
theorem not_accepts_iff (t : State) (folio quire : Nat) : ¬ Accepts t folio quire owner off ↔
    qCount (t.qdesc owner off) = qSize (t.qdesc owner off) ∨ qPermits (t.qdesc owner off) folio quire = false := by
  rw [Accepts, Classical.not_and_iff_not_or_not, not_not, Bool.not_eq_true]

section

variable (idle : t.unblocked.qWaiters (scratchLoc owner off) = [])
include idle

theorem qpushRes_refused (refused : ¬ Accepts t s.fol.folioid s.q.quireid owner off) : qpushRes nb h s t owner off =
    if nb then .done (t.setK 1 false) else .wait t (.queue (scratchLoc owner off) true 0 h) := by
  rw [qpushRes, State.qServeAll_idle idle]
  exact if_pos ((not_accepts_iff t _ _).mp refused)

theorem qpushRes_accepted (accepts : Accepts t s.fol.folioid s.q.quireid owner off) : qpushRes nb h s t owner off =
    .done (((t.unblocked.qPush owner off s.fol.folioid s.q.quireid h (t.unblocked.carried s.q.uid
      (some (fieldOf (t.qdesc owner off) 106 104)))).setK 1 true).qServeAll owner off) := by
  rw [qpushRes, State.qServeAll_idle idle]
  exact if_neg (fun full => (not_accepts_iff t _ _).mpr full accepts)

end

/-- The handle popped for a quire is in register `d`, and the batches that wait are served. -/
def State.popped (u : State) (owner off uid d : Nat) : State :=
  (((u.qPop owner off uid).2.setS d (u.qPop owner off uid).1).setK 1 true).qServeAll owner off

/-- What `qpop` does at its descriptor, for its register. -/
def qpopRes (nb : Bool) (d : Nat) (s t : State) (owner off : Nat) : Res :=
  let u := t.unblocked.qServeAll owner off
  if qCount (u.qdesc owner off) = 0 then
    if nb then .done (t.setK 1 false) else .wait t (.queue (scratchLoc owner off) false d 0)
  else .done (u.popped owner off s.q.uid d)

theorem uniQpop_eq : uniQpop op legal o nb s =
    ({ usDesc o op legal [.sreg o.d.toNat, .sreg o.a.toNat] with b := .none, skip := .sreg o.d.toNat 64 } : Desc).queue s
      (s.q.sreg o.a.toNat) true (qpopRes nb o.d.toNat s) := rfl

section

variable (idle : t.unblocked.qWaiters (scratchLoc owner off) = [])
include idle

theorem qpopRes_empty (empty : qCount (t.qdesc owner off) = 0) : qpopRes nb d s t owner off =
    if nb then .done (t.setK 1 false) else .wait t (.queue (scratchLoc owner off) false d 0) := by
  rw [qpopRes, State.qServeAll_idle idle]
  exact if_pos empty

theorem qpopRes_filled (filled : qCount (t.qdesc owner off) ≠ 0) :
    qpopRes nb d s t owner off = .done (t.unblocked.popped owner off s.q.uid d) := by
  rw [qpopRes, State.qServeAll_idle idle]
  exact if_neg filled

end

/-! ## A descriptor that is broken (R268) -/

/-- The issuing quire waits in one batch alone. -/
def State.withWait (s : State) (x : Wait) : State := { s with q := { s.q with waits := [x] } }

/-- A lone batch that is blocked on a broken descriptor traps, and nothing else is served. -/
theorem State.serveQueues_broken {w : Wait} {loc reg : Nat} {push : Bool} (alone : s.rest = []) (unheld : s.q.held = none)
    (unpended : s.q.pend = none) (waits : s.q.waits = [w]) (kind : w.kind = .queue loc push reg h) (placed : loc ≠ 0)
    (broken : s.queueBroken s.q.fid loc = true) : let x : Wait := { w with kind := .queue 0 push reg h }
    s.serveQueues = (s.withWait x).trapIn s.q.uid x 0x0E0 (w.trap.laneRec 0).a := by
  intro x
  have marked : ({ s with q := s.markBroken s.q, rest := s.rest.map s.markBroken } : State) = s.withWait x := by
    simp only [State.markBroken, waits, kind, alone, State.withWait, List.map_cons, List.map_nil, broken, placed, ne_eq, not_false_eq_true,
      decide_true, Bool.and_true, if_true, x]
  have lone : (s.withWait x).quires = [(s.withWait x).q] := congrArg _ alone
  have own : (s.withWait x).quire s.q.uid = (s.withWait x).q := by rw [State.quire, lone]; simp [State.withWait]
  have free : (s.withWait x).q.faulted = false := by simp [Quire.faulted, State.withWait, unheld, unpended]
  have traps : (s.withWait x).trapBroken s.q.uid = (s.withWait x).trapIn s.q.uid x 0x0E0 (w.trap.laneRec 0).a := by
    rw [State.trapBroken, own, free]
    rfl
  simp only [State.serveQueues, marked, lone]
  exact traps

end Sys2Proof.Machine

namespace Sys2Proof.Claims

open Sys2Proof.Machine

theorem queueSetup : QueueSetup := by
  intro s o owner off
  constructor
  · intro v ring nm1 sc
    refine under_of_runU (congrArg _ (uniQinit_eq.trans Desc.queue_eq)) rfl rfl
      (fun hlen clear run located high top size scope own aligned fits apart idle => ?_)
    rw [queueRes_unread located, qinitRes_of_passed high top size scope own aligned fits apart idle] at run
    exact done_of_run clear hlen run
  · intro v t q put
    refine under_of_runU (congrArg _ (uniQallow_eq.trans Desc.queue_eq)) rfl rfl
      (fun hlen clear run sound reserved => ?_)
    rw [queueRes_of_at sound] at run
    refine ⟨fun i named => ?_, fun unnamed nothing => ?_, fun i unnamed permits free => ?_⟩
    · exact done_of_run clear hlen (run.trans (congrArg _ (congrArg _ (qallowRes_named reserved named))))
    · exact done_of_run clear hlen (run.trans (congrArg _ (congrArg _ (qallowRes_nothing reserved unnamed nothing))))
    · exact done_of_run clear hlen (run.trans (congrArg _ (congrArg _ (qallowRes_free reserved unnamed permits free))))

theorem queueTransfer : QueueTransfer := by
  intro s o m2 owner off addr t q me
  refine ⟨fun sound idle => ⟨?_, ?_⟩, ?_⟩
  · refine under_of_runU (congrArg _ (uniQpush_eq.trans Desc.queue_eq)) rfl rfl
      (fun hlen clear run => ⟨fun refused => ?_, fun accepts => ?_⟩) <;> rw [queueRes_of_at sound] at run
    · rw [qpushRes_refused idle refused] at run
      split <;> rename_i nb
      · rw [if_pos nb] at run
        exact done_of_run clear hlen run
      · rw [if_neg nb] at run
        exact blocks_of_run clear run
    · rw [qpushRes_accepted idle accepts] at run
      exact done_of_run clear hlen run
  · refine under_of_runU (congrArg _ (uniQpop_eq.trans Desc.queue_eq)) rfl rfl
      (fun hlen clear run => ⟨fun empty => ?_, fun filled => ?_⟩) <;> rw [queueRes_of_at sound] at run
    · rw [qpopRes_empty idle empty] at run
      split <;> rename_i nb
      · rw [if_pos nb] at run
        exact done_of_run clear hlen run
      · rw [if_neg nb] at run
        exact blocks_of_run clear run
    · rw [qpopRes_filled idle filled] at run
      exact done_of_run clear hlen run
  · intro w loc reg push h alone unheld unpended waits kind placed broken
    exact ⟨_, { w with kind := .queue 0 push reg h }, rfl, rfl, rfl, rfl,
      State.serveQueues_broken alone unheld unpended waits kind placed broken⟩

/-- Settles O22: behind the checks of its descriptor a queue word writes it, moves a handle, reports, or blocks. -/
theorem queues : Obligations.Queues := ⟨queueSetup, queueTransfer⟩

end Sys2Proof.Claims
end

section
/-! `carve` and `pause` (R274, R276). -/

namespace Sys2Proof.Machine

variable {op : Nat} {legal : Bool} {o : SF} {s : State} {w : Wait}

/-- The description that `carve` runs. -/
def carveDesc (op : Nat) (legal : Bool) (o : SF) : Desc := { usDesc o op legal [.sreg o.a.toNat] with b := .none }

/-- `carve` is refused: its value has a bit above 17, a request stands, or the quire has arrived. -/
abbrev State.CarveRefused (s : State) (v : DWord) : Prop :=
  v.toNat / 2 ^ 18 ≠ 0 ∨ s.fol.carveRq.isSome = true ∨ (s.barrier s.q.fid ⟨false, none⟩).arrived.contains s.q.uid = true

/-- The request stands with its folio, and its quire has arrived. -/
def State.carveAsked (s : State) (v : DWord) : State :=
  (s.modFolio s.q.fid (fun x => { x with carveRq := some (v, s.q.uid) })).arriveBar s.q.fid s.q.uid ⟨false, none⟩

theorem uniCarve_eq : uniCarve op legal o s =
    let D := carveDesc op legal o
    let v := s.q.sreg o.a.toNat
    if (D.cause s).isSome || !s.kActive D.pr D.neg then D.run s (.done s)
    else if s.CarveRefused v then D.run s (.stop 0x0E1 (laneMask s.batch) 0)
    else (D.run s (.wait (s.carveAsked v) (.barrier false))).tryComplete s.q.fid [⟨false, none⟩] := rfl

theorem State.carveRefused_iff (s : State) (v : DWord) : s.CarveRefused v ↔
    2 ^ 18 ≤ v.toNat ∨ s.fol.carveRq.isSome = true ∨ (s.barrier s.q.fid ⟨false, none⟩).arrived.contains s.q.uid = true := by
  refine or_congr_left ?_
  rw [ne_eq, Nat.div_eq_zero_iff_lt (Nat.two_pow_pos 18), Nat.not_lt]

/-- A quire whose name is its own is the only one that a change of its name reaches. -/
theorem State.modQuire_own (others : ∀ x ∈ s.rest, x.uid ≠ s.q.uid) (outside : ∀ v ∈ s.saved, ∀ x ∈ v.quires, x.uid ≠ s.q.uid)
    (f : Quire → Quire) : s.modQuire s.q.uid f = { s with q := f s.q } := by
  have same : ∀ xs : List Quire, (∀ x ∈ xs, x.uid ≠ s.q.uid) → xs.map (fun x => if x.uid = s.q.uid then f x else x) = xs :=
    fun xs h => (List.map_congr_left (fun x hx => if_neg (h x hx))).trans (List.map_id' xs)
  have saved : s.saved.map (fun v => { v with quires := v.quires.map (fun x => if x.uid = s.q.uid then f x else x) }) = s.saved :=
    (List.map_congr_left (fun v hv => by rw [same _ (outside v hv)])).trans (List.map_id' _)
  rw [State.modQuire, saved, same _ others, if_pos rfl]

theorem exec_pauseEnd (uid : Nat) (pc : DWord) (frame : Nat) (s : State) :
    exec (.pauseEnd uid pc frame) s = .next (pauseEnd uid pc frame s) := rfl

/-- The end of the pause of a lone waiting batch puts it behind its word. -/
theorem pauseEnd_own (others : ∀ x ∈ s.rest, x.uid ≠ s.q.uid) (outside : ∀ v ∈ s.saved, ∀ x ∈ v.quires, x.uid ≠ s.q.uid)
    (waits : s.q.waits = [w]) (kind : w.kind = .pause) : pauseEnd s.q.uid w.pc w.frame s = { s with q := s.q.complete w } := by
  rw [pauseEnd, State.modQuire_own others outside]
  simp [waits, kind]

end Sys2Proof.Machine

namespace Sys2Proof.Claims

open Sys2Proof.Machine

/-- Settles O23: `carve` arrives with its request where it may, and a pause ends behind its word. -/
theorem carveAndPause : Obligations.CarveAndPause := by
  intro s o
  refine ⟨?_, ?_, fun w waits kind others outside => ?_⟩
  · intro v b
    refine under_of_guard (congrArg _ uniCarve_eq) rfl rfl (fun hlen clear run => ⟨fun refused => ?_, fun small fresh absent => ?_⟩)
    · exact traps_of_run clear (run.trans (congrArg _ (if_pos ((s.carveRefused_iff v).mpr refused))))
    · have free : ¬ s.CarveRefused v := by
        rw [s.carveRefused_iff]
        rintro (big | asked | arrived)
        exacts [Nat.not_le.mpr small big, ne_true_of_eq_false fresh asked, ne_true_of_eq_false absent arrived]
      obtain ⟨r, epc, len, blocks⟩ := Desc.run_blocks clear (s.carveAsked v) (.barrier false)
      exact ⟨r, epc, len.trans hlen, run.trans (congrArg _ ((if_neg free).trans (congrArg (fun t => State.tryComplete t s.q.fid [b]) blocks)))⟩
  · exact under_of_runU (D := bareDesc 0x2F (Instr.pauseUS o).wf o) rfl rfl rfl (fun _ clear run => blocks_of_run clear run)
  · rw [exec_pauseEnd, pauseEnd_own others outside waits kind]

end Sys2Proof.Claims
end

section
/-! `slaunch`, `ssignal`, `nop` and `yield` (R310 to R312, R320, R334). -/

namespace Sys2Proof.Machine

open Sys2Proof.Claims (RecordsAt)

variable {op n addr k c tok target : Nat} {legal : Bool} {o : LF} {ts : List Target} {s : State}

/-- The description that `slaunch` runs. -/
def slaunchDesc (op : Nat) (legal : Bool) (o : LF) : Desc :=
  { uni := true, op := op, len := 8, pr := o.pr, neg := o.neg, legal := legal
    uses := [.sreg o.d.toNat, .sreg o.a.toNat, .sreg o.b.toNat, .sreg o.c.toNat]
    a := .sreg o.a.toNat, b := .sreg o.b.toNat, c := .sreg o.c.toNat, wa := 64, wb := 64, skip := .sreg o.d.toNat 64 }

/-- The code that `slaunch` returns in register `d`, and whether it has enqueued. -/
def State.launchResult (s : State) (d code : Nat) (ok : Bool) : State := (s.setS d (BitVec.ofNat 64 code)).setK 1 ok

/-- The first shelf of some records that does not pass for the issuing folio. -/
def State.launchFailure (s : State) (target : Nat) (rs : List (BitVec 2048)) : Option (Nat × ShelfCheck) :=
  s.checkShelves (fun ea => s.route s.q.fid ea .write) target rs

/-- The collection is enqueued on a token of the issuing quire, in the state behind the release. -/
def State.launched (s t : State) (d tok target : Nat) (rs : List (BitVec 2048)) : State :=
  (((t.startLaunch tok).enqueue s.fol.die s.fol.asid s.super false target rs (some (s.q.uid, tok)) none).setS d 0).setK 1 true

/-- What `slaunch` does with the records that it has read. -/
def slaunchRes (d tok target : Nat) (rs : List (BitVec 2048)) (s : State) : Res :=
  match s.launchFailure target rs with
  | some (i, .code c) => .done (s.launchResult d (c * 256 + i) false)
  | some (_, .fault c a) => .stop c (laneMask s.batch) (BitVec.ofNat 64 a)
  | some (_, .waits a) => .wait s (.reach a)
  | _ => s.behindRelease true 5 (fun t => .done (s.launched t d tok target rs))

/-- The die that the register of a target names, or the issuing folio's. -/
def State.launchDie (s : State) (v : DWord) : Nat := launchTarget s.fol.die (fieldOf v 1 0) (v.getLsbD 3)

/-- The code of a count and a target that do not pass. -/
def State.launchBarred (s : State) (o : LF) : Option Nat :=
  s.launchCode (s.q.sreg o.b.toNat).toNat (fieldOf (s.q.sreg o.c.toNat) 63 4 * 2 + fieldOf (s.q.sreg o.c.toNat) 2 2)
    (s.launchDie (s.q.sreg o.c.toNat))

theorem uniSlaunch_idle (idle : s.kActive o.pr o.neg = false) :
    uniSlaunch op legal o s = .next ((slaunchDesc op legal o).run s (.done s)) := by
  unfold uniSlaunch
  exact if_pos (by rw [show s.kActive (ulArgs o).pr (ulArgs o).neg = false from idle]; exact Bool.or_true _)

section

variable (clear : (slaunchDesc op legal o).clear s) (active : s.kActive o.pr o.neg = true)
include clear active

theorem slaunch_executes : ¬ (((slaunchDesc op legal o).cause s).isSome || !s.kActive o.pr o.neg) = true := by
  rw [clear.1, active]
  exact Bool.false_ne_true

theorem uniSlaunch_refused (code : s.launchBarred o = some c) :
    uniSlaunch op legal o s = .next ((slaunchDesc op legal o).run s (.done (s.launchResult o.d.toNat (c * 256) false))) := by
  unfold uniSlaunch
  refine (if_neg (slaunch_executes clear active)).trans ?_
  rw [State.launchBarred, State.launchDie] at code
  rw [code, ← Nat.add_zero (c * 256)]
  rfl

/-- Records that can be read, with a token and a place in the queue: `slaunch` checks them. -/
theorem uniSlaunch_reads (passes : s.launchBarred o = none)
    (records : RecordsAt s (s.q.sreg o.a.toNat).toNat (s.q.sreg o.b.toNat).toNat ts) (counts : (s.q.tok o.low3.toNat).count ≠ 63)
    (room : (s.queueOf (s.launchDie (s.q.sreg o.c.toNat))).length < 64) :
    uniSlaunch op legal o s = .next ((slaunchDesc op legal o).run s (slaunchRes o.d.toNat o.low3.toNat
      (s.launchDie (s.q.sreg o.c.toNat)) (s.readRecords s.fol.die ts (s.q.sreg o.b.toNat).toNat) s)) := by
  obtain ⟨aligned, routed, free⟩ := records
  rw [State.launchBarred, State.launchDie] at passes
  unfold uniSlaunch
  refine (if_neg (slaunch_executes clear active)).trans ?_
  rw [passes]
  refine (if_neg (not_not_intro aligned)).trans ?_
  rw [routed]
  dsimp only
  rw [Option.isNone_iff_eq_none.mp free]
  refine (if_neg counts).trans ((if_neg (Nat.not_le.mpr room)).trans ?_)
  unfold slaunchRes State.launchFailure State.launchDie
  generalize s.checkShelves _ _ _ = found
  rcases found with _ | ⟨k, _ | c | ⟨c, a⟩ | a⟩ <;> rfl

end

theorem slaunchRes_code {d : Nat} {rs : List (BitVec 2048)} (fails : s.launchFailure target rs = some (k, .code c)) :
    slaunchRes d tok target rs s = .done (s.launchResult d (c * 256 + k) false) := by rw [slaunchRes, fails]

theorem slaunchRes_fine {d : Nat} {rs : List (BitVec 2048)} (fine : s.launchFailure target rs = none) :
    slaunchRes d tok target rs s = s.behindRelease true 5 (fun t => .done (s.launched t d tok target rs)) := by rw [slaunchRes, fine]

/-! ## ssignal (R312) -/

/-- The folio's bit behind the release of every access of its quires. -/
def State.signalled (s : State) : State := (s.releaseFolio s.q.fid).setBit s.fol ((s.releaseFolio s.q.fid).folioRels s.q.fid)

theorem uniSsignal_eq {o : SF} : uniSsignal op legal o s = (bareDesc op legal o).runU s
    (if s.folioBlocked s.q.fid then .wait s (.flush 7) else .done s.signalled) := rfl

end Sys2Proof.Machine

namespace Sys2Proof.Claims

open Sys2Proof.Machine

theorem under_slaunch (s : State) (o : LF) :
    Under (.slaunchUL o) (ulWord 0x2E o [.sreg o.d.toNat, .sreg o.a.toNat, .sreg o.b.toNat, .sreg o.c.toNat]) s
      ((∀ c, s.launchBarred o = some c → Done (.slaunchUL o) 8 s (s.launchResult o.d.toNat (c * 256) false))
        ∧ (∀ ts, s.launchBarred o = none → RecordsAt s (s.q.sreg o.a.toNat).toNat (s.q.sreg o.b.toNat).toNat ts →
            (s.q.tok o.low3.toNat).count ≠ 63 → (s.queueOf (s.launchDie (s.q.sreg o.c.toNat))).length < 64 →
            let rs := s.readRecords s.fol.die ts (s.q.sreg o.b.toNat).toNat
            let to_ := s.launchDie (s.q.sreg o.c.toNat)
            (∀ k c, s.launchFailure to_ rs = some (k, .code c) →
              Done (.slaunchUL o) 8 s (s.launchResult o.d.toNat (c * 256 + k) false))
            ∧ (s.launchFailure to_ rs = none →
              Behind (.slaunchUL o) 8 true 5 s s (fun t => Done (.slaunchUL o) 8 s (s.launched t o.d.toNat o.low3.toNat to_ rs))))) := by
  intro passes
  have clear : (slaunchDesc 0x2E (Instr.slaunchUL o).wf o).clear s := passes.clear rfl rfl
  refine ⟨fun idle => ?_, fun active => ⟨fun c code => ?_, fun ts fits records counts room => ?_⟩⟩
  · exact done_of_run clear rfl (uniSlaunch_idle idle)
  · exact done_of_run clear rfl (uniSlaunch_refused clear active code)
  · have run : exec (.slaunchUL o) s = _ := uniSlaunch_reads clear active fits records counts room
    refine ⟨fun k c fails => ?_, fun fine => ?_⟩
    · exact done_of_run clear rfl (run.trans (congrArg _ (congrArg _ (slaunchRes_code fails))))
    · exact behind_of_run clear (run.trans (congrArg _ (congrArg _ (slaunchRes_fine fine)))) (fun t run => done_of_run clear rfl run)

/-- Settles O30: `slaunch` returns the first code that a check gives, or enqueues behind its release; `ssignal` sets the bit behind that of
its folio. -/
theorem launching : Obligations.Launching := by
  intro s
  refine ⟨fun o => under_slaunch s o, fun o => ⟨?_, ?_, ?_⟩⟩
  · refine under_of_runU (congrArg Host.Outcome.next uniSsignal_eq) rfl rfl (fun hlen clear run => ⟨fun held => ?_, fun free => ?_⟩)
    · exact blocks_of_run clear (run.trans (congrArg _ (congrArg _ (if_pos held))))
    · exact done_of_run clear hlen (run.trans (congrArg _ (congrArg _ (if_neg (ne_true_of_eq_false free)))))
  · exact under_of_runU_of_legal (D := bareDesc 0x2F true o) rfl rfl (fun _ => rfl) (fun clear run => done_of_run clear rfl run)
  · exact under_of_runU (D := bareDesc 0x2F (Instr.yieldUS o).wf o) rfl rfl rfl (fun hlen clear run => done_of_run clear hlen run)

end Sys2Proof.Claims
end

section
/-! Branches, and fibres that gather, are made and end (R323 to R325, R327, R331 to R333). -/

namespace Sys2Proof.Machine

open Sys2Proof.Claims (among target)

variable {op len : Nat} {legal : Bool} {s t : State}

/-! ## Members of a batch, by their lanes -/

/-- Whether a lane is among those of some fibres. -/
theorem contains_lanes (fs : List Fibre) (f : Fibre) : (fs.map (·.lane)).contains f.lane = among fs f := by
  rw [List.contains_eq_any_beq, List.any_map, among]
  exact List.any_congr rfl (fun g => decide_eq_decide.mpr eq_comm)

/-- The mask of the lanes of some fibres. -/
theorem lanesOf_map (fs : List Fibre) : lanesOf (fs.map (·.lane)) = laneMask fs := List.foldl_map

/-- Where a member of a batch goes of which the fibres of `act` go to targets of their own (R324). -/
def toOwn (act : List Fibre) (g : Fibre → DWord) (len : Nat) (f : Fibre) : DWord :=
  match act.find? (fun x => x.lane = f.lane) with
  | some x => g x
  | none => f.pc + BitVec.ofNat 64 len

theorem State.split_map (s : State) (act : List Fibre) (g : Fibre → DWord) (len : Nat) :
    s.split (act.map (fun f => (f.lane, g f))) len = s.move (s.batch.map (fun f => (f.lane, toOwn act g len f))) := by
  refine congrArg s.move (List.map_congr_left (fun f _ => ?_))
  rw [List.find?_map, toOwn, show (fun x : Nat × DWord => decide (x.1 = f.lane)) ∘ (fun f => (f.lane, g f))
    = fun x => decide (x.lane = f.lane) from rfl]
  cases act.find? (fun x => decide (x.lane = f.lane)) <;> rfl

/-- All of them to one target. -/
theorem toOwn_const (act : List Fibre) (t : DWord) (len : Nat) (f : Fibre) :
    toOwn act (fun _ => t) len f = if among act f then t else f.pc + BitVec.ofNat 64 len := by
  rw [toOwn, among, ← List.isSome_find?]
  cases act.find? (fun g => decide (g.lane = f.lane)) <;> rfl

/-- A batch that has moved is not blocked any more. -/
theorem State.unblocked_move (s : State) (tos : List (Nat × DWord)) : (s.move tos).unblocked = s.unblocked.move tos := rfl

/-! ## brx (R323, R324) -/

/-- The description that `brx` runs. -/
def brxDesc (op len : Nat) (pr : BitVec 3) (neg : Bool) (a : Name) (legal : Bool) : Desc :=
  { ctlDesc op len pr neg legal [.src a 64] with a := .name a, wa := 64 }

/-- The target of a fibre in a register pair. -/
def State.targetIn (s : State) (a : Name) (f : Fibre) : DWord := BitVec.ofNat 64 (s.rd f a 64)

/-- The fibres whose target is no multiple of 4. -/
def State.misaligned (s : State) (a : Name) (act : List Fibre) : List Fibre :=
  act.filter (fun f => (s.targetIn a f).extractLsb' 0 2 ≠ 0)

/-- What `brx` does with its active fibres. -/
def brxRes (len : Nat) (a : Name) (act : List Fibre) (s : State) : Res :=
  match s.misaligned a act with
  | f :: _ => .stop 0x060 (laneMask (s.misaligned a act)) (s.targetIn a f)
  | [] => .jump (s.move (s.batch.map (fun f => (f.lane, toOwn act (s.targetIn a) len f))))

theorem laneBrx_eq (op len : Nat) (pr : BitVec 3) (neg : Bool) (a : Name) (legal : Bool) (s : State) :
    laneBrx op len pr neg a legal s = (brxDesc op len pr neg a legal).run s (brxRes len a (s.active pr neg) s) := by
  have odd : ((s.active pr neg).map (fun f => (f.lane, s.targetIn a f))).filter (fun x => x.2.extractLsb' 0 2 ≠ 0)
      = (s.misaligned a (s.active pr neg)).map (fun f => (f.lane, s.targetIn a f)) := List.filter_map
  have lanes : ((s.misaligned a (s.active pr neg)).map (fun f => (f.lane, s.targetIn a f))).map (·.1)
      = (s.misaligned a (s.active pr neg)).map (·.lane) := List.map_map
  unfold laneBrx brxRes; dsimp only
  erw [odd]
  rw [lanes, lanesOf_map]
  cases s.misaligned a (s.active pr neg) with
  | nil => exact congrArg (fun t => (brxDesc op len pr neg a legal).run s (.jump t)) (State.split_map s _ _ _)
  | cons f fs => rfl

/-! ## Ends (R312, R332, R333) -/

theorem laneFexit_eq {o : SF} : laneFexit op legal o s = (ctlDesc op 4 o.pr o.neg legal []).run s
    (s.ending (s.active o.pr o.neg) (.done ((s.endFibres (s.active o.pr o.neg)).afterEnd s.q.uid 0 true))) := rfl

theorem uniHalt_eq {o : SF} : uniHalt op o s = (bareDesc op true o).runU s
    (s.ending s.q.fibres (.done (((s.dropPermits [s.q.uid]).endFibres s.q.fibres).afterEnd s.q.uid 0 true))) := rfl

/-! ## gather and fspawn (R327, R331) -/

/-- The quire with the children of some fibres at a target. -/
def Quire.spawned (q : Quire) (fs : List Fibre) (t : DWord) : Quire := (fs.map (·.lane)).foldl (spawnOne t) q

/-- The children arrive at their target. -/
def State.withChildren (s : State) (fs : List Fibre) (t : DWord) : State :=
  { s with q := (s.q.spawned fs t).move (((s.q.spawned fs t).fibres.filter (fun f => !among s.q.fibres f)).map (fun f => (f.lane, t))) }

theorem laneFspawn_eq {o : IF} : laneFspawn op legal o s =
    (relDesc op legal o).run s (.done (s.withChildren (s.active o.pr o.neg) (target s o))) := by
  unfold laneFspawn State.withChildren; dsimp only
  simp only [contains_lanes]
  rfl

/-- Some fibres have armed an entry for a point. -/
def State.armed (s : State) (fs : List Fibre) (t : DWord) : State :=
  s.mapFibres (fun f => if among fs f then { f with gather := armEntry (t, f.frame) f.gather } else f)

theorem laneGather_eq {o : IF} : laneGather op legal o s =
    (relDesc op legal o).run s (.done (s.armed (s.active o.pr o.neg) (target s o))) := by
  unfold laneGather State.armed; dsimp only
  simp only [contains_lanes]
  rfl

end Sys2Proof.Machine

namespace Sys2Proof.Claims

open Sys2Proof.Machine

variable {i : Instr} {D W : Desc} {s t : State}

/-- A word that ends with a jump. -/
theorem jumps_of_run (clear : D.clear s) (run : exec i s = .next (D.run s (.jump t))) : exec i s = .next t.unblocked :=
  run.trans (congrArg _ (Desc.run_jump clear))

/-- A word with which fibres end: it waits while their release cannot complete, and else it has its effect. -/
theorem ends_of_run {fs : List Fibre} {effect : Res} {P : Prop} (clear : D.clear s) (run : exec i s = .next (D.run s (s.ending fs effect)))
    (hP : exec i s = .next (D.run s effect) → P) : Ends i D.len s fs P :=
  ⟨fun held => blocks_of_run clear (run.trans (congrArg _ (congrArg _ (if_pos held)))),
    fun free => hP (run.trans (congrArg _ (congrArg _ (if_neg free))))⟩

theorem branchesIndirect_of_laneBrx {op len : Nat} {pr : BitVec 3} {neg : Bool} {a : Name}
    (run : exec i s = .next (laneBrx op len pr neg a i.wf s)) :
    BranchesIndirect i { uni := false, op := op, len := len, pr := pr, neg := neg, uses := [.src a 64] } a s := by
  intro passes
  have clear : (brxDesc op len pr neg a i.wf).clear s := passes.clear rfl rfl
  rw [laneBrx_eq] at run
  refine ⟨fun even => ?_, fun f rest first => ?_⟩
  · exact jumps_of_run clear (run.trans (congrArg _ (congrArg _ (by rw [brxRes, show s.misaligned a _ = [] from even]))))
  · refine traps_of_run clear (run.trans (congrArg _ (congrArg _ ?_)))
    rw [brxRes, show s.misaligned a _ = f :: rest from first, first]
    rfl

theorem jumpsIndirect_of_uniJump {to_ : DWord} (run : exec i s = .next (uniJump D to_ s)) (checks : D.checked = { W with legal := i.wf })
    (legal : W.legal = true) : JumpsIndirect i W to_ s := by
  refine under_of_runU run checks legal (fun _ clear run => ⟨fun even => ?_, fun odd => ?_⟩)
  · exact jumps_of_run clear (run.trans (congrArg _ (congrArg _ (if_neg (not_not_intro even)))))
  · exact traps_of_run clear (run.trans (congrArg _ (congrArg _ (if_pos odd))))

/-- Settles O27: each word moves its fibres to its target, and an indirect one first tests that this is a multiple of 4. -/
theorem branches : Obligations.Branches := by
  intro s
  refine ⟨fun o => ⟨fun passes => ?_, ?_⟩, fun o => ⟨branchesIndirect_of_laneBrx rfl, jumpsIndirect_of_uniJump rfl rfl rfl,
    jumpsIndirect_of_uniJump rfl rfl rfl⟩, fun o => branchesIndirect_of_laneBrx rfl⟩
  · have clear : (relDesc 0x2C (Instr.braLI o).wf o).clear s := passes.clear rfl rfl
    have moves := State.split_map s (s.active o.pr o.neg) (fun _ => target s o) 8
    simp only [toOwn_const] at moves
    exact (jumps_of_run clear rfl).trans (congrArg (fun t => Host.Outcome.next (State.unblocked t)) moves)
  · exact under_of_runU (D := { uni := true, op := 0x2C, len := 8, pr := o.pr, neg := o.neg, legal := (Instr.sbrUI o).wf
                                b := .imm (o.imm.signExtend 64), wb := 64 }) rfl rfl rfl (fun _ clear run => jumps_of_run clear run)

/-- Settles O28: `gather` and `fspawn` act on the active fibres by their lanes, and `fexit` and `halt` end theirs behind the release of an
end. -/
theorem fibres : Obligations.Fibres := by
  intro s
  refine ⟨fun o => ⟨fun passes => ?_, fun passes => ?_⟩, fun o => ⟨fun passes => ?_, ?_⟩⟩
  · exact lane_done_of_run passes (congrArg Host.Outcome.next laneGather_eq) rfl rfl rfl
  · exact lane_done_of_run passes (congrArg Host.Outcome.next laneFspawn_eq) rfl rfl rfl
  · have clear : (ctlDesc 0x2F 4 o.pr o.neg (Instr.fexitLS o).wf []).clear s := passes.clear rfl rfl
    exact ends_of_run clear (congrArg Host.Outcome.next laneFexit_eq) (fun run => done_of_run clear rfl run)
  · exact under_of_runU_of_legal (congrArg Host.Outcome.next uniHalt_eq) rfl (fun _ => rfl)
      (fun clear run => ends_of_run clear run (fun run => done_of_run clear rfl run))

end Sys2Proof.Claims
end

section
/-! Calls, returns, handlers and unwinding (R336 to R343). -/

namespace Sys2Proof.Machine

open Sys2Proof.Claims (among target)

variable {op u b a : Nat} {legal : Bool} {o : IF} {act fs : List Fibre} {s : State}

/-! ## call (R336, R337) -/

/-- The demand of a `call` is beyond what its version or its folio has. -/
abbrev State.CallTooLarge (s : State) (u : Nat) : Prop := 28 < u ∨ (s.encv = 1 ∧ 5 < u) ∨ s.fol.frameUnits < u

/-- The active fibres are in a new frame, and its batch has moved. -/
def State.called (s : State) (act : List Fibre) (n : Frame) (t : DWord) : State :=
  let v := s.mapFibres (fun f => if among act f then { f with frame := n.id, depth := f.depth + 1 } else f)
  ({ v with q := { v.q with frames := v.q.frames ++ [n] } } : State).move
    (s.batch.map (fun f => (f.lane, if among act f then t else f.pc + 8)))

theorem callFrame_id (s : State) (act : List Fibre) (u base depth : Nat) : (callFrame s act u base depth).id = s.q.newId := by
  rw [callFrame]

/-- What `call` does with its active fibres. -/
def callRes (act : List Fibre) (u : Nat) (t : DWord) (s : State) : Res :=
  if s.CallTooLarge u then .stop 0x100 (laneMask act) 0
  else if act.any (fun f => f.depth = 65535) then .stop 0x100 (laneMask act) 0
  else match act with
    | [] => .done s
    | f0 :: _ =>
      if 65535 ≤ s.q.frames.length then .stop 0x101 (laneMask act) 0
      else match s.runFor s.q s.sel.2 u with
        | .overflow a => .stop 0x101 (laneMask act) (BitVec.ofNat 64 a)
        | .waits => .wait s (.frameRun u)
        | .run b => .jump (s.called act (callFrame s act u b (f0.depth + 1)) t)

theorem laneCall_eq : laneCall op legal o s =
    (relDesc op legal o).run s (callRes (s.active o.pr o.neg) (fieldOf o.d 4 0) (target s o) s) := rfl

theorem callRes_large {t : DWord} (large : s.CallTooLarge u) : callRes act u t s = .stop 0x100 (laneMask act) 0 := if_pos large

section

variable {t : DWord} (fits : ¬ s.CallTooLarge u)
include fits

theorem callRes_none : callRes [] u t s = .done s := if_neg fits

theorem callRes_deep (deep : ∃ f ∈ act, f.depth = 65535) : callRes act u t s = .stop 0x100 (laneMask act) 0 := by
  obtain ⟨f, hf, hd⟩ := deep
  exact (if_neg fits).trans (if_pos (List.any_eq_true.mpr ⟨f, hf, decide_eq_true hd⟩))

section

variable (shallow : ∀ f ∈ act, f.depth ≠ 65535) (few : s.q.frames.length < 65535)
include shallow few

/-- A `call` within its limits: the run of units decides. -/
theorem callRes_within {f0 : Fibre} (first : act = f0 :: fs) : callRes act u t s =
    match s.runFor s.q s.sel.2 u with
    | .overflow a => .stop 0x101 (laneMask act) (BitVec.ofNat 64 a)
    | .waits => .wait s (.frameRun u)
    | .run b => .jump (s.called act (callFrame s act u b (f0.depth + 1)) t) := by
  have undeep : ¬ act.any (fun f => f.depth = 65535) = true := by
    rw [List.any_eq_true]
    rintro ⟨f, hf, hd⟩
    exact shallow f hf (of_decide_eq_true hd)
  subst first
  exact (if_neg fits).trans ((if_neg undeep).trans (if_neg (Nat.not_le.mpr few)))

theorem callRes_run {f0 : Fibre} (first : act = f0 :: fs) (run : s.runFor s.q s.sel.2 u = .run b) :
    callRes act u t s = .jump (s.called act (callFrame s act u b (f0.depth + 1)) t) := by
  rw [callRes_within fits shallow few first, run]

theorem callRes_waits (some_ : act ≠ []) (waits : s.runFor s.q s.sel.2 u = .waits) : callRes act u t s = .wait s (.frameRun u) := by
  obtain ⟨f0, fs, first⟩ := List.exists_cons_of_ne_nil some_
  rw [callRes_within fits shallow few first, waits]

theorem callRes_overflow (some_ : act ≠ []) (full : s.runFor s.q s.sel.2 u = .overflow a) :
    callRes act u t s = .stop 0x101 (laneMask act) (BitVec.ofNat 64 a) := by
  obtain ⟨f0, fs, first⟩ := List.exists_cons_of_ne_nil some_
  rw [callRes_within fits shallow few first, full]

end

end

/-! ## ret (R340) -/

/-- The fibres that return are in the caller's frame, those of depth 0 have ended, and the batch has moved. -/
def State.returned (s : State) (ends rets : List Fibre) : State :=
  let t : State := { s with q := rets.foldl (fun (q : Quire) f => q.popTo f.lane [s.frm.id] s.frm.caller (f.depth - 1)) s.q }
  ((t.move (s.batch.map (fun f => (f.lane, if among rets f then s.frm.retpc else f.pc + 4)))).endFibres ends).afterEnd s.q.uid 0 true

/-- What `ret` does with the fibres that end and those that return. -/
def retRes (ends rets : List Fibre) (s : State) : Res :=
  if rets = [] then s.ending ends (.jump (s.returned ends rets))
  else s.intoFrame s.frm.caller (laneMask rets) (s.returned ends rets)

theorem laneRet_eq {o : SF} : laneRet op legal o s = (ctlDesc op 4 o.pr o.neg legal []).run s
    (retRes ((s.active o.pr o.neg).filter (fun f => f.depth = 0)) ((s.active o.pr o.neg).filter (fun f => f.depth ≠ 0)) s) := rfl

/-! ## fmark and unwind (R343) -/

/-- The mark of `fmark`, in the current frame of a batch with active fibres. -/
def State.marked (s : State) (act : List Fibre) (h : DWord) : State :=
  if act = [] then s else { s with q := s.q.modFrame s.sel.2 (fun fr => { fr with handler := h }) }

theorem laneFmark_eq : laneFmark op legal o s = (relDesc op legal o).run s
    (.done (s.marked (s.active o.pr o.neg) (if o.modi.getLsbD 0 then 0 else target s o))) := rfl

/-- A fibre has left the frames above a marked one, and their gather points. -/
def Quire.unwindTo (q : Quire) (lane : Nat) (above : List Nat) (marked depth : Nat) : Quire :=
  let p := q.popTo lane above marked depth
  { p with fibres := p.fibres.map (fun g => if g.lane = lane then { g with gather := g.gather.filter (fun e => !above.contains e.2) } else g) }

/-- Some fibres have left the frames above a marked one for its handler. -/
def State.unwound (s : State) (act : List Fibre) (above : List Nat) (marked : Nat) : State :=
  ({ s with q := act.foldl (fun (q : Quire) f => q.unwindTo f.lane above marked (s.q.frame marked).depth) s.q } : State).move
    (s.batch.map (fun f => (f.lane, if among act f then (s.q.frame marked).handler else f.pc + 4)))

/-- Fibres without a marked frame trap. -/
theorem laneUnwind_unmarked {o : SF} (some_ : ∃ f ∈ s.active o.pr o.neg, unwindTarget s.q f = none) :
    laneUnwind op legal o s = (ctlDesc op 4 o.pr o.neg legal []).run s
      (.stop 0x102 (laneMask ((s.active o.pr o.neg).filter (fun f => unwindTarget s.q f = none))) 0) := by
  obtain ⟨f, hf, none_⟩ := some_
  have found : f ∈ (s.active o.pr o.neg).filter (fun f => unwindTarget s.q f = none) :=
    List.mem_filter.mpr ⟨hf, decide_eq_true none_⟩
  obtain ⟨g, gs, cons⟩ := List.exists_cons_of_ne_nil (List.ne_nil_of_mem found)
  unfold laneUnwind; dsimp only
  rw [cons]

/-- Where a member of the batch goes, of which some fibres leave for the handlers of marked frames. -/
def Quire.unwindPc (q : Quire) (go : List (Fibre × List Nat × Nat)) (f : Fibre) : DWord :=
  match go.find? (fun x => x.1.lane = f.lane) with
  | some x => (q.frame x.2.2).handler
  | none => f.pc + 4

/-- Each of some fibres has left the frames above its marked one. -/
def State.unwoundBy (s : State) (go : List (Fibre × List Nat × Nat)) : State :=
  ({ s with q := go.foldl (fun (q : Quire) x => q.unwindTo x.1.lane x.2.1 x.2.2 (s.q.frame x.2.2).depth) s.q } : State).move
    (s.batch.map (fun f => (f.lane, s.q.unwindPc go f)))

/-- What `unwind` does with fibres that all have a marked frame. -/
def unwindRes (act : List Fibre) (go : List (Fibre × List Nat × Nat)) (s : State) : Res :=
  match go with
  | x :: _ => s.intoFrame x.2.2 (laneMask act) (s.unwoundBy go)
  | [] => .jump (s.unwoundBy go)

theorem laneUnwind_eq {o : SF} (all : (s.active o.pr o.neg).filter (fun f => unwindTarget s.q f = none) = []) :
    laneUnwind op legal o s = (ctlDesc op 4 o.pr o.neg legal []).run s (unwindRes (s.active o.pr o.neg)
      ((s.active o.pr o.neg).filterMap (fun f => (unwindTarget s.q f).map (fun t => (f, t.1, t.2)))) s) := by
  unfold laneUnwind; dsimp only
  rw [all]
  rfl

theorem Quire.unwindPc_map (q : Quire) (act : List Fibre) (above : List Nat) (marked : Nat) (f : Fibre) :
    q.unwindPc (act.map (fun f => (f, above, marked))) f = if among act f then (q.frame marked).handler else f.pc + 4 := by
  refine Eq.trans ?_ (toOwn_const act (q.frame marked).handler 4 f)
  rw [Quire.unwindPc, toOwn, List.find?_map, show (fun x : Fibre × List Nat × Nat => decide (x.1.lane = f.lane)) ∘ (fun f => (f, above, marked))
    = fun x => decide (x.lane = f.lane) from rfl]
  cases act.find? (fun x => decide (x.lane = f.lane)) <;> rfl

theorem State.unwoundBy_map (s : State) (act : List Fibre) (above : List Nat) (marked : Nat) :
    s.unwoundBy (act.map (fun f => (f, above, marked))) = s.unwound act above marked := by
  unfold State.unwoundBy State.unwound
  simp only [List.foldl_map, Quire.unwindPc_map]

/-- Fibres of which every one has the same marked frame leave for it. -/
theorem laneUnwind_marked {o : SF} {above : List Nat} {marked : Nat}
    (all : ∀ f ∈ s.active o.pr o.neg, unwindTarget s.q f = some (above, marked)) :
    laneUnwind op legal o s = (ctlDesc op 4 o.pr o.neg legal []).run s
      (if s.active o.pr o.neg = [] then .jump (s.unwound (s.active o.pr o.neg) above marked)
        else s.intoFrame marked (laneMask (s.active o.pr o.neg)) (s.unwound (s.active o.pr o.neg) above marked)) := by
  have none_ : (s.active o.pr o.neg).filter (fun f => unwindTarget s.q f = none) = [] :=
    List.filter_eq_nil_iff.mpr (fun f hf => by simp [all f hf])
  have go : (s.active o.pr o.neg).filterMap (fun f => (unwindTarget s.q f).map (fun t => (f, t.1, t.2)))
      = (s.active o.pr o.neg).map (fun f => (f, above, marked)) := by
    rw [← List.filterMap_eq_map]
    exact List.filterMap_congr (fun f hf => by rw [all f hf]; rfl)
  rw [laneUnwind_eq none_, go, ← State.unwoundBy_map]
  cases s.active o.pr o.neg <;> rfl

end Sys2Proof.Machine

namespace Sys2Proof.Claims

open Sys2Proof.Machine

variable {i : Instr} {D : Desc} {s t : State}

/-- A word that takes fibres into a frame of their chain. -/
theorem enters_of_run {id : Nat} {lanes : Word} (clear : D.clear s) (hlen : D.len = 4)
    (run : exec i s = .next (D.run s (s.intoFrame id lanes t))) : Enters i s id lanes t := by
  refine ⟨fun resident => ?_, fun k off ts archived routed reached => ?_⟩
  · exact jumps_of_run clear (run.trans (congrArg _ (congrArg _ (by rw [State.intoFrame, resident]))))
  · have meets : s.intoFrame id lanes t = match s.runFor s.q s.sel.2 (s.q.frame id).size8 (s.q.freedBy s.sel.2 id lanes) with
        | .run b => .jump (t.refill s.q.uid id b ts)
        | .overflow a => .stop 0x101 lanes (BitVec.ofNat 64 a)
        | .waits => .wait s (.refill id lanes) := by
      rw [State.intoFrame, archived]
      dsimp only
      rw [routed]
      dsimp only
      rw [reached]
      generalize s.runFor s.q s.sel.2 (s.q.frame id).size8 (s.q.freedBy s.sel.2 id lanes) = found
      cases found <;> rfl
    rw [meets] at run
    refine ⟨fun b found => ?_, fun found => ?_, fun a found => ?_⟩ <;> rw [found] at run
    · exact jumps_of_run clear run
    · exact hlen ▸ blocks_of_run clear run
    · exact traps_of_run clear run

theorem call : Call := by
  intro s o act u passes
  have clear : (relDesc 0x30 (Instr.callLI o).wf o).clear s := passes.clear rfl rfl
  have run : exec (.callLI o) s = .next ((relDesc 0x30 (Instr.callLI o).wf o).run s (callRes act u (target s o) s)) := rfl
  refine ⟨fun large => ?_, fun small old room => ?_⟩
  · exact traps_of_run clear (run.trans (congrArg _ (congrArg _ (callRes_large large))))
  · have fits : ¬ s.CallTooLarge u := by
      rintro (h | ⟨first, h⟩ | h)
      exacts [Nat.not_lt.mpr small h, Nat.not_lt.mpr (old first) h, Nat.not_lt.mpr room h]
    refine ⟨fun none_ => ?_, fun deep => ?_, fun f0 rest b first shallow few found => ?_, fun some_ shallow few =>
      ⟨fun found => ?_, fun a found => ?_⟩⟩
    · rw [none_, callRes_none fits] at run
      exact run.trans (congrArg _ (Desc.run_done clear))
    · exact traps_of_run clear (run.trans (congrArg _ (congrArg _ (callRes_deep fits deep))))
    · exact ⟨callFrame s act u b (f0.depth + 1), callFrame_id s act u b _, rfl, rfl, rfl, rfl, rfl, rfl, rfl, rfl, rfl, rfl,
        jumps_of_run clear (run.trans (congrArg _ (congrArg _ (callRes_run fits shallow few first found))))⟩
    · exact blocks_of_run clear (run.trans (congrArg _ (congrArg _ (callRes_waits fits shallow few some_ found))))
    · exact traps_of_run clear (run.trans (congrArg _ (congrArg _ (callRes_overflow fits shallow few some_ found))))

theorem ret (s : State) (o : SF) (passes : Passes (.retLS o) (lsWord 0x31 o []) s) :
    let ends := (s.active o.pr o.neg).filter (fun f => f.depth = 0)
    let rets := (s.active o.pr o.neg).filter (fun f => f.depth ≠ 0)
    (rets = [] → Ends (.retLS o) 4 s ends (exec (.retLS o) s = .next (s.returned ends rets).unblocked))
      ∧ (rets ≠ [] → Enters (.retLS o) s s.frm.caller (laneMask rets) (s.returned ends rets)) := by
  intro ends rets
  have clear : (ctlDesc 0x31 4 o.pr o.neg (Instr.retLS o).wf []).clear s := passes.clear rfl rfl
  have run : exec (.retLS o) s = .next ((ctlDesc 0x31 4 o.pr o.neg (Instr.retLS o).wf []).run s (retRes ends rets s)) := rfl
  refine ⟨fun none_ => ?_, fun some_ => ?_⟩
  · exact ends_of_run clear (run.trans (congrArg _ (congrArg _ (if_pos none_)))) (fun run => jumps_of_run clear run)
  · exact enters_of_run clear rfl (run.trans (congrArg _ (congrArg _ (if_neg some_))))

theorem unwind (s : State) (o : SF) (passes : Passes (.unwindLS o) (lsWord 0x32 o []) s) :
    let act := s.active o.pr o.neg
    ((∃ f ∈ act, unwindTarget s.q f = none) →
        Traps (.unwindLS o) 0x102 (laneMask (act.filter (fun f => unwindTarget s.q f = none))) 0 s)
      ∧ (∀ above marked, (∀ f ∈ act, unwindTarget s.q f = some (above, marked)) →
          (act = [] → exec (.unwindLS o) s = .next (s.unwound act above marked).unblocked)
          ∧ (act ≠ [] → Enters (.unwindLS o) s marked (laneMask act) (s.unwound act above marked))) := by
  intro act
  have clear : (ctlDesc 0x32 4 o.pr o.neg (Instr.unwindLS o).wf []).clear s := passes.clear rfl rfl
  have run : exec (.unwindLS o) s = .next (laneUnwind 0x32 (Instr.unwindLS o).wf o s) := rfl
  refine ⟨fun some_ => ?_, fun above marked all => ⟨fun none_ => ?_, fun some_ => ?_⟩⟩
  · exact traps_of_run clear (run.trans (congrArg _ (laneUnwind_unmarked some_)))
  · exact jumps_of_run clear (run.trans (congrArg _ ((laneUnwind_marked all).trans (congrArg _ (if_pos none_)))))
  · exact enters_of_run clear rfl (run.trans (congrArg _ ((laneUnwind_marked all).trans (congrArg _ (if_neg some_)))))

theorem returns : Returns := fun s =>
  ⟨fun o => ⟨ret s o, unwind s o⟩, fun _ passes => lane_done_of_run passes (congrArg Host.Outcome.next laneFmark_eq) rfl rfl rfl⟩

/-- Settles O29: `call` meets its limits in their order and then the run of units; `ret` and `unwind` go into a frame of the chain, whose
record comes back where it is archived. -/
theorem callsAndReturns : Obligations.CallsAndReturns := ⟨call, returns⟩

end Sys2Proof.Claims
end

section
/-! `sys` and `trap`, `fresume` and `fkill`, `pmap`, `rdsr` and `wrsr` (R42, R376 to R383). -/

namespace Sys2Proof.Machine

variable {s : State} {o : SF} {base : Nat}

/-! ## sys and trap (R376) -/

/-- The description that `sys` and `trap` run. -/
def sysDesc (o : SF) : Desc := { usDesc o 0x30 o.legalSys [] with a := .sreg 1, b := .sreg 2 }

/-- The trap that `sys` or `trap` takes. -/
def sysTrap (base : Nat) (o : SF) (s : State) : Trap :=
  { (sysDesc o).trap s (base + o.d.toNat) (laneMask s.batch) with
    epc := s.pc + 4, info := BitVec.ofNat 64 (o.d.toNat % 16), skip := .sys }

theorem uniSys_eq : uniSys base o s = (sysDesc o).runU s (.trap (sysTrap base o s)) := rfl

theorem SF.legalSys_eq_false (high : 16 ≤ o.d.toNat) : o.legalSys = false := by
  have h : ¬ o.d.toNat ≤ 15 := by omega
  simp [SF.legalSys, h]

theorem SF.legalSys_eq_true (low : o.d.toNat < 16) (a : o.a = 0) (b : o.b = 0) : o.legalSys = true := by
  have h : o.d.toNat ≤ 15 := by omega
  simp [SF.legalSys, h, a, b]

/-- `sys` and `trap` exist in every version and every mode; only the fields of their word can be wrong. -/
theorem sysDesc_cause : (sysDesc o).cause s = if o.legalSys then none else some 0x021 := by
  cases legal : o.legalSys <;> simp [Desc.cause, sysDesc, usDesc, legal, opInVersion, opSupervisor, namesCause]

theorem laneMask_nil : laneMask [] = 0 := rfl

theorem sysDesc_clear (legal : o.legalSys = true) : (sysDesc o).clear s := by
  refine ⟨sysDesc_cause.trans (if_pos legal), fun bad => bad.2.2 ?_, rfl⟩
  simp [Desc.badLanes, sysDesc, usDesc, laneMask_nil]

/-- What resumes the quire behind `sys` or `trap` takes every member to %epc. -/
theorem Quire.resume_sys {q : Quire} {r : Trap} {skip : Bool} {len : Nat} (sys : r.skip = .sys) :
    ∃ p : Quire, q.resume r skip len = p.move ((q.at r.pc r.frame).map (fun f => (f.lane, r.epc))) :=
  ⟨_, if_pos sys⟩

theorem goTo_pc {tos : List (Nat × DWord)} {f : Fibre} {dest : DWord} (goes : f.lane ∈ tos.map (·.1)) (same : ∀ x ∈ tos, x.2 = dest) :
    (goTo tos f).pc = dest := by
  cases found : tos.find? (fun x => x.1 = f.lane) with
  | none =>
    obtain ⟨x, hx, hl⟩ := List.mem_map.mp goes
    exact absurd (decide_eq_true hl) (by simpa using List.find?_eq_none.mp found x hx)
  | some x =>
    rw [goTo, found, ← same x (List.mem_of_find?_eq_some found)]
    unfold Fibre.arrive
    dsimp only
    split <;> rfl

theorem Quire.moveOne_pc {q : Quire} {tos : List (Nat × DWord)} {f : Fibre} : (q.moveOne tos f).pc = (goTo tos f).pc := by
  unfold Quire.moveOne
  split <;> rfl

theorem Quire.moveOne_lane {q : Quire} {tos : List (Nat × DWord)} {f : Fibre} : (q.moveOne tos f).lane = f.lane := by
  have moved := q.moveOne_moved tos f
  unfold Fibre.Moved at moved
  rw [moved]

/-- Fibres that go to one address are there. -/
theorem Quire.move_pc {q : Quire} {tos : List (Nat × DWord)} {f : Fibre} {dest : DWord} (member : f ∈ (q.move tos).fibres)
    (goes : f.lane ∈ tos.map (·.1)) (same : ∀ x ∈ tos, x.2 = dest) : f.pc = dest := by
  rw [Quire.move_eq] at member
  obtain ⟨g, -, rfl⟩ := List.mem_map.mp member
  rw [Quire.moveOne_lane] at goes
  exact Quire.moveOne_pc.trans (goTo_pc goes same)

end Sys2Proof.Machine

namespace Sys2Proof.Claims

open Sys2Proof.Machine

variable {i : Instr} {base : Nat} {o : SF} {s : State}

theorem callsOut_of_uniSys (run : exec i s = .next (uniSys base o s)) : CallsOut i base o s := by
  rw [uniSys_eq] at run
  refine ⟨fun high => ?_, fun low a b idle => ?_, fun low a b active => ?_⟩
  · have cause : (sysDesc o).cause s = some 0x021 := by rw [sysDesc_cause, SF.legalSys_eq_false high]; rfl
    exact ⟨_, rfl, rfl, rfl, rfl, run.trans (congrArg _ (Desc.run_caused cause _))⟩
  · exact done_of_run (sysDesc_clear (SF.legalSys_eq_true low a b)) rfl (run.trans (congrArg _ (Desc.runU_idle (D := sysDesc o) idle _)))
  · have clear := sysDesc_clear (s := s) (SF.legalSys_eq_true low a b)
    refine ⟨sysTrap base o s, rfl, rfl, rfl, rfl, rfl, rfl, rfl, ?_, rfl, rfl, rfl, ?_⟩
    · rw [sysTrap, Nat.mod_eq_of_lt low]
    · exact run.trans (congrArg _ ((Desc.runU_active (D := sysDesc o) active _).trans (Desc.run_trap clear _)))

theorem resume_sys_pc (q : Quire) (r : Trap) (skip : Bool) (len : Nat) (sys : r.skip = .sys) :
    ∀ f ∈ (q.resume r skip len).fibres, f.lane ∈ (q.at r.pc r.frame).map (·.lane) → f.pc = r.epc := by
  intro f member lane
  obtain ⟨p, resumed⟩ := Quire.resume_sys (q := q) (skip := skip) (len := len) sys
  rw [resumed] at member
  refine Quire.move_pc member (by rwa [List.map_map]) (fun x hx => ?_)
  obtain ⟨g, -, rfl⟩ := List.mem_map.mp hx
  rfl

/-- Settles O31: the description of `sys` and `trap` fails no check but that of its fields, and their trap is the one stated; a resumption
moves every member to %epc. -/
theorem systemCalls : Obligations.SystemCalls :=
  ⟨fun _ _ => ⟨callsOut_of_uniSys rfl, callsOut_of_uniSys rfl⟩, resume_sys_pc, by decide, by decide⟩

end Sys2Proof.Claims
end

section
/-! `fresume` and `fkill` (R377, R378, R397). -/

namespace Sys2Proof.Machine

variable {s : State} {o : SF} {x : HeldFault}

/-! ## fresume -/

/-- The description that `fresume` runs. -/
def fresumeDesc (o : SF) : Desc := { usDesc o 0x31 (o.d.extractLsb' 1 5 = 0 && o.b = 0) [.sreg o.a.toNat] with b := .none }

/-- The handle in the high word of a register. -/
def State.handleIn (s : State) (o : SF) : Nat := (s.q.sreg o.a.toNat).toNat / 2 ^ 32

/-- What `fresume` does behind its checks. -/
def fresumeRes (o : SF) (s : State) : Res :=
  match s.entryFor (s.handleIn o) with
  | none => .stop 0x0B0 (laneMask s.batch) 0
  | some x => if x.trap.eng && o.d.getLsbD 0 then .stop 0x0B0 (laneMask s.batch) 0
    else s.behindRelease x.trap.eng 5 (fun t => .done (t.resumeFault x (o.d.getLsbD 0)))

theorem uniFresume_eq : uniFresume o s = (fresumeDesc o).runU s (fresumeRes o s) := by
  unfold uniFresume fresumeRes State.handleIn
  cases s.entryFor ((s.q.sreg o.a.toNat).toNat / 2 ^ 32) <;> rfl

theorem fresumeRes_unknown (unknown : s.entryFor (s.handleIn o) = none) : fresumeRes o s = .stop 0x0B0 (laneMask s.batch) 0 := by
  rw [fresumeRes, unknown]

/-- An engine operation cannot be skipped. -/
theorem fresumeRes_skips (named : s.entryFor (s.handleIn o) = some x) (engine : x.trap.eng = true) (skip : o.d.getLsbD 0 = true) :
    fresumeRes o s = .stop 0x0B0 (laneMask s.batch) 0 := by
  rw [fresumeRes, named]
  exact if_pos (by rw [engine, skip]; rfl)

theorem fresumeRes_resumes (named : s.entryFor (s.handleIn o) = some x) (may : x.trap.eng = false ∨ o.d.getLsbD 0 = false) :
    fresumeRes o s = s.behindRelease x.trap.eng 5 (fun t => .done (t.resumeFault x (o.d.getLsbD 0))) := by
  rw [fresumeRes, named]
  refine if_neg (fun both => ?_)
  obtain ⟨engine, skip⟩ := Bool.and_eq_true_iff.mp both
  rcases may with h | h
  · rw [engine] at h; cases h
  · rw [skip] at h; cases h

/-! ## fkill -/

/-- The description that `fkill` runs. -/
def fkillDesc (o : SF) : Desc :=
  { usDesc o 0x31 (fieldOf o.d 1 0 ≠ 3 && o.d.extractLsb' 2 4 = 0 && o.b = 0) [.sreg o.a.toNat] with b := .none }

theorem toNat_extractLsb'_two (d : BitVec 6) : (d.extractLsb' 0 2).toNat = fieldOf d 1 0 := by
  simp [fieldOf, BitVec.extractLsb'_toNat]

theorem fkillDesc_legal (wf : (Instr.fkillUS o).wf = true) : (fkillDesc o).legal = true := by
  simp only [Instr.wf, Bool.and_eq_true, decide_eq_true_eq] at wf
  obtain ⟨⟨mode, high⟩, b⟩ := wf
  have h : fieldOf o.d 1 0 ≠ 3 := fun h => mode (BitVec.eq_of_toNat_eq ((toNat_extractLsb'_two o.d).trans h))
  simp [fkillDesc, usDesc, h, high, b]

/-- The collection of the issuing die that a zero handle with MODE 2 names by its launch queue entry. -/
def State.shelfNamed (s : State) (o : SF) : Option Coll :=
  (s.queueOf s.fol.die).find? (fun c =>
    c.qent = fieldOf (s.q.sreg o.a.toNat) 15 0 && fieldOf (s.q.sreg o.a.toNat) 23 16 < c.shelves.length)

/-- What `fkill` does with a fault that its handle names. -/
def fkillNamed (mode : Nat) (x : HeldFault) (s : State) : Res :=
  match mode with
  | 0 => if x.trap.eng then .done (s.abandon x.holder) else .stop 0x0B0 (laneMask s.batch) 0
  | 1 => .done (s.killFolio x.fid 1)
  | _ =>
    let y := s.folio x.fid
    let s1 := s.killShelf y.coll y.shelf
    .done (if y.kind = .normal then s1 else s1.killFolio y.fid 1)

/-- What `fkill` does behind its checks. -/
def fkillRes (o : SF) (s : State) : Res :=
  if s.super && fieldOf o.d 1 0 = 2 && s.handleIn o = 0 then
    match s.shelfNamed o with
    | some c => .done (s.killShelf c.uid (fieldOf (s.q.sreg o.a.toNat) 23 16))
    | none => .stop 0x0B0 (laneMask s.batch) 0
  else match s.entryFor (s.handleIn o) with
    | none => .stop 0x0B0 (laneMask s.batch) 0
    | some x => fkillNamed (fieldOf o.d 1 0) x s

theorem uniFkill_eq : uniFkill o s = (fkillDesc o).runU s (fkillRes o s) := by
  unfold uniFkill fkillRes State.handleIn State.shelfNamed
  dsimp only
  generalize (s.queueOf s.fol.die).find? _ = c
  cases c <;> cases s.entryFor ((s.q.sreg o.a.toNat).toNat / 2 ^ 32) <;> rfl

/-- MODE 2 with a zero handle in supervisor mode names a shelf. -/
theorem fkillRes_shelf {c : Coll} (super : s.super = true) (mode : fieldOf o.d 1 0 = 2) (zero : s.handleIn o = 0)
    (named : s.shelfNamed o = some c) : fkillRes o s = .done (s.killShelf c.uid (fieldOf (s.q.sreg o.a.toNat) 23 16)) := by
  unfold fkillRes
  rw [if_pos (by simp [super, mode, zero]), named]

theorem fkillRes_unknown (unknown : s.entryFor (s.handleIn o) = none)
    (handle : ¬ (s.super = true ∧ fieldOf o.d 1 0 = 2 ∧ s.handleIn o = 0)) : fkillRes o s = .stop 0x0B0 (laneMask s.batch) 0 := by
  unfold fkillRes
  rw [if_neg (by simpa [and_assoc] using handle), unknown]

theorem fkillRes_named (named : s.entryFor (s.handleIn o) = some x)
    (handle : ¬ (s.super = true ∧ fieldOf o.d 1 0 = 2 ∧ s.handleIn o = 0)) : fkillRes o s = fkillNamed (fieldOf o.d 1 0) x s := by
  unfold fkillRes
  rw [if_neg (by simpa [and_assoc] using handle), named]

theorem fkillNamed_shelf (normal : (s.folio x.fid).kind = .normal) :
    fkillNamed 2 x s = .done (s.killShelf (s.folio x.fid).coll (s.folio x.fid).shelf) := congrArg Res.done (if_pos normal)

end Sys2Proof.Machine

namespace Sys2Proof.Claims

open Sys2Proof.Machine

theorem under_fresume (s : State) (o : SF) :
    Under (.fresumeUS o) (usWord 0x31 o [.sreg o.a.toNat]) s
      ((s.entryFor (s.handleIn o) = none → Traps (.fresumeUS o) 0x0B0 (laneMask s.batch) 0 s)
        ∧ (∀ x, s.entryFor (s.handleIn o) = some x → x.trap.eng = true → o.d.getLsbD 0 = true →
            Traps (.fresumeUS o) 0x0B0 (laneMask s.batch) 0 s)
        ∧ (∀ x, s.entryFor (s.handleIn o) = some x → (x.trap.eng = false ∨ o.d.getLsbD 0 = false) →
            Behind (.fresumeUS o) 4 x.trap.eng 5 s s (fun t => Done (.fresumeUS o) 4 s (t.resumeFault x (o.d.getLsbD 0))))) := by
  refine under_of_runU (congrArg Host.Outcome.next uniFresume_eq) rfl rfl (fun hlen clear run =>
    ⟨fun unknown => ?_, fun x named engine skip => ?_, fun x named may => ?_⟩)
  · exact traps_of_run clear (run.trans (congrArg _ (congrArg _ (fresumeRes_unknown unknown))))
  · exact traps_of_run clear (run.trans (congrArg _ (congrArg _ (fresumeRes_skips named engine skip))))
  · exact behind_of_run clear (run.trans (congrArg _ (congrArg _ (fresumeRes_resumes named may)))) (fun t run => done_of_run clear hlen run)

theorem under_fkill (s : State) (o : SF) :
    Under (.fkillUS o) (usWord 0x31 o [.sreg o.a.toNat]) s
      ((s.entryFor (s.handleIn o) = none → ¬ (s.super = true ∧ fieldOf o.d 1 0 = 2 ∧ s.handleIn o = 0) →
            Traps (.fkillUS o) 0x0B0 (laneMask s.batch) 0 s)
        ∧ (∀ x, s.entryFor (s.handleIn o) = some x → fieldOf o.d 1 0 = 0 →
            if x.trap.eng then Done (.fkillUS o) 4 s (s.abandon x.holder) else Traps (.fkillUS o) 0x0B0 (laneMask s.batch) 0 s)
        ∧ (∀ x, s.entryFor (s.handleIn o) = some x → fieldOf o.d 1 0 = 1 → Done (.fkillUS o) 4 s (s.killFolio x.fid 1))
        ∧ (∀ x, s.entryFor (s.handleIn o) = some x → fieldOf o.d 1 0 = 2 → ¬ (s.super = true ∧ s.handleIn o = 0) →
            (s.folio x.fid).kind = .normal → Done (.fkillUS o) 4 s (s.killShelf (s.folio x.fid).coll (s.folio x.fid).shelf))
        ∧ (∀ c, s.super = true → fieldOf o.d 1 0 = 2 → s.handleIn o = 0 → s.shelfNamed o = some c →
            Done (.fkillUS o) 4 s (s.killShelf c.uid (fieldOf (s.q.sreg o.a.toNat) 23 16)))) := by
  refine under_of_runU_of_legal (congrArg Host.Outcome.next uniFkill_eq) rfl fkillDesc_legal (fun clear run =>
    ⟨fun unknown handle => ?_, fun x named mode => ?_, fun x named mode => ?_, fun x named mode handle normal => ?_,
      fun c super mode zero named => ?_⟩)
  · exact traps_of_run clear (run.trans (congrArg _ (congrArg _ (fkillRes_unknown unknown handle))))
  · have run := run.trans (congrArg _ (congrArg _ (fkillRes_named named (by rw [mode]; simp))))
    rw [mode] at run
    split
    next engine => exact done_of_run clear rfl (run.trans (congrArg _ (congrArg _ (if_pos engine))))
    next engine => exact traps_of_run clear (run.trans (congrArg _ (congrArg _ (if_neg engine))))
  · have run := run.trans (congrArg _ (congrArg _ (fkillRes_named named (by rw [mode]; simp))))
    rw [mode] at run
    exact done_of_run clear rfl run
  · have run := run.trans (congrArg _ (congrArg _ (fkillRes_named named (by rw [mode]; simpa using handle))))
    rw [mode, fkillNamed_shelf normal] at run
    exact done_of_run clear rfl run
  · exact done_of_run clear rfl (run.trans (congrArg _ (congrArg _ (fkillRes_shelf super mode zero named))))

/-- Settles O32: both look the handle up once, and what they find and their mode choose the effect. -/
theorem heldFaults : Obligations.HeldFaults := fun s o => ⟨under_fresume s o, under_fkill s o⟩

end Sys2Proof.Claims
end

section
/-! `pmap` (R379, R380). -/

namespace Sys2Proof.Machine

variable {s : State} {o : SF} {pool : Nat} {r : PoolRec} {pas : List Nat}

/-- The description that `pmap` runs. -/
def pmapDesc (o : SF) : Desc :=
  { usDesc o 0x32 (o.b = 0) [.sreg o.d.toNat, .sgroup o.a.toNat 2] with b := .none, skip := .sreg o.d.toNat 64 }

/-- The virtual address that `pmap` maps, and its register of fields. -/
def State.pmapVa (s : State) (o : SF) : Nat := (s.q.sreg o.a.toNat).toNat
def State.pmapFields (s : State) (o : SF) : DWord := s.q.sreg (o.a.toNat + 1)
/-- The space that it maps into. -/
def State.pmapAsid (s : State) (o : SF) : Nat := if s.super then fieldOf (s.pmapFields o) 47 32 else s.fol.asid
/-- The record of a pool as it stands in memory (R379). -/
def State.poolAt (s : State) (pool : Nat) : PoolRec :=
  BitVec.ofNat 256 (leNat ((List.range 32).map (fun i => s.homeByte 0 (pool + i))))

/-- The fields that R380 forbids are 0. -/
abbrev State.PmapFine (s : State) (o : SF) : Prop :=
  fieldOf (s.pmapFields o) 31 3 = 0 ∧ fieldOf (s.pmapFields o) 63 48 = 0 ∧ (s.super = false → fieldOf (s.pmapFields o) 47 32 = 0)

/-- A result code of `pmap` other than 0. -/
def State.pmapFails (s : State) (o : SF) (n : Nat) : State := (s.setS o.d.toNat (BitVec.ofNat 64 n)).setK 1 false

/-- The page at the pool's next index is mapped by the entries at some places (R380). -/
def State.pmapMaps (s : State) (o : SF) (pool : Nat) (r : PoolRec) (pas : List Nat) : State :=
  let pa := fieldOf r 127 76 + fieldOf r 59 44 * szcBytes (fieldOf r 43 40)
  let t := s.putHome 0 pool (leBytes 32 (putField r 59 44 (fieldOf r 59 44 + 1)).toNat)
  let z := if !s.super || (s.pmapFields o).getLsbD 2 then t.zeroFrame s.fol.die (fieldOf r 39 34) pa (szcBytes (fieldOf r 43 40)) else t
  let e := leafOf (fieldOf r 33 32) (fieldOf r 39 34) (s.pmapAsid o) pa (fieldOf r 43 40) (fieldOf (s.pmapFields o) 1 0)
  ((pas.foldl (fun (u : State) p => u.putHome 0 p (leBytes 8 e.toNat)) (z.releaseAt 6)).setS o.d.toNat (BitVec.ofNat 64 pa)).setK 1 true

/-- The address lies in the range that the issuing folio's record gives to user mode. -/
abbrev State.PmapInRange (s : State) (va size : Nat) : Prop :=
  s.super = false → recField s.fol.record 575 512 ≤ va ∧ va + size ≤ recField s.fol.record 639 576

/-- What `pmap` does with the group of entries that the page fills. -/
def pmapGroupRes (o : SF) (pool : Nat) (r : PoolRec) (s : State) : Res :=
  let va := s.pmapVa o
  let size := szcBytes (fieldOf r 43 40)
  let perm := fieldOf (s.pmapFields o) 1 0
  match s.pageGroup s.fol.die (s.pmapAsid o) va (fieldOf r 43 40) with
  | .fault c => if c = 0x142 then .wait s (.reach va) else .stop c (laneMask s.batch) (BitVec.ofNat 64 va)
  | .rc n => .done (s.pmapFails o n)
  | .at pas =>
    if s.super = false ∧ ¬ (recField s.fol.record 575 512 ≤ va ∧ va + size ≤ recField s.fol.record 639 576) then .done (s.pmapFails o 4)
    else if perm = 0 ∨ (s.super = false ∧ perm = 3) then .done (s.pmapFails o 5)
    else if s.releaseBlocked s.q.uid s.fol.die 6 then .wait s (.flush 6)
    else .done (s.pmapMaps o pool r pas)

/-- What `pmap` does with the record of the pool. -/
def pmapPoolRes (o : SF) (pool : Nat) (r : PoolRec) (s : State) : Res :=
  if fieldOf r 43 40 ≤ 11 ∧ s.pmapVa o % szcBytes (fieldOf r 43 40) ≠ 0 then
    .stop 0x060 (laneMask s.batch) (BitVec.ofNat 64 (s.pmapVa o))
  else if poolBad r = true ∨ fieldOf r 75 60 ≤ fieldOf r 59 44 then .done (s.pmapFails o 1)
  else pmapGroupRes o pool r s

/-- What `pmap` does behind its checks. -/
def pmapRes (o : SF) (s : State) : Res :=
  if fieldOf (s.pmapFields o) 31 3 ≠ 0 ∨ fieldOf (s.pmapFields o) 63 48 ≠ 0 ∨ (s.super = false ∧ fieldOf (s.pmapFields o) 47 32 ≠ 0) then
    .stop 0x021 (laneMask s.batch) (BitVec.ofNat 64 0)
  else match s.reach s.fol.die ((s.mgmt s.fol.die 0x802).toNat + 32 * s.pmapAsid o) with
    | .lost => .stop 0x140 (laneMask s.batch) (BitVec.ofNat 64 (s.pmapVa o))
    | .waits => .wait s (.reach (s.pmapVa o))
    | .at pool => pmapPoolRes o pool (s.poolAt pool) s

theorem uniPmap_eq : uniPmap o s = (pmapDesc o).runU s (pmapRes o s) := rfl

theorem pmapRes_pool (fine : s.PmapFine o)
    (reach : s.reach s.fol.die ((s.mgmt s.fol.die 0x802).toNat + 32 * s.pmapAsid o) = .at pool) :
    pmapRes o s = pmapPoolRes o pool (s.poolAt pool) s := by
  obtain ⟨low, high, asid⟩ := fine
  rw [pmapRes, reach]
  refine if_neg (fun bad => ?_)
  rcases bad with h | h | ⟨user, h⟩
  · exact h low
  · exact h high
  · exact h (asid user)

section

variable (aligned : s.pmapVa o % szcBytes (fieldOf r 43 40) = 0)
include aligned

theorem pmapPoolRes_empty (empty : poolBad r = true ∨ fieldOf r 75 60 ≤ fieldOf r 59 44) :
    pmapPoolRes o pool r s = .done (s.pmapFails o 1) :=
  (if_neg (fun h => h.2 aligned)).trans (if_pos empty)

theorem pmapPoolRes_page (valid : poolBad r = false) (left : fieldOf r 59 44 < fieldOf r 75 60) :
    pmapPoolRes o pool r s = pmapGroupRes o pool r s :=
  (if_neg (fun h => h.2 aligned)).trans (if_neg (by simp [valid, left]))

end

theorem pmapGroupRes_maps (group : s.pageGroup s.fol.die (s.pmapAsid o) (s.pmapVa o) (fieldOf r 43 40) = .at pas)
    (range : s.PmapInRange (s.pmapVa o) (szcBytes (fieldOf r 43 40))) (perm : fieldOf (s.pmapFields o) 1 0 ≠ 0)
    (user : s.super = false → fieldOf (s.pmapFields o) 1 0 ≠ 3) (free : s.releaseBlocked s.q.uid s.fol.die 6 = false) :
    pmapGroupRes o pool r s = .done (s.pmapMaps o pool r pas) := by
  rw [pmapGroupRes, group]
  refine (if_neg (fun h => h.2 (range h.1))).trans ((if_neg (fun h => ?_)).trans (if_neg (ne_true_of_eq_false free)))
  rcases h with h | ⟨mode, h⟩
  · exact perm h
  · exact user mode h

end Sys2Proof.Machine

namespace Sys2Proof.Claims

open Sys2Proof.Machine

theorem under_pmap (s : State) (o : SF) (pool : Nat) :
    Under (.pmapUS o) (usWord 0x32 o [.sreg o.d.toNat, .sgroup o.a.toNat 2]) s
      (s.PmapFine o → s.reach s.fol.die ((s.mgmt s.fol.die 0x802).toNat + 32 * s.pmapAsid o) = .at pool →
        s.pmapVa o % szcBytes (fieldOf (s.poolAt pool) 43 40) = 0 →
        ((poolBad (s.poolAt pool) = true ∨ fieldOf (s.poolAt pool) 75 60 ≤ fieldOf (s.poolAt pool) 59 44) →
          Done (.pmapUS o) 4 s (s.pmapFails o 1))
        ∧ (∀ pas, poolBad (s.poolAt pool) = false → fieldOf (s.poolAt pool) 59 44 < fieldOf (s.poolAt pool) 75 60 →
            s.pageGroup s.fol.die (s.pmapAsid o) (s.pmapVa o) (fieldOf (s.poolAt pool) 43 40) = .at pas →
            s.PmapInRange (s.pmapVa o) (szcBytes (fieldOf (s.poolAt pool) 43 40)) → fieldOf (s.pmapFields o) 1 0 ≠ 0 →
            (s.super = false → fieldOf (s.pmapFields o) 1 0 ≠ 3) → s.releaseBlocked s.q.uid s.fol.die 6 = false →
            Done (.pmapUS o) 4 s (s.pmapMaps o pool (s.poolAt pool) pas))) := by
  refine under_of_runU (congrArg Host.Outcome.next uniPmap_eq) rfl rfl (fun hlen clear run fine reach aligned => ?_)
  have run := run.trans (congrArg _ (congrArg _ (pmapRes_pool fine reach)))
  refine ⟨fun empty => ?_, fun pas valid left group range perm user free => ?_⟩
  · exact done_of_run clear hlen (run.trans (congrArg _ (congrArg _ (pmapPoolRes_empty aligned empty))))
  · exact done_of_run clear hlen (run.trans (congrArg _ (congrArg _
      ((pmapPoolRes_page aligned valid left).trans (pmapGroupRes_maps group range perm user free)))))

/-- Settles O33: with fields that pass and a pool that can be reached, the pool's record decides between code 1 and the mapping. -/
theorem pageMap : Obligations.PageMap := by
  intro s o pool va v d perm asid r size next pa passes
  obtain ⟨idle, active⟩ := under_pmap s o pool passes
  exact ⟨idle, fun execs low high asid => active execs ⟨low, high, asid⟩⟩

end Sys2Proof.Claims
end

section
/-! `rdsr` and `wrsr` (R42, R382, R383). -/

namespace Sys2Proof.Machine

variable {s t : State} {o : SF} {n : Nat} {v : DWord}

/-- The description that `rdsr` runs. -/
def rdsrDesc (o : SF) (s : State) : Desc :=
  { usDesc o 0x33 (sysregKnown o.sysnum) [.sreg o.d.toNat] with
    priv := s.super || o.sysnum.toNat < 0x800, a := .none, b := .none, skip := .sreg o.d.toNat 64 }

/-- The description that `wrsr` runs. -/
def wrsrDesc (o : SF) (s : State) : Desc :=
  { usDesc o 0x33 (sysregKnown o.sysnum) [.sreg o.d.toNat] with
    priv := s.super || (o.sysnum.toNat < 0x800 && !sysRO o.sysnum.toNat), a := .sreg o.d.toNat, b := .none }

/-- What a write to LQCTL does: its command, or the wait for room. -/
def lqctlRes (v : DWord) (s : State) : Res :=
  match s.lqctl s.q.uid s.fol.die v with
  | some t => .done t
  | none => .wait s (.launch (launchTarget s.fol.die (fieldOf v 10 9) (v.getLsbD 11)))

/-- What a write to a management register does. -/
def mgmtRes (n : Nat) (v : DWord) (s : State) : Res :=
  if mgmtBad n v then .stop 0x021 (laneMask s.batch) 0
  else if n = 0x800 then .done { s with q := { s.q with tvec := v } }
  else if n = 0x841 then lqctlRes v s
  else .done (s.mgmtWrite s.fol.die n v)

/-- What `wrsr` does behind its checks. -/
def wrsrRes (n : Nat) (v : DWord) (s : State) : Res :=
  match n with
  | 0x010 => .done (s.mapFibres (fun f => if s.inBatch f then { f with fflags := v.setWidth 5 } else f))
  | 0x011 => if 6 ≤ fieldOf v 2 0 then .stop 0x021 (laneMask s.batch) 0 else .done { s with q := { s.q with frm := v.setWidth 3 } }
  | 0x012 => .done { s with q := { s.q with ftrap := v.setWidth 5 } }
  | 0x013 => .done { s with q := { s.q with mflags := v.setWidth 3 } }
  | _ => mgmtRes n v s

theorem uniRdsr_eq : uniRdsr o s = (rdsrDesc o s).runU s (.done (s.setS o.d.toNat (s.sysReg o.sysnum.toNat))) := rfl

theorem uniWrsr_eq : uniWrsr o s = (wrsrDesc o s).runU s (wrsrRes o.sysnum.toNat (s.q.sreg o.d.toNat) s) := rfl

theorem wrsrRes_mgmt (high : 0x800 ≤ n) : wrsrRes n v s = mgmtRes n v s := by
  unfold wrsrRes
  split
  · omega
  · omega
  · omega
  · omega
  · rfl

theorem wrsrRes_frm (h : fieldOf v 2 0 < 6) : wrsrRes 0x011 v s = .done { s with q := { s.q with frm := v.setWidth 3 } } :=
  if_neg (Nat.not_le.mpr h)

theorem wrsrRes_frm_bad (h : 6 ≤ fieldOf v 2 0) : wrsrRes 0x011 v s = .stop 0x021 (laneMask s.batch) 0 := if_pos h

theorem mgmtBad_tvec (aligned : v.toNat % 8 = 0) : mgmtBad 0x800 v = false := by
  simp [mgmtBad, aligned]

theorem mgmtRes_bad (bad : mgmtBad n v = true) : mgmtRes n v s = .stop 0x021 (laneMask s.batch) 0 := if_pos bad

section

variable (good : mgmtBad n v = false)
include good

theorem mgmtRes_tvec (h : n = 0x800) : mgmtRes n v s = .done { s with q := { s.q with tvec := v } } :=
  (if_neg (ne_true_of_eq_false good)).trans (if_pos h)

theorem mgmtRes_lqctl (h : n = 0x841) : mgmtRes n v s = lqctlRes v s :=
  (if_neg (ne_true_of_eq_false good)).trans ((if_neg (by omega)).trans (if_pos h))

theorem mgmtRes_write (tvec : n ≠ 0x800) (lq : n ≠ 0x841) : mgmtRes n v s = .done (s.mgmtWrite s.fol.die n v) :=
  (if_neg (ne_true_of_eq_false good)).trans ((if_neg tvec).trans (if_neg lq))

end

theorem lqctlRes_some (h : s.lqctl s.q.uid s.fol.die v = some t) : lqctlRes v s = .done t := by rw [lqctlRes, h]

theorem lqctlRes_none (h : s.lqctl s.q.uid s.fol.die v = none) :
    lqctlRes v s = .wait s (.launch (launchTarget s.fol.die (fieldOf v 10 9) (v.getLsbD 11))) := by rw [lqctlRes, h]

end Sys2Proof.Machine

namespace Sys2Proof.Claims

open Sys2Proof.Machine

theorem under_rdsr (s : State) (o : SF) :
    Under (.rdsrUS o) (srWord o (s.super || decide (o.sysnum.toNat < 0x800))) s
      (Done (.rdsrUS o) 4 s (s.setS o.d.toNat (s.sysReg o.sysnum.toNat))) :=
  under_of_runU (congrArg Host.Outcome.next uniRdsr_eq) rfl rfl (fun hlen clear run => done_of_run clear hlen run)

/-- Settles O34: the number of the register chooses what `wrsr` does, and a management register has its value checked first. -/
theorem systemRegisters : Obligations.SystemRegisters := by
  intro s o
  refine ⟨under_rdsr s o, under_of_runU (congrArg Host.Outcome.next uniWrsr_eq) rfl rfl (fun hlen clear run => ?_)⟩
  have runs {n : Nat} {b : Res} (number : o.sysnum.toNat = n) (res : wrsrRes n (s.q.sreg o.d.toNat) s = b) :
      exec (.wrsrUS o) s = .next ((wrsrDesc o s).run s b) := by
    rw [run, number, res]
  refine ⟨fun n => ?_, fun n fits => ?_, fun n bad => ?_, fun n => ?_, fun n => ?_, fun n aligned => ?_, fun high bad => ?_,
    fun high lq good => ?_, fun t n good room => ?_, fun n good full => ?_⟩
  · exact done_of_run clear hlen (runs n rfl)
  · exact done_of_run clear hlen (runs n (wrsrRes_frm fits))
  · exact traps_of_run clear (runs n (wrsrRes_frm_bad bad))
  · exact done_of_run clear hlen (runs n rfl)
  · exact done_of_run clear hlen (runs n rfl)
  · exact done_of_run clear hlen (runs n ((wrsrRes_mgmt (Nat.le_refl _)).trans (mgmtRes_tvec (mgmtBad_tvec aligned) rfl)))
  · exact traps_of_run clear (runs rfl ((wrsrRes_mgmt high).trans (mgmtRes_bad bad)))
  · exact done_of_run clear hlen (runs rfl ((wrsrRes_mgmt (by omega)).trans (mgmtRes_write good (by omega) lq)))
  · exact done_of_run clear hlen (runs rfl ((wrsrRes_mgmt (by omega)).trans ((mgmtRes_lqctl good n).trans (lqctlRes_some room))))
  · exact blocks_of_run clear (runs rfl ((wrsrRes_mgmt (by omega)).trans ((mgmtRes_lqctl good n).trans (lqctlRes_none full))))

end Sys2Proof.Claims
end

section
/-! Traps in a curator and `eret` (R370, R384). -/

namespace Sys2Proof.Machine

variable {s : State}

/-! ## The trap registers (R370) -/

theorem Trap.cause_toNat (r : Trap) : r.cause.toNat =
    r.code % 512 + r.inner % 1024 * 2 ^ 16 + (if r.sup then 2 ^ 30 else 0) + (if r.eng then 2 ^ 31 else 0) := by
  rw [Trap.cause, BitVec.toNat_ofNat, Nat.mod_eq_of_lt]
  cases r.sup <;> cases r.eng <;> simp only [Bool.false_eq_true, if_true, if_false] <;> omega

theorem Trap.cause_code (r : Trap) : fieldOf r.cause 8 0 = r.code % 512 := by
  rw [fieldOf, r.cause_toNat]
  cases r.sup <;> cases r.eng <;> simp only [Bool.false_eq_true, if_true, if_false] <;> omega

theorem Trap.cause_inner (r : Trap) : fieldOf r.cause 25 16 = r.inner % 1024 := by
  rw [fieldOf, r.cause_toNat]
  cases r.sup <;> cases r.eng <;> simp only [Bool.false_eq_true, if_true, if_false] <;> omega

theorem Trap.cause_sup (r : Trap) : r.cause.getLsbD 30 = r.sup := by
  rw [BitVec.getLsbD, Nat.testBit_eq_decide_div_mod_eq, r.cause_toNat]
  cases r.sup <;> cases r.eng <;> simp only [Bool.false_eq_true, if_true, if_false, decide_eq_true_eq, decide_eq_false_iff_not] <;> omega

theorem Trap.cause_eng (r : Trap) : r.cause.getLsbD 31 = r.eng := by
  rw [BitVec.getLsbD, Nat.testBit_eq_decide_div_mod_eq, r.cause_toNat]
  cases r.sup <;> cases r.eng <;> simp only [Bool.false_eq_true, if_true, if_false, decide_eq_true_eq, decide_eq_false_iff_not] <;> omega

theorem Trap.etok_none {r : Trap} (none : r.tok = none) : r.etok 0 = 0 := by
  rw [Trap.etok, none]
  rfl

/-! ## The vector and the return -/

theorem State.takeTrap_curator {k : Nat} (curator : s.fol.kind = .curator k) (r : Trap) : s.takeTrap r =
    ({ s with q := { s.q with tregs := r.regs 0, inFlag := true } } : State).move (s.batch.map (fun f => (f.lane, s.q.tvec))) := by
  rw [State.takeTrap, curator]

theorem curatorTrapEntry_busy {d k : Nat} {q : Quire} (found : s.curator d k = some q) (busy : q.inFlag = true) :
    curatorTrapEntry d k s = s := by
  rw [curatorTrapEntry, found]
  cases (s.die d).asyncCause k with
  | none => rfl
  | some c =>
    dsimp only
    rw [busy]

/-- The description that `eret` runs. -/
def eretDesc (o : SF) : Desc := { usDesc o 0x34 o.allZero [] with a := .none, b := .none }

theorem uniEret_eq {o : SF} : uniEret o s =
    (eretDesc o).runU s (if s.q.inFlag then .jump s.returnFromTrap else .stop 0x0B0 (laneMask s.batch) 0) := rfl

/-- A supervisor word of chapter 19 or 21 in user mode fails before any other check. -/
theorem Desc.cause_user {D : Desc} (uniform : D.uni = true) (low : 0x34 ≤ D.op) (high : D.op ≤ 0x37) (user : s.super = false) :
    D.cause s = some 0x024 := by
  have version : opInVersion s.encv true D.op = true := by
    have h : ¬ (D.op ≤ 0x29) := by omega
    have h' : D.op ≠ 0x1B := by omega
    simp [opInVersion, h, h']
  simp [Desc.cause, uniform, version, opSupervisor, low, high, user]

end Sys2Proof.Machine

namespace Sys2Proof.Claims

open Sys2Proof.Machine

variable {s : State}

theorem pointwise_map {α : Type} {R : α → α → Prop} {g : α → α} (xs : List α) (h : ∀ x, R x (g x)) : Pointwise R xs (xs.map g) := by
  refine ⟨(List.length_map g).symm, fun i x y hx hy => ?_⟩
  rw [List.getElem?_map, hx] at hy
  obtain rfl := Option.some.inj hy
  exact h x

/-- The members of a batch go to one address; the fibres of other lanes stay. -/
theorem pointwise_moveOne (q : Quire) (bs : List Fibre) (dest : DWord) (fs : List Fibre) :
    Pointwise (fun f g => Stepped f g ∧ (f.lane ∈ bs.map (·.lane) → g.pc = dest) ∧ (¬ f.lane ∈ bs.map (·.lane) → g = f))
      fs (fs.map (q.moveOne (bs.map (fun f => (f.lane, dest))))) := by
  have lanes : (bs.map (fun f => (f.lane, dest))).map (·.1) = bs.map (·.lane) := List.map_map
  refine pointwise_map fs (fun f => ⟨q.moveOne_moved _ f, fun member => ?_, fun other => q.moveOne_other _ f (by rwa [lanes])⟩)
  refine Quire.moveOne_pc.trans (goTo_pc (by rwa [lanes]) (fun x hx => ?_))
  obtain ⟨g, -, rfl⟩ := List.mem_map.mp hx
  rfl

theorem traps_of_user {i : Instr} {D : Desc} {b : Res} (run : exec i s = .next (D.run s b)) (uniform : D.uni = true) (low : 0x34 ≤ D.op)
    (high : D.op ≤ 0x37) (user : s.super = false) : Traps i 0x024 (laneMask s.batch) 0 s := by
  refine ⟨_, rfl, rfl, ?_, rfl, run.trans (congrArg _ (Desc.run_caused (Desc.cause_user uniform low high user) b))⟩
  rw [Desc.fibres, uniform]
  rfl

theorem trap_enters_curator (s : State) (k : Nat) (r : Trap) (curator : s.fol.kind = .curator k) :
    ∃ t, s.takeTrap r = t ∧ t = { s with q := t.q }
      ∧ t.q = { s.q with fibres := t.q.fibres, inFlag := true, tregs := t.q.tregs }
      ∧ t.q.tregs.epc = r.epc ∧ t.q.tregs.eaddr = r.eaddr ∧ t.q.tregs.elanes = r.elanes.setWidth 64
      ∧ fieldOf t.q.tregs.cause 8 0 = r.code % 512 ∧ fieldOf t.q.tregs.cause 25 16 = r.inner % 1024
      ∧ t.q.tregs.cause.getLsbD 30 = r.sup ∧ t.q.tregs.cause.getLsbD 31 = r.eng ∧ (r.tok = none → t.q.tregs.etok = 0)
      ∧ Pointwise (fun f g => Stepped f g ∧ (f.lane ∈ batchLanes s → g.pc = s.q.tvec) ∧ (¬ f.lane ∈ batchLanes s → g = f))
          s.q.fibres t.q.fibres := by
  refine ⟨_, State.takeTrap_curator curator r, ?_⟩
  rw [State.move, Quire.move_eq]
  exact ⟨rfl, rfl, rfl, rfl, rfl, r.cause_code, r.cause_inner, r.cause_sup, r.cause_eng, Trap.etok_none,
    pointwise_moveOne _ s.batch s.q.tvec s.q.fibres⟩

theorem eret_returns (s : State) (o : SF) :
    Under (.eretUS o) (usWord 0x34 o []) s
      ((s.q.inFlag = false → Traps (.eretUS o) 0x0B0 (laneMask s.batch) 0 s)
        ∧ (s.q.inFlag = true → ∃ t, exec (.eretUS o) s = .next t ∧ t = { s with q := t.q }
            ∧ t.q = { s.q with fibres := t.q.fibres, inFlag := false, waits := t.q.waits }
            ∧ Pointwise (fun f g => Stepped f g ∧ (f.lane ∈ batchLanes s → g.pc = s.q.tregs.epc) ∧ (¬ f.lane ∈ batchLanes s → g = f))
                s.q.fibres t.q.fibres)) := by
  refine under_of_runU (congrArg Host.Outcome.next uniEret_eq) rfl rfl (fun hlen clear run => ⟨fun out => ?_, fun inside => ?_⟩)
  · exact traps_of_run clear (run.trans (congrArg _ (congrArg _ (if_neg (ne_true_of_eq_false out)))))
  · refine ⟨_, jumps_of_run clear (run.trans (congrArg _ (congrArg _ (if_pos inside)))), ?_⟩
    rw [State.returnFromTrap, State.move, Quire.move_eq]
    exact ⟨rfl, rfl, pointwise_moveOne _ s.batch s.q.tregs.epc s.q.fibres⟩

/-- Settles O52: the vector and the return move the batch and set the trap registers and IN of the quire, and nothing else. -/
theorem trapEntersCurator : Obligations.TrapEntersCurator :=
  ⟨trap_enters_curator, fun _ _ _ _ found busy => congrArg Host.Outcome.next (curatorTrapEntry_busy found busy), by decide,
    fun s o => ⟨fun user => traps_of_user (D := eretDesc o) rfl rfl (Nat.le_refl 0x34) (show 0x34 ≤ 0x37 by decide) user, eret_returns s o⟩⟩

end Sys2Proof.Claims
end

section
/-! A trap outside a curator: the entry of the held-fault table and the trap queue in memory (R367 to R373). -/

namespace Sys2Proof.Machine

open Sys2Proof.Claims (AtHome plain_putRaw_out replicaOf_putRaw)

variable {s : State}

/-! ## A change of one die -/

theorem State.modDie_die {d : Nat} (present : d < s.dies.length) (f : Die → Die) : (s.modDie d f).die d = f (s.die d) := by
  simp [State.die, List.getD_eq_getElem?_getD, present]

theorem State.modDie_length (d : Nat) (f : Die → Die) : (s.modDie d f).dies.length = s.dies.length := List.length_mapIdx

/-! ## Many bytes under the default key -/

/-- A byte of one line, written at a home whose replica does not overlap it, is read there under the same key. -/
theorem State.plain_putRaw_in (keyed : s.Keyed) {pa k kid : Nat} {bs : List Byte} (inside : k < bs.length) (line : (pa + k) / 64 = pa / 64)
    (apart : ∀ ra, s.replicaOf pa = some ra → ¬ (ra ≤ pa + k ∧ pa + k < ra + bs.length)) :
    (s.putRaw kid pa bs).plain kid (pa + k) = bs[k] := by
  have here : (s.putHere kid pa bs).plain kid (pa + k) = bs[k] := by
    have byte : (s.putHere kid pa bs).byte (pa + k) = bs[k] := State.byte_putBytes_in (State.rekey_canon keyed.canon kid pa) inside
    have key : Sparse.get 0 (pa / 64) (s.putHere kid pa bs).lineKey = s.keyCode kid pa := State.key_rekey kid pa (.inl keyed.keys)
    have code : (s.putHere kid pa bs).keyCode kid pa = s.keyCode kid pa :=
      State.keyCode_congr (State.rekey_keys _ _ _) (State.rekey_pkgid _ _ _) kid pa
    rw [State.plain_eq_decrypted, byte, line, key, State.keyCode_of_line _ _ line, code, decrypted_self]
  rw [State.putRaw_eq]
  split
  · next ra hr => exact (State.plain_rekey_write (State.putHere_keyed keyed kid pa bs) (apart ra hr) (.inl rfl)).trans here
  · exact here

/-- The first lines of a long write. -/
def State.putLines (s : State) (kid pa : Nat) (bs : List Byte) (n : Nat) : State :=
  (List.range n).foldl (fun (t : State) i => t.putRaw kid (pa + 64 * i) ((bs.drop (64 * i)).take 64)) s

theorem State.putLines_succ (s : State) (kid pa : Nat) (bs : List Byte) (n : Nat) : s.putLines kid pa bs (n + 1) =
    (s.putLines kid pa bs n).putRaw kid (pa + 64 * n) ((bs.drop (64 * n)).take 64) := by
  simp [State.putLines, List.range_succ, List.foldl_append]

theorem State.putLines_keyed (keyed : s.Keyed) (kid pa : Nat) (bs : List Byte) (n : Nat) : (s.putLines kid pa bs n).Keyed := by
  induction n with
  | zero => exact keyed
  | succ n ih =>
    rw [State.putLines_succ]
    exact State.putRaw_keyed ih _ _ _

theorem State.putLines_replicaOf (s : State) (kid pa : Nat) (bs : List Byte) (n a : Nat) :
    (s.putLines kid pa bs n).replicaOf a = s.replicaOf a := by
  induction n with
  | zero => rfl
  | succ n ih => rw [State.putLines_succ, replicaOf_putRaw, ih]

/-- A place that no line of a long write has its replica on. -/
def State.Apart (s : State) (pa n loc : Nat) : Prop := ∀ i < n, ∀ ra, s.replicaOf (pa + i) = some ra → ¬ (ra ≤ loc ∧ loc < ra + 64)

/-- A byte of a long write is read under its key behind the line that holds it and behind every later one. -/
theorem State.plain_putLines (keyed : s.Keyed) {pa k : Nat} {bs : List Byte} (aligned : pa % 64 = 0) (inside : k < bs.length)
    (apart : s.Apart pa bs.length (pa + k)) (kid n : Nat) (reached : k < 64 * n) : (s.putLines kid pa bs n).plain kid (pa + k) = bs[k] := by
  induction n with
  | zero => omega
  | succ n ih =>
    rw [State.putLines_succ]
    have length : ((bs.drop (64 * n)).take 64).length = min 64 (bs.length - 64 * n) := by rw [List.length_take, List.length_drop]
    have same := State.putLines_replicaOf s kid pa bs n
    by_cases before : k < 64 * n
    · refine (plain_putRaw_out (State.putLines_keyed keyed _ _ _ _) (fun inside => ?_) (.inl rfl)).trans (ih before)
      rcases inside with ⟨low, -⟩ | ⟨i, hi, ra, replica, low, high⟩
      · omega
      · rw [same, Nat.add_assoc] at replica
        exact apart _ (by omega) ra replica ⟨low, by omega⟩
    · obtain ⟨j, rfl⟩ := Nat.exists_eq_add_of_le (Nat.not_lt.mp before)
      rw [← Nat.add_assoc] at apart ⊢
      refine (State.plain_putRaw_in (State.putLines_keyed keyed _ _ _ _) (by omega) (by omega) (fun ra replica there => ?_)).trans ?_
      · rw [same] at replica
        exact apart _ (by omega) ra replica ⟨by omega, by omega⟩
      · rw [List.getElem_take, List.getElem_drop]

theorem State.plain_putLong (keyed : s.Keyed) {pa k : Nat} {bs : List Byte} (aligned : pa % 64 = 0) (inside : k < bs.length)
    (apart : s.Apart pa bs.length (pa + k)) (kid : Nat) : (s.putLong kid pa bs).plain kid (pa + k) = bs[k] :=
  State.plain_putLines keyed aligned inside apart kid _ (by omega)

/-! ## The trap queue (R373) -/

theorem replicaDie_ne (p : Part) {d : Nat} (home : d < 4) : replicaDie p d ≠ d := by
  cases p <;> simp only [replicaDie] <;> omega

/-- The replicas of places on a die lie on another one, and run at most 63 bytes into the next. -/
theorem State.apart_of_home {d off n k : Nat} (home : d < 4) (high : 64 ≤ off + k) (low : off + k < 2 ^ 38) (fits : off + n ≤ 2 ^ 38) :
    s.Apart (s.pkgid * 2 ^ 46 + d * 2 ^ 38 + off) n (s.pkgid * 2 ^ 46 + d * 2 ^ 38 + off + k) := by
  intro i hi ra replica
  have die : paDie (s.pkgid * 2 ^ 46 + d * 2 ^ 38 + off + i) = d := by unfold paDie; omega
  unfold State.replicaOf at replica
  simp only [die] at replica
  split at replica
  · have other := replicaDie_ne s.part home
    have place := Option.some.inj replica
    rw [State.replicaAt] at place
    omega
  · cases replica

/-- Where a record lies on its die. -/
def trapOff (d n : Nat) : Nat := Config.trapArea d % 2 ^ 24 * 4096 + n % 2 ^ 16 * 2176

theorem State.trapPlace_eq (s : State) (d n : Nat) : s.trapPlace d n = s.pkgid * 2 ^ 46 + d * 2 ^ 38 + trapOff d n := Nat.add_assoc _ _ _

theorem trapOff_lt (d n : Nat) : trapOff d n < 2 ^ 37 := by unfold trapOff; omega

theorem State.trapPlace_aligned (s : State) (d n : Nat) : s.trapPlace d n % 64 = 0 := by unfold State.trapPlace; omega

theorem State.trapName_length (s : State) : s.trapName.length = 64 := by rw [State.trapName, List.length_map, List.length_range]

theorem LaneRec.bytes_length (x : LaneRec) : x.bytes.length = 64 := by simp [LaneRec.bytes, leBytes_length]

theorem Trap.record_length (r : Trap) (handle : Nat) : (r.record handle).length = 2112 := by
  simp [Trap.record, leBytes_length, LaneRec.bytes_length, List.length_flatMap]

theorem State.modDie_plain (s : State) (d : Nat) (f : Die → Die) (kid a : Nat) : (s.modDie d f).plain kid a = s.plain kid a := rfl

theorem State.toKernel_plain (s : State) (d : Nat) (h : HeldFault) (kid a : Nat) : (s.toKernel d h).plain kid a =
    (s.putLong 0 (s.trapPlace d (s.die d).trapN) (s.trapName ++ h.trap.record (handleOf h.index h.gen))).plain kid a := by
  unfold State.toKernel
  exact State.modDie_plain _ _ _ _ _

/-- The record of a fault that goes to the kernel instance stands in the trap queue, behind its 64 bytes of names. -/
theorem State.plain_toKernel (keyed : s.Keyed) {d k : Nat} {b : Byte} (home : d < 4) (h : HeldFault)
    (member : (h.trap.record (handleOf h.index h.gen))[k]? = some b) :
    (s.toKernel d h).plain 0 (s.trapPlace d (s.die d).trapN + 64 + k) = b := by
  obtain ⟨inside, rfl⟩ := List.getElem?_eq_some_iff.mp member
  have name := s.trapName_length
  have length := h.trap.record_length (handleOf h.index h.gen)
  have off := trapOff_lt d (s.die d).trapN
  have apart : s.Apart (s.trapPlace d (s.die d).trapN) (s.trapName ++ h.trap.record (handleOf h.index h.gen)).length
      (s.trapPlace d (s.die d).trapN + (64 + k)) := by
    rw [State.trapPlace_eq, List.length_append]
    exact State.apart_of_home home (by omega) (by omega) (by omega)
  rw [Nat.add_assoc, State.toKernel_plain]
  refine (State.plain_putLong keyed (s.trapPlace_aligned d _) (by rw [List.length_append]; omega) apart 0).trans ?_
  rw [List.getElem_append_right (by omega)]
  congr 1
  omega

/-! ## The entry of a trap (R367 to R369) -/

/-- The entry that a trap of the issuing quire takes. -/
def State.entryOf (s : State) (i : Nat) (r : Trap) : HeldFault :=
  { index := i, gen := Sparse.get 0 i (s.die s.fol.die).gens, holder := .quire s.q.uid, trap := r, fid := s.q.fid }

/-- The state in which the issuing quire is held under an entry. -/
def State.held (s : State) (i : Nat) (r : Trap) : State :=
  (s.modDie s.fol.die (fun y => { y with held := y.held ++ [s.entryOf i r] })).hold (.quire s.q.uid) i

theorem State.held_q (i : Nat) (r : Trap) : (s.held i r).q = { s.q with held := some i, pend := none } := if_pos rfl

section

variable {i : Nat} {r : Trap} (present : s.fol.die < s.dies.length)
include present

theorem State.held_die : (s.held i r).die s.fol.die = { s.die s.fol.die with held := (s.die s.fol.die).held ++ [s.entryOf i r] } :=
  State.modDie_die present _

end

section

variable {i : Nat} (outside : ∀ k, s.fol.kind ≠ .curator k)
include outside

theorem State.takeTrap_outside (r : Trap) : s.takeTrap r = s.recordFault (.quire s.q.uid) s.q.fid r := by
  unfold State.takeTrap
  split
  · next k kind => exact absurd kind (outside k)
  · rfl

/-- A trap outside a curator with a free entry is held, and goes to a handler or to the kernel instance. -/
theorem State.takeTrap_held (free : (s.die s.fol.die).freeEntry = some i) (r : Trap) : s.takeTrap r =
    if toHandler s.fol r then (s.held i r).modDie s.fol.die (fun y => { y with handlers := y.handlers ++ [s.entryOf i r] })
    else (s.held i r).toKernel s.fol.die (s.entryOf i r) := by
  rw [State.takeTrap_outside outside]
  unfold State.recordFault
  dsimp only
  rw [show (s.die (s.folio s.q.fid).die).freeEntry = some i from free]
  dsimp only
  split
  · next k kind => exact absurd kind (outside k)
  · rfl

theorem State.takeTrap_full (full : (s.die s.fol.die).freeEntry = none) (r : Trap) :
    s.takeTrap r = s.pendOn (.quire s.q.uid) r := by
  rw [State.takeTrap_outside outside]
  unfold State.recordFault
  dsimp only
  rw [show (s.die (s.folio s.q.fid).die).freeEntry = none from full]

end

/-! ## What stands in the die behind a trap -/

section

variable {i : Nat} {r : Trap} (present : s.fol.die < s.dies.length)
include present

theorem State.held_handlers_die :
    ((s.held i r).modDie s.fol.die (fun y => { y with handlers := y.handlers ++ [s.entryOf i r] })).die s.fol.die =
      { s.die s.fol.die with
        held := (s.die s.fol.die).held ++ [s.entryOf i r], handlers := (s.die s.fol.die).handlers ++ [s.entryOf i r] } := by
  rw [State.modDie_die (by rwa [State.held, State.hold_dies, State.modDie_length]), State.held_die present]

/-- The entry as the trap queue holds it. -/
def State.queuedOf (s : State) (i : Nat) (r : Trap) : HeldFault :=
  { s.entryOf i r with kernel := true, server := none, at_ := some (s.trapPlace s.fol.die (s.die s.fol.die).trapN + 64) }

theorem State.held_toKernel_die : ((s.held i r).toKernel s.fol.die (s.entryOf i r)).die s.fol.die =
    { s.die s.fol.die with
      held := ((s.die s.fol.die).held ++ [s.entryOf i r]).map (fun y => if y.index = i then s.queuedOf i r else y)
      trapQ := (s.die s.fol.die).trapQ ++ [s.queuedOf i r], trapN := (s.die s.fol.die).trapN + 1, pend130 := true } := by
  have die := State.held_die (i := i) (r := r) present
  have place : (s.held i r).trapPlace s.fol.die ((s.held i r).die s.fol.die).trapN = s.trapPlace s.fol.die (s.die s.fol.die).trapN := by
    rw [die]; rfl
  have queued (u : State) (dies : u.dies = (s.held i r).dies) : u.die s.fol.die = (s.held i r).die s.fol.die := by
    rw [State.die, dies]; rfl
  unfold State.toKernel
  dsimp only
  rw [place, State.modDie_die, queued _ (State.putLong_dies _ _ _ _), die]
  · rfl
  · rwa [State.putLong_dies, State.held, State.hold_dies, State.modDie_length]

end

theorem State.held_keyed {i : Nat} {r : Trap} (keyed : s.Keyed) : (s.held i r).Keyed := ⟨keyed.canon, keyed.keys⟩

end Sys2Proof.Machine

namespace Sys2Proof.Claims

open Sys2Proof.Machine

/-- Settles O51: the entry is made in the table, the quire is held under it, and the route of the cause chooses the queue that takes it. -/
theorem trapHoldsQuire : Obligations.TrapHoldsQuire := by
  intro s r outside present own
  refine ⟨fun i free => ?_, fun full => ?_⟩
  · rw [State.takeTrap_held outside free]
    by_cases route : toHandler s.fol r = true
    · rw [if_pos route]
      have die := State.held_handlers_die (i := i) (r := r) present
      refine ⟨_, rfl, s.held_q i r, ⟨s.entryOf i r, by rw [die]; simp, rfl, rfl, rfl, rfl, rfl⟩,
        fun _ => ⟨rfl, s.entryOf i r, by rw [die], rfl, rfl⟩, fun kernel => ?_⟩
      rw [route] at kernel; cases kernel
    · rw [if_neg route]
      have die := State.held_toKernel_die (i := i) (r := r) present
      refine ⟨_, rfl, (State.toKernel_q _ _ _).trans (s.held_q i r), ⟨s.queuedOf i r, by rw [die]; simp [State.entryOf], rfl, rfl, rfl, rfl, rfl⟩,
        fun handler => absurd handler route, fun _ => ⟨by rw [die], by rw [die], ⟨s.queuedOf i r, by rw [die], rfl, rfl, rfl, rfl⟩, ?_⟩⟩
      intro home canon keys k b member
      have record := State.plain_toKernel (State.held_keyed (i := i) (r := r) ⟨canon, keys⟩) home (s.entryOf i r) member
      rw [State.held_die present] at record
      exact record
  · rw [State.takeTrap_full outside full]
    exact ⟨_, rfl, if_pos rfl, rfl, rfl⟩

end Sys2Proof.Claims
end

section
/-! `msend`, `mrecv` and `tlbctl` (R362, R385, R401, R404). -/

namespace Sys2Proof.Machine

variable {s t : State} {o : SF} {y : Access}

/-! ## tlbctl (R385) -/

/-- The description that `tlbctl` runs. -/
def tlbctlDesc (o : SF) : Desc := { usDesc o 0x37 (o.d.extractLsb' 2 4 = 0 && o.b = 0) [.sgroup o.a.toNat 2] with b := .none }

/-- The range of a `tlbctl`: its first byte and its length. -/
def State.shootLo (s : State) (o : SF) : Nat := (s.q.sreg o.a.toNat).toNat
def State.shootLen (s : State) (o : SF) : Nat := fieldOf (s.q.sreg (o.a.toNat + 1)) 47 0

/-- The INVAL that a `tlbctl` posts. -/
def State.invalMsg (s : State) (o : SF) : Msg :=
  { dom := true, type := 0, pkg := s.pkgid, die := s.fol.die, incarn := (s.die s.fol.die).incarn.toNat
    body := .inval s.next (if o.d.getLsbD 1 then none else some (fieldOf (s.q.sreg (o.a.toNat + 1)) 63 48)) (s.shootLo o) (s.shootLen o)
      (o.d.getLsbD 0) }

/-- What `tlbctl` does behind its checks. -/
def tlbctlRes (o : SF) (s : State) : Res :=
  if s.shootLo o % 4096 ≠ 0 ∨ s.shootLen o % 4096 ≠ 0 then .stop 0x060 (laneMask s.batch) (BitVec.ofNat 64 (s.shootLo o))
  else s.behindRelease true 6 (fun t => .wait { t with msgs := t.msgs ++ [s.invalMsg o], next := t.next + 1 } (.shootdown s.next))

theorem uniTlbctl_eq : uniTlbctl o s = (tlbctlDesc o).runU s (tlbctlRes o s) := rfl

theorem tlbctlRes_unaligned (odd : s.shootLo o % 4096 ≠ 0 ∨ s.shootLen o % 4096 ≠ 0) :
    tlbctlRes o s = .stop 0x060 (laneMask s.batch) (s.q.sreg o.a.toNat) := by
  rw [tlbctlRes, if_pos odd, State.shootLo, BitVec.ofNat_toNat, BitVec.setWidth_eq]

theorem tlbctlRes_posts (lo : s.shootLo o % 4096 = 0) (len : s.shootLen o % 4096 = 0) : tlbctlRes o s =
    s.behindRelease true 6 (fun t => .wait { t with msgs := t.msgs ++ [s.invalMsg o], next := t.next + 1 } (.shootdown s.next)) :=
  if_neg (by simp [lo, len])

/-! ## msend (R404) -/

/-- The description that `msend` runs. -/
def msendDesc (o : SF) : Desc :=
  { usDesc o 0x35 (o.b = 0) [.sreg o.d.toNat, .sgroup o.a.toNat 2] with b := .none, skip := .sreg o.d.toNat 64 }

/-- The fields of a message: its type and its scope. -/
def State.msgFields (s : State) (o : SF) : DWord := s.q.sreg (o.a.toNat + 1)

/-- The message that `msend` posts with a payload that it has read. -/
def State.kernelMsg (s : State) (o : SF) (data : Nat) : Msg :=
  { s.message s.instance_ ((s.msgFields o).getLsbD 8) (fieldOf (s.msgFields o) 7 0) ((leBytes 64 data).drop 16) .kernel with
    sender := some (s.q.uid, s.sel.1, s.sel.2, o.d.toNat) }

/-- What `msend` does behind its access: a release, the read of the payload, and the message. -/
def msendRes (o : SF) (s t : State) (xs : List Access) : Res :=
  t.behindRelease true (if (s.msgFields o).getLsbD 8 then 6 else 5) (fun t1 =>
    .wait { (t1.loads 64 0 xs).2 with msgs := (t1.loads 64 0 xs).2.msgs ++ [s.kernelMsg o ((t1.loads 64 0 xs).1.headD (0, 0)).2] } .msend)

theorem uniMsend_eq : uniMsend o s =
    if fieldOf (s.msgFields o) 63 9 ≠ 0 ∨ fieldOf (s.msgFields o) 7 0 < 0x80 then
      .next ((msendDesc o).runU s (.stop 0x021 (laneMask s.batch) 0))
    else (msendDesc o).access s [(0, (s.q.sreg o.a.toNat).toNat)] (fun ea => s.memCheck s.q.fid ea 64 .read) 64 true (msendRes o s) := rfl

theorem State.loads_singleton (n hint : Nat) (y : Access) : t.loads n hint [y] =
    ([(y.lane, ((t.startReads t.q.uid).loadOne n hint y).1)], ((t.startReads t.q.uid).loadOne n hint y).2) := rfl

/-! ## mrecv (R404) -/

/-- The description that `mrecv` runs. -/
def mrecvDesc (o : SF) : Desc :=
  { usDesc o 0x35 (o.b.extractLsb' 1 5 = 0) [.sreg o.d.toNat, .sreg o.a.toNat] with b := .none, skip := .sreg o.d.toNat 64 }

theorem State.cacheAll_fol (s : State) (xs : List Access) : (s.cacheAll xs).fol = s.fol := by
  obtain ⟨hq, -, hf, hs⟩ := State.parties_eq_iff.mp (s.cacheAll_parties xs)
  rw [State.fol, State.folio, hq, hf, hs]
  rfl

/-- What `mrecv` does with the oldest message of its queue. -/
def mrecvRes (o : SF) (s : State) (m : Msg) (rest : List Msg) (t : State) (xs : List Access) : Res :=
  let t1 := (t.acquireAll t.q.uid t.fol.die (if m.dom then 6 else 5)).storeAll 64 0 xs (fun _ => leNat m.bytes)
  .done (((t1.modDie s.instance_ (fun z => { z with recv := rest })).setS o.d.toNat m.seq).setK 1 true)

theorem uniMrecv_empty (empty : (s.die s.instance_).recv = []) : uniMrecv o s =
    .next ((mrecvDesc o).runU s (if o.b.getLsbD 0 then .done (s.setK 1 false) else .wait s .mrecv)) := by
  unfold uniMrecv; dsimp only; rw [empty]; rfl

theorem uniMrecv_message {m : Msg} {rest : List Msg} (oldest : (s.die s.instance_).recv = m :: rest) : uniMrecv o s =
    (mrecvDesc o).access s [(0, (s.q.sreg o.a.toNat).toNat)] (fun ea => s.memCheck s.q.fid ea 64 .write) 64 false (mrecvRes o s m rest) := by
  unfold uniMrecv; dsimp only; rw [oldest]; rfl

end Sys2Proof.Machine

namespace Sys2Proof.Claims

open Sys2Proof.Machine

variable {i : Instr} {W D : Desc} {s : State}

theorem shootDowns : ShootDowns := by
  intro s o
  refine under_of_runU (congrArg Host.Outcome.next uniTlbctl_eq) rfl rfl (fun hlen clear run => ⟨fun odd => ?_, fun lo len => ?_⟩)
  · exact traps_of_run clear (run.trans (congrArg _ (congrArg _ (tlbctlRes_unaligned odd))))
  · refine ⟨s.invalMsg o, rfl, rfl, rfl, rfl, rfl, rfl, rfl, ?_⟩
    exact behind_of_run clear (run.trans (congrArg _ (congrArg _ (tlbctlRes_posts lo len)))) (fun t run => blocks_of_run clear run)

theorem under_msend (s : State) (o : SF) :
    Under (.msendUS o) (usWord 0x35 o [.sreg o.d.toNat, .sgroup o.a.toNat 2]) s
      ((fieldOf (s.msgFields o) 63 9 ≠ 0 ∨ fieldOf (s.msgFields o) 7 0 < 0x80 → Traps (.msendUS o) 0x021 (laneMask s.batch) 0 s)
        ∧ ∀ y, fieldOf (s.msgFields o) 63 9 = 0 → 0x80 ≤ fieldOf (s.msgFields o) 7 0 → LineAt s (s.q.sreg o.a.toNat).toNat .read true y →
          Behind (.msendUS o) 4 true (if (s.msgFields o).getLsbD 8 then 6 else 5) s (s.cacheAll [y]) (fun t =>
            let r := (t.startReads t.q.uid).loadOne 64 0 y
            ∃ m : Msg, m.dom = (s.msgFields o).getLsbD 8 ∧ m.type = fieldOf (s.msgFields o) 7 0 ∧ m.pkg = s.pkgid ∧ m.die = s.instance_
              ∧ m.incarn = (s.die s.instance_).incarn.toNat ∧ m.body = .kernel ∧ m.sender = some (s.q.uid, s.sel.1, s.sel.2, o.d.toNat)
              ∧ m.payload = (leBytes 64 r.1).drop 16
              ∧ Blocks (.msendUS o) .msend 4 s { r.2 with msgs := r.2.msgs ++ [m] })) := by
  intro passes
  have clear : (msendDesc o).clear s := passes.clear rfl rfl
  have run : exec (.msendUS o) s = _ := uniMsend_eq
  by_cases bad : fieldOf (s.msgFields o) 63 9 ≠ 0 ∨ fieldOf (s.msgFields o) 7 0 < 0x80
  · rw [if_pos bad] at run
    refine ⟨fun idle => ?_, fun active => ⟨fun _ => ?_, fun y high type => ?_⟩⟩
    · exact done_of_run clear rfl (run.trans (congrArg _ (Desc.runU_idle (D := msendDesc o) idle _)))
    · exact traps_of_run clear (run.trans (congrArg _ (Desc.runU_active (D := msendDesc o) active _)))
    · rcases bad with h | h
      · exact absurd high h
      · omega
  · rw [if_neg bad] at run
    refine ⟨fun idle => done_of_idle (D := msendDesc o) run clear rfl idle, fun active => ⟨fun h => absurd h bad, fun y _ _ line => ?_⟩⟩
    refine behind_of_run clear (run_of_reaches run clear (.inr active) line) (fun t run => ?_)
    rw [State.loads_singleton] at run
    exact ⟨s.kernelMsg o _, rfl, rfl, rfl, rfl, rfl, rfl, rfl, rfl, blocks_of_run clear run⟩

theorem under_mrecv (s : State) (o : SF) :
    Under (.mrecvUS o) (usWord 0x35 o [.sreg o.d.toNat, .sreg o.a.toNat]) s
      (((s.die s.instance_).recv = [] →
          if o.b.getLsbD 0 then Done (.mrecvUS o) 4 s (s.setK 1 false) else Blocks (.mrecvUS o) .mrecv 4 s s)
        ∧ (∀ m rest y, (s.die s.instance_).recv = m :: rest → LineAt s (s.q.sreg o.a.toNat).toNat .write false y →
            let t := ((s.cacheAll [y]).acquireAll s.q.uid s.fol.die (if m.dom then 6 else 5)).storeOne 64 0 y (leNat m.bytes)
            Done (.mrecvUS o) 4 s (((t.modDie s.instance_ (fun z => { z with recv := rest })).setS o.d.toNat m.seq).setK 1 true))) := by
  intro passes
  have clear : (mrecvDesc o).clear s := passes.clear rfl rfl
  cases queue : (s.die s.instance_).recv with
  | nil =>
    have run : exec (.mrecvUS o) s = _ := uniMrecv_empty queue
    refine ⟨fun idle => ?_, fun active => ⟨fun _ => ?_, fun m rest y oldest => (nomatch oldest)⟩⟩
    · exact done_of_run clear rfl (run.trans (congrArg _ (Desc.runU_idle (D := mrecvDesc o) idle _)))
    · rw [Desc.runU_active (D := mrecvDesc o) active] at run
      split
      next nb => exact done_of_run clear rfl (run.trans (congrArg _ (congrArg _ (if_pos nb))))
      next nb => exact blocks_of_run clear (run.trans (congrArg _ (congrArg _ (if_neg nb))))
  | cons m rest =>
    have run : exec (.mrecvUS o) s = _ := uniMrecv_message queue
    refine ⟨fun idle => done_of_idle (D := mrecvDesc o) run clear rfl idle, fun active => ⟨fun empty => (nomatch empty), fun m' rest' y oldest line => ?_⟩⟩
    obtain ⟨rfl, rfl⟩ := List.cons.inj oldest
    have run := run_of_reaches run clear (.inr active) line
    rw [mrecvRes, State.cacheAll_q, State.cacheAll_fol] at run
    exact done_of_run clear rfl run

/-- Settles O35: `tlbctl` and `msend` post their message behind a release and wait, and `mrecv` takes the oldest message of its queue. -/
theorem messagesAndShootDowns : Obligations.MessagesAndShootDowns := ⟨shootDowns, fun s o => ⟨under_msend s o, under_mrecv s o⟩⟩

end Sys2Proof.Claims
end

section
/-! The checkpoint instructions and `linkctl` (R415, R416, R420, R421). -/

namespace Sys2Proof.Machine

variable {s t : State} {o : SF} {k : Ckpt} {l : Link}

/-! ## ckbegin (R415) -/

/-- The description that `ckbegin` runs. -/
def ckbeginDesc (o : SF) (s : State) : Desc :=
  { usDesc o 0x36 (o.d = 0 && o.b = 0) [.sgroup o.a.toNat 2] with unit := s.part.ckpt, b := .none }

/-- The generation that a checkpoint instruction names. -/
def State.genNamed (s : State) (o : SF) : DWord := s.q.sreg o.a.toNat

/-- The generation as `ckbegin` opens it. -/
def State.generation (s : State) (o : SF) : Ckpt :=
  { gen := s.genNamed o, asid := fieldOf (s.q.sreg (o.a.toNat + 1)) 15 0
    dies := (List.range s.part.dies).filter (fun e => (s.die e).admitted) }

/-- A generation is open on a die, and k1 says so. -/
def State.openOn (s : State) (d : Nat) (k : Ckpt) : State := (s.modDie d (fun z => { z with ckpt := some k })).setK 1 true

/-- What `ckbegin` does behind its checks. -/
def ckbeginRes (o : SF) (s : State) : Res :=
  if fieldOf (s.q.sreg (o.a.toNat + 1)) 63 16 ≠ 0 then .stop 0x021 (laneMask s.batch) 0
  else if (s.die s.fol.die).ckpt.isSome ∨ s.genNamed o ≠ s.mgmt s.fol.die 0x817 + 1 then .done (s.setK 1 false)
  else .done (match s.ckWrite s.fol.die (s.ckSlot s.fol.die (s.genNamed o)) [0] with
    | some t => t.openOn s.fol.die (s.generation o)
    | none => s.openOn s.fol.die { s.generation o with fail := some 2 })

theorem uniCkbegin_eq : uniCkbegin o s = (ckbeginDesc o s).runU s (ckbeginRes o s) := rfl

section

variable (low : fieldOf (s.q.sreg (o.a.toNat + 1)) 63 16 = 0)
include low

theorem ckbeginRes_refused (other : (s.die s.fol.die).ckpt.isSome = true ∨ s.genNamed o ≠ s.mgmt s.fol.die 0x817 + 1) :
    ckbeginRes o s = .done (s.setK 1 false) := (if_neg (not_not_intro low)).trans (if_pos other)

theorem ckbeginRes_opens (closed : (s.die s.fol.die).ckpt = none) (next : s.genNamed o = s.mgmt s.fol.die 0x817 + 1)
    (writes : s.ckWrite s.fol.die (s.ckSlot s.fol.die (s.genNamed o)) [0] = some t) :
    ckbeginRes o s = .done (t.openOn s.fol.die (s.generation o)) := by
  refine (if_neg (not_not_intro low)).trans ((if_neg ?_).trans (congrArg Res.done ?_))
  · simp [closed, next]
  · rw [writes]

end

/-! ## ckcommit (R415, R416) -/

/-- The description that `ckcommit` runs. -/
def ckcommitDesc (o : SF) (s : State) : Desc :=
  { usDesc o 0x36 (o.b = 0) [.sreg o.d.toNat, .sreg o.a.toNat] with unit := s.part.ckpt, b := .none, skip := .sreg o.d.toNat 64 }

/-- The generation of a die ends with a code in register `d`. -/
def State.closedWith (s : State) (d : Nat) (code : DWord) : State :=
  ((s.modDie s.fol.die (fun z => { z with ckpt := none })).setS d code).setK 1 false

/-- The issuing quire has committed its die. -/
def State.committed (s : State) (o : SF) (k : Ckpt) : State :=
  s.modDie s.fol.die (fun z => { z with ckpt := some { k with commit := some (s.q.uid, o.d.toNat) } })

theorem uniCkcommit_idle (idle : s.kActive o.pr o.neg = false) : uniCkcommit o s = (ckcommitDesc o s).run s (.done s) := by
  have runs (b : Res) : (ckcommitDesc o s).runU s b = (ckcommitDesc o s).run s (.done s) := Desc.runU_idle (D := ckcommitDesc o s) idle b
  unfold uniCkcommit
  dsimp only
  split
  · exact runs _
  · split
    · exact runs _
    · exact (if_pos (by rw [idle]; exact Bool.or_true _)).trans (runs _)

theorem ckcommit_executes (clear : (ckcommitDesc o s).clear s) (active : s.kActive o.pr o.neg = true) :
    ¬ (((ckcommitDesc o s).cause s).isSome || !s.kActive o.pr o.neg) = true := by
  rw [clear.1, active]
  exact Bool.false_ne_true

/-- `ckcommit` of the open generation, behind its checks. -/
theorem uniCkcommit_open (clear : (ckcommitDesc o s).clear s) (active : s.kActive o.pr o.neg = true) (opened : (s.die s.fol.die).ckpt = some k)
    (named : k.gen = s.genNamed o) (first : k.commit = none) : uniCkcommit o s =
    if k.fail = some 1 then (ckcommitDesc o s).run s (.done (s.closedWith o.d.toNat 1))
    else ((ckcommitDesc o s).run s (.wait (s.committed o k) .ckcommit)).tryCommit s.fol.die := by
  have runs (b : Res) : (ckcommitDesc o s).runU s b = (ckcommitDesc o s).run s b := Desc.runU_active (D := ckcommitDesc o s) active b
  unfold uniCkcommit
  dsimp only
  rw [opened]
  refine (if_neg ?_).trans ((if_neg ?_).trans (if_congr Iff.rfl (runs _) rfl))
  · rw [first]
    rintro (h | h)
    · exact h named
    · cases h
  · exact ckcommit_executes clear active

/-! ## ckshard (R415) -/

section

variable {o : LF}

/-- The description that `ckshard` runs. -/
def ckshardDesc (o : LF) (s : State) : Desc :=
  { uni := true, op := 0x36, len := 8, pr := o.pr, neg := o.neg, unit := s.part.ckpt
    legal := o.tokOnly && o.d = 0 && o.b = 0 && o.c = 0, uses := [.sgroup o.a.toNat 2], a := .sreg o.a.toNat, wa := 64 }

/-- The range of a `ckshard`: its first byte and its length. -/
def State.shardLo (s : State) (o : LF) : Nat := (s.q.sreg o.a.toNat).toNat
def State.shardLen (s : State) (o : LF) : Nat := (s.q.sreg (o.a.toNat + 1)).toNat

/-- The operation that `ckshard` asks a permit for. -/
def State.shardAsked (s : State) (o : LF) (k : Ckpt) : ShardOp :=
  { id := s.next, die := s.fol.die, quire := s.q.uid, asid := k.asid, start := s.shardLo o, len := s.shardLen o, tok := o.low3.toNat }

/-- The state in which an operation waits for its permit. -/
def State.askShard (s : State) (x : ShardOp) : State :=
  { s with next := s.next + 1, shards := s.shards ++ [x], permits := s.permits ++ [.shard s.next] }

/-- What `ckshard` does behind its checks. -/
def ckshardRes (o : LF) (s : State) : Res :=
  if s.shardLo o % 4096 ≠ 0 ∨ s.shardLen o % 4096 ≠ 0 then .stop 0x060 (laneMask s.batch) (BitVec.ofNat 64 (s.shardLo o))
  else match (s.die s.fol.die).ckpt with
    | none => .stop 0x0E2 (laneMask s.batch) 0
    | some k =>
      if (s.q.tok o.low3.toNat).count = 63 then .wait s (.tokenFull o.low3.toNat)
      else .wait (s.askShard (s.shardAsked o k)) (.permit s.next)

theorem uniCkshard_eq : uniCkshard o s = (ckshardDesc o s).runU s (ckshardRes o s) := rfl

theorem ckshardRes_unaligned (odd : s.shardLo o % 4096 ≠ 0 ∨ s.shardLen o % 4096 ≠ 0) :
    ckshardRes o s = .stop 0x060 (laneMask s.batch) (s.q.sreg o.a.toNat) := by
  rw [ckshardRes, if_pos odd, State.shardLo, BitVec.ofNat_toNat, BitVec.setWidth_eq]

section

variable (lo : s.shardLo o % 4096 = 0) (len : s.shardLen o % 4096 = 0)
include lo len

theorem ckshardRes_closed (closed : (s.die s.fol.die).ckpt = none) : ckshardRes o s = .stop 0x0E2 (laneMask s.batch) 0 := by
  rw [ckshardRes, if_neg (by simp [lo, len]), closed]

theorem ckshardRes_asks (opened : (s.die s.fol.die).ckpt = some k) (counts : (s.q.tok o.low3.toNat).count ≠ 63) :
    ckshardRes o s = .wait (s.askShard (s.shardAsked o k)) (.permit s.next) := by
  rw [ckshardRes, if_neg (by simp [lo, len]), opened]
  exact if_neg counts

end

end

/-! ## linkctl (R420, R421) -/

/-- The fields of sA. -/
def State.linkSel (s : State) (o : SF) : DWord := s.q.sreg o.a.toNat

/-- The scale-up port that sA names is absent from the part. -/
abbrev State.portAbsent (s : State) (o : SF) : Prop := (s.linkSel o).getLsbD 4 = true ∧ s.part.ports ≤ fieldOf (s.linkSel o) 3 0

/-- The port under which the link stands in the table. -/
def linkKey (v : DWord) : Nat := if v.getLsbD 4 then 16 + fieldOf v 3 0 else fieldOf v 3 0

/-- A scale-up port of another die, or a repair of one: `linkctl` is refused. -/
abbrev State.portRefuses (s : State) (v : DWord) (op : Nat) : Prop :=
  v.getLsbD 4 = true ∧ (op = 2 ∨ s.part.portDie (fieldOf v 3 0) ≠ s.fol.die)

/-- The description that `linkctl` runs. -/
def linkDesc (o : SF) (s : State) : Desc :=
  { usDesc o 0x37 (o.b = 0) [.sreg o.d.toNat, .sreg o.a.toNat] with
    unit := !((s.linkSel o).getLsbD 4 && s.part.ports ≤ fieldOf (s.linkSel o) 3 0), b := .none, skip := .sreg o.d.toNat 64 }

/-- The link behind an operation, its status in sD. -/
def State.linkSet (s : State) (o : SF) (l : Link) : State :=
  (s.modLink s.fol.die (linkKey (s.linkSel o)) (fun _ => l)).setS o.d.toNat l.status

/-- What an operation of `linkctl` has done to the link: a failed retrain traps. -/
def linkSetRes (o : SF) (s : State) (op : Nat) (r : Link × Bool) : Res :=
  if op = 3 && r.2 && r.1.state = 3 then
    .jump ((s.linkSet o r.1).unblocked.takeTrap ((linkDesc o s).trap (s.linkSet o r.1) 0x162 (laneMask s.batch)))
  else .done ((s.linkSet o r.1).setK 1 r.2)

/-- The operation that sA asks, done on a link. -/
def State.linkDone (s : State) (l : Link) (v : DWord) (op : Nat) : Link × Bool := s.linkOp l op (fieldOf v 25 24) (fieldOf v 22 16) (fieldOf v 14 12)

/-- What `linkctl` does behind its checks. -/
def linkRes (o : SF) (s : State) : Res :=
  let v := s.linkSel o
  if s.linkValueBad v then .stop 0x021 (laneMask s.batch) 0
  else match s.linkAt s.fol.die (linkKey v) with
    | none => .done (s.setK 1 false)
    | some l =>
      if s.portRefuses v (fieldOf v 10 8) ∨ 63 < fieldOf v 22 16 then .done (s.setK 1 false)
      else linkSetRes o s (fieldOf v 10 8) (s.linkDone l v (fieldOf v 10 8))

theorem uniLinkctl_eq : uniLinkctl o s = (linkDesc o s).runU s (linkRes o s) := rfl

/-- What R420 forbids in sA. -/
abbrev State.LinkBad (s : State) (v : DWord) : Prop :=
  fieldOf v 63 26 ≠ 0 ∨ v.getLsbD 23 = true ∨ v.getLsbD 15 = true ∨ v.getLsbD 11 = true ∨ fieldOf v 7 5 ≠ 0
    ∨ 2 < fieldOf v 14 12 ∨ 4 < fieldOf v 10 8 ∨ (v.getLsbD 4 = false ∧ (3 < fieldOf v 3 0 ∨ (fieldOf v 3 0 = 3 ∧ s.part = .q940)))

theorem State.linkValueBad_iff (s : State) (v : DWord) : s.linkValueBad v = true ↔ s.LinkBad v := by
  simp only [State.linkValueBad, State.LinkBad, Bool.or_eq_true, Bool.and_eq_true, decide_eq_true_eq, Bool.not_eq_true', or_assoc]

theorem linkRes_bad (bad : s.LinkBad (s.linkSel o)) : linkRes o s = .stop 0x021 (laneMask s.batch) 0 :=
  if_pos ((s.linkValueBad_iff _).mpr bad)

section

variable (fine : ¬ s.LinkBad (s.linkSel o))
include fine

theorem linkRes_refused (refused : s.linkAt s.fol.die (linkKey (s.linkSel o)) = none
      ∨ s.portRefuses (s.linkSel o) (fieldOf (s.linkSel o) 10 8) ∨ 63 < fieldOf (s.linkSel o) 22 16) :
    linkRes o s = .done (s.setK 1 false) := by
  rw [linkRes, if_neg (fun h => fine ((s.linkValueBad_iff _).mp h))]
  rcases refused with none | refused
  · rw [none]
  · split
    · rfl
    · exact if_pos refused

theorem linkRes_done (link : s.linkAt s.fol.die (linkKey (s.linkSel o)) = some l)
    (own : ¬ s.portRefuses (s.linkSel o) (fieldOf (s.linkSel o) 10 8)) (lane : fieldOf (s.linkSel o) 22 16 ≤ 63) :
    linkRes o s = linkSetRes o s (fieldOf (s.linkSel o) 10 8) (s.linkDone l (s.linkSel o) (fieldOf (s.linkSel o) 10 8)) := by
  rw [linkRes, if_neg (fun h => fine ((s.linkValueBad_iff _).mp h)), link]
  exact if_neg (fun h => h.elim own (Nat.not_lt.mpr lane))

end

theorem linkSetRes_fails {op : Nat} {r : Link × Bool} (fails : op = 3 ∧ r.2 = true ∧ r.1.state = 3) : linkSetRes o s op r =
    .jump ((s.linkSet o r.1).unblocked.takeTrap ((linkDesc o s).trap (s.linkSet o r.1) 0x162 (laneMask s.batch))) := by
  obtain ⟨retrain, ok, failed⟩ := fails
  exact if_pos (by simp [retrain, ok, failed])

theorem linkSetRes_works {op : Nat} {r : Link × Bool} (works : ¬ (op = 3 ∧ r.2 = true ∧ r.1.state = 3)) :
    linkSetRes o s op r = .done ((s.linkSet o r.1).setK 1 r.2) := if_neg (by simpa [and_assoc] using works)

end Sys2Proof.Machine

namespace Sys2Proof.Claims

open Sys2Proof.Machine

variable {i : Instr} {s : State} {o : SF}

theorem under_ckbegin (s : State) (o : SF) :
    Under (.ckbeginUS o) (ckWord o s [.sgroup o.a.toNat 2]) s
      ((fieldOf (s.q.sreg (o.a.toNat + 1)) 63 16 ≠ 0 → Traps (.ckbeginUS o) 0x021 (laneMask s.batch) 0 s)
        ∧ (fieldOf (s.q.sreg (o.a.toNat + 1)) 63 16 = 0 →
            (s.die s.fol.die).ckpt.isSome = true ∨ s.genNamed o ≠ s.mgmt s.fol.die 0x817 + 1 → Done (.ckbeginUS o) 4 s (s.setK 1 false))
        ∧ (∀ t, fieldOf (s.q.sreg (o.a.toNat + 1)) 63 16 = 0 → (s.die s.fol.die).ckpt = none → s.genNamed o = s.mgmt s.fol.die 0x817 + 1 →
            s.ckWrite s.fol.die (s.ckSlot s.fol.die (s.genNamed o)) [0] = some t →
            ∃ k : Ckpt, k.gen = s.genNamed o ∧ k.asid = fieldOf (s.q.sreg (o.a.toNat + 1)) 15 0
              ∧ k.dies = (List.range s.part.dies).filter (fun e => (s.die e).admitted) ∧ k.pos = 64 ∧ k.fail = none ∧ k.commit = none
              ∧ Done (.ckbeginUS o) 4 s (t.openOn s.fol.die k))) := by
  refine under_of_runU (congrArg Host.Outcome.next uniCkbegin_eq) rfl rfl (fun hlen clear run =>
    ⟨fun high => ?_, fun low other => ?_, fun t low closed next writes => ⟨s.generation o, rfl, rfl, rfl, rfl, rfl, rfl, ?_⟩⟩)
  · exact traps_of_run clear (run.trans (congrArg _ (congrArg _ (if_pos high))))
  · exact done_of_run clear hlen (run.trans (congrArg _ (congrArg _ (ckbeginRes_refused low other))))
  · exact done_of_run clear hlen (run.trans (congrArg _ (congrArg _ (ckbeginRes_opens low closed next writes))))

theorem under_ckcommit (s : State) (o : SF) :
    Under (.ckcommitUS o) (ckWord o s [.sreg o.d.toNat, .sreg o.a.toNat]) s
      (∀ k, (s.die s.fol.die).ckpt = some k → k.gen = s.genNamed o → k.commit = none →
        (k.fail = some 1 → Done (.ckcommitUS o) 4 s (s.closedWith o.d.toNat 1))
        ∧ (k.fail ≠ some 1 → ∃ r : Trap, r.epc = s.pc ∧ r.len = 4
            ∧ exec (.ckcommitUS o) s = .next (((s.committed o k).block .ckcommit 4 r).tryCommit s.fol.die))) := by
  intro passes
  have clear : (ckcommitDesc o s).clear s := passes.clear rfl rfl
  refine ⟨fun idle => done_of_run clear rfl (congrArg Host.Outcome.next (uniCkcommit_idle idle)), fun active k opened named first => ?_⟩
  have run : exec (.ckcommitUS o) s = _ := congrArg Host.Outcome.next (uniCkcommit_open clear active opened named first)
  refine ⟨fun lost => done_of_run clear rfl (run.trans (congrArg _ (if_pos lost))), fun kept => ?_⟩
  obtain ⟨r, epc, len, blocks⟩ := Desc.run_blocks clear (s.committed o k) .ckcommit
  refine ⟨r, epc, len, run.trans (congrArg _ ((if_neg kept).trans ?_))⟩
  rw [blocks]
  rfl

theorem under_ckshard (s : State) (o : LF) :
    Under (.ckshardUL o) { ulWord 0x36 o [.sgroup o.a.toNat 2] with unit := s.part.ckpt } s
      ((s.shardLo o % 4096 ≠ 0 ∨ s.shardLen o % 4096 ≠ 0 → Traps (.ckshardUL o) 0x060 (laneMask s.batch) (s.q.sreg o.a.toNat) s)
        ∧ (s.shardLo o % 4096 = 0 → s.shardLen o % 4096 = 0 → (s.die s.fol.die).ckpt = none →
            Traps (.ckshardUL o) 0x0E2 (laneMask s.batch) 0 s)
        ∧ (∀ k, s.shardLo o % 4096 = 0 → s.shardLen o % 4096 = 0 → (s.die s.fol.die).ckpt = some k → (s.q.tok o.low3.toNat).count ≠ 63 →
            ∃ x : ShardOp, x.id = s.next ∧ x.die = s.fol.die ∧ x.quire = s.q.uid ∧ x.asid = k.asid ∧ x.start = s.shardLo o
              ∧ x.len = s.shardLen o ∧ x.tok = o.low3.toNat ∧ x.permit = false
              ∧ Blocks (.ckshardUL o) (.permit s.next) 8 s (s.askShard x))) := by
  refine under_of_runU (congrArg Host.Outcome.next uniCkshard_eq) rfl rfl (fun hlen clear run =>
    ⟨fun odd => ?_, fun lo len closed => ?_, fun k lo len opened counts => ⟨s.shardAsked o k, rfl, rfl, rfl, rfl, rfl, rfl, rfl, rfl, ?_⟩⟩)
  · exact traps_of_run clear (run.trans (congrArg _ (congrArg _ (ckshardRes_unaligned odd))))
  · exact traps_of_run clear (run.trans (congrArg _ (congrArg _ (ckshardRes_closed lo len closed))))
  · exact blocks_of_run clear (run.trans (congrArg _ (congrArg _ (ckshardRes_asks lo len opened counts))))

/-- `linkctl` as its statement describes it: its unit is the scale-up port. -/
theorem linkDesc_checked (o : SF) (s : State) : (linkDesc o s).checked =
    { usWord 0x37 o [.sreg o.d.toNat, .sreg o.a.toNat] with legal := o.b = 0, unit := decide ¬ s.portAbsent o } := by
  have unit : (!((s.linkSel o).getLsbD 4 && decide (s.part.ports ≤ fieldOf (s.linkSel o) 3 0))) = decide ¬ s.portAbsent o := by
    rw [decide_not, Bool.decide_and, Bool.decide_eq_true]
  rw [← unit]
  rfl

theorem linkctl_of_uni (run : exec i s = .next (uniLinkctl o s)) (wf : i.wf = (o.b = 0 : Bool)) (op : Nat) : linkctl i o op s := by
  rw [uniLinkctl_eq] at run
  have checks := linkDesc_checked o s
  rw [← wf] at checks
  refine ⟨fun legal c cause => ?_, under_of_runU run checks rfl (fun hlen clear run => ⟨fun _ bad => ?_, fun _ fine asked refused => ?_,
    fun l _ fine asked link own lane => ?_⟩)⟩
  · rw [legal] at checks
    have caused : (linkDesc o s).cause s = some c := (congrArg (fun D : Desc => D.cause s) checks).trans cause
    exact ⟨_, rfl, rfl, rfl, rfl, run.trans (congrArg _ (Desc.run_caused caused _))⟩
  · exact traps_of_run clear (run.trans (congrArg _ (congrArg _ (linkRes_bad bad))))
  · subst asked
    exact done_of_run clear hlen (run.trans (congrArg _ (congrArg _ (linkRes_refused fine refused))))
  · subst asked
    have run := run.trans (congrArg _ (congrArg _ (linkRes_done fine link own lane)))
    dsimp only
    split
    next fails =>
      exact ⟨_, rfl, rfl, rfl, rfl, jumps_of_run clear (run.trans (congrArg _ (congrArg _ (linkSetRes_fails fails))))⟩
    next works => exact done_of_run clear hlen (run.trans (congrArg _ (congrArg _ (linkSetRes_works works))))

theorem checkpoints : Checkpoints := fun s =>
  ⟨fun o => ⟨under_ckbegin s o, under_ckcommit s o⟩, fun o => under_ckshard s o⟩

/-- Settles O36: each checkpoint instruction tests its range and its generation, and `linkctl` its fields, before it acts. -/
theorem recoveryInstructions : Obligations.RecoveryInstructions :=
  ⟨checkpoints, fun _ _ => ⟨linkctl_of_uni rfl rfl 0, linkctl_of_uni rfl rfl 1, linkctl_of_uni rfl rfl 2, linkctl_of_uni rfl rfl 3,
    linkctl_of_uni rfl rfl 4⟩⟩

end Sys2Proof.Claims
end

section
/-! Management registers written from outside, held faults, curators and errors (R199, R211, R366, R369, R373, R375, R383, R384, R410). -/

namespace Sys2Proof.Machine

variable {s t : State} {d n : Nat} {v : DWord}

/-! ## Writes by the processor die (R383) -/

theorem State.drainLq_nothing (empty : s.lqWait = []) : s.drainLq = s := by
  have h : s.drainLq = { s with lqWait := [] } := by rw [State.drainLq, empty]; rfl
  rw [h, ← empty]

/-- The one LQCTL write that waits is taken, where the launch queue permits it. -/
theorem State.drainLq_takes {uid : Nat} (waits : s.lqWait = [(d, v, uid)]) (taken : s.lqctl uid d v = some t) :
    s.drainLq = { t with lqWait := [] } := by
  unfold State.drainLq
  rw [waits, List.foldl_cons, List.foldl_nil]
  dsimp only
  rw [if_neg (by simp), taken]

theorem lqctlWrite_takes (present : d < s.part.dies) (good : mgmtBad 0x841 v = false) (empty : s.lqWait = [])
    (taken : ({ s with lqWait := [(d, v, 0)] } : State).lqctl 0 d v = some t) : lqctlWrite d v s = { t with lqWait := [] } := by
  have write : s.deviceWrite 0 d 0x841 v = { s with lqWait := [(d, v, 0)] } := by
    rw [State.deviceWrite, if_neg (by simp [good]), if_pos rfl, empty]
    rfl
  rw [lqctlWrite, if_neg (Nat.not_le.mpr present), write]
  exact State.drainLq_takes rfl taken

theorem State.setMgmt_lqWait (s : State) (d n : Nat) (v : DWord) : (s.setMgmt d n v).lqWait = s.lqWait := rfl

theorem State.keyCommand_lqWait (s : State) (d : Nat) (erase : Bool) : (s.keyCommand d erase).lqWait = s.lqWait := by
  unfold State.keyCommand
  dsimp only
  split
  · rfl
  · exact State.foldl_keeps State.lqWait (fun t i => t.setMgmt_lqWait d (0x821 + i) 0) _ _

theorem State.mgmtWrite_lqWait (s : State) (d n : Nat) (v : DWord) : (s.mgmtWrite d n v).lqWait = s.lqWait := by
  unfold State.mgmtWrite
  split
  · rfl
  · split
    · split
      · exact s.keyCommand_lqWait d false
      · split
        · exact s.keyCommand_lqWait d true
        · rfl
    · split <;> rfl
    · rfl
    · rfl
    · rfl

section

variable (present : d < s.part.dies) (low : 0x800 ≤ n) (high : n ≤ 0xFFF) (known : sysregKnown (BitVec.ofNat 12 n) = true)
include present low high known

theorem registerWrite_known : registerWrite d n v s = (s.deviceWrite 0 d n v).drainLq := by
  refine if_neg ?_
  rintro (h | h | h | h)
  · omega
  · omega
  · rw [known] at h; cases h
  · omega

theorem registerWrite_discarded (empty : s.lqWait = []) (bad : n = 0x800 ∨ mgmtBad n v = true) : registerWrite d n v s = s := by
  rw [registerWrite_known present low high known, State.deviceWrite, if_pos bad, State.drainLq_nothing empty]

theorem registerWrite_writes (empty : s.lqWait = []) (lq : n ≠ 0x841) (tvec : n ≠ 0x800) (good : mgmtBad n v = false) :
    registerWrite d n v s = s.mgmtWrite d n v := by
  rw [registerWrite_known present low high known, State.deviceWrite, if_neg (by simp [tvec, good]), if_neg lq,
    State.drainLq_nothing ((s.mgmtWrite_lqWait d n v).trans empty)]

end

theorem State.keyCommand_slot (erase : Bool) (slot : (s.mgmt d 0x820).toNat % 64 ≠ 0) : s.keyCommand d erase =
    ({ s with keys := Sparse.set none ((s.mgmt d 0x820).toNat % 64) (if erase then none else some (s.stagedKey d)) s.keys } : State).clearStaged d :=
  if_neg slot

theorem State.keyCommand_ignored (erase : Bool) (slot : (s.mgmt d 0x820).toNat % 64 = 0) : s.keyCommand d erase = s := if_pos slot

/-! ## Held faults (R369, R373) -/

theorem faultRecord_quire {x : Quire} {r : Trap} (found : s.everyQuire.find? (fun q => q.uid = x.uid) = some x) (waits : x.pend = some r)
    (free : (s.die (s.folio x.fid).die).freeEntry.isSome = true) : faultRecord x.uid s = s.recordFault (.quire x.uid) x.fid r := by
  unfold faultRecord
  dsimp only
  rw [found]
  dsimp only
  rw [waits]
  exact if_pos free

/-- The handler folio that a held fault gets. -/
def State.handlerFolio (s : State) (d core qbase : Nat) (h : HeldFault) : Folio :=
  let x := s.folio h.fid
  { fid := s.next + 1, die := d, core := core, qbase := qbase, qcnt := 1, folioid := 0, vid := s.next, coll := x.coll
    shelf := x.shelf, shelfid := x.shelfid, vol := x.vol, asid := x.asid, sup := false
    kind := .handler h.index h.gen, record := handlerRecord x.record, carve := 0x41 }

/-- Its quire, with the trap registers of the fault. -/
def State.handlerQuire (s : State) (qbase : Nat) (h : HeldFault) : Quire :=
  { newQuire (s.next + 2) (s.next + 1) 0 qbase (recEntry (handlerRecord (s.folio h.fid).record)) 4 32 s.clock with
    tregs := h.trap.regs (handleOf h.index h.gen) }

/-- The die whose fault has gone to a handler folio, which has a bind record of its own. -/
def handlerBound (z : Die) (shelf core qbase fid : Nat) (h : HeldFault) : Die :=
  { z with
    held := z.held.map (fun y => if y.index = h.index then { y with server := some fid } else y)
    handlers := z.handlers.filter (fun y => y.index ≠ h.index)
    slots := z.slots ++ [{ coll := 0, shelf := shelf, volIdx := h.index, folioid := 0, qbase := qbase, qcnt := 1, core := core, vgid := 0
                           state := 1, carve := 0x41 }]
    targets := z.targets.filter (fun t => ¬ (t.1 = 0 ∧ t.2.1 = h.index)) }

/-- The state with the handler folio and its quire. -/
def State.withHandler (s : State) (d core qbase : Nat) (h : HeldFault) : State :=
  { s with
    folios := s.folios ++ [s.handlerFolio d core qbase h], volumes := s.volumes ++ [{ vid := s.next, members := [(0, s.next + 1)] }]
    rest := s.rest ++ [s.handlerQuire qbase h], next := s.next + 3 }

theorem handlerFolioStart_starts {core qbase : Nat} {h : HeldFault}
    (waits : (s.die d).handlers.find? (fun y => handleOf y.index y.gen = handleOf h.index h.gen) = some h)
    (handle : handleOf h.index h.gen < 2 ^ 32) (compute : core < 384) (fits : s.coreFits d core qbase 1 0x41 = true) :
    handlerFolioStart (d * 2 ^ 32 + handleOf h.index h.gen) core qbase s =
      ((((s.withHandler d core qbase h).putBytes (scratchLoc (s.next + 1) 0) (h.trap.record (handleOf h.index h.gen))).modDie d
        (fun z => handlerBound z (s.folio h.fid).shelf core qbase (s.next + 1) h)).acquireOn d 5).startView (s.next + 2) := by
  have die : (d * 2 ^ 32 + handleOf h.index h.gen) / 2 ^ 32 = d := by omega
  have low : (d * 2 ^ 32 + handleOf h.index h.gen) % 2 ^ 32 = handleOf h.index h.gen := by omega
  unfold handlerFolioStart
  dsimp only
  rw [die, low, waits]
  dsimp only
  rw [if_neg (fun stop => stop.elim (Nat.not_le.mpr compute) (fun h => Bool.noConfusion (fits.symm.trans h)))]
  rfl

theorem State.acquireOn_parties (s : State) (d scope : Nat) : (s.acquireOn d scope).parties = s.parties := by
  unfold State.acquireOn
  split <;> rfl

theorem State.startView_parties (s : State) (uid : Nat) : (s.startView uid).parties = s.parties := rfl

/-! ## Curators (R384) -/

/-- A curator at the batch that could issue next, its cause taken. -/
def State.curatorAt (s : State) (d i : Nat) (uid : Nat) (c : Nat) (b : DWord × Nat) : State :=
  ({ s.focus uid with sel := b } : State).modDie d (fun z =>
    if c = 0x130 then { z with pend130 := false } else { z with pend131 := z.pend131.filter (fun k => k ≠ i) })

theorem curatorTrapEntry_enters {i c : Nat} {q : Quire} {b : DWord × Nat} (found : s.curator d i = some q)
    (cause : (s.die d).asyncCause i = some c) (out : q.inFlag = false) (ready : q.readyBatch = some b) :
    curatorTrapEntry d i s =
      (s.curatorAt d i q.uid c b).takeTrap { code := c, sup := true, epc := b.1, elanes := laneMask (s.curatorAt d i q.uid c b).batch
                                             who := (s.curatorAt d i q.uid c b).whoOf (s.curatorAt d i q.uid c b).q, pc := b.1, frame := b.2 } := by
  unfold curatorTrapEntry
  rw [found, cause]
  dsimp only
  rw [out, ready]
  rfl

/-! ## RV64 accesses (R199) -/

section

variable {pa p : Nat} (size : rv64Size n = true) (aligned : pa % n = 0)
include size aligned

theorem rv64_load_memory (memory : paSpace pa = 0) (home : s.reach 4 pa = .at p) :
    rv64MemoryAccess (.load pa n) s = .next (s.recallLine (p / 64)) := by
  refine (if_neg (by simp [size, aligned])).trans ((if_neg (not_not_intro memory)).trans ?_)
  rw [home]

theorem rv64_load_device (device : paSpace pa ≠ 0) : rv64MemoryAccess (.load pa n) s = .next s :=
  (if_neg (by simp [size, aligned])).trans (if_pos device)

theorem rv64_store_memory (memory : paSpace pa = 0) (backed : s.backed pa = true) (home : s.reach 4 pa = .at p)
    (free : s.liveLine (p / 64) = false) : rv64MemoryAccess (.store pa n v) s =
      .next ((s.storeBytes 4 { home := 3 } p (leBytes n v.toNat)).direct (paDie p) 384 .l2 true (p / 64)) := by
  refine (if_neg (by simp [size, aligned])).trans ((if_neg (by simp [memory])).trans ((if_neg (not_not_intro memory)).trans
    ((if_neg (by simp [backed])).trans ?_)))
  rw [home]
  exact congrArg _ (if_neg (ne_true_of_eq_false free))

theorem rv64_store_device (device : paSpace pa ≠ 0) (register : ¬ (paSpace pa = 1 ∧ n = 8 ∧ paPkg pa = s.pkgid)) :
    rv64MemoryAccess (.store pa n v) s = .next s :=
  (if_neg (by simp [size, aligned])).trans ((if_neg (by simpa [and_assoc] using register)).trans (if_pos device))

end

end Sys2Proof.Machine

namespace Sys2Proof.Claims

open Sys2Proof.Machine

theorem registerEvents : RegisterEvents := by
  intro s d
  refine ⟨fun v t present good empty taken => ?_, fun kid named present slot => ⟨?_, ?_⟩, fun present slot => ⟨?_, ?_⟩, fun present => ?_,
    fun e => rfl, fun n v present low high known lq empty => ⟨fun bad => ?_, fun tvec good => ?_⟩⟩
  · exact congrArg Host.Outcome.next (lqctlWrite_takes present good empty taken)
  · subst named
    exact congrArg Host.Outcome.next ((if_pos present).trans (State.keyCommand_slot false slot))
  · subst named
    exact congrArg Host.Outcome.next ((if_pos present).trans (State.keyCommand_slot true slot))
  · exact congrArg Host.Outcome.next ((if_pos present).trans (State.keyCommand_ignored false slot))
  · exact congrArg Host.Outcome.next ((if_pos present).trans (State.keyCommand_ignored true slot))
  · exact congrArg Host.Outcome.next (if_pos present)
  · exact congrArg Host.Outcome.next (registerWrite_discarded present low high known empty bad)
  · exact congrArg Host.Outcome.next (registerWrite_writes present low high known empty lq tvec good)

theorem handler_starts (s : State) (d core qbase : Nat) (h : HeldFault)
    (waits : (s.die d).handlers.find? (fun y => handleOf y.index y.gen = handleOf h.index h.gen) = some h)
    (handle : handleOf h.index h.gen < 2 ^ 32) (compute : core < 384) (fits : s.coreFits d core qbase 1 0x41 = true) :
    ∃ t f q, exec (.handlerFolioStart (d * 2 ^ 32 + handleOf h.index h.gen) core qbase) s = .next t
      ∧ t.folios = s.folios ++ [f] ∧ t.rest = s.rest ++ [q]
      ∧ f.die = d ∧ f.core = core ∧ f.qbase = qbase ∧ f.kind = .handler h.index h.gen ∧ f.asid = (s.folio h.fid).asid ∧ f.sup = false
      ∧ q.fid = f.fid ∧ q.tregs = h.trap.regs (handleOf h.index h.gen) := by
  have start : exec (.handlerFolioStart (d * 2 ^ 32 + handleOf h.index h.gen) core qbase) s = _ := congrArg Host.Outcome.next (handlerFolioStart_starts waits handle compute fits)
  have parties := (State.startView_parties _ (s.next + 2)).trans (State.acquireOn_parties
    ((((s.withHandler d core qbase h).putBytes (scratchLoc (s.next + 1) 0) (h.trap.record (handleOf h.index h.gen))).modDie d
      (fun z => handlerBound z (s.folio h.fid).shelf core qbase (s.next + 1) h))) d 5)
  obtain ⟨-, rest, folios, -⟩ := State.parties_eq_iff.mp parties
  exact ⟨_, s.handlerFolio d core qbase h, s.handlerQuire qbase h, start, folios, rest, rfl, rfl, rfl, rfl, rfl, rfl, rfl, rfl⟩

theorem faultEvents : FaultEvents := by
  intro s
  refine ⟨fun x t found waits free => ?_, fun d core qbase h waits handle compute fits => ?_, fun d i q c b found cause out ready => ?_,
    fun d i => rfl, fun d => rfl, fun l clean => ?_, fun q r l clean => ?_, fun pa n p size aligned memory home => ?_,
    fun pa n p v size aligned memory backed home free => ?_, fun pa n v size aligned device register => ⟨?_, ?_⟩⟩
  · exact congrArg Host.Outcome.next (faultRecord_quire found waits free)
  · exact handler_starts s d core qbase h waits handle compute fits
  · exact ⟨_, s.curatorAt d i q.uid c b, rfl, rfl, rfl, rfl, congrArg Host.Outcome.next (curatorTrapEntry_enters found cause out ready)⟩
  · exact congrArg Host.Outcome.next (if_neg (by simpa using clean))
  · exact congrArg Host.Outcome.next (if_neg (by simpa using clean))
  · exact rv64_load_memory size aligned memory home
  · exact rv64_store_memory size aligned memory backed home free
  · exact rv64_load_device size aligned device
  · exact rv64_store_device size aligned device register

/-- Settles O41: each event tests what it needs, and then does what its rule states. -/
theorem registerAndFaultEvents : Obligations.RegisterAndFaultEvents := ⟨registerEvents, faultEvents⟩

end Sys2Proof.Claims
end

section
/-! Links, the channel, heartbeats, eviction, admission, shoot-downs and failures (R362, R401 to R411, R415, R419, R422). -/

namespace Sys2Proof.Machine

variable {s : State} {m : Msg} {k target : Nat}

/-! ## Links (R419, R422) -/

theorem linkDetour_nothing (none : ∀ l ∈ s.links, s.detours l = []) : linkDetour k s = s := by
  have same : s.links.mapIdx (fun i l => if i = k then
      match s.detours l with
      | [] => l
      | es => { l with detour := es[s.choose (4000 + k) es.length]?, buffer := 0 }
    else l) = s.links := by
    refine List.ext_getElem (by simp) (fun i h h' => ?_)
    rw [List.getElem_mapIdx]
    split
    · rw [none _ (List.getElem_mem h')]
    · rfl
  unfold linkDetour
  exact congrArg (fun ls => { s with links := ls }) same

/-- A link that can be routed over another die takes one of those that R422 allows. -/
theorem linkDetour_routes {l : Link} (only : s.links = [l]) (some_ : s.detours l ≠ []) :
    ∃ e ∈ s.detours l, linkDetour 0 s = { s with links := [{ l with detour := some e, buffer := 0 }] } := by
  cases routes : s.detours l with
  | nil => exact absurd routes some_
  | cons e es =>
    have inside : s.choose 4000 (e :: es).length < (e :: es).length := s.choose_lt _ (Nat.succ_pos _)
    refine ⟨(e :: es)[s.choose 4000 (e :: es).length], List.getElem_mem inside, ?_⟩
    unfold linkDetour
    rw [only]
    simp [routes]

/-- What stays a detour behind every step leads over a die that carries traffic (R422). -/
theorem State.dropDetours_detour {l : Link} {e : Nat} (member : l ∈ s.dropDetours.links) (detour : l.detour = some e) : e ∈ s.detours l := by
  obtain ⟨l0, -, kept⟩ := List.mem_map.mp member
  cases h : l0.detour with
  | none =>
    rw [h] at kept
    subst kept
    rw [h] at detour
    cases detour
  | some e0 =>
    rw [h] at kept
    dsimp only at kept
    split at kept
    · next holds =>
      subst kept
      obtain rfl := Option.some.inj (h.symm.trans detour)
      simpa using holds
    · subst kept
      cases detour

/-! ## Time-outs (R404, R411) -/

theorem reachTimeout_traps {uid ea : Nat} {q : Quire} {w : Wait} {lanes : Word}
    (found : s.quires.find? (fun q => q.uid = uid && q.uid ≠ 0) = some q) (running : q.faulted = false)
    (waits : q.reachWait ea = some (w, lanes)) (far : s.farWait q.fid ea = true) :
    reachTimeout uid ea s = s.trapIn uid w 0x142 (BitVec.ofNat 64 ea) lanes := by
  unfold reachTimeout
  rw [found]
  dsimp only
  rw [running, waits]
  exact if_pos far

/-- A message that a quire waits to have numbered. -/
def Msg.isFrom (uid : Nat) (m : Msg) : Bool :=
  match m.sender with
  | some x => x.1 = uid
  | none => false

theorem sequencerTimeout_eq {uid frame reg : Nat} {pc : DWord} {q : Quire} {w : Wait} (oldest : s.msgs.find? (Msg.isFrom uid) = some m)
    (sender : m.sender = some (uid, pc, frame, reg)) (found : s.quires.find? (fun q => q.uid = uid && !q.faulted) = some q)
    (waits : q.waits.find? (fun w => w.pc = pc && w.frame = frame && w.kind = .msend) = some w) :
    sequencerTimeout uid s = if s.sequencerUp m.dom m.die m.body then s
      else ({ s with msgs := s.msgs.filter (fun m => m.sender ≠ some (uid, pc, frame, reg)) } : State).trapIn uid w 0x142 0 := by
  obtain ⟨seq, dom, type, pkg, die, incarn, payload, body, snd⟩ := m
  obtain rfl : snd = some (uid, pc, frame, reg) := sender
  unfold sequencerTimeout
  generalize first : List.find? _ s.msgs = x
  obtain rfl : x = some _ := first.symm.trans oldest
  dsimp only
  rw [found]
  dsimp only [Option.bind]
  rw [waits]

/-! ## The channel (R402) -/

/-- The state with a sequence number taken, and the number. -/
def State.counted (s : State) (dom : Bool) : State := if dom then { s with domSeq := s.domSeq + 1 } else { s with pkgSeq := s.pkgSeq + 1 }
def State.nextSeq (s : State) (dom : Bool) : DWord := if dom then s.domSeq + 1 else s.pkgSeq + 1

theorem State.number_eq (s : State) (dom : Bool) : s.number dom = (s.nextSeq dom, s.counted dom) := by cases dom <;> rfl

section

variable (at_ : s.msgs[k]? = some m) (head : s.headOfSender k m = true)
include at_ head

theorem sequencerNumber_drops (lost : s.msgStale m = true ∨ s.msgMoot m = true) :
    sequencerNumber k s = { s with msgs := s.msgs.eraseIdx k } := by
  unfold sequencerNumber
  rw [at_]
  dsimp only
  rw [head, if_neg (by decide), if_pos (by simpa using lost)]

theorem sequencerNumber_numbers (fresh : s.msgStale m = false) (object : s.msgMoot m = false) (forward : s.holdsBack m.die = false)
    (up : s.sequencerUp m.dom m.die m.body = true) (room : s.queuesOpen = true) {b : Bool} (scope : m.dom = b) : sequencerNumber k s =
    (State.counted { s with msgs := s.msgs.eraseIdx k } b).numbered { m with seq := s.nextSeq b } := by
  subst scope
  unfold sequencerNumber
  rw [at_]
  dsimp only
  rw [head, fresh, object, forward, up, room, if_neg (by decide), if_neg (by decide), if_neg (by decide), State.number_eq]
  rfl

end

/-! ## Heartbeats (R405) -/

theorem heartbeatMiss_counts {observer src : Nat} (admitted : (s.die observer).admitted = true) (running : (s.die observer).failed = false)
    (member : s.isMember src = true) (other : observer ≠ src) (few : Sparse.get 0 (observer * 256 + src) s.misses < 2) :
    heartbeatMiss observer src s = { s with
      misses := Sparse.set 0 (observer * 256 + src) (Sparse.get 0 (observer * 256 + src) s.misses + 1) s.misses } := by
  have count : min 3 (Sparse.get 0 (observer * 256 + src) s.misses + 1) = Sparse.get 0 (observer * 256 + src) s.misses + 1 := by omega
  have third : Sparse.get 0 (observer * 256 + src) s.misses + 1 < 3 := by omega
  unfold heartbeatMiss
  dsimp only
  rw [count, admitted, running, member, if_neg (by simp [other]), if_pos (by simp [third])]

/-! ## Eviction and admission (R405, R407, R409) -/

theorem evictNext_self : evictNext (64 + s.pkgid) s = if s.cutOff then { s with outcast := true } else s := if_pos rfl

theorem evictNext_nothing (empty : s.msgs = []) (other : target ≠ 64 + s.pkgid) : evictNext target s = s := by
  unfold evictNext
  rw [if_neg other, empty]
  rfl

theorem evictNext_only {inc : Nat} (other : target ≠ 64 + s.pkgid) (only : s.msgs = [m]) (evict : m.body = .evict target inc) :
    evictNext target s = sequencerNumber 0 s := by
  unfold evictNext
  rw [if_neg other, only]
  simp [State.headOfSender, evict]

/-- The first message of the channel is its sender's first. -/
theorem State.headOfSender_zero (s : State) (m : Msg) : s.headOfSender 0 m = true := rfl

theorem State.numbered_evict {inc : Nat} (evict : m.body = .evict target inc) :
    s.numbered m = ((s.sent m).evictTarget target).deliver m := by
  rw [State.numbered, evict]

theorem admitNext_rejoins (evicted : s.outcast = true) (reset : ∀ z ∈ s.dies, z.admitted = false) : admitNext (64 + s.pkgid) s =
    ((List.range 5).filter (fun d => s.admissible d && s.passes d)).foldl State.admitDie { s with outcast := false } := by
  unfold admitNext
  dsimp only
  rw [if_pos rfl, State.rejoin, if_pos]
  simpa [evicted] using reset

theorem evictionDiscovered_resets {d : Nat} (evicted : (s.die d).admitted = false ∨ s.castOut = true) : evictionDiscovered d s =
    (s.instances d).foldl (fun (t : State) i => t.modDie i (fun z => { incarn := z.incarn, rehome := z.rehome })) (s.dropDie d) := by
  refine if_neg ?_
  rcases evicted with h | h <;> simp [h]

section

variable {d e : Nat}

/-- The ADMIT of a die that the sequencer sends. -/
def State.admitMsg (s : State) (d e : Nat) : Msg := s.message e false 0x02 s.freePayload (.admission d)

theorem Part.dies_le (p : Part) : p.dies ≤ 4 := by cases p <;> decide

variable (compute : d < s.part.dies) (out : (s.die d).admitted = false) (sequencer : s.sequencer = some e) (runs : s.live e = true)
  (fresh : ∀ x ∈ s.msgs, x.body ≠ .admission d)
include compute out sequencer runs fresh

/-- The admission of a die that can be admitted: its message is numbered at once, or stands behind the sequencer's earlier ones. -/
theorem admitNext_die : admitNext d s =
    if !s.headOfSender s.msgs.length (s.admitMsg d e) || !s.sequencerUp false e (.admission d) || !s.queuesOpen then
      { s with msgs := s.msgs ++ [s.admitMsg d e] }
    else (s.counted false).numbered { s.admitMsg d e with seq := s.nextSeq false } := by
  have few := s.part.dies_le
  have small : ¬ 64 ≤ d := by omega
  have fits : s.admissible d = true := by simp [State.admissible, compute]
  have object : s.msgMoot (s.admitMsg d e) = false := by
    have member : s.isMember d = false := (if_neg small).trans out
    have self : d ≠ 64 + s.pkgid := by omega
    simp [State.msgMoot, State.admitMsg, State.message, member, self]
  have first : s.msgs.any (fun x => x.body = (s.admitMsg d e).body) = false :=
    List.any_eq_false.mpr (fun x hx same => fresh x hx (of_decide_eq_true same))
  unfold admitNext
  dsimp only
  rw [if_neg (show d ≠ 64 + s.pkgid by omega), sequencer]
  dsimp only
  rw [show decide (64 ≤ d) = false from decide_eq_false small]
  refine (if_neg ?_).trans ?_
  · have dom : (if 64 ≤ d then d < 128 else s.admissible d = true) := by rwa [if_neg small]
    have hobject : s.msgMoot (s.message e false 0x02 s.freePayload (.admission d)) = false := object
    have hfirst : s.msgs.any (fun x => x.body = (s.message e false 0x02 s.freePayload (.admission d)).body) = false := first
    rw [hobject, hfirst, runs, decide_eq_true dom]
    decide
  · rw [State.number_eq]
    rfl

theorem admitNext_numbers (up : s.sequencerUp false e (.admission d) = true) (room : s.queuesOpen = true) (first : ∀ x ∈ s.msgs, x.die ≠ e) :
    admitNext d s = (({ s with pkgSeq := s.pkgSeq + 1 } : State).admitDie d).deliver { s.admitMsg d e with seq := s.pkgSeq + 1 } := by
  have head : s.headOfSender s.msgs.length (s.admitMsg d e) = true := by
    rw [State.headOfSender, List.take_length, List.all_eq_true]
    exact fun x hx => Bool.or_eq_true_iff.mpr (.inl (decide_eq_true (first x hx)))
  have small : ¬ 64 ≤ d := by have few := s.part.dies_le; omega
  rw [admitNext_die compute out sequencer runs fresh, head, up, room]
  refine (if_neg (by decide)).trans (congrArg (fun t => State.deliver t _) (if_neg small))

theorem admitNext_queues {x : Msg} (member : x ∈ s.msgs) (same : x.die = e) (package : x.dom = false) :
    admitNext d s = { s with msgs := s.msgs ++ [s.admitMsg d e] } := by
  have behind : s.headOfSender s.msgs.length (s.admitMsg d e) = false := by
    rw [State.headOfSender, List.take_length, List.all_eq_false]
    refine ⟨x, member, ?_⟩
    simp [State.admitMsg, State.message, same, package]
  rw [admitNext_die compute out sequencer runs fresh, behind]
  rfl

end

/-! ## Shoot-downs, shards and failures (R362, R401, R415) -/

theorem invalAt_takes {d : Nat} {x : Shoot} (found : s.shoots.find? (fun y => y.seq = x.seq) = some x) (owes : x.todo.contains d = true)
    (running : (s.die d).failed = false) (first : s.shoots.any (fun y => y.seq < x.seq && y.todo.contains d) = false)
    (free : s.shootBlocked d x = false) :
    let s0 := s.performStores (fun w => w.die = d && x.hits w)
    let t := (if x.wb then s0.shootLines d x else s0).modDie d (fun z => { z with tlb := z.tlb.filter (fun t => !x.covers t.asid t.va t.size) })
    invalAt d x.seq s = { t with shoots := t.shoots.map (fun y =>
      if y.id = x.id then { y with todo := y.todo.filter (fun k => k ≠ d), acks := y.acks ++ [d] } else y) } := by
  intro s0 t
  unfold invalAt
  rw [found]
  dsimp only
  rw [owes, running, first, free, if_neg (by decide)]

theorem ckshardCompletion_ends {x : ShardOp} (found : s.shards.find? (fun y => y.id = x.id) = some x) (granted : x.permit = true) :
    let r := (s.shardPages x).foldl (fun (a : State × BitVec 2) l => if a.2 ≠ 0 then a else a.1.appendPage x l) (s, 0)
    ckshardCompletion x.id s = ({ r.1 with shards := r.1.shards.filter (fun y => y.id ≠ x.id) } : State).finishTok x.quire x.tok r.2 none := by
  intro r
  unfold ckshardCompletion
  rw [found]
  dsimp only
  rw [granted, if_neg (by decide)]

theorem dieFailure_die {d : Nat} (small : d < 64) : dieFailure d s =
    (s.instances d).foldl (fun (t : State) i => t.modDie i (fun z => { z with failed := true })) s := if_neg (Nat.not_le.mpr small)

theorem dieFailure_package (p : Nat) : dieFailure (64 + p) s =
    if p = s.pkgid then { s with dies := s.dies.map (fun z => { z with failed := true }) }
    else { s with deadPkgs := putBit s.deadPkgs p true } := by
  unfold dieFailure
  rw [if_pos (Nat.le_add_right 64 p), Nat.add_sub_cancel_left]

end Sys2Proof.Machine

namespace Sys2Proof.Claims

open Sys2Proof.Machine

/-- Settles O42: each event tests what its rule asks for, and where this holds it has the effect that the rule states. -/
theorem packageEvents : Obligations.PackageEvents := by
  intro s
  refine ⟨fun k => rfl, fun k => ?_, fun k none => ?_, fun k l only zero some_ => ?_, fun uid ea q w lanes found running waits far => ?_,
    fun uid frame reg pc m q w oldest sender found waits => ?_, fun k m at_ head => ⟨fun lost => ?_, fun fresh object forward up room => ?_⟩,
    fun src => rfl, fun observer src admitted running member other few => ?_, fun target empty other => ?_, ?_, fun evicted reset => ?_,
    fun l member e detour => State.dropDetours_detour member detour,
    fun target inc m other only evict package fresh object forward up room => ?_, fun d evicted => ?_,
    fun d e compute out sequencer runs up room first => ?_, fun d e x compute out sequencer runs fresh member same package => ?_,
    fun d x found owes running first free => ?_, fun d seq => rfl, fun x found granted => ?_, fun d small => ?_, ?_, fun p other => ?_⟩
  · refine ⟨fun n => n + s.choose (3000 + k) 2, fun n => ?_, rfl⟩
    have below := s.choose_lt (3000 + k) (n := 2) (by decide)
    dsimp only
    omega
  · exact congrArg Host.Outcome.next (linkDetour_nothing none)
  · subst zero
    obtain ⟨e, member, routes⟩ := linkDetour_routes only some_
    exact ⟨e, member, congrArg Host.Outcome.next routes⟩
  · exact congrArg Host.Outcome.next (reachTimeout_traps found running waits far)
  · have timeout : exec (.sequencerTimeout uid) s = _ := congrArg Host.Outcome.next (sequencerTimeout_eq oldest sender found waits)
    exact ⟨fun down => timeout.trans (congrArg _ (if_neg (ne_true_of_eq_false down))), fun up => timeout.trans (congrArg _ (if_pos up))⟩
  · exact congrArg Host.Outcome.next (sequencerNumber_drops at_ head lost)
  · have numbers {b : Bool} (scope : m.dom = b) : exec (.sequencerNumber k) s = _ :=
      congrArg Host.Outcome.next (sequencerNumber_numbers at_ head fresh object forward up room scope)
    exact ⟨numbers, numbers⟩
  · exact congrArg Host.Outcome.next (heartbeatMiss_counts admitted running member other few)
  · exact congrArg Host.Outcome.next (evictNext_nothing empty other)
  · exact congrArg Host.Outcome.next evictNext_self
  · exact congrArg Host.Outcome.next (admitNext_rejoins evicted reset)
  · have at_ : s.msgs[0]? = some m := by rw [only]; rfl
    have numbers := sequencerNumber_numbers at_ (s.headOfSender_zero m) fresh (by rw [State.msgMoot, evict]; simp [object]) forward
      (by rw [package]; exact up) room package
    rw [State.numbered_evict (m := { m with seq := s.nextSeq false }) evict, only] at numbers
    exact congrArg Host.Outcome.next ((evictNext_only other only evict).trans numbers)
  · exact congrArg Host.Outcome.next (evictionDiscovered_resets evicted)
  · refine ⟨{ s.admitMsg d e with seq := s.pkgSeq + 1 }, rfl, rfl, rfl, rfl, rfl, rfl, ?_⟩
    exact congrArg Host.Outcome.next
      (admitNext_numbers compute out sequencer runs (fun x hx => (first x hx).2) up room (fun x hx => (first x hx).1))
  · exact ⟨s.admitMsg d e, rfl, rfl, rfl,
      congrArg Host.Outcome.next (admitNext_queues compute out sequencer runs fresh member same package)⟩
  · exact congrArg Host.Outcome.next (invalAt_takes found owes running first free)
  · exact congrArg Host.Outcome.next (ckshardCompletion_ends found granted)
  · exact congrArg Host.Outcome.next (dieFailure_die small)
  · exact congrArg Host.Outcome.next ((dieFailure_package _).trans (if_pos rfl))
  · exact congrArg Host.Outcome.next ((dieFailure_package p).trans (if_neg other))

end Sys2Proof.Claims
end

section
/-! The registrar, the start of a volume, gather points, frames on their way and the split of a folio (R313 to R315, R328, R337, R341, R275). -/

namespace Sys2Proof.Machine

variable {s : State}

/-! ## Binding (R313, R315) -/

/-- The bind records of a unit of collection `c`, one for each place, in a group. -/
def bindRecords (c : Coll) (u : UnitId) (vg : Nat) (places : List (Nat × Nat)) : List Bind :=
  places.zipIdx.map (fun p => { coll := u.coll, shelf := u.shelf, volIdx := u.vol, folioid := p.2, qbase := p.1.2
                                qcnt := recField (c.unitRec u) 76 72 + 1, core := p.1.1, vgid := vg, state := 1
                                carve := recCarve (c.unitRec u) })

theorem bindRecords_places (c : Coll) (u : UnitId) (vg : Nat) (places : List (Nat × Nat)) :
    (bindRecords c u vg places).map (fun b => (b.core, b.qbase)) = places := by
  simp [bindRecords, List.map_map, Function.comp_def]

theorem bindRecords_mem {c : Coll} {u : UnitId} {vg : Nat} {places : List (Nat × Nat)} {b : Bind} (h : b ∈ bindRecords c u vg places) :
    b.coll = u.coll ∧ b.shelf = u.shelf ∧ b.volIdx = u.vol ∧ b.vgid = vg ∧ b.state = 1 ∧ b.carve = recCarve (c.unitRec u) := by
  obtain ⟨p, -, rfl⟩ := List.mem_map.mp h
  exact ⟨rfl, rfl, rfl, rfl, rfl, rfl⟩

/-- A VGID that the registrar takes is of 9 bits and of no group of the shelf on the die. -/
theorem State.newVgid_free {d coll shelf vg : Nat} (h : s.newVgid d coll shelf = some vg) :
    vg < 512 ∧ ∀ b ∈ (s.die d).slots, b.group ≠ (coll, shelf, vg) := by
  have free := List.mem_filter.mp (List.mem_of_getElem? h)
  simpa using free

/-- The unit of the records is bound on die `d`: its records stand in the slot table, and its cluster is no longer assigned. -/
def State.bound (t : State) (d : Nat) (u : UnitId) (vg : Nat) (recs : List Bind) : State :=
  (t.modDie d (fun z => { z with
      slots := z.slots ++ recs
      targets := z.targets.filter (fun t => ¬ (t.1 = u.coll ∧ t.2.1 = u.shelf ∧ t.2.2.1 = u.vol)) })).modColl u.coll
    (fun y => y.modShelf u.shelf (fun x => { x with vols := Sparse.set .waiting u.vol (.bound vg) x.vols }))

section

variable {d : Nat} {cores qbases : List Nat} {c : Coll} {u : UnitId} (first : s.nextUnit d = some (c, u))
  (place : s.placeOk d c u cores qbases = true) (fresh : s.savedUnit u = none)
include first place fresh

/-- A placement that the clusters assigned meanwhile no longer allow binds nothing. -/
theorem registrarAct_assigns (out : (s.assignTargets d u).placeOk d c u cores qbases = false) :
    registrarAct (.bind d u.coll u.shelf u.vol cores qbases) s = s.assignTargets d u := by
  unfold registrarAct
  simp only [first]
  rw [if_neg (by simp [place, fresh])]
  exact if_pos out

theorem registrarAct_binds (fits : (s.assignTargets d u).placeOk d c u cores qbases = true) {vg : Nat}
    (named : s.newVgid d u.coll u.shelf = some vg) : registrarAct (.bind d u.coll u.shelf u.vol cores qbases) s =
      (s.assignTargets d u).bound d u vg (bindRecords c u vg (cores.zip qbases)) := by
  unfold registrarAct
  simp only [first, named]
  rw [if_neg (by simp [place, fresh])]
  exact if_neg (ne_false_of_eq_true fits)

end

/-! ## The start of a volume (R314) -/

section

variable (s) (d : Nat) (c : Coll) (b : Bind) (bs : List Bind)

/-- The record of the shelf that a group's first record names. -/
abbrev Coll.shelfRecord (c : Coll) (b : Bind) : BitVec 2048 := (c.shelves.getD b.shelf { record := 0 }).record

/-- The folios that start on a group of bind records. -/
def State.startFolios : List Folio :=
  bs.map (fun x => {
    fid := s.next + 1 + x.folioid, die := d, core := x.core, qbase := x.qbase, qcnt := x.qcnt, folioid := x.folioid
    vid := s.next, coll := c.uid, shelf := b.shelf, shelfid := BitVec.ofNat 32 (b.shelf % 256 + c.number * 256)
    vol := volCoord (c.shelfRecord b) b.volIdx, asid := c.asid, sup := c.sup, record := c.shelfRecord b, carve := x.carve })

/-- The quires that start on a group of bind records. -/
def State.startQuires : List Quire :=
  bs.flatMap (fun x => newQuires (s.next + 1 + bs.length + x.folioid * 32) (s.next + 1 + x.folioid) x.qbase x.qcnt
    (recEntry (c.shelfRecord b)) (recField (c.shelfRecord b) 91 87) (recField (c.shelfRecord b) 81 77 + 1) s.clock)

/-- The volume of a group is resident, before its start acquire. -/
def State.withVolume : State :=
  { s with
    folios := s.folios ++ s.startFolios d c b bs
    volumes := s.volumes ++ [{ vid := s.next, members := bs.map (fun x => (x.folioid, s.next + 1 + x.folioid)) }]
    rest := s.rest ++ s.startQuires c b bs
    next := s.next + 1 + bs.length + 32 * bs.length }

/-- The volume of a group has started, with its acquire. -/
def State.volumeStarted : State :=
  (((s.startQuires c b bs).map (·.uid)).foldl State.startView ((s.withVolume d c b bs).acquireOn d 5)).modColl c.uid
    (fun y => y.modShelf b.shelf (fun x => { x with vols := Sparse.set .waiting b.volIdx .resident x.vols }))

end

theorem startVolume_starts {d index : Nat} {b : Bind} {rest : List Bind} {c : Coll} (group : s.groupAt d index = b :: rest)
    (coll : s.colls.find? (fun c => c.uid = b.coll) = some c)
    (bound : Sparse.get .waiting b.volIdx (c.shelves.getD b.shelf { record := 0 }).vols = .bound b.vgid)
    (ok : s.groupOk d c (b :: rest) = true) (ready : s.depsReady c b.shelf b.volIdx = true) :
    startVolume d index s = s.volumeStarted d c b (b :: rest) := by
  unfold startVolume
  simp only [group, coll]
  rw [if_neg (not_not_intro bound), if_neg (by simp [ok]), if_neg (by simp [ready])]
  rfl

/-- The start acquire leaves the parties and memory as they are. -/
theorem State.volumeStarted_parties (s : State) (d : Nat) (c : Coll) (b : Bind) (bs : List Bind) :
    (s.volumeStarted d c b bs).parties = (s.withVolume d c b bs).parties :=
  (State.foldl_keeps State.parties State.startView_parties _ _).trans (State.acquireOn_parties _ d 5)

theorem State.volumeStarted_mem (s : State) (d : Nat) (c : Coll) (b : Bind) (bs : List Bind) :
    (s.volumeStarted d c b bs).mem = s.mem :=
  (State.foldl_keeps (f := State.startView) State.mem (fun _ _ => rfl) _ _).trans (State.acquireOn_mem _ d 5)

theorem State.startFolios_mem {d : Nat} {c : Coll} {b : Bind} {bs : List Bind} {x : Folio} (h : x ∈ s.startFolios d c b bs) :
    x.die = d ∧ x.asid = c.asid ∧ x.sup = c.sup ∧ x.record = c.shelfRecord b ∧ x.kind = .normal ∧ x.ended = false := by
  obtain ⟨y, -, rfl⟩ := List.mem_map.mp h
  exact ⟨rfl, rfl, rfl, rfl, rfl, rfl⟩

theorem State.startFolios_places (s : State) (d : Nat) (c : Coll) (b : Bind) (bs : List Bind) :
    (s.startFolios d c b bs).map (fun x => (x.core, x.qbase, x.qcnt, x.carve)) = bs.map (fun x => (x.core, x.qbase, x.qcnt, x.carve)) := by
  simp [State.startFolios, Function.comp_def]

/-- A fibre that holds no gather entry only arrives. -/
theorem Fibre.arrive_of_no_gather {f : Fibre} (h : f.gather = []) : f.arrive = f := by
  unfold Fibre.arrive
  rw [h]
  rfl

/-- The initial fibres of a new quire: one in each of the first lanes, at the entry, outside every call. -/
theorem newQuire_fibres (uid fid quireid slot : Nat) (entry : DWord) (frame8 nfib clock : Nat) :
    (newQuire uid fid quireid slot entry frame8 nfib clock).fibres =
      (List.range nfib).map (fun l => { lane := l, pc := entry, frame := 0 }) :=
  List.map_congr_left (fun _ _ => Fibre.arrive_of_no_gather rfl)

theorem State.startQuires_mem {c : Coll} {b : Bind} {bs : List Bind} {q : Quire} (h : q ∈ s.startQuires c b bs) :
    (∀ f ∈ q.fibres, f.pc = recEntry (c.shelfRecord b) ∧ f.depth = 0)
      ∧ q.fibres.map (·.lane) = List.range (recField (c.shelfRecord b) 81 77 + 1) ∧ q.s = [] ∧ q.k = 0 ∧ q.toks = [] := by
  obtain ⟨x, -, new⟩ := List.mem_flatMap.mp h
  obtain ⟨i, -, rfl⟩ := List.mem_map.mp new
  refine ⟨fun f hf => ?_, ?_, rfl, rfl, rfl⟩
  · rw [newQuire_fibres] at hf
    obtain ⟨l, -, rfl⟩ := List.mem_map.mp hf
    exact ⟨rfl, rfl⟩
  · rw [newQuire_fibres]
    simp [Function.comp_def]

/-! ## Gather points, and frames on their way (R328, R337, R341) -/

theorem releaseGather_releases {pc : DWord} {frame : Nat} (released : s.q.released pc frame = true)
    (others : ∀ x ∈ s.rest, x.uid ≠ s.q.uid) (outside : ∀ v ∈ s.saved, ∀ x ∈ v.quires, x.uid ≠ s.q.uid) :
    releaseGather s.q.uid pc frame s = { s with q := { s.q with fibres := s.q.fibres.map (fun f =>
      if f.parked = true ∧ f.pc = pc ∧ f.frame = frame then
        { f with parked := false, gather := f.gather.filter (fun e => e ≠ (pc, frame)) } else f) } } := by
  have self : s.quire s.q.uid = s.q := by simp [State.quire, State.quires]
  unfold releaseGather
  rw [self, if_pos released]
  exact State.modQuire_own others outside _

theorem archiveFrame_archives {uid id : Nat} {n : RunNeed} {ts : List Target}
    (next : s.archiveFor (s.quire uid).fid = some (n, uid, id)) (fits : s.fits (s.quire n.uid) uid id = true)
    (lines : s.routeLines (s.quire uid).fid (s.archiveAddr (s.quire n.uid)) ((s.quire uid).frame id).recordBytes .write = .ok ts)
    (reached : waitsAt ts = none) : archiveFrame uid id s = s.archive (s.quire n.uid) uid id ts := by
  unfold archiveFrame
  simp only [next]
  rw [if_neg (by simp), if_neg (by simp [fits])]
  simp only [lines]
  exact if_neg (by simp [reached])

theorem refillFrame_refills {uid id k off b : Nat} {p : DWord × Nat} {ts : List Target}
    (archived : ((s.quire uid).frame id).arch = some (k, off))
    (run : s.frameRun (s.quire uid).fid ((s.quire uid).frame id).size8 = some b)
    (needs : (s.needsRefill (s.quire uid)).find? (fun p => p.2 = id) = some p)
    (lines : s.routeLines (s.quire uid).fid ((s.folio (s.quire uid).fid).sliceAt k + off) ((s.quire uid).frame id).recordBytes .read = .ok ts)
    (reached : waitsAt ts = none) : refillFrame uid id s = s.refill uid id b ts := by
  unfold refillFrame
  simp only [archived, run, needs, lines]
  exact if_neg (by simp [reached])

/-! ## The split of a folio (R275) -/

/-- The request of a folio is decided: its split is the new one where it is good, and k1 of the quire that asked says so. -/
def State.carved (s : State) (fid uid : Nat) (v : DWord) (ok : Bool) : State :=
  (s.modFolio fid (fun y => { y with
    carveRq := none, carve := if ok then putField y.carve 17 0 (fieldOf v 17 0) else y.carve })).modQuire uid (fun q => q.setK 1 ok)

theorem carveApply_applies {fid uid : Nat} {v : DWord} (asked : (s.folio fid).carveRq = some (v, uid))
    (resident : s.folios.any (fun y => y.fid = fid) = true) (arrived : s.allArrived fid ⟨false, none⟩ = true)
    (still : s.writesBeyond fid (fieldOf v 11 6 * 16384) = false) : carveApply fid s =
      State.completeBar (if s.carveOk (s.folio fid) v && fieldOf v 11 6 * 16384 < (s.folio fid).scratchBytes then
        (s.carved fid uid v (s.carveOk (s.folio fid) v)).shrink fid (fieldOf v 11 6 * 16384)
        else s.carved fid uid v (s.carveOk (s.folio fid) v)) fid ⟨false, none⟩ := by
  unfold carveApply
  simp only [asked]
  exact if_neg (by simp [resident, arrived, still])

end Sys2Proof.Machine
end

section
/-! Who is on the die: a save's stores, write-backs and images move bytes, and leave the resident quires and folios, the saved
units and the remap entries as they are (R299, R386). -/

namespace Sys2Proof.Machine

/-- The resident quires that do not issue, the resident folios, the saved units and the remap entries. -/
def State.roster (s : State) : List Quire × List Folio × List Saved × List Remap := (s.rest, s.folios, s.saved, s.remaps)

variable {s : State}

theorem State.roster_eq_iff {t : State} :
    t.roster = s.roster ↔ t.rest = s.rest ∧ t.folios = s.folios ∧ t.saved = s.saved ∧ t.remaps = s.remaps := by
  simp [State.roster]

/-! ## Bytes at a home and in scratchpads -/

@[simp] theorem State.putRaw_roster (s : State) (kid pa : Nat) (bs : List Byte) : (s.putRaw kid pa bs).roster = s.roster := by
  simp [State.roster]

@[simp] theorem State.keepShadows_roster (s : State) (pa : Nat) (xs : List Nat) :
    (xs.foldl (fun (t : State) i => t.keepShadow (pa + i)) s).roster = s.roster :=
  State.foldl_keeps State.roster (f := fun (t : State) i => t.keepShadow (pa + i)) (fun _ _ => rfl) xs s

theorem State.combine_roster (s : State) (p : Partial) : (s.combine p).roster = s.roster :=
  (State.putRaw_roster _ _ _ _).trans (State.keepShadows_roster s p.pa _)

@[simp] theorem State.combineAll_roster (s : State) (ps : List Partial) : (s.combineAll ps).roster = s.roster :=
  State.foldl_keeps State.roster State.combine_roster ps _

@[simp] theorem State.evictPartial_roster (s : State) (die core line : Nat) : (s.evictPartial die core line).roster = s.roster := by
  have left : (s.leaveL1 die core line).roster = s.roster := by unfold State.leaveL1; split <;> rfl
  unfold State.evictPartial; dsimp only; split
  · rw [State.combineAll_roster, left]
  · refine (State.foldl_keeps State.roster (fun t p => ?_) _ _).trans left
    refine Eq.trans (b := State.roster (if _ then _ else _)) rfl ?_
    split
    · exact State.combineAll_roster _ _
    · rfl

@[simp] theorem State.recallLine_roster (s : State) (line : Nat) : (s.recallLine line).roster = s.roster := by
  have evicts : ∀ (d : Nat) (cs : List Nat) (t : State),
      (cs.foldl (fun (t : State) c => t.evictPartial d c line) t).roster = t.roster :=
    fun d cs t => State.foldl_keeps State.roster (fun t c => State.evictPartial_roster t d c line) cs t
  unfold State.recallLine; split
  · rfl
  · exact (State.foldl_keeps State.roster (fun t d => (State.combineAll_roster _ _).trans (evicts d _ t)) _ _).trans (evicts _ _ s)

@[simp] theorem State.putHome_roster (s : State) (kid pa : Nat) (bs : List Byte) : (s.putHome kid pa bs).roster = s.roster := by
  simp [State.putHome]

@[simp] theorem State.storeBytes_roster (s : State) (d : Nat) (x : Attr) (pa : Nat) (bs : List Byte) (rels : List Rel) (by_ : Option Nat) :
    (s.storeBytes d x pa bs rels by_).roster = s.roster := by
  unfold State.storeBytes; dsimp only; split
  · have atHome : (((List.range bs.length).foldl (fun (t : State) i => t.keepShadow (pa + i)) (s.recallLine (pa / 64))).putHome x.kid pa
        bs).roster = s.roster := by simp
    generalize State.putHome _ x.kid pa bs = u at atHome
    split <;> exact atHome
  · have copied : (if ((s.die d).copyOf (pa / 64)).isSome then s else s.addCopy d x (pa / 64)).roster = s.roster := by
      split
      · rfl
      · simp [State.roster, State.addCopy]
    generalize (if ((s.die d).copyOf (pa / 64)).isSome = true then s else s.addCopy d x (pa / 64)) = u at copied
    exact copied

@[simp] theorem State.scratchWrite_roster (s : State) (fid off : Nat) (bs : List Byte) (rels : List Rel) (by_ : Option Nat) :
    (s.scratchWrite fid off bs rels by_).roster = s.roster := by
  unfold State.scratchWrite; split
  · exact State.foldl_keeps State.roster (fun t _ => State.putRaw_roster t _ _ _) _ s
  · rfl

/-! ## Stores that are performed, and writes that arrive -/

@[simp] theorem State.wroteStore_roster (s : State) (uid id die : Nat) (t : Target) (n : Nat) :
    (s.wroteStore uid id die t n).roster = s.roster := by
  have keeps : ∀ (z : State) (u : Nat), (z.keepNow u die t n .core).roster = z.roster :=
    fun z u => by unfold State.keepNow State.keepCoherent; split <;> rfl
  have wrote : (s.wroteNow uid die t n .core).roster = s.roster := by
    unfold State.wroteNow; dsimp only; split <;> exact keeps s uid
  exact (State.foldl_keeps State.roster keeps _ _).trans wrote

@[simp] theorem State.land_roster (s : State) (w : Inbound) : (s.land w).roster = s.roster := by
  have marked : ∀ (t : State) (bad : Bool) (loc n : Nat), (t.markPoison bad loc n).roster = t.roster :=
    fun t bad loc n => by unfold State.markPoison; split <;> rfl
  unfold State.land; split
  · dsimp only; split <;> simp [marked]
  · rfl

@[simp] theorem State.settle_roster (s : State) (pick : Inbound → Bool) : (s.settle pick).roster = s.roster :=
  State.foldl_keeps State.roster State.land_roster _ _

@[simp] theorem State.flushSub_roster (s : State) (x : Sub) : (s.flushSub x).roster = s.roster :=
  State.foldl_keeps State.roster (fun t _ => by unfold State.sendBad; split <;> rfl) x.buf _

theorem State.forwardGranule_roster (s : State) (uid id off : Nat) : (s.forwardGranule uid id off).roster = s.roster := by
  unfold State.forwardGranule; split
  · rfl
  · dsimp only; split
    · rfl
    · refine Eq.trans (b := State.roster (if _ then _ else _)) rfl ?_
      split
      · exact State.flushSub_roster s _
      · rfl

@[simp] theorem State.forward_roster (s : State) (uid fid off n : Nat) : (s.forward uid fid off n).roster = s.roster :=
  State.foldl_keeps State.roster
    (fun t _ => State.foldl_keeps State.roster (fun t _ => State.forwardGranule_roster t _ _ _) _ t) _ s

theorem State.perform_roster (x : Store) {t : State} (ht : s.perform x = some t) : t.roster = s.roster := by
  unfold State.perform at ht
  split at ht
  · split at ht <;> cases ht
    · simp
    · rfl
  · cases ht; split
    · simp
    · rfl

theorem performAll_roster (pick : Store → Bool) (xs : List Store) (s : State) : (performAll pick xs s).roster = s.roster := by
  induction xs generalizing s with
  | nil => rfl
  | cons x xs ih =>
    unfold performAll; dsimp only; split
    · split
      · next t ht => exact (ih t).trans (State.perform_roster x ht)
      · exact ih _
    · exact ih _

@[simp] theorem State.performStores_roster (s : State) (pick : Store → Bool) : (s.performStores pick).roster = s.roster := by
  unfold State.performStores; split
  · exact performAll_roster pick _ _
  · rfl

/-! ## The release of a quire, and every store of a unit at its home -/

theorem State.mergeLine_roster (s : State) (d : Nat) (c : Copy) (pa : Nat) : (s.mergeLine d c pa).roster = s.roster := by
  refine State.foldl_keeps State.roster (fun t i => ?_) _ s
  split
  · exact State.putHome_roster _ _ _ _
  · rfl

theorem State.writeBack_roster (s : State) (d line : Nat) (drop : Bool) : (s.writeBack d line drop).roster = s.roster := by
  have kept : ∀ (t : State) (c : Copy), (if drop then t.dropCopies d (fun y => y.line = line)
      else t.modDie d (fun z => { z with copies := z.copies.map (fun y => if y.line = line then c else y) })).roster = t.roster :=
    fun t c => by split <;> rfl
  unfold State.writeBack; split
  · rfl
  · dsimp only; split
    · exact kept _ _
    · split
      · split
        · exact kept _ _
        · exact (kept _ _).trans (State.mergeLine_roster s d _ _)
      · exact kept _ _
      · rfl

@[simp] theorem State.releaseFor_roster (s : State) (uid d scope : Nat) : (s.releaseFor uid d scope).roster = s.roster := by
  have owed : (s.settleOwed uid).roster = s.roster := by
    unfold State.settleOwed; dsimp only; split
    · rfl
    · simp
  have copies : ∀ t : State, (t.releaseOn d scope).roster = t.roster := fun t => by
    unfold State.releaseOn; split
    · rfl
    · exact State.foldl_keeps State.roster (fun t l => State.writeBack_roster t d l false) _ t
  unfold State.releaseFor
  rw [copies]
  by_cases die : 4 ≤ scope <;> by_cases device : 5 ≤ scope <;> simp [die, device, State.settleFrom, owed]

theorem State.storesHome_roster (s : State) (d : Nat) (qs : List Quire) : (s.storesHome d qs).roster = s.roster := by
  have released := State.foldl_keeps State.roster (fun t q => State.releaseFor_roster t q.uid d 6) qs s
  unfold State.storesHome
  rw [State.foldl_keeps State.roster State.recallLine_roster, released]

/-! ## Images -/

@[simp] theorem State.putLong_roster (s : State) (kid pa : Nat) (bs : List Byte) : (s.putLong kid pa bs).roster = s.roster :=
  State.foldl_keeps State.roster (fun t _ => State.putRaw_roster t _ _ _) _ s

@[simp] theorem State.movePoison_roster (s : State) (a b n : Nat) : (s.movePoison a b n).roster = s.roster := by
  unfold State.movePoison; split <;> rfl

theorem State.writeImage_roster (s : State) (v : Volume) (x : Folio) (qs : List Quire) : (s.writeImage v x qs).roster = s.roster := by
  simp [State.writeImage]

theorem State.lateScratch_roster (s : State) (v : Saved) (x : Folio) : (s.lateScratch v x).roster = s.roster := by
  have changed : ∀ (kid pa : Nat) (old new : List Byte), (s.putChanged kid pa old new).roster = s.roster := fun kid pa old new => by
    unfold State.putChanged; split
    · rfl
    · split
      · exact State.putLong_roster s kid pa new
      · refine State.foldl_keeps State.roster (fun t i => ?_) _ s
        dsimp only; split
        · rfl
        · exact State.putRaw_roster _ _ _ _
  unfold State.lateScratch; split
  · simp [changed]
  · rfl

end Sys2Proof.Machine
end

section
/-! Saving a unit (R386, R390). -/

namespace Sys2Proof.Machine

variable {s : State}

/-! ## The unit stops -/

/-- The resident folios, the volumes, the remap entries, and the folios and the volume of every saved unit. -/
def State.places (s : State) : List Folio × List Volume × List Remap × List (List Folio × Volume) :=
  (s.folios, s.volumes, s.remaps, s.saved.map (fun v => (v.folios, v.volume)))

@[simp] theorem State.modQuire_places (s : State) (uid : Nat) (f : Quire → Quire) : (s.modQuire uid f).places = s.places := by
  simp [State.places, State.modQuire, Function.comp_def]

theorem State.leaveLatch_places (s : State) (op : MatOp) : (s.leaveLatch op).places = s.places :=
  State.foldl_keeps State.places (fun t _ => State.modQuire_places t _ _) _ _

/-- A unit that stops leaves every place as it is. -/
theorem State.stopUnit_places (s : State) (mine : Nat → Bool) : (s.stopUnit mine).places = s.places := by
  refine Eq.trans (b := (List.foldl _ s (s.matops.filter (fun o => mine o.fid && o.latch))).places) rfl ?_
  exact State.foldl_keeps State.places (fun t o => (State.foldl_keeps State.places (fun t _ => State.modQuire_places t _ _) _ _).trans
    (State.leaveLatch_places t o)) _ s

/-! ## The images are written, and the unit leaves -/

/-- A folio is a member of a volume. -/
abbrev Volume.has (v : Volume) (f : Nat) : Bool := v.members.any (fun m => m.2 = f)

/-- The subscriptions of a volume's folios are flushed, and its stores are at their homes. -/
def State.unitHome (s : State) (v : Volume) : State :=
  let s1 := (s.subs.filter (fun y => v.has y.src)).foldl State.flushSub s
  s1.storesHome (s.folio ((v.members.head?.map (·.2)).getD 0)).die (s1.quires.filter (fun q => q.uid ≠ 0 && v.has q.fid))

theorem State.unitHome_roster (s : State) (v : Volume) : (s.unitHome v).roster = s.roster :=
  (State.storesHome_roster _ _ _).trans (State.foldl_keeps State.roster State.flushSub_roster _ s)

/-- A unit that is saved: its folios, each with the place of its image, wait at step 7 under the name of their volume. -/
structure Saved.Of (w : Saved) (fs : List Folio) (v : Volume) : Prop where
  folios : w.folios = fs
  volume : w.volume = v
  step7  : w.step7 = true
  images : ∀ x ∈ fs, ∃ base key, (x.fid, base, key) ∈ w.images

/-- The save of a unit takes its folios and quires away and adds it to the saved units. -/
theorem State.saveUnit_saves (s : State) (v : Volume) (coll : Nat) :
    (s.saveUnit v coll).folios = s.folios.filter (fun y => !v.has y.fid) ∧ (∀ q ∈ (s.saveUnit v coll).rest, v.has q.fid = false)
      ∧ (s.saveUnit v coll).remaps = s.remaps
      ∧ ∃ w : Saved, w.Of (s.folios.filter (fun y => v.has y.fid)) v ∧ (s.saveUnit v coll).saved = s.saved ++ [w] := by
  have home := State.unitHome_roster s v
  have imaged : ∀ (of : Folio → List Quire) (fs : List Folio),
      (fs.foldl (fun (t : State) y => t.writeImage v y (of y)) (s.unitHome v)).roster = s.roster :=
    fun of fs => (State.foldl_keeps State.roster (fun t y => State.writeImage_roster t v y (of y)) fs _).trans home
  obtain ⟨-, there, -, -⟩ := State.roster_eq_iff.mp home
  obtain ⟨-, folios, saved, remaps⟩ := State.roster_eq_iff.mp (imaged _ _)
  have members : (s.unitHome v).folios.filter (fun y => v.has y.fid) = s.folios.filter (fun y => v.has y.fid) := congrArg (List.filter _) there
  refine ⟨congrArg (List.filter _) folios, fun q hq => ?_, remaps, _, ⟨members, rfl, rfl, fun x hx => ?_⟩, congrArg (· ++ [_]) saved⟩
  · exact Bool.not_eq_true' _ ▸ (List.mem_filter.mp hq).2
  · exact ⟨_, _, List.mem_map_of_mem (members ▸ hx)⟩

/-! ## Steps 7 and 8 (R390) -/

/-- A core of a unit has no free remap entry. -/
def State.remapsFull (s : State) (v : Saved) : Bool :=
  v.folios.any (fun f => 8 ≤ (s.remaps.filter (fun r => r.die = f.die && r.core = f.core)).length)

theorem State.endSave_waits {v : Saved} (full : s.remapsFull v = true) : s.endSave v = s := if_pos full

/-- The units of a volume are saved: step 7 is over for them. -/
def Saved.leave (w : Saved) (vid : Nat) : Saved := if w.volume.vid = vid then { w with step7 := false } else w

theorem State.endSave_frees {v : Saved} (free : s.remapsFull v = false) :
    (s.endSave v).rest = s.rest ∧ (s.endSave v).folios = s.folios ∧ (s.endSave v).saved = s.saved.map (fun w => w.leave v.volume.vid) := by
  have late := State.foldl_keeps State.roster (fun t y => State.lateScratch_roster t v y) v.folios s
  obtain ⟨rest, folios, saved, -⟩ := State.roster_eq_iff.mp late
  have unbound : ∀ t : State, (v.folios.foldl State.dropBind t).roster = t.roster :=
    fun t => State.foldl_keeps (f := State.dropBind) State.roster (fun _ _ => rfl) v.folios t
  have done : s.endSave v = _ := if_neg (ne_true_of_eq_false free)
  rw [done]
  obtain ⟨rest2, folios2, saved2, -⟩ := State.roster_eq_iff.mp (unbound _)
  exact ⟨rest2.trans rest, folios2.trans folios, saved2.trans (congrArg (List.map _) saved)⟩

/-- A unit whose save ends stays among the saved units with its images, past step 7 where its cores had room for remap entries. -/
theorem State.endSave_keeps {w : Saved} (unit : w ∈ s.saved) : (s.endSave w).rest = s.rest ∧ (s.endSave w).folios = s.folios
    ∧ ∃ v ∈ (s.endSave w).saved, v.folios = w.folios ∧ v.images = w.images ∧ (s.remapsFull w = false → v.step7 = false) := by
  cases full : s.remapsFull w with
  | true =>
    rw [State.endSave_waits full]
    exact ⟨rfl, rfl, w, unit, rfl, rfl, (nomatch ·)⟩
  | false =>
    obtain ⟨rest, folios, saved⟩ := State.endSave_frees full
    exact ⟨rest, folios, { w with step7 := false }, saved ▸ List.mem_map.mpr ⟨w, unit, if_pos rfl⟩, rfl, rfl, fun _ => rfl⟩

/-- The unit of a folio that waits at step 7 goes on, where its cores have remap entries. -/
def State.endStep7 (t : State) (fid : Nat) : State :=
  match t.saved.find? (fun w => w.step7 && w.folios.any (fun y => y.fid = fid)) with
  | some w => t.endSave w
  | none => t

/-- A folio of no saved unit is of no unit saved before a new one. -/
theorem State.endStep7_new {t : State} {fid : Nat} {ws : List Saved} {w : Saved} (units : t.saved = ws ++ [w])
    (others : ∀ v ∈ ws, v.folios.any (fun y => y.fid = fid) = false) (waits : w.step7 = true)
    (mine : w.folios.any (fun y => y.fid = fid) = true) : t.endStep7 fid = t.endSave w := by
  have found : t.saved.find? (fun w => w.step7 && w.folios.any (fun y => y.fid = fid)) = some w := by
    rw [units, List.find?_append, List.find?_eq_none.mpr (fun v hv => by simp [others v hv])]
    simp [waits, mine]
  rw [State.endStep7, found]

section

variable {fid : Nat} (resident : s.isSaved fid = false) (there : s.folios.any (fun y => y.fid = fid) = true)
  (normal : (s.folio fid).kind = .normal) (asked : s.saveAsked (s.folio fid) = true)
  (free : s.saveBlocked (s.folio fid).die (s.quires.filter (fun q => q.uid ≠ 0 && (s.volume (s.folio fid).vid).has q.fid)) = false)
include resident there normal asked free

/-- The volume of a folio whose save is asked and not blocked stops and is saved. -/
theorem preemptSave_eq : preemptSave fid s = ((s.stopUnit (s.volume (s.folio fid).vid).has).saveUnit (s.volume (s.folio fid).vid)
    (s.folio fid).coll).endStep7 fid := by
  have volumes : (s.stopUnit (s.volume (s.folio fid).vid).has).volume (s.folio fid).vid = s.volume (s.folio fid).vid := by
    have places := State.stopUnit_places s (s.volume (s.folio fid).vid).has
    simp only [State.places, Prod.mk.injEq] at places
    obtain ⟨-, volumes, -⟩ := places
    rw [State.volume, volumes, State.volume]
  unfold preemptSave
  dsimp only
  rw [if_neg (ne_true_of_eq_false resident), if_neg (by rw [there, normal, asked, free]; decide), volumes]
  rfl

end

/-- What a save leaves: nothing of the unit is resident, and it is among the saved units, past step 7 where its cores had room for remap
entries. -/
theorem preemptSave_saves {fid : Nat} (resident : s.isSaved fid = false) (there : s.folios.any (fun y => y.fid = fid) = true)
    (normal : (s.folio fid).kind = .normal) (asked : s.saveAsked (s.folio fid) = true)
    (member : (s.volume (s.folio fid).vid).has fid = true)
    (free : s.saveBlocked (s.folio fid).die (s.quires.filter (fun q => q.uid ≠ 0 && (s.volume (s.folio fid).vid).has q.fid)) = false) :
    let mine := (s.volume (s.folio fid).vid).has
    let t := preemptSave fid s
    (∀ x ∈ t.folios, mine x.fid = false) ∧ (∀ q ∈ t.rest, mine q.fid = false)
      ∧ ∃ v ∈ t.saved, (∃ x ∈ v.folios, x.fid = fid) ∧ (∀ x ∈ v.folios, mine x.fid = true ∧ ∃ base key, (x.fid, base, key) ∈ v.images)
        ∧ ((∀ y ∈ s.folios, mine y.fid = true → (s.remaps.filter (fun r => r.die = y.die && r.core = y.core)).length < 8) →
            v.step7 = false) := by
  intro mine t
  have places := State.stopUnit_places s mine
  have run : t = _ := preemptSave_eq resident there normal asked free
  simp only [State.places, Prod.mk.injEq] at places
  obtain ⟨folios, -, remaps, saved⟩ := places
  generalize s.stopUnit mine = z at run folios remaps saved
  obtain ⟨left, gone, entries, w, new, units⟩ :=
    State.saveUnit_saves z (s.volume (s.folio fid).vid) (s.folio fid).coll
  rw [folios] at left new
  have ours : ∃ x ∈ w.folios, x.fid = fid := by
    obtain ⟨x, hx, named⟩ := List.any_eq_true.mp there
    have named := of_decide_eq_true named
    exact ⟨x, new.folios ▸ List.mem_filter.mpr ⟨hx, named ▸ member⟩, named⟩
  have others : ∀ v ∈ z.saved, v.folios.any (fun y => y.fid = fid) = false := fun v hv => by
    obtain ⟨u, hu, same⟩ := List.mem_map.mp (saved ▸ List.mem_map_of_mem hv)
    have same : u.folios = v.folios := congrArg Prod.fst same
    exact same ▸ Bool.eq_false_iff.mpr (List.any_eq_false.mp resident u hu)
  rw [State.endStep7_new units others new.step7 (by simpa using ours)] at run
  obtain ⟨rest2, folios2, v, hv, vfolios, vimages, step7⟩ :=
    State.endSave_keeps (units ▸ List.mem_append_right z.saved (List.mem_singleton_self w))
  refine ⟨fun x hx => ?_, fun q hq => ?_, v, run ▸ hv, vfolios ▸ ours, fun x hx => ?_, fun room => step7 ?_⟩
  · rw [run, folios2, left] at hx
    exact Bool.not_eq_true' _ ▸ (List.mem_filter.mp hx).2
  · rw [run, rest2] at hq
    exact gone q hq
  · rw [vfolios, new.folios] at hx
    exact ⟨(List.mem_filter.mp hx).2, vimages ▸ new.images x hx⟩
  · rw [State.remapsFull, entries, remaps, new.folios, List.any_eq_false]
    intro f hf
    obtain ⟨hf, isMine⟩ := List.mem_filter.mp hf
    simpa using room f hf isMine

end Sys2Proof.Machine
end

section
/-! Folios that stand: what completing barriers, acquires and the archive of restored quires leave of the resident folios and the saved
units (R262, R265, R391). -/

namespace Sys2Proof.Machine

variable {s : State}

/-- The volumes of the saved units. -/
def State.savedVolumes (s : State) : List Volume := s.saved.map (·.volume)

/-- The resident folios, and the volumes of the saved units. -/
def State.homes (s : State) : List Folio × List Volume := (s.folios, s.savedVolumes)

theorem State.homes_of_parties {t : State} (h : t.parties = s.parties) : t.homes = s.homes := by
  obtain ⟨-, -, folios, saved⟩ := State.parties_eq_iff.mp h
  rw [State.homes, State.savedVolumes, folios, saved, State.homes, State.savedVolumes]

theorem State.modQuire_homes (s : State) (uid : Nat) (f : Quire → Quire) : (s.modQuire uid f).homes = s.homes := by
  simp [State.homes, State.savedVolumes, State.modQuire, Function.comp_def]

theorem State.writeLines_parties (s : State) (d : Nat) (ts : List Target) (bs : List Byte) : (s.writeLines d ts bs).parties = s.parties :=
  State.foldl_keeps State.parties (fun t x => by
    dsimp only
    unfold State.writeAt
    split
    · exact State.storeBytes_parties t d _ _ _ _ _
    · rfl
    · rfl) _ s

/-- Archived frames that stand in new slices are bytes there. -/
theorem State.replaceArchive_homes (s : State) (uid : Nat) : (s.replaceArchive uid).homes = s.homes := by
  refine State.foldl_keeps State.homes (fun t fr => ?_) _ s
  split
  · rfl
  · refine (State.modQuire_homes _ _ _).trans ?_
    split
    · rfl
    · exact State.homes_of_parties (State.writeLines_parties t _ _ _)

/-! ## A folio that keeps its place -/

/-- Where a folio is, what it holds of its core, its record, and whether it has ended. -/
def Folio.standing (x : Folio) : Nat × Nat × Nat × BitVec 29 × BitVec 2048 × Bool := (x.die, x.core, x.qbase, x.carve, x.record, x.ended)

/-- A folio of this name is resident, and every one of this name stands as `f` does. -/
structure State.Stands (s : State) (f : Folio) : Prop where
  there : ∃ x ∈ s.folios, x.fid = f.fid
  like  : ∀ x ∈ s.folios, x.fid = f.fid → x.standing = f.standing

namespace State.Stands

variable {t : State} {f : Folio}

theorem of_folios (h : s.Stands f) (same : t.folios = s.folios) : t.Stands f := ⟨same ▸ h.there, same ▸ h.like⟩

theorem of_map (h : s.Stands f) {g : Folio → Folio} (same : t.folios = s.folios.map g) (name : ∀ x, (g x).fid = x.fid)
    (keep : ∀ x, x.fid = f.fid → (g x).standing = x.standing) : t.Stands f := by
  constructor
  · obtain ⟨x, hx, named⟩ := h.there
    exact ⟨g x, same ▸ List.mem_map_of_mem hx, (name x).trans named⟩
  · intro y hy named
    obtain ⟨x, hx, rfl⟩ := List.mem_map.mp (same ▸ hy)
    have named := (name x).symm.trans named
    exact (keep x named).trans (h.like x hx named)

theorem of_filter (h : s.Stands f) {p : Folio → Bool} (same : t.folios = s.folios.filter p) (keep : ∀ x, x.fid = f.fid → p x = true) :
    t.Stands f := by
  constructor
  · obtain ⟨x, hx, named⟩ := h.there
    exact ⟨x, same ▸ List.mem_filter.mpr ⟨hx, keep x named⟩, named⟩
  · intro x hx named
    exact h.like x (List.mem_filter.mp (same ▸ hx)).1 named

/-- The folio of its name is a resident one that stands so. -/
theorem folio (h : s.Stands f) : (s.folio f.fid).standing = f.standing := by
  obtain ⟨x, hx, named⟩ := h.there
  obtain ⟨y, found⟩ : ∃ y, s.folios.find? (fun x => x.fid = f.fid) = some y :=
    Option.isSome_iff_exists.mp (List.find?_isSome.mpr ⟨x, hx, decide_eq_true named⟩)
  have hy : y.fid = f.fid := by simpa using List.find?_some found
  rw [State.folio, List.find?_append, found]
  exact h.like y (List.mem_of_find?_eq_some found) hy

end State.Stands

/-! ## Barriers that complete -/

variable {f : Folio}

theorem State.Stands.setBarrier (h : s.Stands f) (fid : Nat) (b : BarId) (x : Barrier) : (s.setBarrier fid b x).Stands f := by
  unfold State.setBarrier
  split
  · exact h.of_folios rfl
  · refine h.of_map (g := fun y => if y.fid = fid then _ else y) rfl (fun y => ?_) (fun y _ => ?_)
    · split
      · split <;> rfl
      · rfl
    · split
      · split <;> rfl
      · rfl

theorem State.depart_homes (s : State) (fid : Nat) (vol : Bool) : (s.depart fid vol).homes = s.homes :=
  State.foldl_keeps State.homes (fun t u => State.homes_of_parties (State.departs_parties t u vol _)) _ _

theorem State.Stands.completeBar (h : s.Stands f) (fid : Nat) (b : BarId) : (s.completeBar fid b).Stands f := by
  unfold State.completeBar
  dsimp only
  split
  · exact (h.setBarrier fid b _).of_folios (congrArg Prod.fst (State.depart_homes _ fid b.vol))
  · exact h.setBarrier fid b _

/-- A folio that has not ended keeps its place and its share. -/
theorem State.Stands.returnShares (h : s.Stands f) (lives : f.ended = false) (vid : Nat) : (s.returnShares vid).Stands f := by
  have stays : f.fid ∉ ((s.volume vid).members.filter (fun m => (s.folio m.2).ended)).map (·.2) := fun gone => by
    obtain ⟨m, hm, named⟩ := List.mem_map.mp gone
    have ended : (s.folio f.fid).ended = f.ended := congrArg (·.2.2.2.2.2) h.folio
    have out := (List.mem_filter.mp hm).2
    rw [named, ended, lives] at out
    exact Bool.noConfusion out
  unfold State.returnShares
  dsimp only
  generalize ((s.volume vid).members.filter (fun m => (s.folio m.2).ended)).map (·.2) = gone at stays
  have left : ({ s with folios := s.folios.filter (fun x => !(gone.filter s.folioIdle).contains x.fid) } : State).Stands f :=
    h.of_filter rfl (fun x named => by simp [named, stays])
  refine left.of_map rfl (fun x => ?_) (fun x named => ?_)
  · split <;> rfl
  · rw [if_neg (by simp [named, stays])]

theorem State.Stands.tryComplete (h : s.Stands f) (lives : f.ended = false) (fid : Nat) (bs : List BarId) : (s.tryComplete fid bs).Stands f := by
  have completed : ∀ (xs : List BarId) (t : State), t.Stands f → (xs.foldl (fun (t : State) b => t.completeBar fid b) t).Stands f := by
    intro xs
    induction xs with
    | nil => exact fun _ ht => ht
    | cons b xs ih => exact fun t ht => ih _ (ht.completeBar fid b)
  unfold State.tryComplete
  dsimp only
  split
  · exact (completed _ s h).returnShares lives _
  · exact completed _ s h

theorem State.tryComplete_savedVolumes (s : State) (fid : Nat) (bs : List BarId) : (s.tryComplete fid bs).savedVolumes = s.savedVolumes := by
  have set : ∀ (t : State) (b : BarId) (x : Barrier), (t.setBarrier fid b x).savedVolumes = t.savedVolumes := fun t b x => by
    unfold State.setBarrier
    split
    · rfl
    · simp [State.savedVolumes, State.modFolio, Function.comp_def]
  have completed : ∀ (t : State) (b : BarId), (t.completeBar fid b).savedVolumes = t.savedVolumes := fun t b => by
    unfold State.completeBar
    dsimp only
    split
    · exact (congrArg Prod.snd (State.depart_homes _ fid b.vol)).trans (set t b _)
    · exact set t b _
  have returned : ∀ (t : State) (vid : Nat), (t.returnShares vid).savedVolumes = t.savedVolumes := fun t vid =>
    State.foldl_keeps (f := fun (z : State) i => z.dropBind (t.folio i)) State.savedVolumes (fun _ _ => rfl) _ t
  unfold State.tryComplete
  dsimp only
  split
  · rw [returned, State.foldl_keeps State.savedVolumes completed]
  · exact State.foldl_keeps State.savedVolumes completed _ s

end Sys2Proof.Machine
end

section
/-! Restoring a unit (R391). -/

namespace Sys2Proof.Machine

variable {s : State}

/-! ## Places -/

/-- The places of a unit's folios, with that of one more: the named folio goes where it is asked, another where there is room. -/
def State.placeNext (s : State) (fid d core qbase : Nat) (acc : Option (List (Nat × Nat × Nat))) (y : Folio) : Option (List (Nat × Nat × Nat)) :=
  match acc with
  | none => none
  | some ps =>
    if y.fid = fid then (if s.coreFits d core qbase y.qcnt y.carve then some (ps ++ [(fid, core, qbase)]) else none)
    else
      match (List.range 24).findSome? (fun i =>
        let c := core / 24 * 24 + i
        if c = core || ps.any (fun p => p.2.1 = c) then none else (s.fitBase d c y.qcnt y.carve).map (fun b => (c, b))) with
      | some (c, b) => some (ps ++ [(y.fid, c, b)])
      | none => none

theorem State.restorePlaces_eq (s : State) (v : Saved) (fid d core qbase : Nat) :
    s.restorePlaces v fid d core qbase = v.folios.foldl (s.placeNext fid d core qbase) (some []) := rfl

section

variable {fid d core qbase : Nat}

/-- One more folio adds one place under its name, and the named folio's is the one asked for. -/
theorem State.placeNext_some {acc : Option (List (Nat × Nat × Nat))} {y : Folio} {qs : List (Nat × Nat × Nat)}
    (h : s.placeNext fid d core qbase acc y = some qs) :
    ∃ ps p, acc = some ps ∧ qs = ps ++ [(y.fid, p)] ∧ (y.fid = fid → p = (core, qbase)) := by
  unfold State.placeNext at h
  split at h
  · cases h
  · next ps =>
    split at h
    · next named =>
      split at h
      · cases h
        exact ⟨ps, _, rfl, named ▸ rfl, fun _ => rfl⟩
      · cases h
    · next other =>
      split at h
      · cases h
        exact ⟨ps, _, rfl, rfl, fun named => absurd named other⟩
      · cases h

/-- Every folio has a place under its name, and the named folio's is the one asked for. -/
theorem State.placeNext_foldl {fs : List Folio} {acc : Option (List (Nat × Nat × Nat))} {qs : List (Nat × Nat × Nat)}
    (h : fs.foldl (s.placeNext fid d core qbase) acc = some qs) : ∃ ps, acc = some ps ∧ qs.map (·.1) = ps.map (·.1) ++ fs.map (·.fid)
      ∧ ((∀ p ∈ ps, p.1 = fid → p.2 = (core, qbase)) → ∀ p ∈ qs, p.1 = fid → p.2 = (core, qbase)) := by
  induction fs generalizing acc with
  | nil => exact ⟨qs, h, by simp, id⟩
  | cons y fs ih =>
    obtain ⟨ps', next, names, asked⟩ := ih h
    obtain ⟨ps, p, rfl, rfl, own⟩ := State.placeNext_some next
    refine ⟨ps, rfl, by simp [names], fun before => asked (fun q hq named => ?_)⟩
    rcases List.mem_append.mp hq with old | new
    · exact before q old named
    · cases List.mem_singleton.mp new
      exact own named

/-- The place of the named folio. -/
theorem State.restorePlaces_named {v : Saved} {ps : List (Nat × Nat × Nat)} (h : s.restorePlaces v fid d core qbase = some ps)
    (member : fid ∈ v.folios.map (·.fid)) : ps.find? (fun p => p.1 = fid) = some (fid, core, qbase) := by
  obtain ⟨ps0, start, names, asked⟩ := State.placeNext_foldl h
  cases start
  obtain ⟨p, hp, named⟩ := List.mem_map.mp (show fid ∈ ps.map (·.1) from names ▸ member)
  obtain ⟨q, found⟩ : ∃ q, ps.find? (fun p => p.1 = fid) = some q :=
    Option.isSome_iff_exists.mp (List.find?_isSome.mpr ⟨p, hp, decide_eq_true named⟩)
  have hq : q.1 = fid := by simpa using List.find?_some found
  rw [found, ← asked (List.forall_mem_nil _) q (List.mem_of_find?_eq_some found) hq, ← hq]

end

/-! ## New names -/

section

variable (s) (v : Saved) (d : Nat) (ps : List (Nat × Nat × Nat))

/-- The new name of a folio of a unit. -/
def State.newName (x : Nat) : Nat := match v.folios.findIdx? (fun y => y.fid = x) with | some i => s.next + i | none => x

/-- The core and the quire slots at which a folio is restored. -/
def placeOf (x : Nat) : Nat × Nat := ((ps.find? (fun p => p.1 = x)).map (·.2)).getD (0, 0)

/-- A folio of a unit as it is restored. -/
def State.newFolio (y : Folio) : Folio :=
  { y with fid := s.newName v y.fid, die := d, core := (placeOf ps y.fid).1, qbase := (placeOf ps y.fid).2 }

/-- A restored unit's folios are resident again, and it is no longer among the saved ones. -/
theorem State.restoreAt_homes : (s.restoreAt v d ps).homes =
    (s.folios ++ v.folios.map (s.newFolio v d ps), (s.saved.filter (fun w => w.volume.vid ≠ v.volume.vid)).map (·.volume)) := by
  have read : ∀ (t : State) (x : Folio) (pa kid : Nat), (t.readScratch x pa kid).homes = t.homes := fun t x pa kid => by
    unfold State.readScratch State.movePoison
    split <;> rfl
  exact State.foldl_keeps State.homes (fun t y => read t _ _ _) _ _

end

/-- The folios of a unit are named in order. -/
theorem State.newName_eq {v : Saved} (distinct : (v.folios.map (·.fid)).Nodup) {i : Nat} {y : Folio} (h : v.folios[i]? = some y) :
    s.newName v y.fid = s.next + i := by
  obtain ⟨hi, rfl⟩ := List.getElem?_eq_some_iff.mp h
  have found : v.folios.findIdx? (fun z => z.fid = v.folios[i].fid) = some i := by
    refine List.findIdx?_eq_some_iff_getElem.mpr ⟨hi, by simp, fun j hj same => ?_⟩
    have := (List.Nodup.getElem_inj_iff distinct (i := j) (j := i) (hi := by simp; omega) (hj := by simpa using hi)).mp (by simpa using same)
    omega
  rw [State.newName, found]

/-- A restored folio stands under its new name where its place says. -/
theorem State.restoreAt_stands {v : Saved} (d : Nat) (ps : List (Nat × Nat × Nat)) (distinct : (v.folios.map (·.fid)).Nodup)
    (fresh : ∀ x ∈ s.folios, x.fid < s.next) {i : Nat} {y : Folio} (h : v.folios[i]? = some y) :
    (s.restoreAt v d ps).Stands (s.newFolio v d ps y) := by
  have folios : (s.restoreAt v d ps).folios = s.folios ++ v.folios.map (s.newFolio v d ps) := congrArg Prod.fst (State.restoreAt_homes s v d ps)
  have name : (s.newFolio v d ps y).fid = s.next + i := State.newName_eq distinct h
  constructor
  · exact ⟨_, folios ▸ List.mem_append_right _ (List.mem_map_of_mem (List.mem_of_getElem? h)), rfl⟩
  · intro x hx same
    rcases List.mem_append.mp (folios ▸ hx) with old | new
    · have := fresh x old
      omega
    · obtain ⟨z, hz, rfl⟩ := List.mem_map.mp new
      obtain ⟨j, hj⟩ := List.getElem?_of_mem hz
      have other : (s.newFolio v d ps z).fid = s.next + j := State.newName_eq distinct hj
      obtain rfl : j = i := by omega
      cases hj.symm.trans h
      rfl

/-! ## The unit goes on -/

/-- A restored unit goes on behind an acquire: its archived frames stand in their slices, and barriers whose parties have arrived
complete. -/
def State.reenter (t : State) (d : Nat) (us : List Nat) (fs : List Folio) : State :=
  fs.foldl (fun (t : State) y => t.tryComplete y.fid allBars)
    (us.foldl (fun (t : State) u => (t.replaceArchive u).startView u) (t.acquireOn d 6))

theorem State.reenter_acquired (t : State) (d : Nat) (us : List Nat) :
    (us.foldl (fun (t : State) u => (t.replaceArchive u).startView u) (t.acquireOn d 6)).homes = t.homes :=
  (State.foldl_keeps State.homes
    (fun t u => (State.homes_of_parties (State.startView_parties _ u)).trans (State.replaceArchive_homes t u)) us _).trans
    (State.homes_of_parties (State.acquireOn_parties t d 6))

theorem State.reenter_savedVolumes (t : State) (d : Nat) (us : List Nat) (fs : List Folio) :
    (t.reenter d us fs).savedVolumes = t.savedVolumes := by
  unfold State.reenter
  rw [State.foldl_keeps State.savedVolumes (fun (t : State) (y : Folio) => State.tryComplete_savedVolumes t y.fid allBars)]
  exact congrArg Prod.snd (State.reenter_acquired t d us)

theorem State.Stands.reenter {f : Folio} (h : s.Stands f) (lives : f.ended = false) (d : Nat) (us : List Nat) (fs : List Folio) :
    (s.reenter d us fs).Stands f := by
  have completed : ∀ (t : State), t.Stands f → (fs.foldl (fun (t : State) y => t.tryComplete y.fid allBars) t).Stands f := by
    induction fs with
    | nil => exact fun _ ht => ht
    | cons y fs ih => exact fun t ht => ih _ (ht.tryComplete lives y.fid allBars)
  exact completed _ (h.of_folios (congrArg Prod.fst (State.reenter_acquired s d us)))

/-- A unit that may be restored at places that are free enters there, and what has ended meanwhile is reaped. -/
theorem restoreUnit_reenters {fid d core qbase vg : Nat} {v : Saved} {ps : List (Nat × Nat × Nat)}
    (unit : s.saved.find? (fun v => v.folios.any (fun y => y.fid = fid)) = some v) (compute : core < 512)
    (may : s.mayRestore v d core = true) (places : s.restorePlaces v fid d core qbase = some ps)
    (group : s.newVgid d (v.folios.headD noFolio).coll (v.folios.headD noFolio).shelf = some vg) :
    ∃ (t : State) (us : List Nat) (fs : List Folio), restoreUnit fid (512 * d + core) qbase s = (t.reenter d us fs).reap
      ∧ t.homes = (s.restoreAt v d ps).homes := by
  have die : (512 * d + core) / 512 = d := by omega
  have inDie : (512 * d + core) % 512 = core := by omega
  unfold restoreUnit
  simp only [unit, die, inDie, may, places, group, if_true]
  exact ⟨_, _, _, rfl, rfl⟩

/-- What a restore leaves: the unit is no longer saved, and its folios that live are resident under new names at their places. -/
theorem restoreUnit_restores {fid d core qbase vg : Nat} {v : Saved} {ps : List (Nat × Nat × Nat)}
    (unit : s.saved.find? (fun v => v.folios.any (fun y => y.fid = fid)) = some v) (compute : core < 512)
    (may : s.mayRestore v d core = true) (places : s.restorePlaces v fid d core qbase = some ps)
    (group : s.newVgid d (v.folios.headD noFolio).coll (v.folios.headD noFolio).shelf = some vg)
    (distinct : (v.folios.map (·.fid)).Nodup) (fresh : ∀ x ∈ s.folios, x.fid < s.next) :
    ∃ u : State, restoreUnit fid (512 * d + core) qbase s = u.reap ∧ (∀ w ∈ u.saved, w.volume.vid ≠ v.volume.vid)
      ∧ ∀ (i : Nat) (y : Folio), v.folios[i]? = some y → y.ended = false →
        ∃ f ∈ u.folios, f.fid = s.next + i ∧ f.die = d ∧ f.carve = y.carve ∧ f.record = y.record
          ∧ (y.fid = fid → f.core = core ∧ f.qbase = qbase) := by
  obtain ⟨t, us, fs, run, homes⟩ := restoreUnit_reenters unit compute may places group
  refine ⟨t.reenter d us fs, run, fun w hw => ?_, fun i y hy lives => ?_⟩
  · have units : (t.reenter d us fs).savedVolumes = (s.saved.filter (fun w => w.volume.vid ≠ v.volume.vid)).map (·.volume) :=
      (State.reenter_savedVolumes t d us fs).trans ((congrArg Prod.snd homes).trans (congrArg Prod.snd (State.restoreAt_homes s v d ps)))
    have member : w.volume ∈ (t.reenter d us fs).savedVolumes := List.mem_map_of_mem hw
    obtain ⟨z, hz, same⟩ := List.mem_map.mp (units ▸ member)
    exact congrArg Volume.vid same ▸ of_decide_eq_true (List.mem_filter.mp hz).2
  · have stands := ((State.restoreAt_stands d ps distinct fresh hy).of_folios (congrArg Prod.fst homes)).reenter lives d us fs
    obtain ⟨f, hf, named⟩ := stands.there
    have same := stands.like f hf named
    simp only [Folio.standing, Prod.mk.injEq] at same
    obtain ⟨hdie, hcore, hqbase, hcarve, hrecord, -⟩ := same
    refine ⟨f, hf, named.trans (State.newName_eq distinct hy), hdie, hcarve, hrecord, fun own => ?_⟩
    have place : placeOf ps y.fid = (core, qbase) := by
      rw [placeOf, own, State.restorePlaces_named places (own ▸ List.mem_map_of_mem (List.mem_of_getElem? hy))]
      rfl
    exact ⟨hcore.trans (congrArg Prod.fst place), hqbase.trans (congrArg Prod.snd place)⟩

theorem restoreUnit_of_none (none_ : s.saved = []) (fid dcore qbase : Nat) : restoreUnit fid dcore qbase s = s := by
  unfold restoreUnit
  simp only [none_]
  rfl

end Sys2Proof.Machine

namespace Sys2Proof.Claims

open Sys2Proof.Machine

/-- Settles O39: each event tests what it needs, and then does what its rule states; a save and a restore keep what they do not move. -/
theorem schedulingEvents : Obligations.SchedulingEvents := by
  intro s
  refine ⟨fun d vol cores qbases c u first named place fresh => ?_, fun d index b rest c group coll bound ok ready => ?_,
    fun fid resident there normal asked => ?_,
    fun fid dcore qbase none_ => congrArg Host.Outcome.next (restoreUnit_of_none none_ fid dcore qbase),
    fun fid d core qbase vg v ps unit compute may places group distinct fresh => ?_,
    fun pc frame released own => congrArg Host.Outcome.next (releaseGather_releases released own.1 own.2),
    fun uid id n ts next fits lines reached => congrArg Host.Outcome.next (archiveFrame_archives next fits lines reached),
    fun uid id k off b p ts archived run needs lines reached => congrArg Host.Outcome.next (refillFrame_refills archived run needs lines reached),
    fun fid uid v asked resident arrived still => congrArg Host.Outcome.next (carveApply_applies asked resident arrived still)⟩
  · subst named
    refine ⟨fun out => congrArg Host.Outcome.next (registrarAct_assigns first place fresh out), fun vg fits named => ?_⟩
    obtain ⟨small, free⟩ := State.newVgid_free named
    exact ⟨small, free, _, bindRecords_places c u vg _, fun b hb => bindRecords_mem hb,
      congrArg Host.Outcome.next (registrarAct_binds first place fresh fits named)⟩
  · obtain ⟨-, quires, folios, -⟩ := State.parties_eq_iff.mp (State.volumeStarted_parties s d c b (b :: rest))
    exact ⟨_, _, _, congrArg Host.Outcome.next (startVolume_starts group coll bound ok ready), folios, quires,
      State.startFolios_places s d c b _, fun x hx => State.startFolios_mem hx, fun q hq => State.startQuires_mem hq,
      State.volumeStarted_mem s d c b _⟩
  · intro mine member free
    exact ⟨_, rfl, preemptSave_saves resident there normal asked member free⟩
  · obtain ⟨u, run, left, back⟩ := restoreUnit_restores unit compute may places group distinct fresh
    exact ⟨_, u, congrArg Host.Outcome.next run, rfl, left, back⟩

end Sys2Proof.Claims
end
